-- ==== Sys2Proof/Word.lean ====
section
/-! DEFINITION. The word types of the PGV-7200 (00_scope.md, Terms): byte, half, word and doubleword. -/

namespace Sys2Proof

/-- 8 bits. -/
abbrev Byte := BitVec 8
/-- 16 bits. -/
abbrev Half := BitVec 16
/-- 32 bits: a register, a Stem register, a mailbox word. -/
abbrev Word := BitVec 32
/-- 64 bits: a doubleword, a vector element of the widest type. -/
abbrev DWord := BitVec 64

end Sys2Proof
end

