-- ==== Sys2Proof/Syntax.lean ====
section
/-! DEFINITION. The commands of the engine: one constructor per row of spec/opcode_table.json, with the row's
operands. The table gives no row any bits, so a command is plain data: the unit it names, the values a
write carries, and the answers of the world outside (a frame's bytes, a measured temperature, a packet). -/

namespace Sys2Proof

/-- A Stem thread T0-T7 (R178). -/
abbrev Tid := Fin 8

/-- The master that makes a control-space access (R50, R70, R255): a Stem thread (its level is its PSW.PL),
the debug port (its level is DBG_STAT.LEVEL), or an inbound Lichen request with or without Machine origin. -/
inductive Origin where
  | thread (t : Tid)
  | debug
  | lichen (machine : Bool)
  deriving DecidableEq, Repr

/-- How a register access reaches its register: through control space, or through the host's BAR0 window
(R329), which passes no bus matrix. -/
inductive Path where
  | control (o : Origin)
  | bar0
  deriving DecidableEq, Repr

/-- The operand fields of a Stem instruction word (R210), and its second word when the mode is 6 (R212). -/
structure Operand where
  seg : BitVec 3
  mode : BitVec 3
  size : BitVec 2
  disp : BitVec 16
  long : Word := 0
  deriving DecidableEq, Repr

/-- One registered DIMM as its module data describe it (R60, DDRn_MODULE): ranks per DIMM, device width (4 or 8),
device density in Gbit, capacity in GiB, whether it is a registered ECC module, and whether its speed bin reaches
the rate of R61. -/
structure Dimm where
  chan : Fin 12
  slot : Fin 2
  ranks : Nat
  width : Nat
  density : Nat
  capGiB : Nat
  registered : Bool
  fastEnough : Bool
  deriving DecidableEq, Repr

/-- What a power-up meets on the board and in the part (R433, R434, R458, R385, R361): the balls, the outcome of
each step, the flash device's size (0: absent), the DIMMs found and whether every channel trains, and whether the
settings conversion of R379 succeeds. -/
structure PowerEnv where
  bootSel : BitVec 2
  testEn : Bool
  vinMv : Nat
  lateUnit : Option (BitVec 8)
  bistFail : Option (BitVec 8 × BitVec 8)
  bistUs : Nat
  flashMiB : Nat
  dimms : List Dimm
  trained : Bool
  convertOk : Bool
  deriving DecidableEq, Repr

/-- A wake source of R443. -/
inductive WakeSource where
  | wakeBall
  | usb4
  | fabric (port : Fin 4)
  | timer
  deriving DecidableEq, Repr

/-- The outcome of one self-test slice or check (R395): a pass, or a failure code of R384; for an analogue item,
`fatalLimit` says that its fatal limit was passed. -/
inductive SliceResult where
  | pass
  | fail (code : BitVec 8)
  deriving DecidableEq, Repr

/-- The link header of a Lichen packet (R293). -/
structure LinkHeader where
  seq : BitVec 12
  ack : BitVec 12
  nak : Bool
  crcnt : BitVec 16
  crvc : BitVec 2
  deriving DecidableEq, Repr

/-- The transport header and payload of a Lichen data packet (R294): `sub` is word 0 [21:20], `hi` word 0 [22],
`addr` is word 3 [8:0] above word 2. -/
structure Packet where
  op : BitVec 4
  vc : BitVec 2
  dst : BitVec 6
  src : BitVec 6
  late : Bool
  morg : Bool
  sub : BitVec 2
  hi : Bool
  len : BitVec 12
  tag : BitVec 12
  addr : BitVec 41
  payload : List Byte
  deriving DecidableEq, Repr

/-- The fields of a DOMAIN ADVERT packet (R295). -/
structure Advert where
  uid : BitVec 64
  prio : BitVec 8
  weight : BitVec 8
  ownId : BitVec 8
  bestPrio : BitVec 8
  bestUid : BitVec 64
  hops : BitVec 8
  mode : BitVec 8
  held : Bool
  deriving DecidableEq, Repr

/-- The fields of a DOMAIN MEMBER packet (R295). -/
structure MemberReport where
  uid : BitVec 64
  weight : BitVec 8
  pin : Bool
  pinId : BitVec 8
  prevId : BitVec 8
  prevQuorate : Bool
  links : List (Fin 4 × BitVec 64)
  deriving DecidableEq, Repr

/-- The fields of a DOMAIN QUORUM packet (R295, R314-R317): the keystone's decision for an epoch. -/
structure QuorumDecision where
  epoch : BitVec 64
  sum : BitVec 16
  total : BitVec 16
  quorate : Bool
  reentry : BitVec 64
  leads : List (BitVec 8)
  deriving DecidableEq, Repr

/-- The 16-byte header of a USB 2.0 request on EP1 (R326). -/
structure UsbHeader where
  mbx : Fin 16
  tag : BitVec 16
  len : BitVec 32
  word2 : Word
  word3 : Word
  deriving DecidableEq, Repr

/-- The commands of the engine, one constructor per row of spec/opcode_table.json. -/
inductive Instr where
  /-- POWER_UP (R434). Once VIN is valid and POR_N is high, the engine ramps its rails, locks the PLLs, loads OTP, runs power-up BIST and Fiddlehead, and enters Config or Safe. -/
  | powerUp (env : PowerEnv)
  /-- VIN_LOSS (R428). VIN below 1.62 V for 1 µs resets the engine. -/
  | vinLoss
  /-- VIN_LOW (R428). VIN crosses 1.70 V or 1.72 V, which sets or clears PWR_STAT.VINLOW and moves ALERT_N. -/
  | vinLow (mv : Nat)
  /-- RAIL_FAULT (R428). A rail outside ±10% for 1 µs resets the engine. -/
  | railFault (rail : Fin 5)
  /-- POR_N_RESET (R432). POR_N held low for 1 µs or more resets the engine to Off. -/
  | porNReset
  /-- REFCLK_LOSS (R464). REFCLK stopped or out of range for 1 µs resets the engine, which records the reset as a rail fault. -/
  | refclkLoss
  /-- PWR_RST (R432). A write of 0x0000_5A3C from Machine origin resets the engine. -/
  | pwrRst (o : Origin) (v : Word)
  /-- MODE_REQUEST (R437). A write of PWR_MODEREQ checks and schedules a mode transition or refuses it with a REASON. -/
  | modeRequest (o : Origin) (v : Word)
  /-- SAFE_ENTRY (R440). The engine enters Safe: SAFE_N is asserted, the Fronds and task threads stop, and ticks no longer grant or admit. -/
  | safeEntry
  /-- DORMANT_ENTRY (R442). After a passing request the engine publishes, drains, takes the links down, puts the DIMMs into self-refresh, sets the bank states and stops the PLLs. -/
  | dormantEntry
  /-- WAKE (R443). An enabled wake source restores rails, PLLs, banks and DDR5, resumes T0 and T1, and enters Config. -/
  | wake (src : WakeSource) (trained : Bool)
  /-- WAKE_TIMER_EXPIRE (R443). PWR_WAKETMR expires in Dormant and acts as a wake source. -/
  | wakeTimerExpire
  /-- CLKDIV_CHANGE (R431). A PWR_CLKDIV write in Config changes the CORE_CLK divider within 20 µs while every unit stalls. -/
  | clkdivChange (o : Origin) (v : Word)
  /-- THERMAL_RISE (R445). The hottest sensor reaches THR1 or THR2, the throttle level rises and the Frond duty and rates change. -/
  | thermalRise (tj : Int) (sensor : Fin 24)
  /-- THERMAL_TRIP (R447). The hottest sensor reaches TRIP and the engine enters Safe with cause 8 within 64 clk. -/
  | thermalTrip (tj : Int) (sensor : Fin 24)
  /-- TICK (R41). At each tick instant the ledger refunds, expires, audits, grants, charges strips in flight, readmits carried jobs, arms the plan, admits held jobs and resumes VISSUE. -/
  | tick
  /-- GENERATOR_TICK (R15). The internal generator's period count expires and gives a tick instant when it is selected or supplies holdover. -/
  | generatorTick
  /-- TICK_IN_EDGE (R16). An edge on TICK_IN is accepted as a tick inside its window, or sets EARLY outside it. -/
  | tickInEdge (falling : Bool)
  /-- TICK_WINDOW_EXPIRE (R16). The TICK_IN window ends without an edge and the source is lost, so holdover starts or no tick occurs. -/
  | tickWindowExpire
  /-- SOURCE_RETURN (R18). A returning tick source is slewed to the generated tick and takes over, and HOLDOVER clears. -/
  | sourceReturn
  /-- COMMIT_HOLD (R273). 256 clk before the earliest next tick instant the Sorter stops beginning slot commits. -/
  | commitHold
  /-- CUTOFF (R22). At T_CUT the ledger emits its cutoff spore, and later issues are deferred or denied. -/
  | cutoff
  /-- DEADLINE (R39). At T_DL the ledger emits its deadline spore, and running, stalled and unstarted jobs raise VF_OVERRUN and become carried. -/
  | deadline
  /-- OUTPUT_TIME (R11). T_OUT ends the output phase, starts the idle window and judges a twin digest that has not arrived as absent. -/
  | outputTime
  /-- TEMPLATE_RELEASE (R285). A SCHED template is released at T_OUT + RELOFS when its port is idle and its gate is open, or is skipped when late. -/
  | templateRelease (template : Fin 512)
  /-- VISSUE (R108). The instruction captures a VJD, checks it in order and asks the ledger for admission, then returns the outcome in ACC. -/
  | vissue (t : Tid) (f : Operand)
  /-- JOB_START (R95). A queued job starts on its Frond or on all members of its gang together. -/
  | jobStart (frond : Fin 8)
  /-- STRIP_START (R104). At each strip start every stream is checked over the strip's range before elements run. -/
  | stripStart (frond : Fin 8)
  /-- JOB_COMPLETE (R82). A job commits its last element, becomes DONE, is refunded and emits its completion spore. -/
  | jobComplete (frond : Fin 8)
  /-- PREEMPT (R38). At its next strip boundary a running job yields to an admitted job of a lower class number. -/
  | preempt (frond : Fin 8)
  /-- JOB_CARRY (R118). An overrunning job stops at its strip or element boundary and is written CARRIED with VF_OVERRUN. -/
  | jobCarry (frond : Fin 8)
  /-- TOPUP_RESUME (R32). A job stalled by a failed top-up resumes when a refund lets the top-up pass. -/
  | topupResume (frond : Fin 8)
  /-- PLAN_ENTRY_START (R111). An ARMED plan entry starts when a spore is pending at its start input, consuming one count, or is refused if later than its LSO. -/
  | planEntryStart (entry : Fin 1024)
  /-- FLUSHQ (R117). A write of FRDn_CTL.FLUSHQ cancels every job in that Frond's queue. -/
  | flushq (o : Origin) (frond : Fin 8) (v : Word)
  /-- BANK_POWER_CHANGE (R58). A bank moves between On, Retain and Off once its pending accesses complete. -/
  | bankPowerChange (bank : Fin 18)
  /-- BANK_CLEAR (R59). A bank returning from Off is written with zeros and valid ECC before any access proceeds. -/
  | bankClear (bank : Fin 18)
  /-- BANK_SCRUB (R57). In the idle window or in Config a bank writes back its queued repairs and scrubs its next lines. -/
  | bankScrub (bank : Fin 18)
  /-- ERROR_INJECT_SBE (R80). BANKn_ERRINJ.SBE makes the next full doubleword write store one flipped bit. -/
  | errorInjectSbe (o : Origin) (bank : Fin 18)
  /-- ERROR_INJECT_DBE (R80). BANKn_ERRINJ.DBE makes the next full doubleword write store two flipped bits. -/
  | errorInjectDbe (o : Origin) (bank : Fin 18)
  /-- DDR_TRAINING (R69). The controller trains every channel after power-up or wake and then maps DDR5 or sets TRAINFAIL. -/
  | ddrTraining (dimms : List Dimm) (trained : Bool)
  /-- DDR_REFRESH (R66). An all-bank refresh is issued at each expiry of tREFI. -/
  | ddrRefresh (chan : Fin 12)
  /-- DIMM_TEMP_CHANGE (R66). A DIMM sensor crosses 85 °C or 80 °C, tREFI changes and REF is recomputed. -/
  | dimmTempChange (chan : Fin 12) (temp : BitVec 8)
  /-- DDR_RETRAIN (R69). At the start of an idle window one channel retrains automatically or on request, within 250 µs. -/
  | ddrRetrain (chan : Fin 12)
  /-- DDR_RETRAIN_REQUEST (R69). A write of DDRn_CTL.RETRAIN requests retraining of channel n. -/
  | ddrRetrainRequest (o : Origin) (chan : Fin 12) (v : Word)
  /-- PATROL_SCRUB (R68). Patrol scrub reads the next mapped line on its share and writes back a corrected line. -/
  | patrolScrub (sub : Fin 24) (wrong : List (Fin 10))
  /-- MATRIX_GRANT (R73). A target port grants one waiting request per clk by class, priority and round robin. -/
  | matrixGrant (target : Fin 34)
  /-- MATRIX_RESPONSE (R75). A response, or an error response, returns to its master and releases its reservation. -/
  | matrixResponse (master : Fin 16)
  /-- HOLDBACK_RELEASE (R77). A request held behind an older request to the same line on another path enters the matrix once that request retires. -/
  | holdbackRelease (master : Fin 16)
  /-- FETCH (R182). The fetch unit reads one aligned doubleword into the fetch buffer of the thread with the fewest buffered instructions. -/
  | fetch
  /-- STORE_DRAIN (R192). The oldest store-buffer entry of a thread drains to B16 or to the matrix. -/
  | storeDrain (t : Tid)
  /-- TRAP_ENTRY (R229). A thread takes a trap or interrupt at a boundary: it drains, writes a frame, reads the vector and switches level. -/
  | trapEntry (t : Tid)
  /-- THREAD_START (R209). STMn_CTL.START makes a STOPPED thread ACTIVE at STMn_ENTRY after loading SG0. -/
  | threadStart (o : Origin) (t : Tid) (v : Word)
  /-- THREAD_STOP (R209). STMn_CTL.STOP stops the thread after its current instruction or step, drains its store buffer and clears its reservation. -/
  | threadStop (o : Origin) (t : Tid) (v : Word)
  /-- WAIT_WAKE (R203). A thread WAITING in WAIT resumes when a count arrives at its wake input. -/
  | waitWake (t : Tid)
  /-- SLEEP_EXPIRE (R203). A thread in SLEEP resumes when its delay expires. -/
  | sleepExpire (t : Tid)
  /-- LD (R205). Loads the operand into ACC, zero-extended. -/
  | ld (t : Tid) (f : Operand)
  /-- LDS (R205). Loads the operand into ACC, sign-extended. -/
  | lds (t : Tid) (f : Operand)
  /-- ST (R205). Stores ACC to the operand. -/
  | st (t : Tid) (f : Operand)
  /-- LDX (R205). Loads X from the operand. -/
  | ldx (t : Tid) (f : Operand)
  /-- LDY (R205). Loads Y from the operand. -/
  | ldy (t : Tid) (f : Operand)
  /-- STX (R205). Stores X. -/
  | stx (t : Tid) (f : Operand)
  /-- STY (R205). Stores Y. -/
  | sty (t : Tid) (f : Operand)
  /-- LEAX (R205). Sets X to the effective offset. -/
  | leax (t : Tid) (f : Operand)
  /-- LEAY (R205). Sets Y to the effective offset. -/
  | leay (t : Tid) (f : Operand)
  /-- XCH (R205). Exchanges ACC with a word in one indivisible access. -/
  | xch (t : Tid) (f : Operand)
  /-- ADD (R205). Adds the operand to ACC. -/
  | add (t : Tid) (f : Operand)
  /-- ADC (R205). Adds the operand and C to ACC. -/
  | adc (t : Tid) (f : Operand)
  /-- SUB (R205). Subtracts the operand from ACC. -/
  | sub (t : Tid) (f : Operand)
  /-- SBC (R205). Subtracts the operand and C from ACC. -/
  | sbc (t : Tid) (f : Operand)
  /-- AND (R205). Bitwise AND into ACC. -/
  | and (t : Tid) (f : Operand)
  /-- OR (R205). Bitwise OR into ACC. -/
  | or (t : Tid) (f : Operand)
  /-- XOR (R205). Bitwise XOR into ACC. -/
  | xor (t : Tid) (f : Operand)
  /-- CMP (R205). Sets the flags of SUB and leaves ACC unchanged. -/
  | cmp (t : Tid) (f : Operand)
  /-- TST (R205). Sets Z and N from ACC and the operand. -/
  | tst (t : Tid) (f : Operand)
  /-- ADDX (R205). Adds the operand to X. -/
  | addx (t : Tid) (f : Operand)
  /-- ADDY (R205). Adds the operand to Y. -/
  | addy (t : Tid) (f : Operand)
  /-- CMPX (R205). Sets the flags of X minus the operand. -/
  | cmpx (t : Tid) (f : Operand)
  /-- CMPY (R205). Sets the flags of Y minus the operand. -/
  | cmpy (t : Tid) (f : Operand)
  /-- MUL (R205). Signed 64-bit product into ACX:ACC. -/
  | mul (t : Tid) (f : Operand)
  /-- MULU (R205). Unsigned 64-bit product into ACX:ACC. -/
  | mulu (t : Tid) (f : Operand)
  /-- DIV (R148). Signed division of ACC, quotient to ACC and remainder to ACX, with the stated edge results. -/
  | div (t : Tid) (f : Operand)
  /-- DIVU (R148). Unsigned division of ACC, with the stated edge results. -/
  | divu (t : Tid) (f : Operand)
  /-- MULL (R205). Low 32 bits of the signed product into ACC. -/
  | mull (t : Tid) (f : Operand)
  /-- SHL (R149). Shifts ACC left. -/
  | shl (t : Tid) (f : Operand)
  /-- SHR (R149). Shifts ACC right with zero fill. -/
  | shr (t : Tid) (f : Operand)
  /-- SAR (R149). Shifts ACC right with sign fill. -/
  | sar (t : Tid) (f : Operand)
  /-- ROL (R149). Rotates ACC left. -/
  | rol (t : Tid) (f : Operand)
  /-- ROR (R149). Rotates ACC right. -/
  | ror (t : Tid) (f : Operand)
  /-- NEG (R148). Negates ACC. -/
  | neg (t : Tid) (f : Operand)
  /-- NOT (R206). Complements ACC. -/
  | not (t : Tid) (f : Operand)
  /-- ABS (R148). Replaces ACC by its absolute value. -/
  | abs (t : Tid) (f : Operand)
  /-- TAX (R206). Copies ACC to X. -/
  | tax (t : Tid) (f : Operand)
  /-- TXA (R206). Copies X to ACC. -/
  | txa (t : Tid) (f : Operand)
  /-- TAY (R206). Copies ACC to Y. -/
  | tay (t : Tid) (f : Operand)
  /-- TYA (R206). Copies Y to ACC. -/
  | tya (t : Tid) (f : Operand)
  /-- TXY (R206). Copies X to Y. -/
  | txy (t : Tid) (f : Operand)
  /-- SWAPB (R206). Reverses the bytes of ACC. -/
  | swapb (t : Tid) (f : Operand)
  /-- CLZ (R206). Counts the leading zero bits of ACC. -/
  | clz (t : Tid) (f : Operand)
  /-- JMP (R207). Jumps to target T. -/
  | jmp (t : Tid) (f : Operand)
  /-- JEQ (R207). Jumps when Z = 1. -/
  | jeq (t : Tid) (f : Operand)
  /-- JNE (R207). Jumps when Z = 0. -/
  | jne (t : Tid) (f : Operand)
  /-- JLT (R207). Jumps when N differs from V. -/
  | jlt (t : Tid) (f : Operand)
  /-- JGE (R207). Jumps when N equals V. -/
  | jge (t : Tid) (f : Operand)
  /-- JLTU (R207). Jumps when C = 1. -/
  | jltu (t : Tid) (f : Operand)
  /-- JGEU (R207). Jumps when C = 0. -/
  | jgeu (t : Tid) (f : Operand)
  /-- JVS (R207). Jumps when V = 1. -/
  | jvs (t : Tid) (f : Operand)
  /-- JVC (R207). Jumps when V = 0. -/
  | jvc (t : Tid) (f : Operand)
  /-- JMI (R207). Jumps when N = 1. -/
  | jmi (t : Tid) (f : Operand)
  /-- JPL (R207). Jumps when N = 0. -/
  | jpl (t : Tid) (f : Operand)
  /-- CALL (R207). Pushes the return offset on the SG7 stack and jumps. -/
  | call (t : Tid) (f : Operand)
  /-- RET (R207). Pops the return offset and jumps to it. -/
  | ret (t : Tid) (f : Operand)
  /-- JXNZ (R207). Decrements X and jumps when X is not zero. -/
  | jxnz (t : Tid) (f : Operand)
  /-- LOOP (R196). Starts a hardware loop of ACC iterations over the next B words. -/
  | loop (t : Tid) (f : Operand)
  /-- LEXIT (R197). Leaves the loop and jumps to LE. -/
  | lexit (t : Tid) (f : Operand)
  /-- SYSCALL (R223). Enters the Supervisor handler with the service number in FADDR. -/
  | syscall (t : Tid) (f : Operand)
  /-- TRET (R232). Checks the trap frame and restores the thread state from it in one step. -/
  | tret (t : Tid) (f : Operand)
  /-- WAIT (R203). Consumes one wake count, or waits until one arrives. -/
  | wait (t : Tid) (f : Operand)
  /-- FENCE (R194). Waits until the store buffer is empty and every request of the thread has completed. -/
  | fence (t : Tid) (f : Operand)
  /-- RDSR (R184). Copies a special register to ACC. -/
  | rdsr (t : Tid) (f : Operand)
  /-- WRSR (R184). Copies ACC to a special register, subject to the level rules. -/
  | wrsr (t : Tid) (f : Operand)
  /-- LSEG (R186). Loads a segment register from the descriptor table after the checks. -/
  | lseg (t : Tid) (f : Operand)
  /-- SLEEP (R203). Waits for the operand × 16 clk. -/
  | sleep (t : Tid) (f : Operand)
  /-- LDL (R198). Loads a word and reserves its 64-byte granule. -/
  | ldl (t : Tid) (f : Operand)
  /-- STC (R199). Stores ACC only if the reservation is held, and reports the result in Z. -/
  | stc (t : Tid) (f : Operand)
  /-- VWAIT (R202). Waits until the named job is not in flight and returns its STAT. -/
  | vwait (t : Tid) (f : Operand)
  /-- VPOLL (R202). Returns the live or written STAT of the named job without waiting. -/
  | vpoll (t : Tid) (f : Operand)
  /-- VCANCEL (R117). Cancels the named job according to its state. -/
  | vcancel (t : Tid) (f : Operand)
  /-- DADD (R176). Adds two 16-byte packed-decimal operands. -/
  | dadd (t : Tid) (f : Operand)
  /-- DSUB (R176). Subtracts two 16-byte packed-decimal operands. -/
  | dsub (t : Tid) (f : Operand)
  /-- DCMP (R176). Compares two packed-decimal operands into the flags. -/
  | dcmp (t : Tid) (f : Operand)
  /-- MOVB (R200). Copies ACC bytes in interruptible steps of up to 8 bytes. -/
  | movb (t : Tid) (f : Operand)
  /-- FILL (R200). Fills ACC bytes with a byte pattern in interruptible steps. -/
  | fill (t : Tid) (f : Operand)
  /-- BKPT (R208). Raises the Breakpoint trap, or a debug halt when BKPTHALT is set. -/
  | bkpt (t : Tid) (f : Operand)
  /-- ILLEGAL (R215). Opcodes 0x00 and 0xFF, or any illegal encoding, raise the Illegal instruction trap. -/
  | illegal (t : Tid) (w : Word)
  /-- SPORE_PRODUCE (R245). Producer events in a clk are summed per channel and carried as that many spores. -/
  | sporeProduce
  /-- SPORE_ARRIVE (R248). A carried spore reaches every enabled task input that selects its channel and raises the pending count. -/
  | sporeArrive (chan : Fin 256)
  /-- COUNT_RELAY (R251). A COUNT input takes its counts and re-emits one spore at each completed multiple of N, subject to HOPMAX. -/
  | countRelay (input : Fin 16)
  /-- REMOTE_SEND (R252). A REMOTE input takes one count when a route and credit exist and sends it as a remote spore. -/
  | remoteSend (input : Fin 32)
  /-- REMOTE_SPORE_ARRIVE (R253). An arriving remote spore becomes a producer event on its channel, or is refused and counted. -/
  | remoteSporeArrive (chan : Fin 256) (hop : BitVec 4) (sec : Bool) (dev : BitVec 6)
  /-- SPC_TRIG (R256). A write emits one spore on each kind 0x30 slot of the named channel, or sets NOSW. -/
  | spcTrig (o : Origin) (v : Word)
  /-- EGRESS_TAKE (R286). An EGRESS input takes one count and sends its template on the template's TC. -/
  | egressTake (input : Fin 64)
  /-- PMC_FREEZE (R422). A count taken by the FREEZE input sets FROZEN and stops the freezable counters. -/
  | pmcFreeze
  /-- PMC_THAW (R422). A write of PMC_CTL.THAW clears FROZEN and counting resumes. -/
  | pmcThaw (o : Origin) (v : Word)
  /-- PMC_COUNTER_WRITE (R421). A write of a counter sets it to the value written plus that clk's amount. -/
  | pmcCounterWrite (o : Origin) (n : Fin 64) (high : Bool) (v : Word) (amount : Nat)
  /-- BW_WINDOW_END (R424). At each window end all 48 bandwidth windows latch their byte counts and BWNEW sets. -/
  | bwWindowEnd
  /-- ETH_FRAME_RECEIVE (R264). An arriving Ethernet frame is parsed, matched to a stream and has its fields extracted into staging as they land. -/
  | ethFrameReceive (port : Fin 2) (bytes : List Byte)
  /-- FRAME_ACCEPT (R264). On the FCS result a frame is accepted or dropped, elimination is applied and the stream producer fires. -/
  | frameAccept (port : Fin 2)
  /-- SLOT_COMMIT (R270). The Sorter writes an accepted frame's fields into the live half through port A, outside the commit hold. -/
  | slotCommit
  /-- IMAGE_COPY (R274). After a flip, the slots committed in the closing frame are copied to the new live half with FRESH cleared. -/
  | imageCopy
  /-- SIM_FLIP (R275). A write of SIM_CTL.FLIP in Config performs one flip and copy. -/
  | simFlip (o : Origin) (v : Word)
  /-- RECOVERY_RESET_TIMEOUT (R266). Recovery of a stream resets after RESETMS ms with no accepted frame. -/
  | recoveryResetTimeout (stream : Fin 512)
  /-- SYNC_RECEIVE (R261). A gPTP Sync is received and the timebase is disciplined, stepped or held. -/
  | syncReceive (port : Fin 2) (offset : Int) (interval : Nat)
  /-- PEER_DELAY (R261). A port exchanges peer-delay messages on each enabled port. -/
  | peerDelay (port : Fin 2) (delay : Nat)
  /-- SYNC_LOSS (R261). No Sync within SYNCTO intervals sets SYNCLOSS and reports loss to the ledger. -/
  | syncLoss
  /-- ETH_LINK_CHANGE (R259). An Ethernet port's link comes up or goes down and LINKCHG sets. -/
  | ethLinkChange (port : Fin 2) (up : Bool) (anDone : Bool)
  /-- PREEMPTION_VERIFY (R263). The 802.3br verify procedure completes and enables or fails preemption. -/
  | preemptionVerify (port : Fin 2) (ok : Bool)
  /-- GCL_CHANGE (R262). A write of ETHe_GCLCTL.CHANGE schedules the administrative gate list and sets PENDING. -/
  | gclChange (o : Origin) (port : Fin 2) (v : Word)
  /-- GCL_ACTIVATE (R262). At the base time the administrative gate list becomes operational. -/
  | gclActivate (port : Fin 2)
  /-- LINK_SIGNAL_DETECT (R291). Signal on all four lanes moves a Lichen port from DOWN to TRAIN, or wakes the engine. -/
  | linkSignalDetect (port : Fin 4)
  /-- LINK_TRAINED (R291). All lanes train and the port moves to ALIGN, or returns to DOWN after 500 ms. -/
  | linkTrained (port : Fin 4) (ok : Bool)
  /-- LINK_ALIGNED (R291). Block, marker and FEC lock move the port to INIT. -/
  | linkAligned (port : Fin 4)
  /-- INIT (R291). INIT packets received in both directions bring the port UP. Its payload: UID, then PRIO and current ID. -/
  | linkInit (port : Fin 4) (hdr : LinkHeader) (uid : BitVec 64) (prioId : BitVec 8 × BitVec 8)
  /-- LINK_RETRAIN (R298). A port enters RETRAIN on a request, lock loss, audit mismatch or FEC errors, and stops sending data. -/
  | linkRetrain (port : Fin 4) (fecWords : Nat)
  /-- LNK_RETRAIN_REQUEST (R291). A write of LNKp_CTL.RETRAIN forces RETRAIN. -/
  | lnkRetrainRequest (o : Origin) (port : Fin 4) (v : Word)
  /-- RESYNC (R301). RESYNC restores the credit accounts and the port resumes UP, or the retrain fails. Its payload: RX and RET of
  each channel, then the next expected SEQ. -/
  | resync (port : Fin 4) (hdr : LinkHeader) (state : List (Nat × Nat) × BitVec 12)
  /-- LINK_DOWN (R299). A port goes DOWN, discards its buffers and completes outstanding requests with STATUS 4. -/
  | linkDown (port : Fin 4)
  /-- LNK_DOWN_REQUEST (R291). A write of LNKp_CTL.DOWN takes the port DOWN. -/
  | lnkDownRequest (o : Origin) (port : Fin 4) (v : Word)
  /-- PACKET_SEND (R296). A port starts the next packet by priority and credit. -/
  | packetSend (port : Fin 4)
  /-- DATA_PACKET_RECEIVE (R297). A data packet is accepted in sequence, or discarded with a NAK or a repeated acknowledgement.
  Its bytes: the link header, the transport header with the payload, and the CRC with the padding. -/
  | dataPacketReceive (port : Fin 4) (hdr : List Byte) (body : List Byte) (tail : List Byte)
  /-- ACK (R297). An ACK packet retires acknowledged packets and returns credit. -/
  | ack (port : Fin 4) (hdr : LinkHeader)
  /-- NAK_RECEIVE (R297). A NAK makes the sender resend from ACK + 1. -/
  | nakReceive (port : Fin 4) (hdr : LinkHeader)
  /-- RETRY_TIMEOUT (R297). ACK has not advanced for 4,096 clk and the sender resends from the oldest packet. -/
  | retryTimeout (port : Fin 4)
  /-- AUDIT_SEND (R300). Every AUDIV × 1,024 clk each end sends AUDIT with its counters and MARK. -/
  | auditSend (port : Fin 4)
  /-- AUDIT (R300). The partner checks the four credit identities once MARK is accepted, and retrains on failure. Its payload: TX, RXC
  and CR of each channel, then MARK. -/
  | audit (port : Fin 4) (hdr : LinkHeader) (state : List (Nat × Nat × Nat) × BitVec 12)
  /-- DELAY_MEASURE (R311). Every 100 µs a port sends DELAY to measure its link delay. -/
  | delayMeasure (port : Fin 4)
  /-- DELAY (R311). A DELAY packet is answered with timestamps, or completes a delay measurement. The partner's own carries t1, its
  reply t2 and t3. -/
  | delay (port : Fin 4) (hdr : LinkHeader) (reply : Bool) (t1 t2 t3 : Nat)
  /-- ADVERT_SEND (R295). Every 10 µs, and at each change, each member sends ADVERT on every UP port. -/
  | advertSend
  /-- ADVERT (R303). A received ADVERT updates the best keystone known and may start a new epoch. -/
  | advert (port : Fin 4) (a : Advert)
  /-- MEMBER (R295). A MEMBER report travels up the tree and is collected by the keystone. -/
  | member (port : Fin 4) (m : MemberReport)
  /-- ASSIGN (R304). The keystone's ASSIGN gives each member its device ID for the epoch. -/
  | assign (port : Fin 4) (epoch : BitVec 64) (ids : List (BitVec 64 × BitVec 8))
  /-- ROUTE (R306). A received ROUTE table is held for its activation frame. `at_`: the epoch and that frame. -/
  | route (port : Fin 4) (dst : BitVec 6) (at_ : BitVec 64 × BitVec 64) (table : List Word)
  /-- QUORUM (R315). A received QUORUM decision is held for application at the next tick. -/
  | quorum (port : Fin 4) (q : QuorumDecision)
  /-- DIGEST (R319). A peer's DIGEST is compared with the own digest, setting TWINMIS on a mismatch. `of_`: the frame and
  the digest. -/
  | digest (dst : BitVec 6) (of_ : BitVec 64 × BitVec 64)
  /-- REJOIN (R316). A REJOIN report records a region's copy progress. `copy`: the region and its state. -/
  | rejoin (dst : BitVec 6) (src : BitVec 6) (copy : BitVec 8 × BitVec 8)
  /-- REJOIN_COPY (R316). At a source's idle window its Lichen engine reads a rejoin region and sends it as COPY packets. -/
  | rejoinCopy (region : Fin 16) (member : BitVec 6) (dst : Nat) (len : Nat) (src : Nat)
  /-- COPY (R316). A COPY packet is written at its address without response. -/
  | copy (port : Fin 4) (pkt : Packet)
  /-- TICK_PACKET (R312). A TICK packet is forwarded with accumulated delay and sets this member's tick instant. -/
  | tickPacket (port : Fin 4) (dframe : BitVec 64) (acc : Nat) (period : Nat) (lat : Nat) (uid : BitVec 64)
  /-- REMOTE_READ (R308). An inbound READ is issued as line requests and answered with RESP. -/
  | remoteRead (port : Fin 4) (pkt : Packet) (waited : Nat)
  /-- REMOTE_WRITE (R308). An inbound WRITE is issued as line requests and answered after all lines take effect. -/
  | remoteWrite (port : Fin 4) (pkt : Packet) (waited : Nat)
  /-- REMOTE_ATOMIC (R308). An inbound ATOMIC performs one indivisible ADD, FADD or CAS and responds. -/
  | remoteAtomic (port : Fin 4) (pkt : Packet) (waited : Nat)
  /-- REMOTE_RESP (R307). A RESP retires the reservations of the request it answers. -/
  | remoteResp (port : Fin 4) (pkt : Packet)
  /-- SPORE (R310). A SPORE packet is forwarded hop by hop on VC0 toward its destination. -/
  | spore (port : Fin 4) (pkt : Packet)
  /-- RESPONSE_TIMEOUT (R309). A remote request without a response within FAB_RSPTO completes with STATUS 4. -/
  | responseTimeout (tag : BitVec 12)
  /-- FAB_ATOM_GO (R310). A write of CTL.GO starts a remote atomic from FAB_ATOMn. -/
  | fabAtomGo (o : Origin) (n : Fin 8) (v : Word)
  /-- RELAY_BEGIN (R375). A relay BEGIN starts fabric staging, is forwarded down the tree and is answered with RESULT. -/
  | relayBegin (port : Fin 4) (pkt : Packet)
  /-- RELAY_BLOCK (R375). A relay BLOCK is programmed into slot S and forwarded. -/
  | relayBlock (port : Fin 4) (pkt : Packet)
  /-- RELAY_COMMIT (R375). A relay COMMIT commits the staging and is answered with RESULT. -/
  | relayCommit (port : Fin 4) (pkt : Packet)
  /-- RELAY_RESULT (R374). A RESULT reaches the keystone with a member's relay status. -/
  | relayResult (port : Fin 4) (pkt : Packet)
  /-- USB4_LINK_TRAIN (R323). The USB4 router trains at the highest common generation, or falls back. -/
  | usb4LinkTrain (gen : Fin 4) (pcie : Bool)
  /-- BAR2_READ (R331). A host read through a BAR2 aperture is issued as master 12 and completed or refused. -/
  | bar2Read (off : Nat) (len : Nat)
  /-- BAR2_WRITE (R330). A host write through a BAR2 aperture is issued as master 12, or discarded and logged. -/
  | bar2Write (off : Nat) (data : List Byte)
  /-- FLR (R334). A function-level reset or tunnel loss resets the function configuration and disables the apertures. -/
  | flr
  /-- COMMAND_AREA_WRITE (R337). A host write to a mailbox command area is stored, or discarded while in progress. -/
  | commandAreaWrite (mbx : Fin 16) (word : Fin 16) (v : Word)
  /-- DOORBELL (R336). A doorbell write is refused as BUSY, ignored as a duplicate, or accepted to start a command. -/
  | doorbell (mbx : Fin 16) (v : Word)
  /-- PUBLISH (R338). A write of MBXn_PUB publishes results, SEQ and STATUS in one clk and sends MSI-X vector n. -/
  | publish (o : Origin) (mbx : Fin 16) (v : Word)
  /-- HIF_MSIREQ (R333). Firmware requests MSI-X vectors 16–19 and the matching EP3 bits. -/
  | hifMsireq (o : Origin) (v : Word)
  /-- MBX_WRITE (R326). A USB 2.0 request writes the command area and rings the doorbell. -/
  | mbxWrite (hdr : UsbHeader) (data : List Word)
  /-- MBX_READ (R326). A USB 2.0 request returns the 128-byte result area. -/
  | mbxRead (hdr : UsbHeader)
  /-- MEM_WRITE (R327). A USB 2.0 request writes LEN bytes at a physical address as master 12. -/
  | memWrite (hdr : UsbHeader) (data : List Byte)
  /-- MEM_READ (R327). A USB 2.0 request reads LEN bytes from a physical address as master 12. -/
  | memRead (hdr : UsbHeader)
  /-- EP3_REPORT (R327). At each 125 µs interval EP3 reports the publishes and events since the last report. -/
  | ep3Report
  /-- IDENTIFY (R347). Returns part, revision, grade, UID, firmware and memory identity. -/
  | identify (mbx : Fin 16)
  /-- GET_STATUS (R347). Returns mode, flags, Safe cause, frame, temperature, VIN and guard bits. -/
  | getStatus (mbx : Fin 16)
  /-- SET_MODE (R348). Requests a mode transition and publishes when the engine is in the target mode, or refuses. -/
  | setMode (mbx : Fin 16)
  /-- GET_MODE (R348). Returns the mode, the previous mode and the cause of the last transition. -/
  | getMode (mbx : Fin 16)
  /-- REGION_WRITE (R350). Copies a region into the engine by COPY jobs or MOVB. -/
  | regionWrite (mbx : Fin 16)
  /-- REGION_READ (R350). Copies a region out to a staging area by COPY jobs or MOVB. -/
  | regionRead (mbx : Fin 16)
  /-- REGION_FILL (R350). Fills a region with a 64-bit pattern. -/
  | regionFill (mbx : Fin 16)
  /-- PLAN_LOAD (R351). Checks and loads a frame plan into the inactive slot. -/
  | planLoad (mbx : Fin 16)
  /-- PLAN_ACTIVATE (R351). Requests a plan swap at the next tick. -/
  | planActivate (mbx : Fin 16)
  /-- PLAN_QUERY (R351). Returns the plan status and the skipped and late counts. -/
  | planQuery (mbx : Fin 16)
  /-- TICK_CONFIG (R352). Writes the ledger tick and phase registers in Config. -/
  | tickConfig (mbx : Fin 16)
  /-- IO_MAP_LOAD (R265). Loads the stream and field tables and fixes the input slots. -/
  | ioMapLoad (mbx : Fin 16)
  /-- FIU_RULES_LOAD (R276). Loads the FIU rules and clears every rule state. -/
  | fiuRulesLoad (mbx : Fin 16)
  /-- EGRESS_TEMPLATE_LOAD (R282). Loads the egress templates and fields. -/
  | egressTemplateLoad (mbx : Fin 16)
  /-- FABRIC_STATUS (R353). Returns the fabric domain, link and twin status. -/
  | fabricStatus (mbx : Fin 16)
  /-- FABRIC_CONFIG_DOMAIN (R353). Writes FAB_CTL, FAB_PRIO, FAB_VOTE and FAB_WITNESS. -/
  | fabricConfigDomain (mbx : Fin 16)
  /-- FABRIC_CONFIG_TOKEN (R353). Sets or clears FAB_WITNESS.TOKEN. -/
  | fabricConfigToken (mbx : Fin 16)
  /-- FABRIC_CONFIG_TWIN (R353). Writes FAB_TWIN. -/
  | fabricConfigTwin (mbx : Fin 16)
  /-- FABRIC_CONFIG_REJOIN_REGIONS (R353). Loads the rejoin regions. -/
  | fabricConfigRejoinRegions (mbx : Fin 16)
  /-- FABRIC_CONFIG_TWIN_REGIONS (R353). Loads the twin digest regions. -/
  | fabricConfigTwinRegions (mbx : Fin 16)
  /-- HOST_CHANNEL_READ (R354). Returns a channel's configuration, producers, count and flags. -/
  | hostChannelRead (mbx : Fin 16)
  /-- HOST_CHANNEL_PRODUCER (R354). Writes a producer slot of a host-owned channel. -/
  | hostChannelProducer (mbx : Fin 16)
  /-- HOST_CHANNEL_TRIGGER (R354). Triggers a software spore on a host-owned channel. -/
  | hostChannelTrigger (mbx : Fin 16)
  /-- HOST_CHANNEL_CLEAR (R354). Clears the FLAG and LOOP bits of a host-owned channel. -/
  | hostChannelClear (mbx : Fin 16)
  /-- UPDATE_BEGIN (R369). Checks an image header and takes or attaches to the staging lock. -/
  | updateBegin (mbx : Fin 16)
  /-- UPDATE_BLOCK (R371). Programs payload units into slot S. -/
  | updateBlock (mbx : Fin 16)
  /-- UPDATE_COMMIT (R372). Commits a complete staging and releases the lock. -/
  | updateCommit (mbx : Fin 16)
  /-- UPDATE_ABORT (R373). Releases the host's staging lock. -/
  | updateAbort (mbx : Fin 16)
  /-- UPDATE_STATUS (R355). Returns the update and trial state. -/
  | updateStatus (mbx : Fin 16)
  /-- UPDATE_CONFIRM (R382). Makes the TRIAL slot GOOD, blows the anti-rollback fuses and supersedes the other slot. -/
  | updateConfirm (mbx : Fin 16)
  /-- UPDATE_LOCK_TIMEOUT (R373). After 10 s with no accepted block the staging lock is released and the staging discarded. -/
  | updateLockTimeout
  /-- TRIAL_MINUTE (R380). Each whole minute of Run under a TRIAL slot increments RUNMIN and falls back at 30. -/
  | trialMinute
  /-- FUSE_PROGRAM (R368). A write of UPD_FUSE.TARGET blows anti-rollback fuses one at a time. -/
  | fuseProgram (o : Origin) (v : Word)
  /-- FUSE_DONE (R368). Fuse programming ends, BUSY clears and FUSEDONE sets. -/
  | fuseDone
  /-- KEYLOCK (R367). A write of UPD_KEYLOCK.LOCK makes the image key unusable until reset. -/
  | keylock (o : Origin) (v : Word)
  /-- BIST_REPORT (R356). Returns the power-up and periodic BIST results. -/
  | bistReport (mbx : Fin 16)
  /-- BIST_CONFIG (R356). Sets the periodic BIST enables and LDG_TESTRES. -/
  | bistConfig (mbx : Fin 16)
  /-- COUNTERS_READ (R356). Returns live or snapshot performance counters. -/
  | countersRead (mbx : Fin 16)
  /-- TASK_LOAD (R357). Copies task code to B16, enters its descriptors and prepares a stopped thread. -/
  | taskLoad (mbx : Fin 16)
  /-- TASK_START (R357). Starts a loaded task thread. -/
  | taskStart (mbx : Fin 16)
  /-- TASK_STOP (R357). Stops a task thread and publishes once it is STOPPED. -/
  | taskStop (mbx : Fin 16)
  /-- SETTINGS_READ (R358). Returns a settings record. -/
  | settingsRead (mbx : Fin 16)
  /-- SETTINGS_WRITE (R381). Writes a new settings store to the copy not in use. -/
  | settingsWrite (mbx : Fin 16)
  /-- EVENT_LOG_READ (R359). Returns up to 7 event-log entries. -/
  | eventLogRead (mbx : Fin 16)
  /-- BANK_SLICE (R389). In an idle window a bank region is saved, march-tested and restored. -/
  | bankSlice (result : SliceResult)
  /-- SLICE_ABORT (R390). An access to a borrowed region aborts the slice, restores the region and then performs the access. -/
  | sliceAbort (addr : Nat)
  /-- FROND_SLICE (R391). One signature segment of an idle reserved Frond is tested. -/
  | frondSlice (frond : Fin 8) (result : SliceResult)
  /-- ANALOGUE_SLICE (R393). One analogue item is checked against its limits. -/
  | analogueSlice (unit : BitVec 8) (item : Nat) (result : SliceResult)
  /-- DBGACC_UPDATE (R399). An Update-DR with OP set starts one debug access as master 15. -/
  | dbgaccUpdate (op : BitVec 2) (addr : BitVec 48) (data : Word)
  /-- DBGACC_CAPTURE (R399). A Capture-DR loads the status and data of the last debug access. -/
  | dbgaccCapture
  /-- DBG_AUTH_NEW (R401). Draws a fresh 32-byte nonce. -/
  | dbgAuthNew (o : Origin)
  /-- DBG_AUTH_SUBMIT (R401). Checks the HMAC response and grants a level, or counts a failure. -/
  | dbgAuthSubmit (o : Origin) (level : BitVec 2)
  /-- DBG_AUTH_REVOKE (R402). Ends the debug authorisation. -/
  | dbgAuthRevoke (o : Origin)
  /-- AUTH_DELAY_EXPIRE (R402). The post-failure delay ends and WAIT clears. -/
  | authDelayExpire
  /-- TRST_N (R402). Assertion of TRST_N resets the TAP and ends authorisation. -/
  | trstN
  /-- DEBUG_HALT (R403). A halt request stops the named threads and Fronds. -/
  | debugHalt (o : Origin) (v : Word)
  /-- HALT_COMPLETE (R404). When the last named unit has stopped, HALTED sets and the halted event is emitted. -/
  | haltComplete
  /-- DEBUG_RESUME (R406). A write of DBG_RESUME releases the named units. -/
  | debugResume (o : Origin) (v : Word)
  /-- DEBUG_STEP (R406). A write of DBG_STEP releases one halted thread for a step or a run-to. -/
  | debugStep (o : Origin) (v : Word)
  /-- STEP_COMPLETE (R406). The stepped thread reaches its step end and halts again. -/
  | stepComplete (t : Tid)
  /-- DBG_TREG_ACCESS (R407). Reads or writes a halted thread's register. -/
  | dbgTregAccess (o : Origin) (write : Option Word)
  /-- STIMULUS_WRITE (R415). A write of DBG_SPn emits one STIM trace packet. -/
  | stimulusWrite (o : Origin) (n : Fin 32) (v : Word)
  /-- TRACE_DRAIN (R414). The trace buffer drains to the pins or to the memory ring. -/
  | traceDrain
  /-- WATCHDOG_ENABLE (R409). A write of WDG_CTL.EN starts the watchdog from the full period. -/
  | watchdogEnable (o : Origin) (v : Word)
  /-- WATCHDOG_SERVICE (R409). A write of WDG_SVC reloads the full period, or sets BADSVC. -/
  | watchdogService (o : Origin) (v : Word)
  /-- WATCHDOG_PREBITE (R409). The count reaches 25% of the period and trap 0x0D is raised. -/
  | watchdogPrebite
  /-- WATCHDOG_BITE (R409). The count reaches 0 and the engine enters Safe with cause Watchdog. -/
  | watchdogBite
  /-- TIMER_START (R417). A write of TMRn_CTL.START starts timer n from TMRn_LOAD. -/
  | timerStart (o : Origin) (n : Fin 4) (v : Word)
  /-- TIMER_STOP (R417). A write of TMRn_CTL.STOP stops timer n. -/
  | timerStop (o : Origin) (n : Fin 4) (v : Word)
  /-- TIMER_EXPIRE (R417). Timer n reaches zero, sets EXP, emits its spore and reloads if periodic. -/
  | timerExpire (n : Fin 4)
  /-- GPIO_EDGE (R467). A selected edge on a GPIO pin sets its interrupt bit and fires its spore producers. -/
  | gpioEdge (pin : Fin 16) (level : Bool)
  /-- I2C_WRITE (R466). An I²C write transfer sets the management register pointer. -/
  | i2cWrite (bytes : List Byte)
  /-- I2C_READ (R466). An I²C read returns the byte at the pointer and advances it. -/
  | i2cRead
  /-- MGT_REFRESH (R466). The management target values refresh every 1 ms, or every 10 ms in Dormant. -/
  | mgtRefresh
  /-- READ_CLEAR (R4). A read of an RC field, or of a register whose read removes an entry, returns and clears it unless OBSERVE applies. -/
  | readClear (p : Path) (off : Nat)
  /-- REGISTER_WRITE (R4). A write to a register without a row of its own takes effect under its access code, or completes as a bus error. -/
  | registerWrite (p : Path) (off : Nat) (size : Nat) (v : Word)
  /-- GCL_INTERVAL_END (R262). The operational gate control list moves to its next entry at the end of each interval, or restarts at the end of its cycle, and opens or closes the traffic-class gates. -/
  | gclIntervalEnd (port : Fin 2)
  /-- ETH_TRANSMIT_END (R285). An Ethernet port finishes sending a frame or fragment, becomes idle, and starts the next queued frame by class, gate and preemption. -/
  | ethTransmitEnd (port : Fin 2)
  /-- RETRAIN_TIMEOUT (R291). A Lichen port in RETRAIN that has not regained lock and exchanged RESYNC within 20 µs fails the retrain, and after three consecutive failures goes DOWN. -/
  | retrainTimeout (port : Fin 4)
  /-- PMC_COUNTER_WRAP (R419). A counter counting CORE_CLK cycles or occupancy passes 2^48 − 1, wraps to 0 and sets its sticky OVF bit, which makes interrupt source 103 pending. -/
  | pmcCounterWrap (n : Fin 64)
  deriving DecidableEq, Repr

end Sys2Proof
end

