-- ==== Sys2Proof/WellFormed.lean ====
section
/-! DEFINITION. Well-formed commands: the operand classes of the Stem instructions (R213-R215), and for the other
commands the values that a request of theirs can carry at all. -/

namespace Sys2Proof

/-- The operand classes of R213. -/
inductive StemClass where
  | r | w | l | a | j | v | k | s | d | n
  deriving DecidableEq, Repr

/-- The class of an opcode; none for 0x00, 0xFF and the unassigned ones (R214). -/
def opClass (op : Nat) : Option StemClass :=
  if 0x01 ≤ op ∧ op ≤ 0x02 then some .r
  else if op = 0x03 then some .w
  else if 0x04 ≤ op ∧ op ≤ 0x05 then some .r
  else if 0x06 ≤ op ∧ op ≤ 0x07 then some .w
  else if 0x08 ≤ op ∧ op ≤ 0x09 then some .a
  else if op = 0x0A then some .l
  else if 0x10 ≤ op ∧ op ≤ 0x1C then some .r
  else if 0x20 ≤ op ∧ op ≤ 0x24 then some .r
  else if 0x30 ≤ op ∧ op ≤ 0x34 then some .r
  else if 0x35 ≤ op ∧ op ≤ 0x3E then some .n
  else if 0x40 ≤ op ∧ op ≤ 0x4B then some .j
  else if op = 0x4C then some .n
  else if op = 0x4D then some .j
  else if op = 0x50 then some .k
  else if op = 0x51 then some .n
  else if op = 0x60 then some .k
  else if 0x61 ≤ op ∧ op ≤ 0x63 then some .n
  else if 0x64 ≤ op ∧ op ≤ 0x65 then some .k
  else if op = 0x66 then some .s
  else if op = 0x67 then some .r
  else if 0x70 ≤ op ∧ op ≤ 0x71 then some .l
  else if 0x80 ≤ op ∧ op ≤ 0x83 then some .v
  else if 0x90 ≤ op ∧ op ≤ 0x93 then some .d
  else if op = 0x94 then some .s
  else if op = 0xF0 then some .k
  else none

/-- The modes of a class (R213, condition 4 of R215). -/
def modeOk (c : StemClass) (m : Nat) : Bool :=
  match c with
  | .r => decide (m ≤ 6)
  | .w => decide (1 ≤ m) && decide (m ≤ 6)
  | .l | .a | .v => m == 1 || m == 2 || m == 3 || m == 6
  | .j => m == 0 || m == 1 || m == 2 || m == 3 || m == 6
  | .k | .s | .d | .n => m == 0

/-- The operand is an immediate: mode 0 of class R, or mode 6 where the class takes an immediate in mode 0 (R212). -/
def isImm (c : StemClass) (m : Nat) : Bool := c == .r && (m == 0 || m == 6)

/-- The sizes a class permits in a mode (R213, condition 5 of R215). -/
def sizeOk (c : StemClass) (m z : Nat) : Bool :=
  match c with
  | .r => if isImm c m then z == 2 else decide (z ≤ 2)
  | .w => decide (z ≤ 2)
  | .l => z == 2
  | _ => z == 0

/-- The segment fields a class permits in a mode (R213, condition 6 of R215). -/
def segOk (c : StemClass) (m s : Nat) : Bool :=
  match c with
  | .r => if isImm c m then s == 0 else true
  | .w | .l | .v | .s | .d => true
  | .a | .j | .k | .n => s == 0

/-- The disp16 values that the class, the mode and the opcode permit (R213, R214, condition 7 of R215). -/
def dispOk (op : Nat) (c : StemClass) (m d : Nat) : Bool :=
  match c with
  | .k =>
    if op = 0x50 then decide (1 ≤ d) else if op = 0x64 then decide (d ≤ 15) else if op = 0x65 then decide (d ≤ 6)
    else true
  | .s | .n => d == 0
  | .d => decide (d < 8)
  | _ => if 4 ≤ m then d == 0 else true

/-- The first word of an instruction is legal (R215). -/
def operandOk (op : Nat) (f : Operand) : Bool :=
  match opClass op with
  | none => false
  | some c =>
    modeOk c f.mode.toNat && decide (f.size.toNat < 3) && sizeOk c f.mode.toNat f.size.toNat &&
      segOk c f.mode.toNat f.seg.toNat && dispOk op c f.mode.toNat f.disp.toNat

/-- Opcode, thread and fields of a Stem instruction (R214); none for every other command and for ILLEGAL. -/
def stemParts : Instr → Option (Nat × Tid × Operand)
  | .ld t f => some (0x01, t, f)
  | .lds t f => some (0x02, t, f)
  | .st t f => some (0x03, t, f)
  | .ldx t f => some (0x04, t, f)
  | .ldy t f => some (0x05, t, f)
  | .stx t f => some (0x06, t, f)
  | .sty t f => some (0x07, t, f)
  | .leax t f => some (0x08, t, f)
  | .leay t f => some (0x09, t, f)
  | .xch t f => some (0x0A, t, f)
  | .add t f => some (0x10, t, f)
  | .adc t f => some (0x11, t, f)
  | .sub t f => some (0x12, t, f)
  | .sbc t f => some (0x13, t, f)
  | .and t f => some (0x14, t, f)
  | .or t f => some (0x15, t, f)
  | .xor t f => some (0x16, t, f)
  | .cmp t f => some (0x17, t, f)
  | .tst t f => some (0x18, t, f)
  | .addx t f => some (0x19, t, f)
  | .addy t f => some (0x1A, t, f)
  | .cmpx t f => some (0x1B, t, f)
  | .cmpy t f => some (0x1C, t, f)
  | .mul t f => some (0x20, t, f)
  | .mulu t f => some (0x21, t, f)
  | .div t f => some (0x22, t, f)
  | .divu t f => some (0x23, t, f)
  | .mull t f => some (0x24, t, f)
  | .shl t f => some (0x30, t, f)
  | .shr t f => some (0x31, t, f)
  | .sar t f => some (0x32, t, f)
  | .rol t f => some (0x33, t, f)
  | .ror t f => some (0x34, t, f)
  | .neg t f => some (0x35, t, f)
  | .not t f => some (0x36, t, f)
  | .abs t f => some (0x37, t, f)
  | .tax t f => some (0x38, t, f)
  | .txa t f => some (0x39, t, f)
  | .tay t f => some (0x3A, t, f)
  | .tya t f => some (0x3B, t, f)
  | .txy t f => some (0x3C, t, f)
  | .swapb t f => some (0x3D, t, f)
  | .clz t f => some (0x3E, t, f)
  | .jmp t f => some (0x40, t, f)
  | .jeq t f => some (0x41, t, f)
  | .jne t f => some (0x42, t, f)
  | .jlt t f => some (0x43, t, f)
  | .jge t f => some (0x44, t, f)
  | .jltu t f => some (0x45, t, f)
  | .jgeu t f => some (0x46, t, f)
  | .jvs t f => some (0x47, t, f)
  | .jvc t f => some (0x48, t, f)
  | .jmi t f => some (0x49, t, f)
  | .jpl t f => some (0x4A, t, f)
  | .call t f => some (0x4B, t, f)
  | .ret t f => some (0x4C, t, f)
  | .jxnz t f => some (0x4D, t, f)
  | .loop t f => some (0x50, t, f)
  | .lexit t f => some (0x51, t, f)
  | .syscall t f => some (0x60, t, f)
  | .tret t f => some (0x61, t, f)
  | .wait t f => some (0x62, t, f)
  | .fence t f => some (0x63, t, f)
  | .rdsr t f => some (0x64, t, f)
  | .wrsr t f => some (0x65, t, f)
  | .lseg t f => some (0x66, t, f)
  | .sleep t f => some (0x67, t, f)
  | .ldl t f => some (0x70, t, f)
  | .stc t f => some (0x71, t, f)
  | .vissue t f => some (0x80, t, f)
  | .vwait t f => some (0x81, t, f)
  | .vpoll t f => some (0x82, t, f)
  | .vcancel t f => some (0x83, t, f)
  | .dadd t f => some (0x90, t, f)
  | .dsub t f => some (0x91, t, f)
  | .dcmp t f => some (0x92, t, f)
  | .movb t f => some (0x93, t, f)
  | .fill t f => some (0x94, t, f)
  | .bkpt t f => some (0xF0, t, f)
  | _ => none

/-- A Stem instruction is well formed: its fields are legal, and a second word is there only in mode 6 (R212). -/
def stemWf (op : Nat) (f : Operand) : Bool := operandOk op f && (f.mode == 6 || f.long == 0)

/-- A register access of REGISTER_WRITE is of size 4 or 8, aligned, inside control space (R6). -/
def accessWf (off size : Nat) : Bool := (size == 4 || size == 8) && off % size == 0 && decide (off < 0x4000000)

/-- A BAR2 request is of 1 to 4,096 bytes within one aperture (R328, R330). -/
def barWf (off len : Nat) : Bool :=
  decide (1 ≤ len) && decide (len ≤ 4096) && decide (off + len ≤ 0x40000000) && off / 0x4000000 == (off + len - 1) / 0x4000000

/-- A command that a requester can form: a Stem instruction with legal fields, an ILLEGAL word that is illegal, a
register access of a permitted size, an Ethernet frame of some
octets (R260), a packet of 1 to 33 flits (R292). -/
def wellFormed (i : Instr) : Bool :=
  match stemParts i with
  | some (op, _, f) => stemWf op f
  | none =>
    match i with
    | .illegal _ w => !operandOk (w.toNat / 0x1000000)
        { seg := BitVec.ofNat 3 (w.toNat / 0x200000), mode := BitVec.ofNat 3 (w.toNat / 0x40000),
          size := BitVec.ofNat 2 (w.toNat / 0x10000), disp := BitVec.ofNat 16 w.toNat }
    | .registerWrite _ off size _ => accessWf off size
    | .readClear _ off => accessWf off 4
    | .ethFrameReceive _ b => decide (1 ≤ b.length)
    | .dataPacketReceive _ h b t => let n := (h ++ b ++ t).length
      decide (n % 64 = 0) && decide (1 ≤ n) && decide (n ≤ 2112)
    | .bar2Read off len => barWf off len
    | .bar2Write off d => barWf off d.length
    | _ => true

end Sys2Proof
end

