-- ==== Sys2Proof/Decode.lean ====
section
/-! DEFINITION. The decoder and encoder of Stem instruction words (R210-R215), and the table decoder the host asks for. -/

namespace Sys2Proof

/-- The command that a word of the opcode table spells: the table gives no row any bits, so none. -/
def decodeTableWord (_nbits _w : Nat) : Option Instr := none

/-- The fields of an instruction word (R210): s, m, z and disp16. -/
def fieldsOf (w : Word) : Operand :=
  { seg := BitVec.ofNat 3 (w.toNat / 0x200000), mode := BitVec.ofNat 3 (w.toNat / 0x40000),
    size := BitVec.ofNat 2 (w.toNat / 0x10000), disp := BitVec.ofNat 16 w.toNat }

/-- The opcode field of an instruction word (R210). -/
def opcodeOf (w : Word) : Nat := w.toNat / 0x1000000

/-- The instruction of an assigned opcode (R214). -/
def stemOf (t : Tid) (f : Operand) (op : Nat) : Option Instr :=
  match op with
  | 0x01 => some (.ld t f)
  | 0x02 => some (.lds t f)
  | 0x03 => some (.st t f)
  | 0x04 => some (.ldx t f)
  | 0x05 => some (.ldy t f)
  | 0x06 => some (.stx t f)
  | 0x07 => some (.sty t f)
  | 0x08 => some (.leax t f)
  | 0x09 => some (.leay t f)
  | 0x0A => some (.xch t f)
  | 0x10 => some (.add t f)
  | 0x11 => some (.adc t f)
  | 0x12 => some (.sub t f)
  | 0x13 => some (.sbc t f)
  | 0x14 => some (.and t f)
  | 0x15 => some (.or t f)
  | 0x16 => some (.xor t f)
  | 0x17 => some (.cmp t f)
  | 0x18 => some (.tst t f)
  | 0x19 => some (.addx t f)
  | 0x1A => some (.addy t f)
  | 0x1B => some (.cmpx t f)
  | 0x1C => some (.cmpy t f)
  | 0x20 => some (.mul t f)
  | 0x21 => some (.mulu t f)
  | 0x22 => some (.div t f)
  | 0x23 => some (.divu t f)
  | 0x24 => some (.mull t f)
  | 0x30 => some (.shl t f)
  | 0x31 => some (.shr t f)
  | 0x32 => some (.sar t f)
  | 0x33 => some (.rol t f)
  | 0x34 => some (.ror t f)
  | 0x35 => some (.neg t f)
  | 0x36 => some (.not t f)
  | 0x37 => some (.abs t f)
  | 0x38 => some (.tax t f)
  | 0x39 => some (.txa t f)
  | 0x3A => some (.tay t f)
  | 0x3B => some (.tya t f)
  | 0x3C => some (.txy t f)
  | 0x3D => some (.swapb t f)
  | 0x3E => some (.clz t f)
  | 0x40 => some (.jmp t f)
  | 0x41 => some (.jeq t f)
  | 0x42 => some (.jne t f)
  | 0x43 => some (.jlt t f)
  | 0x44 => some (.jge t f)
  | 0x45 => some (.jltu t f)
  | 0x46 => some (.jgeu t f)
  | 0x47 => some (.jvs t f)
  | 0x48 => some (.jvc t f)
  | 0x49 => some (.jmi t f)
  | 0x4A => some (.jpl t f)
  | 0x4B => some (.call t f)
  | 0x4C => some (.ret t f)
  | 0x4D => some (.jxnz t f)
  | 0x50 => some (.loop t f)
  | 0x51 => some (.lexit t f)
  | 0x60 => some (.syscall t f)
  | 0x61 => some (.tret t f)
  | 0x62 => some (.wait t f)
  | 0x63 => some (.fence t f)
  | 0x64 => some (.rdsr t f)
  | 0x65 => some (.wrsr t f)
  | 0x66 => some (.lseg t f)
  | 0x67 => some (.sleep t f)
  | 0x70 => some (.ldl t f)
  | 0x71 => some (.stc t f)
  | 0x80 => some (.vissue t f)
  | 0x81 => some (.vwait t f)
  | 0x82 => some (.vpoll t f)
  | 0x83 => some (.vcancel t f)
  | 0x90 => some (.dadd t f)
  | 0x91 => some (.dsub t f)
  | 0x92 => some (.dcmp t f)
  | 0x93 => some (.movb t f)
  | 0x94 => some (.fill t f)
  | 0xF0 => some (.bkpt t f)
  | _ => none

/-- The first word is that of a long instruction (R212). -/
def isLong (w : Word) : Bool := operandOk (opcodeOf w) (fieldsOf w) && (fieldsOf w).mode == 6

/-- The instruction of a thread's fetched words: total, an illegal first word decodes to ILLEGAL (R215); the second
word counts only for a long instruction (R212). -/
def decodeStem (t : Tid) (w second : Word) : Instr :=
  if operandOk (opcodeOf w) (fieldsOf w) then
    match stemOf t { fieldsOf w with long := if (fieldsOf w).mode == 6 then second else 0 } (opcodeOf w) with
    | some i => i
    | none => .illegal t w
  else .illegal t w

/-- The first word of an opcode and its fields (R210). -/
def encodeWord (op : Nat) (f : Operand) : Word :=
  BitVec.ofNat 32 (op * 0x1000000 + f.seg.toNat * 0x200000 + f.mode.toNat * 0x40000 + f.size.toNat * 0x10000 +
    f.disp.toNat)

/-- The words of a Stem instruction: one, or two in mode 6 (R210, R212); none for a command that is no instruction. -/
def encodeStem (i : Instr) : List Word :=
  match stemParts i with
  | some (op, _, f) => if f.mode == 6 then [encodeWord op f, f.long] else [encodeWord op f]
  | none =>
    match i with
    | .illegal _ w => [w]
    | _ => []

/-- The bytes of an instruction as memory holds them: words little-endian, in order (R211). -/
def wordBytes (w : Word) : List Byte :=
  [BitVec.ofNat 8 w.toNat, BitVec.ofNat 8 (w.toNat / 0x100), BitVec.ofNat 8 (w.toNat / 0x10000),
    BitVec.ofNat 8 (w.toNat / 0x1000000)]

end Sys2Proof
end

