-- ==== Sys2Proof/Config.lean ====
section
/-! DEFINITION. What a part or a board fixes and the spec leaves open: constants without a body, so that nothing proved
of the model rests on a value of theirs. -/

namespace Sys2Proof.Config

/-- The 64-bit UID in the OTP key store (R367; assumption log 3). -/
opaque otpUid : DWord
/-- The silicon revision level (GLB_ID.REV, R471; log 3). -/
opaque otpRev : Byte
/-- The grade: false PGV-7200-I, true PGV-7200-X (R1; log 3). -/
opaque otpGradeX : Bool
/-- KEYID of the image key (R367; log 3). -/
opaque otpKeyId : Byte
/-- The 256-bit image key (R367; log 3). -/
opaque otpImageKey : BitVec 256
/-- The 256-bit debug key seed (R367, R401; log 3). -/
opaque otpDebugSeed : BitVec 256
/-- Anti-rollback fuses blown when the model's run begins (R367, R368; log 3). -/
opaque otpArb : Fin 65
/-- The SHA-384 root-key hash, byte 0 in the top byte (R367, R383; log 3). -/
opaque otpRootHash : BitVec 384
/-- The bytes of the Boot ROM (R47, R224; log 4). -/
opaque bootRom : Nat → Byte
/-- The random source: the n-th byte drawn for a debug nonce (R401; log 5). -/
opaque nonceByte : Nat → Byte
/-- Clk from the start of a job to its first element, at most 64 (R94; log 6): the n-th draw. -/
opaque startLatency : Nat → Fin 65
/-- The CAUSE recorded for a remote access that its device answered with STATUS 1, or that timed out: R79 names none
(log 8): the n-th draw. -/
opaque remoteCause : Nat → Fin 8
/-- Detail and register bits of an event-log entry, which R359 names and no rule gives a value (log 9): the n-th draw. -/
opaque eventDetail : Nat → Word
/-- What an egress field takes when its slot cannot be read, or its SAFE has no conversion (log 11): the n-th draw. -/
opaque slotValue : Nat → DWord
/-- The data of a settings record converted from one schema to another (R379; log 17). -/
opaque convertRecord : Nat → Nat → List Byte → List Byte
/-- Fuses blown when a reset interrupts their programming, out of those due (R368; log 18): the n-th draw. -/
opaque fusesDone : Nat → Fin 65

/-- The rate that the time-aware end station sets, in ppm of the timebase's nominal rate plus 100, from the offset (R261, R416; log
47): the n-th draw. -/
opaque servoRate : Nat → Int → Fin 201

/-- What the code of R67 makes of errors beyond its reach: none seen, or a corrected or uncorrectable error of a device (log 71): the
n-th draw. -/
opaque eccBeyond : Nat → List (Fin 10) → Option (Bool × Fin 16)

/-- FAB_TWIN and FAB_WITNESS (register 0 and 1) of another member, by its UID and the epoch: R314 and R318 rest on them and no packet
of R295 carries them (log 72). -/
opaque memberReg : DWord → DWord → Nat → Word

/-- Eight-byte units that firmware copies before an idle window closes (R350): the spec gives no rate (log 25). -/
opaque idleCopy : Nat → Nat

end Sys2Proof.Config
end

