-- ==== Sys2Proof/Machine/State.lean ====
section
/-! DEFINITION. The state of the engine as plain data: every register, buffer, queue, mode and pin the spec gives it,
the log of what has left it, the queue of waiting commands, and the reasons a step could stop. The value written after
`:=` at each field is its value at reset. -/

namespace Sys2Proof.Machine

/-- A finite map kept as a list of (key, value) pairs, keys rising, nothing listed that an unlisted key reads as. -/
abbrev SMap (α : Type) := List (Nat × α)

/-- Two of a thing: the Ethernet ports E0 and E1. -/
structure Duo (α : Type) where
  x0 : α
  x1 : α
  deriving DecidableEq, Repr

/-- Four of a thing: Lichen ports, virtual channels, timers. -/
structure Quad (α : Type) where
  x0 : α
  x1 : α
  x2 : α
  x3 : α
  deriving DecidableEq, Repr

/-- Eight of a thing: Stem threads, Fronds, segment registers. -/
structure Oct (α : Type) where
  x0 : α
  x1 : α
  x2 : α
  x3 : α
  x4 : α
  x5 : α
  x6 : α
  x7 : α
  deriving DecidableEq, Repr

/-! ### Stem (07_stem_core.md, 09_traps_and_privilege.md) -/

/-- A segment descriptor as cached or captured (R185): `bad` says that a reserved bit was 1. -/
structure SegDesc where
  base : Nat := 0
  limit : Nat := 0
  r : Bool := false
  w : Bool := false
  x : Bool := false
  minpl : Nat := 0
  present : Bool := false
  bad : Bool := false
  deriving DecidableEq, Repr

/-- The reset descriptor of R186, through which T0 fetches until it first loads SG0: the Boot ROM. -/
def resetDesc : SegDesc :=
  { base := 0x300000000, limit := 0x3FFFF, r := true, w := false, x := true, minpl := 3, present := true, bad := false }

/-- A segment register: selector and cached descriptor (R183). -/
structure SegReg where
  sel : Half := 0
  desc : SegDesc := {}
  deriving DecidableEq, Repr

/-- The thread states of R178. -/
inductive TState where
  | stopped
  | active
  | waiting
  | halted
  | locked
  deriving DecidableEq, Repr

/-- What a WAITING thread waits for (R203, R202): a wake count, an instant in clk, or a job by its VJD address. -/
inductive WaitFor where
  | nothing
  | wake
  | sleep (due : Nat)
  | job (vjd : Nat)
  deriving DecidableEq, Repr

/-- A store-buffer entry (R192): the physical address and the bytes; `paired` marks the lower half of a split store,
which drains together with the entry after it. -/
structure StoreEntry where
  addr : Nat
  bytes : List Byte
  paired : Bool := false
  deriving DecidableEq, Repr

/-- A fetch-buffer slot (R182): a fetched word, or the failure of its fetch, taken when the instruction would issue. -/
inductive FetchSlot where
  | word (off : Nat) (w : Word)
  | fault (off : Nat) (trap : Nat) (detail : Nat)
  deriving DecidableEq, Repr

/-- An answer to a remote access of the instruction in progress: address, whether it was a write, STATUS of R294,
and the data bytes. -/
structure RemoteAnswer where
  addr : Nat
  write : Bool
  status : Nat
  data : List Byte
  deriving DecidableEq, Repr

/-- An instruction that waits for remote responses (R194, R307): the instruction, the tag in flight if any, and the
answers received so far. -/
structure RemoteWait where
  instr : Instr
  tag : Option Nat := none
  answers : List RemoteAnswer := []
  deriving DecidableEq, Repr

/-- A write of a register that waits for a descriptor in a remote window (R209, R225, R226): its origin, offset and value, the
tag in flight if any, and the answer received. -/
structure CtlWait where
  origin : Origin
  off : Nat
  val : Word
  tag : Option Nat := none
  answers : List RemoteAnswer := []
  deriving DecidableEq, Repr

/-- One Stem thread (R183, R192, R198, R235, R236). -/
structure Thread where
  /-- ACC, accumulator, 32 bits (R183) -/
  acc : Word := 0
  /-- ACX, accumulator extension, 32 bits (R183) -/
  acx : Word := 0
  /-- X index register, 32 bits (R183) -/
  x : Word := 0
  /-- Y index register, 32 bits (R183) -/
  y : Word := 0
  /-- PC, 32 bits (R183) -/
  pc : Word := 0
  /-- PSW, 32 bits (R183): C Z N V DV, IE DZE VTE DTE, PL, LA -/
  psw : Word := 0
  /-- LC loop count, 32 bits (R183) -/
  lc : Word := 0
  /-- LS loop start, 32 bits (R183) -/
  ls : Word := 0
  /-- LE loop end, 32 bits (R183) -/
  le : Word := 0
  /-- TSP_S supervisor trap stack pointer, 32 bits (R183) -/
  tspS : Word := 0
  /-- TSP_M machine trap stack pointer, 32 bits (R183) -/
  tspM : Word := 0
  /-- SG0-SG7 segment registers with cached descriptors (R183, R186) -/
  sg : Oct SegReg := ⟨{}, {}, {}, {}, {}, {}, {}, {}⟩
  /-- thread state (R178) -/
  st : TState := .stopped
  /-- what a WAITING thread waits for (R203) -/
  waitFor : WaitFor := .nothing
  /-- store buffer, four entries, oldest first (R192) -/
  sbuf : List StoreEntry := []
  /-- fetch buffer, four instruction words, oldest first (R182) -/
  fbuf : List FetchSlot := []
  /-- reservation of LDL: the 64-byte granule (R198) -/
  resv : Option Nat := none
  /-- remote access in progress (R194, R307) -/
  remote : Option RemoteWait := none
  /-- pending machine traps 0x0C-0x10 of this thread, one bit each (R235) -/
  mpend : Nat := 0
  /-- fault queue: VJD address and fault code, 16 entries (R236) -/
  vjq : List (Nat × Nat) := []
  /-- state to return to on release from HALTED (R406) -/
  haltFrom : TState := .active
  /-- a halt has been requested and not yet reached (R404) -/
  haltReq : Bool := false
  /-- debug step in progress: MODE of DBG_STEP (R406) -/
  step : Option Bool := none
  /-- the debug step has reached its end and the thread halts again (R406) -/
  stepDone : Bool := false
  /-- STMn_CTL.STOP was written while an instruction waits for a remote response (R209) -/
  stopReq : Bool := false
  deriving DecidableEq, Repr

/-! ### Vector jobs (04_vector_jobs.md) -/

/-- Where a job in flight stands (R85). -/
inductive JobSt where
  | held
  | queued
  | running
  | carried
  | armed
  deriving DecidableEq, Repr

/-- A pending subtree of a reduction in tree form (R116). -/
structure TreeEntry where
  val : DWord := 0
  idx : DWord := 0
  empty : Bool := true
  deriving DecidableEq, Repr

/-- The partial state of an operation that keeps one (R116, R170): the pending subtrees by level, or the exact
accumulator and its state bits; the flags of the partial state; the running count of COMPRESS, EXPAND and the
movement operations; the running segment of SEGSUM and MVDOT. -/
structure VCtx where
  levels : SMap TreeEntry := []
  accum : Int := 0
  stBits : Nat := 0
  flags : Nat := 0
  count : Nat := 0
  prev : DWord := 0
  deriving DecidableEq, Repr

/-- The rest of a strip in flight at a tick (R41): its first element and the one after its last, the Frond that runs it, and
the credits of step 5 that its uses have not drawn yet. -/
structure StripTail where
  first : Nat := 0
  stop : Nat := 0
  frond : Nat := 0
  credits : SMap Nat := []
  deriving DecidableEq, Repr

/-- A job in flight, with its captured descriptor and segment descriptors (R82, R102). -/
structure Job where
  /-- physical address of the VJD (R108) -/
  vjd : Nat := 0
  /-- the 32 captured descriptor words (R81, R82) -/
  words : List Word := []
  /-- captured segment descriptors by selector (R102) -/
  segs : List (Nat × SegDesc) := []
  /-- captured SG1 selector for the context area (R102) -/
  sg1 : Nat := 0
  /-- captured privilege level (R102) -/
  pl : Nat := 0
  /-- issuing thread, or the plan's owner (R236) -/
  owner : Option Nat := none
  /-- plan slot and entry of an instance of a frame plan (R110) -/
  plan : Option (Nat × Nat) := none
  /-- lead Frond of the gang, BASE (R95) -/
  base : Nat := 0
  /-- gang size G (R95) -/
  gang : Nat := 1
  /-- state of the job (R85) -/
  st : JobSt := .queued
  /-- admission order (R38) -/
  seq : Nat := 0
  /-- RI at issue or readmission, from which strips are counted (R94) -/
  ri0 : Nat := 0
  /-- first uncommitted element (FRDn_PROG) -/
  ri : Nat := 0
  /-- accrued flags, STAT bits 16-21 (R85) -/
  flags : Nat := 0
  /-- charge by account (R26-R33) -/
  charges : SMap Nat := []
  /-- use so far by account (R34) -/
  used : SMap Nat := []
  /-- the job is charged; a job admitted in Config is not (R43) -/
  charged : Bool := true
  /-- account whose failed top-up stalls the job (R32) -/
  stall : Option Nat := none
  /-- a strip has begun whose end the job has not reached (R41 step 5) -/
  inStrip : Bool := false
  /-- the rest of a strip that crossed a tick, with its credits of step 5 (R41) -/
  tail : Option StripTail := none
  /-- the overrun spore for the coming carry has been emitted at step 6 (R39) -/
  told : Bool := false
  /-- a lower class was admitted: stop at the next strip boundary (R38) -/
  preempt : Bool := false
  /-- T_DL has passed: stop at the strip boundary and be carried (R39) -/
  overrun : Bool := false
  /-- the job has been started at least once since its admission (R95) -/
  started : Bool := false
  /-- a plan entry whose spore was taken and that waits for queue room (R111) -/
  roomWait : Bool := false
  /-- lines of the last access of each stream, first and last, for the use of its accounts (R28, R31) -/
  lines : SMap (Nat × Nat) := []
  /-- chain forwarding: the source slots forwarded, the values the earlier job wrote, by address, and whether one was
  used (R99) -/
  fwdSlots : List Nat := []
  fwdVals : SMap Nat := []
  fwdUsed : Bool := false
  /-- partial state of the operation (R116) -/
  ctx : VCtx := {}
  /-- lines of remote operands received, lines that failed with their STATUS, and lines requested (R33, R307) -/
  rdata : SMap (List Byte) := []
  rfail : SMap Nat := []
  rwait : List Nat := []
  /-- bytes of W for a remote device that the strip in execution has written and that leave together (R307) -/
  wbuf : SMap Nat := []
  deriving DecidableEq, Repr

/-- One entry of a frame plan (R44, R110) with its start input (R250, R111). -/
structure PlanEntry where
  job : Job := {}
  chan : Nat := 0
  atTick : Bool := false
  lso : Nat := 0
  pend : Nat := 0
  arrived : Nat := 0
  taken : Nat := 0
  satcnt : Nat := 0
  ovf : Bool := false
  deriving DecidableEq, Repr

/-- What a Frond keeps between jobs: the W of the job that ran last with the values written by address, for chain forwarding
(R99), and whether the debugger halted it or is about to (R404). -/
structure Frond where
  lastW : Option (List Word × Nat × Nat × Nat × Nat) := none
  lastVals : SMap Nat := []
  halted : Bool := false
  haltReq : Bool := false
  deriving DecidableEq, Repr

/-! ### Tick Ledger (02_frame_and_ledger.md) -/

/-- One ledger account (R23): grant, pool, the four sums of the open frame (R42) and of the last closed one. -/
structure Acct where
  grant : Nat := 0
  pool : Int := 0
  granted : Nat := 0
  consumed : Nat := 0
  refunded : Nat := 0
  expired : Int := 0
  audGranted : Nat := 0
  audConsumed : Nat := 0
  audRefunded : Nat := 0
  audExpired : Int := 0
  deriving DecidableEq, Repr

/-- The Tick Ledger's state beside its registers. -/
structure Ledger where
  /-- LDG_FRAME, 64 bits (R15, R46) -/
  frame : DWord := 0
  /-- the accounts by resource index (R23) -/
  accts : SMap Acct := []
  /-- LDG_DERATE.REF as captured at the frame's tick (R21, R66) -/
  capRef : Nat := 0
  /-- LDG_DERATE.SCRUB as captured at the frame's tick (R21) -/
  capScrub : Nat := 8
  /-- LDG_VCSHARE as captured at the frame's tick (R21) -/
  capVc : Word := 0x384
  /-- clk of the last tick (R20) -/
  tickClk : Nat := 0
  /-- a frame is open: phase counts from tickClk -/
  open_ : Bool := false
  /-- count of the generator at which its period began (R15) -/
  genBase : Nat := 0
  /-- a tick instant has been given and not yet acted on -/
  tickDue : Bool := false
  /-- the selected source is lost (R16-R18) -/
  lost : Bool := false
  /-- LDG_TICKWIN of the window of the coming tick (R21) -/
  winNow : Nat := 200
  /-- instant of the returning source, as a count of the generator, while that supplies holdover (R18) -/
  back : Option Nat := none
  /-- LDG_TICKOUT as applied at the last tick (R19, R21) -/
  tickOutEn : Bool := true
  tickOutWidth : Nat := 10
  /-- admission order counter (R38) -/
  seq : Nat := 0
  /-- the plan slots (R45) -/
  slot0 : List PlanEntry := []
  slot1 : List PlanEntry := []
  /-- active slot, LDG_PLANSTAT.ACTSLOT (R45) -/
  actSlot : Nat := 0
  /-- a swap is pending, LDG_PLANSTAT.PENDING (R45) -/
  swapPending : Bool := false
  /-- the active slot holds a plan that is armed each frame (R111) -/
  planActive : Bool := false
  /-- LDG_FRAME of the last swap (PLAN_QUERY) -/
  lastSwap : DWord := 0
  /-- frames with PLANSKIP and with LATE since the previous PLAN_QUERY (R351) -/
  skipFrames : Nat := 0
  lateFrames : Nat := 0
  /-- PLANSKIP or LATE already counted in this frame -/
  skipSeen : Bool := false
  lateSeen : Bool := false
  /-- a thread or Frond was halted between this frame's tick and its T_DL (R408) -/
  debugSeen : Bool := false
  /-- this frame is DEBUG_SKIPPED (R408) -/
  skipped : Bool := false
  /-- T_CUT, T_DL, T_OUT of the frame have acted -/
  cutDone : Bool := false
  dlDone : Bool := false
  outDone : Bool := false
  deriving DecidableEq, Repr

/-! ### Memory and matrix (03_memory_and_matrix.md) -/

/-- The power states of a bank (R58). -/
inductive BankPower where
  | on
  | retain
  | off
  deriving DecidableEq, Repr

/-- The error state of a stored doubleword (R56) or line (R67): correctable, uncorrectable, or poisoned by a partial
write; for DDR5 with the failing device, 15 when it is not isolated. -/
inductive EccState where
  | single (device : Nat)
  | double (device : Nat)
  | poison
  deriving DecidableEq, Repr

/-- A request waiting at a target port or held at its master (R71-R77). -/
structure MatrixReq where
  master : Nat := 0
  thread : Option Nat := none
  target : Nat := 0
  addr : Nat := 0
  data : List Byte := []
  write : Bool := true
  ownWindow : Bool := false
  charged : Bool := false
  machine : Bool := false
  since : Nat := 0
  /-- GLB_REMAP.REMAP as the request entered (R49), the home line it resolved to then (R77), and a home path (R52) -/
  remap : Bool := false
  line : Nat := 0
  homePath : Bool := false
  deriving DecidableEq, Repr

/-- A granted request whose response the master has not taken (R75). -/
structure MatrixResp where
  master : Nat := 0
  thread : Option Nat := none
  target : Nat := 0
  write : Bool := true
  line : Nat := 0
  ownWindow : Bool := false
  deriving DecidableEq, Repr

/-- The bus matrix's queues. -/
structure Matrix where
  /-- requests waiting at target ports, oldest first (R73) -/
  waiting : List MatrixReq := []
  /-- requests held at their master's interface (R77) -/
  held : List MatrixReq := []
  /-- reserved responses not yet taken (R75) -/
  responses : List MatrixResp := []
  /-- master last granted, by target (R73) -/
  lastGrant : SMap Nat := []
  deriving DecidableEq, Repr

/-- One bank beside its registers: the state it is in, its repair queue with the queued doublewords written since, and the
frame of its last scrub (R57, R58). -/
structure Bank where
  actual : BankPower := .on
  clearing : Bool := false
  repair : List Nat := []
  rewritten : List Nat := []
  scrubbed : Option Nat := none
  deriving DecidableEq, Repr

/-- An access through a port of a bank (R52, R54): the bank, whether by port A, the storage address, and for a write the bytes
that stood there before. -/
structure PortAccess where
  bank : Nat := 0
  portA : Bool := false
  addr : Nat := 0
  old : List Byte := []
  deriving DecidableEq, Repr

/-- Memory: bytes, error states, flash, banks, DDR5 channels. -/
structure Memory where
  /-- bytes of banks and DDR5 by physical home address (R47); an unlisted byte reads 0 -/
  cells : List Host.Cell := []
  /-- error state by doubleword index (address / 8) of a bank or DDR5 doubleword (R56, R67) -/
  ecc : SMap EccState := []
  /-- bytes of the xSPI flash by offset (R361); an unlisted byte reads 0xFF -/
  flash : List Host.Cell := []
  /-- installed flash size in bytes as the update engine uses it (R361) -/
  flashSize : Nat := 0
  /-- banks B0-B17 by number (R58) -/
  banks : SMap Bank := []
  /-- DDR5 channels in retraining and the clk it began (R69) -/
  retraining : SMap Nat := []
  /-- DDR5 channels with a retraining request or trigger waiting (R69) -/
  retrainReq : List Nat := []
  /-- temperature at each channel's last training (R69) -/
  trainTemp : SMap Int := []
  /-- corrected errors of each channel in a second: the second, and the count (R69) -/
  ceRate : SMap (Nat × Nat) := []
  /-- DDR5 channels whose count of corrected errors passed CELIM in a second and that have not been retrained since (R69) -/
  ceTrig : List Nat := []
  /-- lines that patrol scrub has read in this pass, by subchannel (R68) -/
  patrol : SMap Nat := []
  /-- line that patrol scrub has read corrected and not yet written back, by subchannel (R68) -/
  patrolFix : SMap Nat := []
  /-- accesses through bank ports in the present clk, and that clk (R54) -/
  ports : List PortAccess := []
  portClk : Nat := 0
  /-- refreshes issued by channel (R66) -/
  refreshes : SMap Nat := []
  /-- DIMM sensors read above 85 degrees and not yet below 80 on every channel (R66) -/
  hot : Bool := false
  /-- the DIMMs are in self-refresh (R442) -/
  selfRefresh : Bool := false
  /-- REF to apply from the next tick (R66) -/
  refNext : Nat := 0
  deriving DecidableEq, Repr

/-! ### Spore channels (10_spore_channels.md) -/

/-- A producer event (R246): kind, the parameter its slots must hold, the only channel it may use (if one is named),
its hop count and origin channel where a relay or a remote device produced it (R254), and how many. -/
structure Event where
  kind : Nat := 0
  param : Nat := 0
  chan : Option Nat := none
  hop : Nat := 0
  origin : Option Nat := none
  machine : Bool := true
  count : Nat := 1
  deriving DecidableEq, Repr

/-- Spores carried by a channel and not yet delivered (R247). -/
structure Carried where
  chan : Nat := 0
  hop : Nat := 0
  origin : Nat := 0
  count : Nat := 1
  deriving DecidableEq, Repr

/-- The spore channel block beside its registers. -/
structure Spores where
  /-- producer events of this clk, in order (R245) -/
  events : List Event := []
  /-- spores on the channels (R247) -/
  carried : List Carried := []
  /-- hop and origin of the counts pending at each task input, oldest first (R254) -/
  hops : SMap (List (Nat × Nat)) := []
  /-- counts of the plan start inputs whose place holds no entry, by 1024 x slot + entry (R249, R250) -/
  planKept : SMap PlanEntry := []
  /-- hop and origin of the spore that each COUNT input took last (R254) -/
  lastTaken : SMap (Nat × Nat) := []
  deriving DecidableEq, Repr

/-! ### Field I/O (11_field_io.md) -/

/-- A field value staged or committed (R268, R269). -/
structure SlotWrite where
  slot : Nat := 0
  value : DWord := 0
  quality : Nat := 0
  deriving DecidableEq, Repr

/-- A received Ethernet frame on its way to a slot (R264). -/
structure RxFrame where
  port : Nat := 0
  bytes : List Byte := []
  ts : Word := 0
  /-- matched stream (R265) -/
  stream : Option Nat := none
  seqTag : Option Nat := none
  /-- extracted fields (R267) -/
  fields : List SlotWrite := []
  short : Bool := false
  /-- rule results held from landing to acceptance (R278) -/
  held : List (Nat × Bool) := []
  fcsGood : Bool := false
  deriving DecidableEq, Repr

/-- 802.1CB vector recovery state of a stream (R266). -/
structure Recovery where
  take : Bool := true
  seq : Nat := 0
  history : List Bool := []
  deriving DecidableEq, Repr

/-- A frame queued for transmission: its template, class, whether it is express whatever its class (R263, R286), the instant of a
scheduled release (R285), and its bytes. In transmission `express` says how it was begun. -/
structure TxFrame where
  template : Nat := 0
  tc : Nat := 0
  express : Bool := false
  due : Option Nat := none
  bytes : List Byte := []
  fragment : Bool := false
  deriving DecidableEq, Repr

/-- An Ethernet port beside its registers (R259-R263). -/
structure EthPort where
  /-- frames received and waiting for their FCS result, oldest first (R264) -/
  rx : List RxFrame := []
  /-- bytes held of the 128 KiB receive buffer (R260) -/
  rxBytes : Nat := 0
  /-- frames queued for transmission (R285) -/
  txq : List TxFrame := []
  /-- frame in transmission -/
  sending : Option TxFrame := none
  /-- operational gate list: gates and interval, cycle in 10 ns, base in ns, entry now in force (R262) -/
  oper : List (Nat × Nat) := []
  operCycle : Nat := 100000
  operBase : Nat := 0
  operIdx : Nat := 0
  operSum : Nat := 0
  /-- Sync reception: the time of the last accepted one in 1/16 ns, interval in ns, consecutive good offsets (R261) -/
  lastSync : Option Nat := none
  syncInterval : Nat := 125000000
  goodSyncs : Nat := 0
  /-- peer delay, ns (R261) -/
  peerDelay : Nat := 0
  deriving DecidableEq, Repr

/-- A stream entry (R265). -/
structure StreamEntry where
  kind : Nat := 0
  vlan : Bool := false
  elim : Bool := false
  ports : Nat := 0
  nfield : Nat := 0
  dest : Nat := 0
  vid : Nat := 0
  ip : Nat := 0
  udp : Nat := 0
  first : Nat := 0
  hist : Nat := 0
  resetMs : Nat := 0
  deriving DecidableEq, Repr

/-- A field entry, for ingest or egress (R267, R283). -/
structure FieldEntry where
  slot : Nat := 0
  offset : Nat := 0
  ty : Nat := 0
  be : Bool := false
  bitpos : Nat := 0
  bitlen : Nat := 1
  bsigned : Bool := false
  scale : Bool := false
  fallback : Bool := false
  gain : DWord := 0
  ofs : DWord := 0
  safe : DWord := 0
  deriving DecidableEq, Repr

/-- An FIU rule (R276) with its state and count of actions (R277, FIU_RSTATE). -/
structure FiuRule where
  slot : Nat := 0
  cmp : Nat := 0
  actClr : Bool := false
  spore : Bool := false
  tmpl : Bool := false
  chan : Nat := 0
  template : Nat := 0
  byte : Nat := 0
  width : Nat := 0
  bit : Nat := 0
  trig : Bool := false
  t1 : DWord := 0
  t2 : DWord := 0
  h : Word := 0
  vset : Nat := 0
  vclr : Nat := 0
  asserted : Bool := false
  acts : Nat := 0
  deriving DecidableEq, Repr

/-- An egress template (R282) with its current bytes, the bytes of its last frame composed in Run (R287), and its
sequence number (R288). -/
structure Template where
  len : Nat := 60
  en : Bool := false
  sched : Bool := false
  tc : Nat := 0
  ports : Nat := 0
  rtag : Bool := false
  nfield : Nat := 0
  relofs : Nat := 0
  first : Nat := 0
  bytes : List Byte := []
  runBytes : Option (List Byte) := none
  seq : Nat := 0
  released : Bool := false
  deriving DecidableEq, Repr

/-- Sorter, Signal Image, FIU and Egress Composer beside their registers. -/
structure FieldIo where
  eth : Duo EthPort := ⟨{}, {}⟩
  /-- stream table (R265) and field table by index (R267) -/
  streams : SMap StreamEntry := []
  fields : SMap FieldEntry := []
  /-- input slots, rising (R271) -/
  inputSlots : List Nat := []
  recovery : SMap Recovery := []
  /-- time of the last accepted frame of a stream in 1/16 ns (R266) -/
  lastAccept : SMap Nat := []
  /-- accepted frames waiting to commit, in order of acceptance (R270) -/
  commits : List RxFrame := []
  /-- input slots committed in the open frame, and in the closing frame, still to be copied (R274) -/
  committed : List Nat := []
  toCopy : List Nat := []
  /-- slots committed in the last closed frame, and those of the frame before it whose FRESH still stands in the half that is
  live now (R274) -/
  lastFrame : List Nat := []
  stale : List Nat := []
  /-- the hold ended with the window and no tick came (R273) -/
  holdEnded : Bool := false
  /-- rules by index (R276), the FIU's spore queue (R279) -/
  rules : SMap FiuRule := []
  fiuQueue : List Nat := []
  /-- templates and egress fields (R282, R283) -/
  templates : SMap Template := []
  egrFields : SMap FieldEntry := []
  /-- synchronisation of the end station (R261) -/
  synced : Bool := false
  slave : Nat := 0
  deriving DecidableEq, Repr

/-! ### Lichen fabric (12_lichen_fabric.md) -/

/-- The credit accounts of one virtual channel (R300). -/
structure VcAcct where
  cr : Nat := 0
  tx : Nat := 0
  rxc : Nat := 0
  rx : Nat := 0
  ret : Nat := 0
  occ : Nat := 0
  pend : Nat := 0
  deriving DecidableEq, Repr

/-- A Lichen port beside its registers. -/
structure LichenPort where
  vc : Quad VcAcct := ⟨{}, {}, {}, {}⟩
  /-- next SEQ to send, next SEQ expected, last ACK sent for (R297) -/
  txSeq : Nat := 0
  rxNext : Nat := 0
  nakSent : Bool := false
  /-- retry buffer: SEQ and packet, oldest first (R297) -/
  retry : List (Nat × Packet) := []
  /-- packets to resend, in order (R297) -/
  resend : List (Nat × Packet) := []
  /-- clk at which ACK last advanced (R297), rounds resent without progress (R291) -/
  ackClk : Nat := 0
  rounds : Nat := 0
  /-- packets waiting to be sent (R296) -/
  txq : List Packet := []
  /-- weighted round-robin credit of VC1-VC3 (R296) -/
  wrr : Nat := 0
  /-- packets received and not yet served (R296) -/
  rxq : List Packet := []
  /-- AUDIT waiting for its MARK (R300) -/
  audit : Option (List (Nat × Nat × Nat) × Nat) := none
  /-- last eight delay measurements in 1/16 ns (R311) -/
  delays : List Nat := []
  /-- consecutive failed retrains (R291), time in 1/16 ns at which RETRAIN began -/
  failed : Nat := 0
  retrainAt : Nat := 0
  /-- times in 1/16 ns of uncorrectable FEC codewords, newest first (R291) -/
  fecAt : List Nat := []
  /-- RESYNC has been sent in the retrain under way (R298) -/
  resyncSent : Bool := false
  /-- departure t1 of the DELAY whose reply is awaited (R311) -/
  delayT1 : Option Nat := none
  /-- what the partner's last ADVERT showed: its own PRIO, the best PRIO, UID and hops, mode, HELD, and when it came (R295, R303) -/
  advOwn : Nat := 255
  advAt : Nat := 0
  advPrio : Nat := 255
  advUid : DWord := 0
  advHops : Nat := 0
  advMode : Nat := 0
  advHeld : Bool := false
  advSeen : Bool := false
  deriving DecidableEq, Repr

/-- Who waits for a remote response (R307, R310). -/
inductive RemoteUser where
  | thread (t : Nat)
  | control
  | jobWrite (vjd : Nat) (master : Nat)
  | atom (n : Nat)
  | job (vjd : Nat)
  | host (len : Nat)
  | usb
  | mailbox (n : Nat)
  | debug
  | posted (master : Nat)
  deriving DecidableEq, Repr

/-- An outstanding remote request of this device (R307, R309). -/
structure Outstanding where
  tag : Nat := 0
  dst : Nat := 0
  op : Nat := 0
  len : Nat := 0
  addr : Nat := 0
  port : Nat := 0
  since : Nat := 0
  lines : Nat := 1
  user : RemoteUser := .posted 0
  deriving DecidableEq, Repr

/-- A rejoin region (R316). -/
structure RejoinRegion where
  addr : Nat := 0
  len : Nat := 0
  srcDev : Nat := 0
  srcAddr : Nat := 0
  deriving DecidableEq, Repr

/-- A member the keystone knows (R303, R304). -/
structure MemberInfo where
  uid : DWord := 0
  weight : Nat := 0
  pin : Bool := false
  pinId : Nat := 0
  prevId : Nat := 255
  prevQuorate : Bool := false
  links : List (Nat × DWord) := []
  deriving DecidableEq, Repr

/-- The fabric domain beside its registers. -/
structure Fabric where
  ports : Quad LichenPort := ⟨{}, {}, {}, {}⟩
  /-- current epoch, 64 bits (R303) -/
  epoch : DWord := 0
  /-- best keystone known: PRIO, UID, hops, port (R303) -/
  bestPrio : Nat := 255
  bestUid : DWord := 0
  bestHops : Nat := 0
  bestPort : Option Nat := none
  /-- MEMBER reports collected in this epoch (R303) -/
  members : List MemberInfo := []
  /-- device IDs assigned in this epoch (R304) -/
  ids : List (DWord × Nat) := []
  /-- ROUTE table held for its activation frame (R306) -/
  pendingRoute : Option (DWord × List Word) := none
  /-- quorum decision held, and the one last applied (R315) -/
  decision : Option QuorumDecision := none
  applied : Option (Bool × Nat) := none
  ticksNoDecision : Nat := 0
  /-- re-entry frame named by the keystone (R317) -/
  reentry : DWord := 0
  /-- the member is in Hold for want of quorum (R315) -/
  quorumHold : Bool := false
  /-- DFRAME of the last tick (FAB_DFRAME) -/
  dframe : DWord := 0
  /-- next domain tick instant in 1/16 ns, once a TICK has named it (R312) -/
  tickAt : Option (Nat × DWord) := none
  /-- rejoin regions, and bytes of the present region written in this idle window (R316) -/
  regions : List RejoinRegion := []
  copied : Nat := 0
  /-- keystone: device IDs of Hold members whose regions are not all done; the component has Hold members and no member in Run; what
  it has to tell them waits for the routes (R317) -/
  rejoinWait : List Nat := []
  norun : Bool := false
  rejoinTell : Bool := false
  /-- copy of a region as REJOIN last reported it: 256 x device + region to 1 started, 2 done, 3 failed (R295, R316) -/
  copyState : SMap Nat := []
  /-- a twin's digests have matched since its regions were copied (R317) -/
  matched : Bool := false
  /-- twin regions: address, length (R319) -/
  twinRegions : List (Nat × Nat) := []
  /-- own digest sent this frame; peer digest received, with its DFRAME (R319) -/
  ownDigest : Option DWord := none
  peerDigest : Option (DWord × DWord) := none
  digestJudged : Bool := false
  /-- enter Hold at the next tick by twin policy (R319) -/
  twinHold : Bool := false
  /-- a decision has named this device's twin pair: each has EN and names the other (R318) -/
  paired : Bool := false
  /-- ticks since the lead was seen absent or in Hold (R320) -/
  leadGone : Option Nat := none
  /-- outstanding remote requests and the next TAG (R294, R309) -/
  outstanding : List Outstanding := []
  nextTag : Nat := 0
  /-- responses that came after their timeout (R309) -/
  lateResponses : Nat := 0
  /-- FAB_INT bits set since the previous FABRIC_STATUS (R353) -/
  intSince : Nat := 0
  deriving DecidableEq, Repr

/-! ### Host interface, firmware, update (13, 14) -/

/-- A region command in progress (R349, R350): its copy (0 WRITE, 1 READ, 2 FILL), ranges, bytes done, idle windows used and
the frame of the last one, the frame it began in, the elements of its COPY job in flight and that job's remote failure. -/
structure RegionWork where
  kind : Nat := 0
  dst : Nat := 0
  src : Nat := 0
  len : Nat := 0
  cls : Nat := 0
  idle : Bool := false
  limit : Nat := 1000
  done : Nat := 0
  windows : Nat := 0
  lastWindow : Option Nat := none
  start : Nat := 0
  issued : Option Nat := none
  remote : Nat := 0
  deriving DecidableEq, Repr

/-- A USB memory request that waits for a remote response (R326, R327): lines still to do, data written or read. -/
structure UsbWork where
  tag : Nat := 0
  write : Bool := false
  todo : List (Nat × Nat) := []
  data : List Byte := []
  answer : Option (Nat × List Byte) := none
  deriving DecidableEq, Repr

/-- A mailbox command accepted and waiting to publish (R348, R350, R351, R357). -/
inductive MailboxWait where
  | region (w : RegionWork)
  | setMode (target : Nat)
  | planActivate
  | taskStop (t : Nat)
  deriving DecidableEq, Repr

/-- The host interface beside its registers. -/
structure HostIf where
  /-- staging words of MBXn_RESw, by 32 n + w (R338) -/
  staging : SMap Word := []
  /-- MSI-X table words, by 4 v + w; an unlisted vector-control word is masked (R329, R333) -/
  msix : SMap Word := []
  /-- MSI-X pending bits (R329) -/
  msixPending : Nat := 0
  /-- MSI-X enable of the capability (R334) -/
  msixEn : Bool := false
  /-- vectors 16-19 and publishes since the last EP3 report (R327) -/
  ep3 : Nat := 0
  /-- commands accepted whose publish waits, by mailbox -/
  waits : SMap MailboxWait := []
  /-- remote answers that firmware has for the command in a mailbox, and mailboxes that wait for one -/
  answers : SMap (List RemoteAnswer) := []
  asked : List Nat := []
  /-- USB memory request in progress -/
  usb : Option UsbWork := none
  /-- blocks of remote reads through the window that wait for room under the limit of R74: address and length, oldest first -/
  reads : List (Nat × Nat) := []
  deriving DecidableEq, Repr

/-- A settings record (R378). -/
structure SettingsRec where
  key : Nat := 0
  schema : Nat := 0
  data : List Byte := []
  deriving DecidableEq, Repr

/-- Resident firmware's own state, kept in the firmware area of B16 (R342, R357-R359, R377, R379). -/
structure Firmware where
  /-- an image is loaded and resident firmware serves the mailboxes (R342) -/
  loaded : Bool := false
  /-- Fiddlehead serves them instead (R342) -/
  fiddlehead : Bool := false
  imgVer : Word := 0
  schMin : Nat := 0
  schMax : Nat := 0
  schOut : Nat := 0
  fwArea : Nat := 0
  /-- descriptors entered for tasks: thread, index in the descriptor table (R357) -/
  descs : List (Nat × Nat) := []
  /-- B16 ranges given to tasks: thread, offset, length (R357) -/
  taskMem : List (Nat × Nat × Nat) := []
  /-- settings store: copy in use, GEN, schema, records (R378, R379) -/
  setCopy : Nat := 0
  setGen : Nat := 0
  setSchema : Nat := 0
  settings : List SettingsRec := []
  /-- event log entries: index, timebase, word 3 (R359), and the next index -/
  events : List (Nat × DWord × Word) := []
  nextEvent : Nat := 0
  /-- LDG_GUARD bits set since the previous GET_STATUS (R347) -/
  guardSince : Nat := 0
  /-- LDG_FRAME at the last mode transition (GET_MODE) -/
  transFrame : DWord := 0
  deriving DecidableEq, Repr

/-- A source of an update (R369). -/
inductive UpdSource where
  | host
  | fabric
  deriving DecidableEq, Repr

/-- The update engine and key store beside their registers. -/
structure Update where
  holder : Option UpdSource := none
  coSource : Option UpdSource := none
  /-- failed sources whose blocks are refused (R371) -/
  failedHost : Bool := false
  failedFab : Bool := false
  /-- header being staged, its digest, and the units received (R370, R371) -/
  header : List Byte := []
  plen : Nat := 0
  units : List Nat := []
  /-- time of the last accepted block in 1/16 ns (R373) -/
  lastBlock : Nat := 0
  session : Nat := 0
  /-- fuses blown beyond the OTP count at power-up (R368), target of programming in progress -/
  fusesBlown : Nat := 0
  fuseTarget : Nat := 0
  /-- Run minutes counted for the trial: time of the last whole minute in 1/16 ns (R380) -/
  minuteAt : Nat := 0
  /-- RESULT statuses received by the keystone: device, status (R374) -/
  results : List (Nat × Nat) := []
  deriving DecidableEq, Repr

/-! ### Self-test, debug, counters, power, pins (15-19) -/

/-- The BIST engine beside its registers. -/
structure Bist where
  /-- next bank region, and next segment of each Frond (R389, R391) -/
  nextRegion : Nat := 0
  nextSegment : SMap Nat := []
  /-- kinds run in this idle window (R388) -/
  doneBank : Bool := false
  doneFrond : Bool := false
  doneAna : Bool := false
  /-- items passed in this coverage cycle: (kind, unit, item) -/
  covered : List (Nat × Nat × Nat) := []
  /-- consecutive aborts by region, and regions skipped for the cycle (R390) -/
  aborts : SMap Nat := []
  skippedRegions : List Nat := []
  /-- units warned in this cycle (R390, R392) -/
  warned : List Nat := []
  /-- checks to retry: kind, unit, item, first failure code (R395) -/
  retry : List (Nat × Nat × Nat × Nat) := []
  /-- frames since the cycle began (R394) -/
  cycleFrames : Nat := 0
  /-- a fatal failure waits for the next tick (R396) -/
  fatal : Bool := false
  deriving DecidableEq, Repr

/-- The debug port and trace beside their registers. -/
structure Debug where
  /-- DBGACC access in progress or done: STATUS and data (R399) -/
  status : Nat := 0
  data : Word := 0
  /-- offset of a read that waits for FAB_ATOMn BUSY to clear (R310, R399) -/
  waitRead : Option Nat := none
  /-- nonce is fresh (R401) -/
  fresh : Bool := false
  /-- DBG_RESP words (R401) -/
  resp : SMap Word := []
  /-- time in 1/16 ns at which the post-failure delay ends (R402) -/
  waitUntil : Nat := 0
  /-- a halt is in progress: not every named unit has stopped (R404) -/
  halting : Bool := false
  /-- trace buffer bytes, 8 KiB (R414), packets since SYNC, packets lost -/
  trace : List Byte := []
  sinceSync : Nat := 0
  lostPackets : Nat := 0
  deriving DecidableEq, Repr

/-- Performance counters beside their registers. -/
structure Pmc where
  /-- clk after the last one in which an EDGE counter's condition held, by counter (R419) -/
  lastHeld : SMap Nat := []
  /-- bytes moved in the open window, by window (R424) -/
  bytes : SMap Nat := []
  /-- selection in force for the open window (R424) -/
  sel : SMap Word := []
  /-- time in 1/16 ns at which the open window began -/
  winAt : Nat := 0
  deriving DecidableEq, Repr

/-- Power, clocks and modes beside their registers. -/
structure Power where
  /-- VIN in mV at the balls -/
  vin : Nat := 0
  /-- the rails are up and the engine has left Off (R434) -/
  up : Bool := false
  /-- TEST_EN was high at VIN valid (R458) -/
  testHold : Bool := false
  /-- SAFE_N asserted (R435, R440); while VIN is absent R12 leaves its level undefined, and the model holds it asserted (DESIGN
  CHOICE, log 1) -/
  safeN : Bool := true
  /-- LOCKUP_N asserted (R242) -/
  lockupN : Bool := false
  /-- the thread whose lockup raised the machine trap 0x0F that is pending, and the trap that failed to enter (R228) -/
  lockedBy : Option (Nat × Nat) := none
  /-- transition requested: target mode, cause in the GET_MODE encoding (R437) -/
  request : Option (Nat × Nat) := none
  /-- Safe entry pending: cause (R437) -/
  safePending : Option Nat := none
  /-- timebase at step 5 of Dormant entry, 1/16 ns (R443) -/
  dormantTb : Nat := 0
  /-- hottest sensor, degrees (R444) -/
  tj : Int := 0
  /-- throttle level (R445) -/
  level : Nat := 0
  /-- debug failure count and LOCKOUT, kept in the always-on domain (R402) -/
  fails : Nat := 0
  lockout : Bool := false
  deriving DecidableEq, Repr

/-- A timer beside its registers (R417): running, and the time left in 1/16 ns. -/
structure Timer where
  run : Bool := false
  left : Nat := 0
  deriving DecidableEq, Repr

/-- Watchdog (R409): time left in 1/16 ns; whether the pre-bite was raised. -/
structure Watchdog where
  left : Nat := 0
  prebitten : Bool := false
  deriving DecidableEq, Repr

/-- Pins and the management target (19_package_and_electrical.md). -/
structure Pins where
  /-- levels of the GPIO balls (R467) -/
  gpio : Nat := 0
  /-- the I2C register pointer, the refreshed values, the latched byte (R466) -/
  ptr : Nat := 0
  mgt : List Byte := []
  latch06 : Option Byte := none
  deriving DecidableEq, Repr

/-- What leaves the engine, in order: the model's own record of outputs. -/
inductive Out where
  | tickOut (width : Nat)
  | ethFrame (port : Nat) (template : Nat) (bytes : List Byte)
  | gptp (port : Nat) (kind : Nat)
  | packet (port : Nat) (bytes : List Byte)
  | control (port : Nat) (kind : Nat) (hdr : LinkHeader) (fields : List Nat)
  | domain (port : Nat) (subtype : Nat) (words : List Nat)
  | msix (vector : Nat)
  | readCompletion (status : Nat) (data : List Byte)
  | postedError
  | usb (status : Nat) (tag : Nat) (data : List Byte)
  | ep3 (mask : Nat)
  | readData (v : Word)
  | busError (cause : Nat)
  | trace (bytes : List Byte)
  | i2c (b : Byte)
  | jtag (status : Nat) (data : Word)
  deriving DecidableEq, Repr

/-- The offset at which T0 starts: the first word of the Boot ROM (R178, R224). -/
def bootEntry : Word :=
  BitVec.ofNat 32 ((Config.bootRom 0).toNat + (Config.bootRom 1).toNat * 0x100 + (Config.bootRom 2).toNat * 0x10000 +
    (Config.bootRom 3).toNat * 0x1000000)

/-- The state of the engine. -/
structure State where
  /-- CORE_CLK cycles since reset (R3) -/
  clk : Nat := 0
  /-- elapsed time in 1/16 ns, by which bounds in µs, ms and s are measured (R3); unlike the timebase it never steps -/
  now : Nat := 0
  /-- timebase in 1/16 ns (R416) -/
  tb : Nat := 0
  /-- timebase held still by a large negative offset: 1/16 ns still to wait (R416) -/
  tbHold : Nat := 0
  /-- rate of the timebase in ppm of its nominal rate, and the part of 1/16 ns not yet counted, in millionths (R261, R416) -/
  tbRate : Int := 0
  tbPart : Nat := 0
  /-- the generator's counter in 1/16 ns: at the timebase's rate, never stepped or held (R15) -/
  gen : Nat := 0
  /-- the register file by offset from CS_BASE (R4, R5): an unlisted register holds its reset value -/
  csr : SMap Word := []
  /-- registers that an event has changed in the present clk with their values before it, the bits or amounts that the events
  of that clk brought, and that clk (R6) -/
  events : SMap Word := []
  brought : SMap Word := []
  eventClk : Nat := 0
  /-- high words latched by low-word reads: requester, offset of the high word, value (R7) -/
  latches : List (Nat × Nat × Word) := []
  /-- the Stem's threads T0-T7 (R178) -/
  threads : Oct Thread :=
    ⟨{ st := .active, pc := bootEntry, psw := 0x3000, sg := ⟨{ sel := 0, desc := resetDesc }, {}, {}, {}, {}, {}, {}, {}⟩ },
      {}, {}, {}, {}, {}, {}, {}⟩
  /-- trap segments cached at the write of TRP_MTVS, TRP_STVS, TRP_MSTK, TRP_SSTK (R225, R226) -/
  mtvs : SegDesc := {}
  stvs : SegDesc := {}
  mstk : SegDesc := {}
  sstk : SegDesc := {}
  /-- register writes that wait for a remote descriptor, oldest first (R209, R225, R226) -/
  ctlWaits : List CtlWait := []
  /-- machine traps pending with no thread to take them (R235) -/
  undelivered : Nat := 0
  /-- the jobs in flight: held, queued, running, carried and armed (R108-R118) -/
  jobs : List Job := []
  /-- the Fronds F0-F7 (R9, R94) -/
  fronds : Oct Frond := ⟨{}, {}, {}, {}, {}, {}, {}, {}⟩
  ledger : Ledger := {}
  mem : Memory := {}
  matrix : Matrix := {}
  spores : Spores := {}
  io : FieldIo := {}
  fabric : Fabric := {}
  host : HostIf := {}
  fw : Firmware := {}
  upd : Update := {}
  bist : Bist := {}
  dbg : Debug := {}
  pmc : Pmc := {}
  power : Power := {}
  timers : Quad Timer := ⟨{}, {}, {}, {}⟩
  wdg : Watchdog := {}
  pins : Pins := {}
  /-- registers whose WL field has had its first write since reset (R4) -/
  locked : List Nat := []
  /-- counter of free values drawn (the model's own) -/
  free : Nat := 0
  /-- what has left the engine, newest first (the model's own) -/
  out : List Out := []
  /-- the commands waiting, first in first out (the model's own) -/
  pending : List Instr := []
  deriving DecidableEq, Repr

/-- The engine right after reset (R432): in Off, every register at its reset value, T0 ACTIVE at Machine level
(R178) and at the Boot ROM's entry (R224), every queue empty. -/
def State.reset : State := {}

/-- Reasons a step could stop with a fault. No command of the table raises one. -/
inductive Fault where
  /-- Raised by no command: the spec gives every command an effect. Safe: a machine that stopped here would run less. -/
  | unreachable
  deriving DecidableEq, Repr

/-- Reasons a step could be refused. -/
inductive Refusal where
  /-- Answered by the dispatch of a command whose meaning is not written yet, with its mnemonic. Safe. -/
  | notModelled (mnemonic : String)
  deriving DecidableEq, Repr

end Sys2Proof.Machine
end

