-- ==== Sys2Proof/Machine/Regs.lean ====
section
/-! DEFINITION. The register map: the offset of every register from CS_BASE, and for each its reset value and the bits
of each access code (R4, R5), one row per heading of the spec's register tables, block by block. Where a field has two
codes (R360), the row holds the control-space one. -/

namespace Sys2Proof.Machine

/-- One register of the map, with up to two strides: `rw`, `w1c`, `w1s`, `wo`, `rc`, `wl`, `ro` are the bits of each
access code of R4; every other bit is reserved (R5). -/
structure RegRow where
  off : Nat
  s1 : Nat := 0
  n1 : Nat := 1
  s2 : Nat := 0
  n2 : Nat := 1
  rst : Nat := 0
  rw : Nat := 0
  w1c : Nat := 0
  w1s : Nat := 0
  wo : Nat := 0
  rc : Nat := 0
  wl : Nat := 0
  ro : Nat := 0
  deriving DecidableEq, Repr

namespace R

/-- LDG_CTL (02_frame_and_ledger.md) -/
@[reducible] def LDG_CTL : Nat := 0x20000
/-- LDG_PERIOD (02_frame_and_ledger.md) -/
@[reducible] def LDG_PERIOD : Nat := 0x20004
/-- LDG_TCUT (02_frame_and_ledger.md) -/
@[reducible] def LDG_TCUT : Nat := 0x20008
/-- LDG_TDL (02_frame_and_ledger.md) -/
@[reducible] def LDG_TDL : Nat := 0x2000C
/-- LDG_TOUT (02_frame_and_ledger.md) -/
@[reducible] def LDG_TOUT : Nat := 0x20010
/-- LDG_TICKWIN (02_frame_and_ledger.md) -/
@[reducible] def LDG_TICKWIN : Nat := 0x20014
/-- LDG_ASPHASE (02_frame_and_ledger.md) -/
@[reducible] def LDG_ASPHASE : Nat := 0x20018
/-- LDG_STAT (02_frame_and_ledger.md) -/
@[reducible] def LDG_STAT : Nat := 0x2001C
/-- LDG_FRAME_LO (02_frame_and_ledger.md) -/
@[reducible] def LDG_FRAME_LO : Nat := 0x20020
/-- LDG_FRAME_HI (02_frame_and_ledger.md) -/
@[reducible] def LDG_FRAME_HI : Nat := 0x20024
/-- LDG_TICKOUT (02_frame_and_ledger.md) -/
@[reducible] def LDG_TICKOUT : Nat := 0x20028
/-- LDG_RESSEL (02_frame_and_ledger.md) -/
@[reducible] def LDG_RESSEL : Nat := 0x20040
/-- LDG_GRANT (02_frame_and_ledger.md) -/
@[reducible] def LDG_GRANT : Nat := 0x20044
/-- LDG_BAL (02_frame_and_ledger.md) -/
@[reducible] def LDG_BAL : Nat := 0x20048
/-- LDG_BACKLOG (02_frame_and_ledger.md) -/
@[reducible] def LDG_BACKLOG : Nat := 0x2004C
/-- LDG_AUD_GRANTED (02_frame_and_ledger.md) -/
@[reducible] def LDG_AUD_GRANTED : Nat := 0x20050
/-- LDG_AUD_CONSUMED (02_frame_and_ledger.md) -/
@[reducible] def LDG_AUD_CONSUMED : Nat := 0x20054
/-- LDG_AUD_REFUNDED (02_frame_and_ledger.md) -/
@[reducible] def LDG_AUD_REFUNDED : Nat := 0x20058
/-- LDG_AUD_EXPIRED (02_frame_and_ledger.md) -/
@[reducible] def LDG_AUD_EXPIRED : Nat := 0x2005C
/-- LDG_DERATE (02_frame_and_ledger.md) -/
@[reducible] def LDG_DERATE : Nat := 0x20060
/-- LDG_VCSHARE (02_frame_and_ledger.md) -/
@[reducible] def LDG_VCSHARE : Nat := 0x20064
/-- LDG_TESTRES (02_frame_and_ledger.md) -/
@[reducible] def LDG_TESTRES : Nat := 0x20068
/-- LDG_AUDSTAT (02_frame_and_ledger.md) -/
@[reducible] def LDG_AUDSTAT : Nat := 0x20070
/-- LDG_OVRCNT (02_frame_and_ledger.md) -/
@[reducible] def LDG_OVRCNT : Nat := 0x20074
/-- LDG_DENYCNT (02_frame_and_ledger.md) -/
@[reducible] def LDG_DENYCNT : Nat := 0x20078
/-- LDG_HOLDQ (02_frame_and_ledger.md) -/
@[reducible] def LDG_HOLDQ : Nat := 0x2007C
/-- LDG_GUARD (02_frame_and_ledger.md) -/
@[reducible] def LDG_GUARD : Nat := 0x20080
/-- LDG_PLANSTAT (02_frame_and_ledger.md) -/
@[reducible] def LDG_PLANSTAT : Nat := 0x20084
/-- GLB_REMAP (03_memory_and_matrix.md) -/
@[reducible] def GLB_REMAP : Nat := 0x20
/-- BANKn_PWR (03_memory_and_matrix.md) -/
@[reducible] def BANK_PWR (i : Nat) : Nat := 0x80000 + 0x100 * i
/-- BANKn_STAT (03_memory_and_matrix.md) -/
@[reducible] def BANK_STAT (i : Nat) : Nat := 0x80004 + 0x100 * i
/-- BANKn_CECNT (03_memory_and_matrix.md) -/
@[reducible] def BANK_CECNT (i : Nat) : Nat := 0x80008 + 0x100 * i
/-- BANKn_UECNT (03_memory_and_matrix.md) -/
@[reducible] def BANK_UECNT (i : Nat) : Nat := 0x8000C + 0x100 * i
/-- BANKn_ERRADDR (03_memory_and_matrix.md) -/
@[reducible] def BANK_ERRADDR (i : Nat) : Nat := 0x80010 + 0x100 * i
/-- BANKn_SCRUB (03_memory_and_matrix.md) -/
@[reducible] def BANK_SCRUB (i : Nat) : Nat := 0x80014 + 0x100 * i
/-- BANKn_SCRUBPOS (03_memory_and_matrix.md) -/
@[reducible] def BANK_SCRUBPOS (i : Nat) : Nat := 0x80018 + 0x100 * i
/-- BANKn_ERRINJ (03_memory_and_matrix.md) -/
@[reducible] def BANK_ERRINJ (i : Nat) : Nat := 0x8001C + 0x100 * i
/-- DDRn_CTL (03_memory_and_matrix.md) -/
@[reducible] def DDR_CTL (i : Nat) : Nat := 0x90000 + 0x1000 * i
/-- DDRn_STAT (03_memory_and_matrix.md) -/
@[reducible] def DDR_STAT (i : Nat) : Nat := 0x90004 + 0x1000 * i
/-- DDRn_MODULE (03_memory_and_matrix.md) -/
@[reducible] def DDR_MODULE (i : Nat) : Nat := 0x90008 + 0x1000 * i
/-- DDRn_CECNT (03_memory_and_matrix.md) -/
@[reducible] def DDR_CECNT (i : Nat) : Nat := 0x9000C + 0x1000 * i
/-- DDRn_UECNT (03_memory_and_matrix.md) -/
@[reducible] def DDR_UECNT (i : Nat) : Nat := 0x90010 + 0x1000 * i
/-- DDRn_ERRLOG_LO (03_memory_and_matrix.md) -/
@[reducible] def DDR_ERRLOG_LO (i : Nat) : Nat := 0x90014 + 0x1000 * i
/-- DDRn_ERRLOG_HI (03_memory_and_matrix.md) -/
@[reducible] def DDR_ERRLOG_HI (i : Nat) : Nat := 0x90018 + 0x1000 * i
/-- DDRn_TEMP (03_memory_and_matrix.md) -/
@[reducible] def DDR_TEMP (i : Nat) : Nat := 0x9001C + 0x1000 * i
/-- DDRC_CFG (03_memory_and_matrix.md) -/
@[reducible] def DDRC_CFG : Nat := 0x9C000
/-- DDRC_SUBLINES (03_memory_and_matrix.md) -/
@[reducible] def DDRC_SUBLINES : Nat := 0x9C004
/-- DDRC_STAT (03_memory_and_matrix.md) -/
@[reducible] def DDRC_STAT : Nat := 0x9C008
/-- DDRC_RTCFG (03_memory_and_matrix.md) -/
@[reducible] def DDRC_RTCFG : Nat := 0x9C00C
/-- DDRC_PATROL (03_memory_and_matrix.md) -/
@[reducible] def DDRC_PATROL : Nat := 0x9C010
/-- MTX_PRIn_LO (03_memory_and_matrix.md) -/
@[reducible] def MTX_PRI_LO (i : Nat) : Nat := 0xC0000 + 0x8 * i
/-- MTX_PRIn_HI (03_memory_and_matrix.md) -/
@[reducible] def MTX_PRI_HI (i : Nat) : Nat := 0xC0004 + 0x8 * i
/-- MTX_AGE (03_memory_and_matrix.md) -/
@[reducible] def MTX_AGE : Nat := 0xC0200
/-- MTX_LATE (03_memory_and_matrix.md) -/
@[reducible] def MTX_LATE : Nat := 0xC0204
/-- MTX_HOLDCNT (03_memory_and_matrix.md) -/
@[reducible] def MTX_HOLDCNT : Nat := 0xC0208
/-- MTX_ERRCNT (03_memory_and_matrix.md) -/
@[reducible] def MTX_ERRCNT : Nat := 0xC020C
/-- MTX_ERR (03_memory_and_matrix.md) -/
@[reducible] def MTX_ERR : Nat := 0xC0210
/-- MTX_ERRADDR_LO (03_memory_and_matrix.md) -/
@[reducible] def MTX_ERRADDR_LO : Nat := 0xC0214
/-- MTX_ERRADDR_HI (03_memory_and_matrix.md) -/
@[reducible] def MTX_ERRADDR_HI : Nat := 0xC0218
/-- FRDn_QSTAT (04_vector_jobs.md) -/
@[reducible] def FRD_QSTAT (i : Nat) : Nat := 0x40000 + 0x1000 * i
/-- FRDn_CUR_LO (04_vector_jobs.md) -/
@[reducible] def FRD_CUR_LO (i : Nat) : Nat := 0x40004 + 0x1000 * i
/-- FRDn_CUR_HI (04_vector_jobs.md) -/
@[reducible] def FRD_CUR_HI (i : Nat) : Nat := 0x40008 + 0x1000 * i
/-- FRDn_PROG (04_vector_jobs.md) -/
@[reducible] def FRD_PROG (i : Nat) : Nat := 0x4000C + 0x1000 * i
/-- FRDn_EVT (04_vector_jobs.md) -/
@[reducible] def FRD_EVT (i : Nat) : Nat := 0x40010 + 0x1000 * i
/-- FRDn_CTL (04_vector_jobs.md) -/
@[reducible] def FRD_CTL (i : Nat) : Nat := 0x40014 + 0x1000 * i
/-- FRDn_JOBCNT (04_vector_jobs.md) -/
@[reducible] def FRD_JOBCNT (i : Nat) : Nat := 0x40018 + 0x1000 * i
/-- FRDn_FWDCNT (04_vector_jobs.md) -/
@[reducible] def FRD_FWDCNT (i : Nat) : Nat := 0x4001C + 0x1000 * i
/-- FRDn_FLT (04_vector_jobs.md) -/
@[reducible] def FRD_FLT (i : Nat) : Nat := 0x40020 + 0x1000 * i
/-- FRDn_FLTVJD_LO (04_vector_jobs.md) -/
@[reducible] def FRD_FLTVJD_LO (i : Nat) : Nat := 0x40024 + 0x1000 * i
/-- FRDn_FLTVJD_HI (04_vector_jobs.md) -/
@[reducible] def FRD_FLTVJD_HI (i : Nat) : Nat := 0x40028 + 0x1000 * i
/-- FRDn_FLTELEM (04_vector_jobs.md) -/
@[reducible] def FRD_FLTELEM (i : Nat) : Nat := 0x4002C + 0x1000 * i
/-- STMn_CTL (07_stem_core.md) -/
@[reducible] def STM_CTL (i : Nat) : Nat := 0x100000 + 0x100 * i
/-- STMn_ENTRY (07_stem_core.md) -/
@[reducible] def STM_ENTRY (i : Nat) : Nat := 0x100004 + 0x100 * i
/-- STMn_CSEL (07_stem_core.md) -/
@[reducible] def STM_CSEL (i : Nat) : Nat := 0x100008 + 0x100 * i
/-- STMn_STAT (07_stem_core.md) -/
@[reducible] def STM_STAT (i : Nat) : Nat := 0x10000C + 0x100 * i
/-- STMn_PC (07_stem_core.md) -/
@[reducible] def STM_PC (i : Nat) : Nat := 0x100010 + 0x100 * i
/-- STM_DTBASE_LO (07_stem_core.md) -/
@[reducible] def STM_DTBASE_LO : Nat := 0x100800
/-- STM_DTBASE_HI (07_stem_core.md) -/
@[reducible] def STM_DTBASE_HI : Nat := 0x100804
/-- STM_DTCOUNT (07_stem_core.md) -/
@[reducible] def STM_DTCOUNT : Nat := 0x100808
/-- TRP_SRCn (09_traps_and_privilege.md) -/
@[reducible] def TRP_SRC (i : Nat) : Nat := 0x140000 + 0x4 * i
/-- TRP_THRn (09_traps_and_privilege.md) -/
@[reducible] def TRP_THR (i : Nat) : Nat := 0x140200 + 0x4 * i
/-- TRP_VJCTLn (09_traps_and_privilege.md) -/
@[reducible] def TRP_VJCTL (i : Nat) : Nat := 0x140220 + 0x4 * i
/-- TRP_VJFn_LO (09_traps_and_privilege.md) -/
@[reducible] def TRP_VJF_LO (i : Nat) : Nat := 0x140240 + 0x8 * i
/-- TRP_VJFn_HI (09_traps_and_privilege.md) -/
@[reducible] def TRP_VJF_HI (i : Nat) : Nat := 0x140244 + 0x8 * i
/-- TRP_MTVS (09_traps_and_privilege.md) -/
@[reducible] def TRP_MTVS : Nat := 0x140280
/-- TRP_STVS (09_traps_and_privilege.md) -/
@[reducible] def TRP_STVS : Nat := 0x140284
/-- TRP_MSTK (09_traps_and_privilege.md) -/
@[reducible] def TRP_MSTK : Nat := 0x140288
/-- TRP_SSTK (09_traps_and_privilege.md) -/
@[reducible] def TRP_SSTK : Nat := 0x14028C
/-- TRP_DELEG (09_traps_and_privilege.md) -/
@[reducible] def TRP_DELEG : Nat := 0x140290
/-- TRP_MROUTE (09_traps_and_privilege.md) -/
@[reducible] def TRP_MROUTE : Nat := 0x140294
/-- TRP_STAT (09_traps_and_privilege.md) -/
@[reducible] def TRP_STAT : Nat := 0x140298
/-- TRP_LKCTL (09_traps_and_privilege.md) -/
@[reducible] def TRP_LKCTL : Nat := 0x14029C
/-- TRP_LKn (09_traps_and_privilege.md) -/
@[reducible] def TRP_LK (i : Nat) : Nat := 0x1402A0 + 0x4 * i
/-- TRP_PENDm (09_traps_and_privilege.md) -/
@[reducible] def TRP_PEND (i : Nat) : Nat := 0x1402C0 + 0x4 * i
/-- CHn_CFG (10_spore_channels.md) -/
@[reducible] def CH_CFG (i : Nat) : Nat := 0x180000 + 0x40 * i
/-- CHn_PRODm (10_spore_channels.md) -/
@[reducible] def CH_PROD (i : Nat) (j : Nat) : Nat := 0x180004 + 0x40 * i + 0x4 * j
/-- CHn_CNT (10_spore_channels.md) -/
@[reducible] def CH_CNT (i : Nat) : Nat := 0x180014 + 0x40 * i
/-- SPC_CTL (10_spore_channels.md) -/
@[reducible] def SPC_CTL : Nat := 0x184000
/-- SPC_TRIG (10_spore_channels.md) -/
@[reducible] def SPC_TRIG : Nat := 0x184004
/-- SPC_STAT (10_spore_channels.md) -/
@[reducible] def SPC_STAT : Nat := 0x184008
/-- SPC_LOOPCNT (10_spore_channels.md) -/
@[reducible] def SPC_LOOPCNT : Nat := 0x18400C
/-- SPC_RDROP (10_spore_channels.md) -/
@[reducible] def SPC_RDROP : Nat := 0x184010
/-- SPC_PLANDISC (10_spore_channels.md) -/
@[reducible] def SPC_PLANDISC : Nat := 0x184014
/-- SPC_FLAGm (10_spore_channels.md) -/
@[reducible] def SPC_FLAG (i : Nat) : Nat := 0x184040 + 0x4 * i
/-- SPC_LOOPm (10_spore_channels.md) -/
@[reducible] def SPC_LOOP (i : Nat) : Nat := 0x184060 + 0x4 * i
/-- SPC_PLANSEL (10_spore_channels.md) -/
@[reducible] def SPC_PLANSEL : Nat := 0x184080
/-- SPC_PLANPEND (10_spore_channels.md) -/
@[reducible] def SPC_PLANPEND : Nat := 0x184084
/-- SPC_TIi_CFG (10_spore_channels.md) -/
@[reducible] def SPC_TI_CFG (i : Nat) : Nat := 0x185000 + 0x20 * i
/-- SPC_TIi_STAT (10_spore_channels.md) -/
@[reducible] def SPC_TI_STAT (i : Nat) : Nat := 0x185004 + 0x20 * i
/-- SPC_TIi_ARRIVED (10_spore_channels.md) -/
@[reducible] def SPC_TI_ARRIVED (i : Nat) : Nat := 0x185008 + 0x20 * i
/-- SPC_TIi_TAKEN (10_spore_channels.md) -/
@[reducible] def SPC_TI_TAKEN (i : Nat) : Nat := 0x18500C + 0x20 * i
/-- SPC_TIi_SATCNT (10_spore_channels.md) -/
@[reducible] def SPC_TI_SATCNT (i : Nat) : Nat := 0x185010 + 0x20 * i
/-- ETHe_CTL (11_field_io.md) -/
@[reducible] def ETH_CTL (i : Nat) : Nat := 0x200000 + 0x10000 * i
/-- ETHe_STAT (11_field_io.md) -/
@[reducible] def ETH_STAT (i : Nat) : Nat := 0x200004 + 0x10000 * i
/-- ETHe_INT (11_field_io.md) -/
@[reducible] def ETH_INT (i : Nat) : Nat := 0x200008 + 0x10000 * i
/-- ETHe_INTEN (11_field_io.md) -/
@[reducible] def ETH_INTEN (i : Nat) : Nat := 0x20000C + 0x10000 * i
/-- ETHe_MAC_LO (11_field_io.md) -/
@[reducible] def ETH_MAC_LO (i : Nat) : Nat := 0x200010 + 0x10000 * i
/-- ETHe_MAC_HI (11_field_io.md) -/
@[reducible] def ETH_MAC_HI (i : Nat) : Nat := 0x200014 + 0x10000 * i
/-- ETHe_TCCFG (11_field_io.md) -/
@[reducible] def ETH_TCCFG (i : Nat) : Nat := 0x200018 + 0x10000 * i
/-- ETHe_PTPCFG (11_field_io.md) -/
@[reducible] def ETH_PTPCFG (i : Nat) : Nat := 0x20001C + 0x10000 * i
/-- ETHe_PTPOFS (11_field_io.md) -/
@[reducible] def ETH_PTPOFS (i : Nat) : Nat := 0x200020 + 0x10000 * i
/-- ETHe_GCLCYC (11_field_io.md) -/
@[reducible] def ETH_GCLCYC (i : Nat) : Nat := 0x200024 + 0x10000 * i
/-- ETHe_GCLBASE_LO (11_field_io.md) -/
@[reducible] def ETH_GCLBASE_LO (i : Nat) : Nat := 0x200028 + 0x10000 * i
/-- ETHe_GCLBASE_HI (11_field_io.md) -/
@[reducible] def ETH_GCLBASE_HI (i : Nat) : Nat := 0x20002C + 0x10000 * i
/-- ETHe_GCLCTL (11_field_io.md) -/
@[reducible] def ETH_GCLCTL (i : Nat) : Nat := 0x200030 + 0x10000 * i
/-- ETHe_GCLm (11_field_io.md) -/
@[reducible] def ETH_GCL (i : Nat) (j : Nat) : Nat := 0x200400 + 0x10000 * i + 0x4 * j
/-- ETHe_RXFRM (11_field_io.md) -/
@[reducible] def ETH_RXFRM (i : Nat) : Nat := 0x200040 + 0x10000 * i
/-- ETHe_RXFCS (11_field_io.md) -/
@[reducible] def ETH_RXFCS (i : Nat) : Nat := 0x200044 + 0x10000 * i
/-- ETHe_RXLEN (11_field_io.md) -/
@[reducible] def ETH_RXLEN (i : Nat) : Nat := 0x200048 + 0x10000 * i
/-- ETHe_RXOVF (11_field_io.md) -/
@[reducible] def ETH_RXOVF (i : Nat) : Nat := 0x20004C + 0x10000 * i
/-- ETHe_RXNOM (11_field_io.md) -/
@[reducible] def ETH_RXNOM (i : Nat) : Nat := 0x200050 + 0x10000 * i
/-- ETHe_RXDUP (11_field_io.md) -/
@[reducible] def ETH_RXDUP (i : Nat) : Nat := 0x200054 + 0x10000 * i
/-- ETHe_TXFRM (11_field_io.md) -/
@[reducible] def ETH_TXFRM (i : Nat) : Nat := 0x200058 + 0x10000 * i
/-- ETHe_TXPRE (11_field_io.md) -/
@[reducible] def ETH_TXPRE (i : Nat) : Nat := 0x20005C + 0x10000 * i
/-- ING_CTL (11_field_io.md) -/
@[reducible] def ING_CTL : Nat := 0x240000
/-- IOB_INT (11_field_io.md) -/
@[reducible] def IOB_INT : Nat := 0x240004
/-- IOB_INTEN (11_field_io.md) -/
@[reducible] def IOB_INTEN : Nat := 0x240008
/-- SIM_STAT (11_field_io.md) -/
@[reducible] def SIM_STAT : Nat := 0x24000C
/-- SIM_CTL (11_field_io.md) -/
@[reducible] def SIM_CTL : Nat := 0x240010
/-- FIU_CTL (11_field_io.md) -/
@[reducible] def FIU_CTL : Nat := 0x240014
/-- FIU_RSEL (11_field_io.md) -/
@[reducible] def FIU_RSEL : Nat := 0x240018
/-- FIU_RSTATE (11_field_io.md) -/
@[reducible] def FIU_RSTATE : Nat := 0x24001C
/-- EGR_CTL (11_field_io.md) -/
@[reducible] def EGR_CTL : Nat := 0x240020
/-- EGR_STAT (11_field_io.md) -/
@[reducible] def EGR_STAT : Nat := 0x240024
/-- SIM_INWRCNT (11_field_io.md) -/
@[reducible] def SIM_INWRCNT : Nat := 0x240040
/-- FIU_ACTCNT (11_field_io.md) -/
@[reducible] def FIU_ACTCNT : Nat := 0x240044
/-- FIU_SPDROP (11_field_io.md) -/
@[reducible] def FIU_SPDROP : Nat := 0x240048
/-- EGR_TXCNT (11_field_io.md) -/
@[reducible] def EGR_TXCNT : Nat := 0x24004C
/-- EGR_EXPCNT (11_field_io.md) -/
@[reducible] def EGR_EXPCNT : Nat := 0x240050
/-- EGR_LATECNT (11_field_io.md) -/
@[reducible] def EGR_LATECNT : Nat := 0x240054
/-- EGR_SUPPCNT (11_field_io.md) -/
@[reducible] def EGR_SUPPCNT : Nat := 0x240058
/-- ING_STRCNTn (11_field_io.md) -/
@[reducible] def ING_STRCNT (i : Nat) : Nat := 0x241000 + 0x4 * i
/-- LNKp_CTL (12_lichen_fabric.md) -/
@[reducible] def LNK_CTL (i : Nat) : Nat := 0x280000 + 0x1000 * i
/-- LNKp_STAT (12_lichen_fabric.md) -/
@[reducible] def LNK_STAT (i : Nat) : Nat := 0x280004 + 0x1000 * i
/-- LNKp_INT (12_lichen_fabric.md) -/
@[reducible] def LNK_INT (i : Nat) : Nat := 0x280008 + 0x1000 * i
/-- LNKp_INTEN (12_lichen_fabric.md) -/
@[reducible] def LNK_INTEN (i : Nat) : Nat := 0x28000C + 0x1000 * i
/-- LNKp_PEERUID_LO (12_lichen_fabric.md) -/
@[reducible] def LNK_PEERUID_LO (i : Nat) : Nat := 0x280010 + 0x1000 * i
/-- LNKp_PEERUID_HI (12_lichen_fabric.md) -/
@[reducible] def LNK_PEERUID_HI (i : Nat) : Nat := 0x280014 + 0x1000 * i
/-- LNKp_DELAY (12_lichen_fabric.md) -/
@[reducible] def LNK_DELAY (i : Nat) : Nat := 0x280018 + 0x1000 * i
/-- LNKp_VCSEL (12_lichen_fabric.md) -/
@[reducible] def LNK_VCSEL (i : Nat) : Nat := 0x28001C + 0x1000 * i
/-- LNKp_CR (12_lichen_fabric.md) -/
@[reducible] def LNK_CR (i : Nat) : Nat := 0x280020 + 0x1000 * i
/-- LNKp_TX (12_lichen_fabric.md) -/
@[reducible] def LNK_TX (i : Nat) : Nat := 0x280024 + 0x1000 * i
/-- LNKp_RXC (12_lichen_fabric.md) -/
@[reducible] def LNK_RXC (i : Nat) : Nat := 0x280028 + 0x1000 * i
/-- LNKp_RX (12_lichen_fabric.md) -/
@[reducible] def LNK_RX (i : Nat) : Nat := 0x28002C + 0x1000 * i
/-- LNKp_RET (12_lichen_fabric.md) -/
@[reducible] def LNK_RET (i : Nat) : Nat := 0x280030 + 0x1000 * i
/-- LNKp_OCC (12_lichen_fabric.md) -/
@[reducible] def LNK_OCC (i : Nat) : Nat := 0x280034 + 0x1000 * i
/-- LNKp_RETRYCNT (12_lichen_fabric.md) -/
@[reducible] def LNK_RETRYCNT (i : Nat) : Nat := 0x280040 + 0x1000 * i
/-- LNKp_CRCERR (12_lichen_fabric.md) -/
@[reducible] def LNK_CRCERR (i : Nat) : Nat := 0x280044 + 0x1000 * i
/-- LNKp_RETRAINCNT (12_lichen_fabric.md) -/
@[reducible] def LNK_RETRAINCNT (i : Nat) : Nat := 0x280048 + 0x1000 * i
/-- LNKp_AUDERRCNT (12_lichen_fabric.md) -/
@[reducible] def LNK_AUDERRCNT (i : Nat) : Nat := 0x28004C + 0x1000 * i
/-- LNKp_FECCE (12_lichen_fabric.md) -/
@[reducible] def LNK_FECCE (i : Nat) : Nat := 0x280050 + 0x1000 * i
/-- LNKp_FECUE (12_lichen_fabric.md) -/
@[reducible] def LNK_FECUE (i : Nat) : Nat := 0x280054 + 0x1000 * i
/-- LNKp_DROPCNT (12_lichen_fabric.md) -/
@[reducible] def LNK_DROPCNT (i : Nat) : Nat := 0x280058 + 0x1000 * i
/-- FAB_CTL (12_lichen_fabric.md) -/
@[reducible] def FAB_CTL : Nat := 0x284000
/-- FAB_PRIO (12_lichen_fabric.md) -/
@[reducible] def FAB_PRIO : Nat := 0x284004
/-- FAB_UID_LO (12_lichen_fabric.md) -/
@[reducible] def FAB_UID_LO : Nat := 0x284008
/-- FAB_UID_HI (12_lichen_fabric.md) -/
@[reducible] def FAB_UID_HI : Nat := 0x28400C
/-- FAB_STAT (12_lichen_fabric.md) -/
@[reducible] def FAB_STAT : Nat := 0x284010
/-- FAB_EPOCH (12_lichen_fabric.md) -/
@[reducible] def FAB_EPOCH : Nat := 0x284014
/-- FAB_VOTE (12_lichen_fabric.md) -/
@[reducible] def FAB_VOTE : Nat := 0x284018
/-- FAB_WITNESS (12_lichen_fabric.md) -/
@[reducible] def FAB_WITNESS : Nat := 0x28401C
/-- FAB_TICKLAT (12_lichen_fabric.md) -/
@[reducible] def FAB_TICKLAT : Nat := 0x284020
/-- FAB_DFRAME_LO (12_lichen_fabric.md) -/
@[reducible] def FAB_DFRAME_LO : Nat := 0x284024
/-- FAB_DFRAME_HI (12_lichen_fabric.md) -/
@[reducible] def FAB_DFRAME_HI : Nat := 0x284028
/-- FAB_INT (12_lichen_fabric.md) -/
@[reducible] def FAB_INT : Nat := 0x28402C
/-- FAB_INTEN (12_lichen_fabric.md) -/
@[reducible] def FAB_INTEN : Nat := 0x284030
/-- FAB_RSPTO (12_lichen_fabric.md) -/
@[reducible] def FAB_RSPTO : Nat := 0x284034
/-- FAB_TWIN (12_lichen_fabric.md) -/
@[reducible] def FAB_TWIN : Nat := 0x284040
/-- FAB_DIG_LO (12_lichen_fabric.md) -/
@[reducible] def FAB_DIG_LO : Nat := 0x284044
/-- FAB_DIG_HI (12_lichen_fabric.md) -/
@[reducible] def FAB_DIG_HI : Nat := 0x284048
/-- FAB_PEERDIG_LO (12_lichen_fabric.md) -/
@[reducible] def FAB_PEERDIG_LO : Nat := 0x28404C
/-- FAB_PEERDIG_HI (12_lichen_fabric.md) -/
@[reducible] def FAB_PEERDIG_HI : Nat := 0x284050
/-- FAB_TWINMISCNT (12_lichen_fabric.md) -/
@[reducible] def FAB_TWINMISCNT : Nat := 0x284054
/-- FAB_TWINSUPP (12_lichen_fabric.md) -/
@[reducible] def FAB_TWINSUPP : Nat := 0x284058
/-- FAB_REJSTAT (12_lichen_fabric.md) -/
@[reducible] def FAB_REJSTAT : Nat := 0x28405C
/-- FAB_ATOMn_ADDR_LO (12_lichen_fabric.md) -/
@[reducible] def FAB_ATOM_ADDR_LO (i : Nat) : Nat := 0x284100 + 0x40 * i
/-- FAB_ATOMn_ADDR_HI (12_lichen_fabric.md) -/
@[reducible] def FAB_ATOM_ADDR_HI (i : Nat) : Nat := 0x284104 + 0x40 * i
/-- FAB_ATOMn_OPND_LO (12_lichen_fabric.md) -/
@[reducible] def FAB_ATOM_OPND_LO (i : Nat) : Nat := 0x284108 + 0x40 * i
/-- FAB_ATOMn_OPND_HI (12_lichen_fabric.md) -/
@[reducible] def FAB_ATOM_OPND_HI (i : Nat) : Nat := 0x28410C + 0x40 * i
/-- FAB_ATOMn_CMP_LO (12_lichen_fabric.md) -/
@[reducible] def FAB_ATOM_CMP_LO (i : Nat) : Nat := 0x284110 + 0x40 * i
/-- FAB_ATOMn_CMP_HI (12_lichen_fabric.md) -/
@[reducible] def FAB_ATOM_CMP_HI (i : Nat) : Nat := 0x284114 + 0x40 * i
/-- FAB_ATOMn_CTL (12_lichen_fabric.md) -/
@[reducible] def FAB_ATOM_CTL (i : Nat) : Nat := 0x284118 + 0x40 * i
/-- FAB_ATOMn_RES_LO (12_lichen_fabric.md) -/
@[reducible] def FAB_ATOM_RES_LO (i : Nat) : Nat := 0x28411C + 0x40 * i
/-- FAB_ATOMn_RES_HI (12_lichen_fabric.md) -/
@[reducible] def FAB_ATOM_RES_HI (i : Nat) : Nat := 0x284120 + 0x40 * i
/-- FAB_RTd (12_lichen_fabric.md) -/
@[reducible] def FAB_RT (i : Nat) : Nat := 0x288000 + 0x4 * i
/-- MBXn_CMDw (13_host_and_mailboxes.md) -/
@[reducible] def MBX_CMD (i : Nat) (j : Nat) : Nat := 0x300000 + 0x100 * i + 0x4 * j
/-- MBXn_DOORBELL (13_host_and_mailboxes.md) -/
@[reducible] def MBX_DOORBELL (i : Nat) : Nat := 0x300040 + 0x100 * i
/-- MBXn_DBSTAT (13_host_and_mailboxes.md) -/
@[reducible] def MBX_DBSTAT (i : Nat) : Nat := 0x300044 + 0x100 * i
/-- MBXn_PUB (13_host_and_mailboxes.md) -/
@[reducible] def MBX_PUB (i : Nat) : Nat := 0x300048 + 0x100 * i
/-- MBXn_SEQ (13_host_and_mailboxes.md) -/
@[reducible] def MBX_SEQ (i : Nat) : Nat := 0x300080 + 0x100 * i
/-- MBXn_STATUS (13_host_and_mailboxes.md) -/
@[reducible] def MBX_STATUS (i : Nat) : Nat := 0x300084 + 0x100 * i
/-- MBXn_RESw (13_host_and_mailboxes.md) -/
@[reducible] def MBX_RES (i : Nat) (j : Nat) : Nat := 0x300088 + 0x100 * i + 0x4 * j
/-- HIF_APa (13_host_and_mailboxes.md) -/
@[reducible] def HIF_AP (i : Nat) : Nat := 0x301000 + 0x4 * i
/-- HIF_WINCTL (13_host_and_mailboxes.md) -/
@[reducible] def HIF_WINCTL : Nat := 0x301040
/-- HIF_WINERR (13_host_and_mailboxes.md) -/
@[reducible] def HIF_WINERR : Nat := 0x301044
/-- HIF_WINADDR_LO (13_host_and_mailboxes.md) -/
@[reducible] def HIF_WINADDR_LO : Nat := 0x301048
/-- HIF_WINADDR_HI (13_host_and_mailboxes.md) -/
@[reducible] def HIF_WINADDR_HI : Nat := 0x30104C
/-- HIF_LINK (13_host_and_mailboxes.md) -/
@[reducible] def HIF_LINK : Nat := 0x301050
/-- HIF_DBPEND (13_host_and_mailboxes.md) -/
@[reducible] def HIF_DBPEND : Nat := 0x301054
/-- HIF_MSIREQ (13_host_and_mailboxes.md) -/
@[reducible] def HIF_MSIREQ : Nat := 0x301058
/-- UPD_CTL (14_firmware_update.md) -/
@[reducible] def UPD_CTL : Nat := 0x340000
/-- UPD_STAT (14_firmware_update.md) -/
@[reducible] def UPD_STAT : Nat := 0x340004
/-- UPD_RECV (14_firmware_update.md) -/
@[reducible] def UPD_RECV : Nat := 0x340008
/-- UPD_PLEN (14_firmware_update.md) -/
@[reducible] def UPD_PLEN : Nat := 0x34000C
/-- UPD_INT (14_firmware_update.md) -/
@[reducible] def UPD_INT : Nat := 0x340010
/-- UPD_INTEN (14_firmware_update.md) -/
@[reducible] def UPD_INTEN : Nat := 0x340014
/-- UPD_ARB (14_firmware_update.md) -/
@[reducible] def UPD_ARB : Nat := 0x340018
/-- UPD_FUSE (14_firmware_update.md) -/
@[reducible] def UPD_FUSE : Nat := 0x34001C
/-- UPD_KEYID (14_firmware_update.md) -/
@[reducible] def UPD_KEYID : Nat := 0x340020
/-- UPD_KEYLOCK (14_firmware_update.md) -/
@[reducible] def UPD_KEYLOCK : Nat := 0x340024
/-- UPD_FLASH (14_firmware_update.md) -/
@[reducible] def UPD_FLASH : Nat := 0x340028
/-- UPD_ROOTHASHm (14_firmware_update.md) -/
@[reducible] def UPD_ROOTHASH (i : Nat) : Nat := 0x340040 + 0x4 * i
/-- BST_CTL (15_self_test.md) -/
@[reducible] def BST_CTL : Nat := 0x380000
/-- BST_STAT (15_self_test.md) -/
@[reducible] def BST_STAT : Nat := 0x380004
/-- BST_PU (15_self_test.md) -/
@[reducible] def BST_PU : Nat := 0x380008
/-- BST_PUTIME (15_self_test.md) -/
@[reducible] def BST_PUTIME : Nat := 0x38000C
/-- BST_INT (15_self_test.md) -/
@[reducible] def BST_INT : Nat := 0x380010
/-- BST_INTEN (15_self_test.md) -/
@[reducible] def BST_INTEN : Nat := 0x380014
/-- BST_LAST (15_self_test.md) -/
@[reducible] def BST_LAST : Nat := 0x380018
/-- BST_CYCLES (15_self_test.md) -/
@[reducible] def BST_CYCLES : Nat := 0x38001C
/-- BST_CORRCNT (15_self_test.md) -/
@[reducible] def BST_CORRCNT : Nat := 0x380020
/-- BST_FATALCNT (15_self_test.md) -/
@[reducible] def BST_FATALCNT : Nat := 0x380024
/-- BST_ABORTCNT (15_self_test.md) -/
@[reducible] def BST_ABORTCNT : Nat := 0x380028
/-- BST_WEAKCNT (15_self_test.md) -/
@[reducible] def BST_WEAKCNT : Nat := 0x38002C
/-- BST_WARNCNT (15_self_test.md) -/
@[reducible] def BST_WARNCNT : Nat := 0x380030
/-- DBG_CTL (16_debug.md) -/
@[reducible] def DBG_CTL : Nat := 0x3C0000
/-- DBG_STAT (16_debug.md) -/
@[reducible] def DBG_STAT : Nat := 0x3C0004
/-- DBG_NONCEm (16_debug.md) -/
@[reducible] def DBG_NONCE (i : Nat) : Nat := 0x3C0010 + 0x4 * i
/-- DBG_RESPm (16_debug.md) -/
@[reducible] def DBG_RESP (i : Nat) : Nat := 0x3C0030 + 0x4 * i
/-- DBG_AUTH (16_debug.md) -/
@[reducible] def DBG_AUTH : Nat := 0x3C0050
/-- DBG_HALT (16_debug.md) -/
@[reducible] def DBG_HALT : Nat := 0x3C0060
/-- DBG_RESUME (16_debug.md) -/
@[reducible] def DBG_RESUME : Nat := 0x3C0064
/-- DBG_XMASK (16_debug.md) -/
@[reducible] def DBG_XMASK : Nat := 0x3C0068
/-- DBG_STEP (16_debug.md) -/
@[reducible] def DBG_STEP : Nat := 0x3C006C
/-- DBG_STEPTO (16_debug.md) -/
@[reducible] def DBG_STEPTO : Nat := 0x3C0070
/-- DBG_TREG (16_debug.md) -/
@[reducible] def DBG_TREG : Nat := 0x3C0078
/-- DBG_TSEL (16_debug.md) -/
@[reducible] def DBG_TSEL : Nat := 0x3C0074
/-- DBG_SKIPCNT (16_debug.md) -/
@[reducible] def DBG_SKIPCNT : Nat := 0x3C007C
/-- DBG_INT (16_debug.md) -/
@[reducible] def DBG_INT : Nat := 0x3C0080
/-- DBG_INTEN (16_debug.md) -/
@[reducible] def DBG_INTEN : Nat := 0x3C0084
/-- DBG_TRCCTL (16_debug.md) -/
@[reducible] def DBG_TRCCTL : Nat := 0x3C0090
/-- DBG_TRCBASE_LO (16_debug.md) -/
@[reducible] def DBG_TRCBASE_LO : Nat := 0x3C0094
/-- DBG_TRCBASE_HI (16_debug.md) -/
@[reducible] def DBG_TRCBASE_HI : Nat := 0x3C0098
/-- DBG_TRCSIZE (16_debug.md) -/
@[reducible] def DBG_TRCSIZE : Nat := 0x3C009C
/-- DBG_TRCPTR (16_debug.md) -/
@[reducible] def DBG_TRCPTR : Nat := 0x3C00A0
/-- DBG_SPn (16_debug.md) -/
@[reducible] def DBG_SP (i : Nat) : Nat := 0x3C0100 + 0x4 * i
/-- WDG_CTL (16_debug.md) -/
@[reducible] def WDG_CTL : Nat := 0x440000
/-- WDG_PERIOD (16_debug.md) -/
@[reducible] def WDG_PERIOD : Nat := 0x440004
/-- WDG_SVC (16_debug.md) -/
@[reducible] def WDG_SVC : Nat := 0x440008
/-- WDG_COUNT (16_debug.md) -/
@[reducible] def WDG_COUNT : Nat := 0x44000C
/-- WDG_STAT (16_debug.md) -/
@[reducible] def WDG_STAT : Nat := 0x440010
/-- TB_LO (16_debug.md) -/
@[reducible] def TB_LO : Nat := 0x440020
/-- TB_HI (16_debug.md) -/
@[reducible] def TB_HI : Nat := 0x440024
/-- TMRn_CTL (16_debug.md) -/
@[reducible] def TMR_CTL (i : Nat) : Nat := 0x440040 + 0x10 * i
/-- TMRn_LOAD (16_debug.md) -/
@[reducible] def TMR_LOAD (i : Nat) : Nat := 0x440044 + 0x10 * i
/-- TMRn_STAT (16_debug.md) -/
@[reducible] def TMR_STAT (i : Nat) : Nat := 0x440048 + 0x10 * i
/-- PMCn_CFG (17_performance_counters.md) -/
@[reducible] def PMC_CFG (i : Nat) : Nat := 0x400000 + 0x20 * i
/-- PMCn_THR (17_performance_counters.md) -/
@[reducible] def PMC_THR (i : Nat) : Nat := 0x400004 + 0x20 * i
/-- PMCn_LO (17_performance_counters.md) -/
@[reducible] def PMC_LO (i : Nat) : Nat := 0x400008 + 0x20 * i
/-- PMCn_HI (17_performance_counters.md) -/
@[reducible] def PMC_HI (i : Nat) : Nat := 0x40000C + 0x20 * i
/-- PMCn_SNAP_LO (17_performance_counters.md) -/
@[reducible] def PMC_SNAP_LO (i : Nat) : Nat := 0x400010 + 0x20 * i
/-- PMCn_SNAP_HI (17_performance_counters.md) -/
@[reducible] def PMC_SNAP_HI (i : Nat) : Nat := 0x400014 + 0x20 * i
/-- PMC_CTL (17_performance_counters.md) -/
@[reducible] def PMC_CTL : Nat := 0x400800
/-- PMC_STAT (17_performance_counters.md) -/
@[reducible] def PMC_STAT : Nat := 0x400804
/-- PMC_BWCTL (17_performance_counters.md) -/
@[reducible] def PMC_BWCTL : Nat := 0x400808
/-- PMC_BWSELm (17_performance_counters.md) -/
@[reducible] def PMC_BWSEL (i : Nat) : Nat := 0x400900 + 0x4 * i
/-- PMC_BWm_LO (17_performance_counters.md) -/
@[reducible] def PMC_BW_LO (i : Nat) : Nat := 0x400A00 + 0x8 * i
/-- PMC_BWm_HI (17_performance_counters.md) -/
@[reducible] def PMC_BW_HI (i : Nat) : Nat := 0x400A04 + 0x8 * i
/-- PWR_MODE (18_power_reset_modes.md) -/
@[reducible] def PWR_MODE : Nat := 0x10000
/-- PWR_MODEREQ (18_power_reset_modes.md) -/
@[reducible] def PWR_MODEREQ : Nat := 0x10004
/-- PWR_STAT (18_power_reset_modes.md) -/
@[reducible] def PWR_STAT : Nat := 0x10008
/-- PWR_BOOT (18_power_reset_modes.md) -/
@[reducible] def PWR_BOOT : Nat := 0x1000C
/-- PWR_RSTCAUSE (18_power_reset_modes.md) -/
@[reducible] def PWR_RSTCAUSE : Nat := 0x10010
/-- PWR_RST (18_power_reset_modes.md) -/
@[reducible] def PWR_RST : Nat := 0x10014
/-- PWR_CLKDIV (18_power_reset_modes.md) -/
@[reducible] def PWR_CLKDIV : Nat := 0x10018
/-- PWR_WAKEEN (18_power_reset_modes.md) -/
@[reducible] def PWR_WAKEEN : Nat := 0x1001C
/-- PWR_WAKESRC (18_power_reset_modes.md) -/
@[reducible] def PWR_WAKESRC : Nat := 0x10020
/-- PWR_WAKETMR (18_power_reset_modes.md) -/
@[reducible] def PWR_WAKETMR : Nat := 0x10024
/-- PWR_VIN (18_power_reset_modes.md) -/
@[reducible] def PWR_VIN : Nat := 0x10028
/-- PWR_RAIL (18_power_reset_modes.md) -/
@[reducible] def PWR_RAIL : Nat := 0x1002C
/-- PWR_TEMP (18_power_reset_modes.md) -/
@[reducible] def PWR_TEMP : Nat := 0x10030
/-- PWR_THERM (18_power_reset_modes.md) -/
@[reducible] def PWR_THERM : Nat := 0x10034
/-- PWR_THSTAT (18_power_reset_modes.md) -/
@[reducible] def PWR_THSTAT : Nat := 0x10038
/-- PWR_THINT (18_power_reset_modes.md) -/
@[reducible] def PWR_THINT : Nat := 0x1003C
/-- PWR_THINTEN (18_power_reset_modes.md) -/
@[reducible] def PWR_THINTEN : Nat := 0x10040
/-- GLB_ID (19_package_and_electrical.md) -/
@[reducible] def GLB_ID : Nat := 0x0
/-- GLB_GPIO_DIR (19_package_and_electrical.md) -/
@[reducible] def GLB_GPIO_DIR : Nat := 0x100
/-- GLB_GPIO_OUT (19_package_and_electrical.md) -/
@[reducible] def GLB_GPIO_OUT : Nat := 0x104
/-- GLB_GPIO_OUTSET (19_package_and_electrical.md) -/
@[reducible] def GLB_GPIO_OUTSET : Nat := 0x108
/-- GLB_GPIO_OUTCLR (19_package_and_electrical.md) -/
@[reducible] def GLB_GPIO_OUTCLR : Nat := 0x10C
/-- GLB_GPIO_IN (19_package_and_electrical.md) -/
@[reducible] def GLB_GPIO_IN : Nat := 0x110
/-- GLB_GPIO_EDGE (19_package_and_electrical.md) -/
@[reducible] def GLB_GPIO_EDGE : Nat := 0x114
/-- GLB_GPIO_INT (19_package_and_electrical.md) -/
@[reducible] def GLB_GPIO_INT : Nat := 0x118
/-- GLB_GPIO_INTEN (19_package_and_electrical.md) -/
@[reducible] def GLB_GPIO_INTEN : Nat := 0x11C

end R

/-- Registers at block glb (offset 0x0). -/
def glbRows : List RegRow := [
  /- GLB_REMAP -/ { off := 0x20, s1 := 0x0, n1 := 1, s2 := 0x0, n2 := 1, rst := 0x0, rw := 0x1 },
  /- GLB_ID -/ { off := 0x0, s1 := 0x0, n1 := 1, s2 := 0x0, n2 := 1, rst := 0x0, ro := 0x1FFFFFF },
  /- GLB_GPIO_DIR -/ { off := 0x100, s1 := 0x0, n1 := 1, s2 := 0x0, n2 := 1, rst := 0x0, rw := 0xFFFF },
  /- GLB_GPIO_OUT -/ { off := 0x104, s1 := 0x0, n1 := 1, s2 := 0x0, n2 := 1, rst := 0x0, rw := 0xFFFF },
  /- GLB_GPIO_OUTSET -/ { off := 0x108, s1 := 0x0, n1 := 1, s2 := 0x0, n2 := 1, rst := 0x0, w1s := 0xFFFF },
  /- GLB_GPIO_OUTCLR -/ { off := 0x10C, s1 := 0x0, n1 := 1, s2 := 0x0, n2 := 1, rst := 0x0, w1c := 0xFFFF },
  /- GLB_GPIO_IN -/ { off := 0x110, s1 := 0x0, n1 := 1, s2 := 0x0, n2 := 1, rst := 0x0, ro := 0xFFFF },
  /- GLB_GPIO_EDGE -/ { off := 0x114, s1 := 0x0, n1 := 1, s2 := 0x0, n2 := 1, rst := 0x0, rw := 0xFFFFFFFF },
  /- GLB_GPIO_INT -/ { off := 0x118, s1 := 0x0, n1 := 1, s2 := 0x0, n2 := 1, rst := 0x0, w1c := 0xFFFF },
  /- GLB_GPIO_INTEN -/ { off := 0x11C, s1 := 0x0, n1 := 1, s2 := 0x0, n2 := 1, rst := 0x0, rw := 0xFFFF }]

/-- Registers at block pwr (offset 0x10000). -/
def pwrRows : List RegRow := [
  /- PWR_MODE -/ { off := 0x10000, s1 := 0x0, n1 := 1, s2 := 0x0, n2 := 1, rst := 0x0, ro := 0x1FFF },
  /- PWR_MODEREQ -/ { off := 0x10004, s1 := 0x0, n1 := 1, s2 := 0x0, n2 := 1, rst := 0x0, wo := 0x7, ro := 0x78 },
  /- PWR_STAT -/ { off := 0x10008, s1 := 0x0, n1 := 1, s2 := 0x0, n2 := 1, rst := 0x0, w1c := 0x20, ro := 0x5F },
  /- PWR_BOOT -/ { off := 0x1000C, s1 := 0x0, n1 := 1, s2 := 0x0, n2 := 1, rst := 0x0, ro := 0x3 },
  /- PWR_RSTCAUSE -/ { off := 0x10010, s1 := 0x0, n1 := 1, s2 := 0x0, n2 := 1, rst := 0x0, ro := 0xF },
  /- PWR_RST -/ { off := 0x10014, s1 := 0x0, n1 := 1, s2 := 0x0, n2 := 1, rst := 0x0, wo := 0xFFFFFFFF },
  /- PWR_CLKDIV -/ { off := 0x10018, s1 := 0x0, n1 := 1, s2 := 0x0, n2 := 1, rst := 0x0, rw := 0x3 },
  /- PWR_WAKEEN -/ { off := 0x1001C, s1 := 0x0, n1 := 1, s2 := 0x0, n2 := 1, rst := 0x3, rw := 0xF },
  /- PWR_WAKESRC -/ { off := 0x10020, s1 := 0x0, n1 := 1, s2 := 0x0, n2 := 1, rst := 0x0, w1c := 0xF },
  /- PWR_WAKETMR -/ { off := 0x10024, s1 := 0x0, n1 := 1, s2 := 0x0, n2 := 1, rst := 0x0, rw := 0xFFFFFF },
  /- PWR_VIN -/ { off := 0x10028, s1 := 0x0, n1 := 1, s2 := 0x0, n2 := 1, rst := 0x0, ro := 0x1FFF },
  /- PWR_RAIL -/ { off := 0x1002C, s1 := 0x0, n1 := 1, s2 := 0x0, n2 := 1, rst := 0x0, ro := 0x1F },
  /- PWR_TEMP -/ { off := 0x10030, s1 := 0x0, n1 := 1, s2 := 0x0, n2 := 1, rst := 0x0, ro := 0x1FFF },
  /- PWR_THERM -/ { off := 0x10034, s1 := 0x0, n1 := 1, s2 := 0x0, n2 := 1, rst := 0x0, rw := 0xFFFF, ro := 0xFF0000 },
  /- PWR_THSTAT -/ { off := 0x10038, s1 := 0x0, n1 := 1, s2 := 0x0, n2 := 1, rst := 0x0, ro := 0x3 },
  /- PWR_THINT -/ { off := 0x1003C, s1 := 0x0, n1 := 1, s2 := 0x0, n2 := 1, rst := 0x0, w1c := 0x3 },
  /- PWR_THINTEN -/ { off := 0x10040, s1 := 0x0, n1 := 1, s2 := 0x0, n2 := 1, rst := 0x0, rw := 0x3 }]

/-- Registers at block ldg (offset 0x20000). -/
def ldgRows : List RegRow := [
  /- LDG_CTL -/ { off := 0x20000, s1 := 0x0, n1 := 1, s2 := 0x0, n2 := 1, rst := 0x4, rw := 0xF },
  /- LDG_PERIOD -/ { off := 0x20004, s1 := 0x0, n1 := 1, s2 := 0x0, n2 := 1, rst := 0x186A0, rw := 0xFFFFFF },
  /- LDG_TCUT -/ { off := 0x20008, s1 := 0x0, n1 := 1, s2 := 0x0, n2 := 1, rst := 0x14820, rw := 0xFFFFFF },
  /- LDG_TDL -/ { off := 0x2000C, s1 := 0x0, n1 := 1, s2 := 0x0, n2 := 1, rst := 0x14C08, rw := 0xFFFFFF },
  /- LDG_TOUT -/ { off := 0x20010, s1 := 0x0, n1 := 1, s2 := 0x0, n2 := 1, rst := 0x15F90, rw := 0xFFFFFF },
  /- LDG_TICKWIN -/ { off := 0x20014, s1 := 0x0, n1 := 1, s2 := 0x0, n2 := 1, rst := 0xC8, rw := 0xFFFF },
  /- LDG_ASPHASE -/ { off := 0x20018, s1 := 0x0, n1 := 1, s2 := 0x0, n2 := 1, rst := 0x0, rw := 0xFFFFFF },
  /- LDG_STAT -/ { off := 0x2001C, s1 := 0x0, n1 := 1, s2 := 0x0, n2 := 1, rst := 0x0, w1c := 0x38, ro := 0xC7 },
  /- LDG_FRAME_LO -/ { off := 0x20020, s1 := 0x0, n1 := 1, s2 := 0x0, n2 := 1, rst := 0x0, ro := 0xFFFFFFFF },
  /- LDG_FRAME_HI -/ { off := 0x20024, s1 := 0x0, n1 := 1, s2 := 0x0, n2 := 1, rst := 0x0, ro := 0xFFFFFFFF },
  /- LDG_TICKOUT -/ { off := 0x20028, s1 := 0x0, n1 := 1, s2 := 0x0, n2 := 1, rst := 0x10A, rw := 0x1FF },
  /- LDG_RESSEL -/ { off := 0x20040, s1 := 0x0, n1 := 1, s2 := 0x0, n2 := 1, rst := 0x0, rw := 0xFF },
  /- LDG_GRANT -/ { off := 0x20044, s1 := 0x0, n1 := 1, s2 := 0x0, n2 := 1, rst := 0x0, ro := 0xFFFFFFFF },
  /- LDG_BAL -/ { off := 0x20048, s1 := 0x0, n1 := 1, s2 := 0x0, n2 := 1, rst := 0x0, ro := 0xFFFFFFFF },
  /- LDG_BACKLOG -/ { off := 0x2004C, s1 := 0x0, n1 := 1, s2 := 0x0, n2 := 1, rst := 0x0, ro := 0xFFFFFFFF },
  /- LDG_AUD_GRANTED -/ { off := 0x20050, s1 := 0x0, n1 := 1, s2 := 0x0, n2 := 1, rst := 0x0, ro := 0xFFFFFFFF },
  /- LDG_AUD_CONSUMED -/ { off := 0x20054, s1 := 0x0, n1 := 1, s2 := 0x0, n2 := 1, rst := 0x0, ro := 0xFFFFFFFF },
  /- LDG_AUD_REFUNDED -/ { off := 0x20058, s1 := 0x0, n1 := 1, s2 := 0x0, n2 := 1, rst := 0x0, ro := 0xFFFFFFFF },
  /- LDG_AUD_EXPIRED -/ { off := 0x2005C, s1 := 0x0, n1 := 1, s2 := 0x0, n2 := 1, rst := 0x0, ro := 0xFFFFFFFF },
  /- LDG_DERATE -/ { off := 0x20060, s1 := 0x0, n1 := 1, s2 := 0x0, n2 := 1, rst := 0x80000, rw := 0x3FF0000, ro := 0x3FF },
  /- LDG_VCSHARE -/ { off := 0x20064, s1 := 0x0, n1 := 1, s2 := 0x0, n2 := 1, rst := 0x384, rw := 0xFFF },
  /- LDG_TESTRES -/ { off := 0x20068, s1 := 0x0, n1 := 1, s2 := 0x0, n2 := 1, rst := 0x0, rw := 0xFF },
  /- LDG_AUDSTAT -/ { off := 0x20070, s1 := 0x0, n1 := 1, s2 := 0x0, n2 := 1, rst := 0x0, w1c := 0x1, ro := 0xFF00 },
  /- LDG_OVRCNT -/ { off := 0x20074, s1 := 0x0, n1 := 1, s2 := 0x0, n2 := 1, rst := 0x0, rc := 0xFFFF },
  /- LDG_DENYCNT -/ { off := 0x20078, s1 := 0x0, n1 := 1, s2 := 0x0, n2 := 1, rst := 0x0, rc := 0xFFFF },
  /- LDG_HOLDQ -/ { off := 0x2007C, s1 := 0x0, n1 := 1, s2 := 0x0, n2 := 1, rst := 0x0, ro := 0x7F },
  /- LDG_GUARD -/ { off := 0x20080, s1 := 0x0, n1 := 1, s2 := 0x0, n2 := 1, rst := 0x0, w1c := 0xFF },
  /- LDG_PLANSTAT -/ { off := 0x20084, s1 := 0x0, n1 := 1, s2 := 0x0, n2 := 1, rst := 0x0, ro := 0xFFFFFF }]

/-- Registers at block frd (offset 0x40000). -/
def frdRows : List RegRow := [
  /- FRDn_QSTAT -/ { off := 0x40000, s1 := 0x1000, n1 := 8, s2 := 0x0, n2 := 1, rst := 0x0, ro := 0x1FFF7F },
  /- FRDn_CUR_LO -/ { off := 0x40004, s1 := 0x1000, n1 := 8, s2 := 0x0, n2 := 1, rst := 0x0, ro := 0xFFFFFFFF },
  /- FRDn_CUR_HI -/ { off := 0x40008, s1 := 0x1000, n1 := 8, s2 := 0x0, n2 := 1, rst := 0x0, ro := 0x8000FFFF },
  /- FRDn_PROG -/ { off := 0x4000C, s1 := 0x1000, n1 := 8, s2 := 0x0, n2 := 1, rst := 0x0, ro := 0xFFFFFFFF },
  /- FRDn_EVT -/ { off := 0x40010, s1 := 0x1000, n1 := 8, s2 := 0x0, n2 := 1, rst := 0x0, w1c := 0x3F },
  /- FRDn_CTL -/ { off := 0x40014, s1 := 0x1000, n1 := 8, s2 := 0x0, n2 := 1, rst := 0x1, rw := 0x1, wo := 0x2 },
  /- FRDn_JOBCNT -/ { off := 0x40018, s1 := 0x1000, n1 := 8, s2 := 0x0, n2 := 1, rst := 0x0, rc := 0xFFFFFFFF },
  /- FRDn_FWDCNT -/ { off := 0x4001C, s1 := 0x1000, n1 := 8, s2 := 0x0, n2 := 1, rst := 0x0, rc := 0xFFFFFFFF },
  /- FRDn_FLT -/ { off := 0x40020, s1 := 0x1000, n1 := 8, s2 := 0x0, n2 := 1, rst := 0x0, w1c := 0x80000000, ro := 0x7FF },
  /- FRDn_FLTVJD_LO -/ { off := 0x40024, s1 := 0x1000, n1 := 8, s2 := 0x0, n2 := 1, rst := 0x0, ro := 0xFFFFFFFF },
  /- FRDn_FLTVJD_HI -/ { off := 0x40028, s1 := 0x1000, n1 := 8, s2 := 0x0, n2 := 1, rst := 0x0, ro := 0xFFFF },
  /- FRDn_FLTELEM -/ { off := 0x4002C, s1 := 0x1000, n1 := 8, s2 := 0x0, n2 := 1, rst := 0x0, ro := 0xFFFFFFFF }]

/-- Registers at block bank (offset 0x80000). -/
def bankRows : List RegRow := [
  /- BANKn_PWR -/ { off := 0x80000, s1 := 0x100, n1 := 18, s2 := 0x0, n2 := 1, rst := 0x24, rw := 0xF, ro := 0x30 },
  /- BANKn_STAT -/ { off := 0x80004, s1 := 0x100, n1 := 18, s2 := 0x0, n2 := 1, rst := 0x0, w1c := 0x7, ro := 0x18 },
  /- BANKn_CECNT -/ { off := 0x80008, s1 := 0x100, n1 := 18, s2 := 0x0, n2 := 1, rst := 0x0, rc := 0xFFFF },
  /- BANKn_UECNT -/ { off := 0x8000C, s1 := 0x100, n1 := 18, s2 := 0x0, n2 := 1, rst := 0x0, rc := 0xFFFF },
  /- BANKn_ERRADDR -/ { off := 0x80010, s1 := 0x100, n1 := 18, s2 := 0x0, n2 := 1, rst := 0x0, w1c := 0x80000000, ro := 0x4007FFFF },
  /- BANKn_SCRUB -/ { off := 0x80014, s1 := 0x100, n1 := 18, s2 := 0x0, n2 := 1, rst := 0x10100, rw := 0x1FFFF },
  /- BANKn_SCRUBPOS -/ { off := 0x80018, s1 := 0x100, n1 := 18, s2 := 0x0, n2 := 1, rst := 0x0, ro := 0xFFFF },
  /- BANKn_ERRINJ -/ { off := 0x8001C, s1 := 0x100, n1 := 18, s2 := 0x0, n2 := 1, rst := 0x0, w1s := 0x3 }]

/-- Registers at block ddr (offset 0x90000). -/
def ddrRows : List RegRow := [
  /- DDRn_CTL -/ { off := 0x90000, s1 := 0x1000, n1 := 12, s2 := 0x0, n2 := 1, rst := 0x0, wo := 0x1 },
  /- DDRn_STAT -/ { off := 0x90004, s1 := 0x1000, n1 := 12, s2 := 0x0, n2 := 1, rst := 0x0, w1c := 0x18, ro := 0x67 },
  /- DDRn_MODULE -/ { off := 0x90008, s1 := 0x1000, n1 := 12, s2 := 0x0, n2 := 1, rst := 0x0, ro := 0xFFF },
  /- DDRn_CECNT -/ { off := 0x9000C, s1 := 0x1000, n1 := 12, s2 := 0x0, n2 := 1, rst := 0x0, rc := 0xFFFF },
  /- DDRn_UECNT -/ { off := 0x90010, s1 := 0x1000, n1 := 12, s2 := 0x0, n2 := 1, rst := 0x0, rc := 0xFFFF },
  /- DDRn_ERRLOG_LO -/ { off := 0x90014, s1 := 0x1000, n1 := 12, s2 := 0x0, n2 := 1, rst := 0x0, ro := 0xFFFFFFFF },
  /- DDRn_ERRLOG_HI -/ { off := 0x90018, s1 := 0x1000, n1 := 12, s2 := 0x0, n2 := 1, rst := 0x0, w1c := 0x80000000, ro := 0x7FF },
  /- DDRn_TEMP -/ { off := 0x9001C, s1 := 0x1000, n1 := 12, s2 := 0x0, n2 := 1, rst := 0x0, ro := 0xFF },
  /- DDRC_CFG -/ { off := 0x9C000, s1 := 0x0, n1 := 1, s2 := 0x0, n2 := 1, rst := 0x30, rw := 0x30, ro := 0xF },
  /- DDRC_SUBLINES -/ { off := 0x9C004, s1 := 0x0, n1 := 1, s2 := 0x0, n2 := 1, rst := 0x0, ro := 0xFFFFFFFF },
  /- DDRC_STAT -/ { off := 0x9C008, s1 := 0x0, n1 := 1, s2 := 0x0, n2 := 1, rst := 0x0, ro := 0x3 },
  /- DDRC_RTCFG -/ { off := 0x9C00C, s1 := 0x0, n1 := 1, s2 := 0x0, n2 := 1, rst := 0x3E8, rw := 0xFFFF },
  /- DDRC_PATROL -/ { off := 0x9C010, s1 := 0x0, n1 := 1, s2 := 0x0, n2 := 1, rst := 0x0, ro := 0xFFFFFFFF }]

/-- Registers at block mtx (offset 0xC0000). -/
def mtxRows : List RegRow := [
  /- MTX_PRIn_LO -/ { off := 0xC0000, s1 := 0x8, n1 := 34, s2 := 0x0, n2 := 1, rst := 0x88888888, rw := 0xFFFFFFFF },
  /- MTX_PRIn_HI -/ { off := 0xC0004, s1 := 0x8, n1 := 34, s2 := 0x0, n2 := 1, rst := 0x6124AFEC, rw := 0xFFFFFFFF },
  /- MTX_AGE -/ { off := 0xC0200, s1 := 0x0, n1 := 1, s2 := 0x0, n2 := 1, rst := 0x400, rw := 0xFFFF },
  /- MTX_LATE -/ { off := 0xC0204, s1 := 0x0, n1 := 1, s2 := 0x0, n2 := 1, rst := 0x100, rw := 0xFFFF },
  /- MTX_HOLDCNT -/ { off := 0xC0208, s1 := 0x0, n1 := 1, s2 := 0x0, n2 := 1, rst := 0x0, rc := 0xFFFFFFFF },
  /- MTX_ERRCNT -/ { off := 0xC020C, s1 := 0x0, n1 := 1, s2 := 0x0, n2 := 1, rst := 0x0, rc := 0xFFFFFFFF },
  /- MTX_ERR -/ { off := 0xC0210, s1 := 0x0, n1 := 1, s2 := 0x0, n2 := 1, rst := 0x0, w1c := 0x80000000, ro := 0x3FFF },
  /- MTX_ERRADDR_LO -/ { off := 0xC0214, s1 := 0x0, n1 := 1, s2 := 0x0, n2 := 1, rst := 0x0, ro := 0xFFFFFFFF },
  /- MTX_ERRADDR_HI -/ { off := 0xC0218, s1 := 0x0, n1 := 1, s2 := 0x0, n2 := 1, rst := 0x0, ro := 0xFFFF }]

/-- Registers at block stm (offset 0x100000). -/
def stmRows : List RegRow := [
  /- STMn_CTL -/ { off := 0x100000, s1 := 0x100, n1 := 8, s2 := 0x0, n2 := 1, rst := 0x0, rw := 0x30, wo := 0x3 },
  /- STMn_ENTRY -/ { off := 0x100004, s1 := 0x100, n1 := 8, s2 := 0x0, n2 := 1, rst := 0x0, rw := 0xFFFFFFFF },
  /- STMn_CSEL -/ { off := 0x100008, s1 := 0x100, n1 := 8, s2 := 0x0, n2 := 1, rst := 0x0, rw := 0xFFFF },
  /- STMn_STAT -/ { off := 0x10000C, s1 := 0x100, n1 := 8, s2 := 0x0, n2 := 1, rst := 0x0, w1c := 0x1000, ro := 0xFF7 },
  /- STMn_PC -/ { off := 0x100010, s1 := 0x100, n1 := 8, s2 := 0x0, n2 := 1, rst := 0x0, ro := 0xFFFFFFFF },
  /- STM_DTBASE_LO -/ { off := 0x100800, s1 := 0x0, n1 := 1, s2 := 0x0, n2 := 1, rst := 0x0, rw := 0xFFFFFFF0 },
  /- STM_DTBASE_HI -/ { off := 0x100804, s1 := 0x0, n1 := 1, s2 := 0x0, n2 := 1, rst := 0x0, rw := 0xFFFF },
  /- STM_DTCOUNT -/ { off := 0x100808, s1 := 0x0, n1 := 1, s2 := 0x0, n2 := 1, rst := 0x0, rw := 0x3FFF }]

/-- Registers at block trp (offset 0x140000). -/
def trpRows : List RegRow := [
  /- TRP_SRCn -/ { off := 0x140000, s1 := 0x4, n1 := 128, s2 := 0x0, n2 := 1, rst := 0x0, rw := 0x1FFF, ro := 0x10000 },
  /- TRP_THRn -/ { off := 0x140200, s1 := 0x4, n1 := 8, s2 := 0x0, n2 := 1, rst := 0x0, rw := 0xF },
  /- TRP_VJCTLn -/ { off := 0x140220, s1 := 0x4, n1 := 8, s2 := 0x0, n2 := 1, rst := 0x0, rw := 0x1, w1c := 0x2, ro := 0x7C },
  /- TRP_VJFn_LO -/ { off := 0x140240, s1 := 0x8, n1 := 8, s2 := 0x0, n2 := 1, rst := 0x0, rc := 0xFFFFFFFF },
  /- TRP_VJFn_HI -/ { off := 0x140244, s1 := 0x8, n1 := 8, s2 := 0x0, n2 := 1, rst := 0x0, ro := 0x80FFFFFF },
  /- TRP_MTVS -/ { off := 0x140280, s1 := 0x0, n1 := 1, s2 := 0x0, n2 := 1, rst := 0x0, rw := 0xFFFF },
  /- TRP_STVS -/ { off := 0x140284, s1 := 0x0, n1 := 1, s2 := 0x0, n2 := 1, rst := 0x0, rw := 0xFFFF },
  /- TRP_MSTK -/ { off := 0x140288, s1 := 0x0, n1 := 1, s2 := 0x0, n2 := 1, rst := 0x0, rw := 0xFFFF },
  /- TRP_SSTK -/ { off := 0x14028C, s1 := 0x0, n1 := 1, s2 := 0x0, n2 := 1, rst := 0x0, rw := 0xFFFF },
  /- TRP_DELEG -/ { off := 0x140290, s1 := 0x0, n1 := 1, s2 := 0x0, n2 := 1, rst := 0x0, rw := 0xBFE },
  /- TRP_MROUTE -/ { off := 0x140294, s1 := 0x0, n1 := 1, s2 := 0x0, n2 := 1, rst := 0x0, rw := 0x1F },
  /- TRP_STAT -/ { off := 0x140298, s1 := 0x0, n1 := 1, s2 := 0x0, n2 := 1, rst := 0x0, w1c := 0x200, ro := 0x1FF },
  /- TRP_LKCTL -/ { off := 0x14029C, s1 := 0x0, n1 := 1, s2 := 0x0, n2 := 1, rst := 0x0, rw := 0x1 },
  /- TRP_LKn -/ { off := 0x1402A0, s1 := 0x4, n1 := 8, s2 := 0x0, n2 := 1, rst := 0x0, ro := 0x8000333F },
  /- TRP_PENDm -/ { off := 0x1402C0, s1 := 0x4, n1 := 4, s2 := 0x0, n2 := 1, rst := 0x0, ro := 0xFFFFFFFF }]

/-- Registers at block spc (offset 0x180000). -/
def spcRows : List RegRow := [
  /- CHn_CFG -/ { off := 0x180000, s1 := 0x40, n1 := 256, s2 := 0x0, n2 := 1, rst := 0x100, rw := 0x11F },
  /- CHn_PRODm -/ { off := 0x180004, s1 := 0x40, n1 := 256, s2 := 0x4, n2 := 4, rst := 0x0, rw := 0xFFFFFF },
  /- CHn_CNT -/ { off := 0x180014, s1 := 0x40, n1 := 256, s2 := 0x0, n2 := 1, rst := 0x0, ro := 0xFFFFFFFF },
  /- SPC_CTL -/ { off := 0x184000, s1 := 0x0, n1 := 1, s2 := 0x0, n2 := 1, rst := 0x4, rw := 0xF },
  /- SPC_TRIG -/ { off := 0x184004, s1 := 0x0, n1 := 1, s2 := 0x0, n2 := 1, rst := 0x0, wo := 0xFF },
  /- SPC_STAT -/ { off := 0x184008, s1 := 0x0, n1 := 1, s2 := 0x0, n2 := 1, rst := 0x0, w1c := 0x1 },
  /- SPC_LOOPCNT -/ { off := 0x18400C, s1 := 0x0, n1 := 1, s2 := 0x0, n2 := 1, rst := 0x0, rc := 0xFFFFFFFF },
  /- SPC_RDROP -/ { off := 0x184010, s1 := 0x0, n1 := 1, s2 := 0x0, n2 := 1, rst := 0x0, rc := 0xFFFFFFFF },
  /- SPC_PLANDISC -/ { off := 0x184014, s1 := 0x0, n1 := 1, s2 := 0x0, n2 := 1, rst := 0x0, rc := 0xFFFFFFFF },
  /- SPC_FLAGm -/ { off := 0x184040, s1 := 0x4, n1 := 8, s2 := 0x0, n2 := 1, rst := 0x0, w1c := 0xFFFFFFFF },
  /- SPC_LOOPm -/ { off := 0x184060, s1 := 0x4, n1 := 8, s2 := 0x0, n2 := 1, rst := 0x0, w1c := 0xFFFFFFFF },
  /- SPC_PLANSEL -/ { off := 0x184080, s1 := 0x0, n1 := 1, s2 := 0x0, n2 := 1, rst := 0x0, rw := 0x103FF },
  /- SPC_PLANPEND -/ { off := 0x184084, s1 := 0x0, n1 := 1, s2 := 0x0, n2 := 1, rst := 0x0, w1c := 0x100, ro := 0xFF },
  /- SPC_TIi_CFG -/ { off := 0x185000, s1 := 0x20, n1 := 192, s2 := 0x0, n2 := 1, rst := 0x0, rw := 0xFFFF03FF },
  /- SPC_TIi_STAT -/ { off := 0x185004, s1 := 0x20, n1 := 192, s2 := 0x0, n2 := 1, rst := 0x0, w1c := 0x100, ro := 0xFF02FF },
  /- SPC_TIi_ARRIVED -/ { off := 0x185008, s1 := 0x20, n1 := 192, s2 := 0x0, n2 := 1, rst := 0x0, ro := 0xFFFFFFFF },
  /- SPC_TIi_TAKEN -/ { off := 0x18500C, s1 := 0x20, n1 := 192, s2 := 0x0, n2 := 1, rst := 0x0, ro := 0xFFFFFFFF },
  /- SPC_TIi_SATCNT -/ { off := 0x185010, s1 := 0x20, n1 := 192, s2 := 0x0, n2 := 1, rst := 0x0, ro := 0xFFFFFFFF }]

/-- Registers at block eth (offset 0x200000). -/
def ethRows : List RegRow := [
  /- ETHe_CTL -/ { off := 0x200000, s1 := 0x10000, n1 := 2, s2 := 0x0, n2 := 1, rst := 0x0, rw := 0x7F },
  /- ETHe_STAT -/ { off := 0x200004, s1 := 0x10000, n1 := 2, s2 := 0x0, n2 := 1, rst := 0x0, ro := 0x7F },
  /- ETHe_INT -/ { off := 0x200008, s1 := 0x10000, n1 := 2, s2 := 0x0, n2 := 1, rst := 0x0, w1c := 0x1F },
  /- ETHe_INTEN -/ { off := 0x20000C, s1 := 0x10000, n1 := 2, s2 := 0x0, n2 := 1, rst := 0x0, rw := 0x1F },
  /- ETHe_MAC_LO -/ { off := 0x200010, s1 := 0x10000, n1 := 2, s2 := 0x0, n2 := 1, rst := 0x0, rw := 0xFFFFFFFF },
  /- ETHe_MAC_HI -/ { off := 0x200014, s1 := 0x10000, n1 := 2, s2 := 0x0, n2 := 1, rst := 0x0, rw := 0xFFFF },
  /- ETHe_TCCFG -/ { off := 0x200018, s1 := 0x10000, n1 := 2, s2 := 0x0, n2 := 1, rst := 0x0, rw := 0x7F },
  /- ETHe_PTPCFG -/ { off := 0x20001C, s1 := 0x10000, n1 := 2, s2 := 0x0, n2 := 1, rst := 0x6, rw := 0x3F },
  /- ETHe_PTPOFS -/ { off := 0x200020, s1 := 0x10000, n1 := 2, s2 := 0x0, n2 := 1, rst := 0x0, ro := 0xFFFFFFFF },
  /- ETHe_GCLCYC -/ { off := 0x200024, s1 := 0x10000, n1 := 2, s2 := 0x0, n2 := 1, rst := 0x186A0, rw := 0xFFFFFF },
  /- ETHe_GCLBASE_LO -/ { off := 0x200028, s1 := 0x10000, n1 := 2, s2 := 0x0, n2 := 1, rst := 0x0, rw := 0xFFFFFFFF },
  /- ETHe_GCLBASE_HI -/ { off := 0x20002C, s1 := 0x10000, n1 := 2, s2 := 0x0, n2 := 1, rst := 0x0, rw := 0xFFFFFFFF },
  /- ETHe_GCLCTL -/ { off := 0x200030, s1 := 0x10000, n1 := 2, s2 := 0x0, n2 := 1, rst := 0x1, rw := 0x1FF, wo := 0x200, ro := 0x400 },
  /- ETHe_GCLm -/ { off := 0x200400, s1 := 0x10000, n1 := 2, s2 := 0x4, n2 := 256, rst := 0x186FF, rw := 0xFFFFFFFF },
  /- ETHe_RXFRM -/ { off := 0x200040, s1 := 0x10000, n1 := 2, s2 := 0x0, n2 := 1, rst := 0x0, rc := 0xFFFFFFFF },
  /- ETHe_RXFCS -/ { off := 0x200044, s1 := 0x10000, n1 := 2, s2 := 0x0, n2 := 1, rst := 0x0, rc := 0xFFFFFFFF },
  /- ETHe_RXLEN -/ { off := 0x200048, s1 := 0x10000, n1 := 2, s2 := 0x0, n2 := 1, rst := 0x0, rc := 0xFFFFFFFF },
  /- ETHe_RXOVF -/ { off := 0x20004C, s1 := 0x10000, n1 := 2, s2 := 0x0, n2 := 1, rst := 0x0, rc := 0xFFFFFFFF },
  /- ETHe_RXNOM -/ { off := 0x200050, s1 := 0x10000, n1 := 2, s2 := 0x0, n2 := 1, rst := 0x0, rc := 0xFFFFFFFF },
  /- ETHe_RXDUP -/ { off := 0x200054, s1 := 0x10000, n1 := 2, s2 := 0x0, n2 := 1, rst := 0x0, rc := 0xFFFFFFFF },
  /- ETHe_TXFRM -/ { off := 0x200058, s1 := 0x10000, n1 := 2, s2 := 0x0, n2 := 1, rst := 0x0, rc := 0xFFFFFFFF },
  /- ETHe_TXPRE -/ { off := 0x20005C, s1 := 0x10000, n1 := 2, s2 := 0x0, n2 := 1, rst := 0x0, rc := 0xFFFFFFFF }]

/-- Registers at block iob (offset 0x240000). -/
def iobRows : List RegRow := [
  /- ING_CTL -/ { off := 0x240000, s1 := 0x0, n1 := 1, s2 := 0x0, n2 := 1, rst := 0x88B5, rw := 0x1FFFF },
  /- IOB_INT -/ { off := 0x240004, s1 := 0x0, n1 := 1, s2 := 0x0, n2 := 1, rst := 0x0, w1c := 0xF },
  /- IOB_INTEN -/ { off := 0x240008, s1 := 0x0, n1 := 1, s2 := 0x0, n2 := 1, rst := 0x0, rw := 0xF },
  /- SIM_STAT -/ { off := 0x24000C, s1 := 0x0, n1 := 1, s2 := 0x0, n2 := 1, rst := 0x0, w1c := 0x8, ro := 0x7 },
  /- SIM_CTL -/ { off := 0x240010, s1 := 0x0, n1 := 1, s2 := 0x0, n2 := 1, rst := 0x0, wo := 0x1 },
  /- FIU_CTL -/ { off := 0x240014, s1 := 0x0, n1 := 1, s2 := 0x0, n2 := 1, rst := 0x0, rw := 0x1 },
  /- FIU_RSEL -/ { off := 0x240018, s1 := 0x0, n1 := 1, s2 := 0x0, n2 := 1, rst := 0x0, rw := 0x3FFF },
  /- FIU_RSTATE -/ { off := 0x24001C, s1 := 0x0, n1 := 1, s2 := 0x0, n2 := 1, rst := 0x0, ro := 0xFFFF0001 },
  /- EGR_CTL -/ { off := 0x240020, s1 := 0x0, n1 := 1, s2 := 0x0, n2 := 1, rst := 0x0, rw := 0x1 },
  /- EGR_STAT -/ { off := 0x240024, s1 := 0x0, n1 := 1, s2 := 0x0, n2 := 1, rst := 0x0, ro := 0x1 },
  /- SIM_INWRCNT -/ { off := 0x240040, s1 := 0x0, n1 := 1, s2 := 0x0, n2 := 1, rst := 0x0, rc := 0xFFFFFFFF },
  /- FIU_ACTCNT -/ { off := 0x240044, s1 := 0x0, n1 := 1, s2 := 0x0, n2 := 1, rst := 0x0, rc := 0xFFFFFFFF },
  /- FIU_SPDROP -/ { off := 0x240048, s1 := 0x0, n1 := 1, s2 := 0x0, n2 := 1, rst := 0x0, rc := 0xFFFFFFFF },
  /- EGR_TXCNT -/ { off := 0x24004C, s1 := 0x0, n1 := 1, s2 := 0x0, n2 := 1, rst := 0x0, rc := 0xFFFFFFFF },
  /- EGR_EXPCNT -/ { off := 0x240050, s1 := 0x0, n1 := 1, s2 := 0x0, n2 := 1, rst := 0x0, rc := 0xFFFFFFFF },
  /- EGR_LATECNT -/ { off := 0x240054, s1 := 0x0, n1 := 1, s2 := 0x0, n2 := 1, rst := 0x0, rc := 0xFFFFFFFF },
  /- EGR_SUPPCNT -/ { off := 0x240058, s1 := 0x0, n1 := 1, s2 := 0x0, n2 := 1, rst := 0x0, rc := 0xFFFFFFFF },
  /- ING_STRCNTn -/ { off := 0x241000, s1 := 0x4, n1 := 512, s2 := 0x0, n2 := 1, rst := 0x0, ro := 0xFFFFFFFF }]

/-- Registers at block lichen (offset 0x280000). -/
def lichenRows : List RegRow := [
  /- LNKp_CTL -/ { off := 0x280000, s1 := 0x1000, n1 := 4, s2 := 0x0, n2 := 1, rst := 0x2800, rw := 0xFF13, wo := 0xC },
  /- LNKp_STAT -/ { off := 0x280004, s1 := 0x1000, n1 := 4, s2 := 0x0, n2 := 1, rst := 0x0, ro := 0x1FF7 },
  /- LNKp_INT -/ { off := 0x280008, s1 := 0x1000, n1 := 4, s2 := 0x0, n2 := 1, rst := 0x0, w1c := 0x1F },
  /- LNKp_INTEN -/ { off := 0x28000C, s1 := 0x1000, n1 := 4, s2 := 0x0, n2 := 1, rst := 0x0, rw := 0x1F },
  /- LNKp_PEERUID_LO -/ { off := 0x280010, s1 := 0x1000, n1 := 4, s2 := 0x0, n2 := 1, rst := 0x0, ro := 0xFFFFFFFF },
  /- LNKp_PEERUID_HI -/ { off := 0x280014, s1 := 0x1000, n1 := 4, s2 := 0x0, n2 := 1, rst := 0x0, ro := 0xFFFFFFFF },
  /- LNKp_DELAY -/ { off := 0x280018, s1 := 0x1000, n1 := 4, s2 := 0x0, n2 := 1, rst := 0x0, ro := 0xFFFFFF },
  /- LNKp_VCSEL -/ { off := 0x28001C, s1 := 0x1000, n1 := 4, s2 := 0x0, n2 := 1, rst := 0x0, rw := 0x3 },
  /- LNKp_CR -/ { off := 0x280020, s1 := 0x1000, n1 := 4, s2 := 0x0, n2 := 1, rst := 0x0, ro := 0xFFFFFFFF },
  /- LNKp_TX -/ { off := 0x280024, s1 := 0x1000, n1 := 4, s2 := 0x0, n2 := 1, rst := 0x0, ro := 0xFFFFFFFF },
  /- LNKp_RXC -/ { off := 0x280028, s1 := 0x1000, n1 := 4, s2 := 0x0, n2 := 1, rst := 0x0, ro := 0xFFFFFFFF },
  /- LNKp_RX -/ { off := 0x28002C, s1 := 0x1000, n1 := 4, s2 := 0x0, n2 := 1, rst := 0x0, ro := 0xFFFFFFFF },
  /- LNKp_RET -/ { off := 0x280030, s1 := 0x1000, n1 := 4, s2 := 0x0, n2 := 1, rst := 0x0, ro := 0xFFFFFFFF },
  /- LNKp_OCC -/ { off := 0x280034, s1 := 0x1000, n1 := 4, s2 := 0x0, n2 := 1, rst := 0x0, ro := 0xFFFFFFFF },
  /- LNKp_RETRYCNT -/ { off := 0x280040, s1 := 0x1000, n1 := 4, s2 := 0x0, n2 := 1, rst := 0x0, rc := 0xFFFFFFFF },
  /- LNKp_CRCERR -/ { off := 0x280044, s1 := 0x1000, n1 := 4, s2 := 0x0, n2 := 1, rst := 0x0, rc := 0xFFFFFFFF },
  /- LNKp_RETRAINCNT -/ { off := 0x280048, s1 := 0x1000, n1 := 4, s2 := 0x0, n2 := 1, rst := 0x0, rc := 0xFFFFFFFF },
  /- LNKp_AUDERRCNT -/ { off := 0x28004C, s1 := 0x1000, n1 := 4, s2 := 0x0, n2 := 1, rst := 0x0, rc := 0xFFFFFFFF },
  /- LNKp_FECCE -/ { off := 0x280050, s1 := 0x1000, n1 := 4, s2 := 0x0, n2 := 1, rst := 0x0, rc := 0xFFFFFFFF },
  /- LNKp_FECUE -/ { off := 0x280054, s1 := 0x1000, n1 := 4, s2 := 0x0, n2 := 1, rst := 0x0, rc := 0xFFFFFFFF },
  /- LNKp_DROPCNT -/ { off := 0x280058, s1 := 0x1000, n1 := 4, s2 := 0x0, n2 := 1, rst := 0x0, rc := 0xFFFFFFFF },
  /- FAB_CTL -/ { off := 0x284000, s1 := 0x0, n1 := 1, s2 := 0x0, n2 := 1, rst := 0x0, rw := 0x7 },
  /- FAB_PRIO -/ { off := 0x284004, s1 := 0x0, n1 := 1, s2 := 0x0, n2 := 1, rst := 0x80, rw := 0x7FFF },
  /- FAB_UID_LO -/ { off := 0x284008, s1 := 0x0, n1 := 1, s2 := 0x0, n2 := 1, rst := 0x0, ro := 0xFFFFFFFF },
  /- FAB_UID_HI -/ { off := 0x28400C, s1 := 0x0, n1 := 1, s2 := 0x0, n2 := 1, rst := 0x0, ro := 0xFFFFFFFF },
  /- FAB_STAT -/ { off := 0x284010, s1 := 0x0, n1 := 1, s2 := 0x0, n2 := 1, rst := 0x8000, ro := 0xFFFFFF },
  /- FAB_EPOCH -/ { off := 0x284014, s1 := 0x0, n1 := 1, s2 := 0x0, n2 := 1, rst := 0x0, ro := 0xFFFFFFFF },
  /- FAB_VOTE -/ { off := 0x284018, s1 := 0x0, n1 := 1, s2 := 0x0, n2 := 1, rst := 0x1, rw := 0xFFCF, ro := 0x3FF0000 },
  /- FAB_WITNESS -/ { off := 0x28401C, s1 := 0x0, n1 := 1, s2 := 0x0, n2 := 1, rst := 0x0, rw := 0x1FF },
  /- FAB_TICKLAT -/ { off := 0x284020, s1 := 0x0, n1 := 1, s2 := 0x0, n2 := 1, rst := 0x1F4, rw := 0xFFFF },
  /- FAB_DFRAME_LO -/ { off := 0x284024, s1 := 0x0, n1 := 1, s2 := 0x0, n2 := 1, rst := 0x0, ro := 0xFFFFFFFF },
  /- FAB_DFRAME_HI -/ { off := 0x284028, s1 := 0x0, n1 := 1, s2 := 0x0, n2 := 1, rst := 0x0, ro := 0xFFFFFFFF },
  /- FAB_INT -/ { off := 0x28402C, s1 := 0x0, n1 := 1, s2 := 0x0, n2 := 1, rst := 0x0, w1c := 0xFFF },
  /- FAB_INTEN -/ { off := 0x284030, s1 := 0x0, n1 := 1, s2 := 0x0, n2 := 1, rst := 0x0, rw := 0xFFF },
  /- FAB_RSPTO -/ { off := 0x284034, s1 := 0x0, n1 := 1, s2 := 0x0, n2 := 1, rst := 0x7D0, rw := 0xFFFF },
  /- FAB_TWIN -/ { off := 0x284040, s1 := 0x0, n1 := 1, s2 := 0x0, n2 := 1, rst := 0x0, rw := 0x3FF, ro := 0x400 },
  /- FAB_DIG_LO -/ { off := 0x284044, s1 := 0x0, n1 := 1, s2 := 0x0, n2 := 1, rst := 0x0, ro := 0xFFFFFFFF },
  /- FAB_DIG_HI -/ { off := 0x284048, s1 := 0x0, n1 := 1, s2 := 0x0, n2 := 1, rst := 0x0, ro := 0xFFFFFFFF },
  /- FAB_PEERDIG_LO -/ { off := 0x28404C, s1 := 0x0, n1 := 1, s2 := 0x0, n2 := 1, rst := 0x0, ro := 0xFFFFFFFF },
  /- FAB_PEERDIG_HI -/ { off := 0x284050, s1 := 0x0, n1 := 1, s2 := 0x0, n2 := 1, rst := 0x0, ro := 0xFFFFFFFF },
  /- FAB_TWINMISCNT -/ { off := 0x284054, s1 := 0x0, n1 := 1, s2 := 0x0, n2 := 1, rst := 0x0, rc := 0xFFFFFFFF },
  /- FAB_TWINSUPP -/ { off := 0x284058, s1 := 0x0, n1 := 1, s2 := 0x0, n2 := 1, rst := 0x0, rc := 0xFFFFFFFF },
  /- FAB_REJSTAT -/ { off := 0x28405C, s1 := 0x0, n1 := 1, s2 := 0x0, n2 := 1, rst := 0x0, w1c := 0x20, ro := 0x1F },
  /- FAB_ATOMn_ADDR_LO -/ { off := 0x284100, s1 := 0x40, n1 := 8, s2 := 0x0, n2 := 1, rst := 0x0, rw := 0xFFFFFFFF },
  /- FAB_ATOMn_ADDR_HI -/ { off := 0x284104, s1 := 0x40, n1 := 8, s2 := 0x0, n2 := 1, rst := 0x0, rw := 0xFFFF },
  /- FAB_ATOMn_OPND_LO -/ { off := 0x284108, s1 := 0x40, n1 := 8, s2 := 0x0, n2 := 1, rst := 0x0, rw := 0xFFFFFFFF },
  /- FAB_ATOMn_OPND_HI -/ { off := 0x28410C, s1 := 0x40, n1 := 8, s2 := 0x0, n2 := 1, rst := 0x0, rw := 0xFFFFFFFF },
  /- FAB_ATOMn_CMP_LO -/ { off := 0x284110, s1 := 0x40, n1 := 8, s2 := 0x0, n2 := 1, rst := 0x0, rw := 0xFFFFFFFF },
  /- FAB_ATOMn_CMP_HI -/ { off := 0x284114, s1 := 0x40, n1 := 8, s2 := 0x0, n2 := 1, rst := 0x0, rw := 0xFFFFFFFF },
  /- FAB_ATOMn_CTL -/ { off := 0x284118, s1 := 0x40, n1 := 8, s2 := 0x0, n2 := 1, rst := 0x0, rw := 0x7, wo := 0x8, ro := 0xF0 },
  /- FAB_ATOMn_RES_LO -/ { off := 0x28411C, s1 := 0x40, n1 := 8, s2 := 0x0, n2 := 1, rst := 0x0, ro := 0xFFFFFFFF },
  /- FAB_ATOMn_RES_HI -/ { off := 0x284120, s1 := 0x40, n1 := 8, s2 := 0x0, n2 := 1, rst := 0x0, ro := 0xFFFFFFFF },
  /- FAB_RTd -/ { off := 0x288000, s1 := 0x4, n1 := 64, s2 := 0x0, n2 := 1, rst := 0x0, ro := 0x3FF }]

/-- Registers at block hif (offset 0x300000). -/
def hifRows : List RegRow := [
  /- MBXn_CMDw -/ { off := 0x300000, s1 := 0x100, n1 := 16, s2 := 0x4, n2 := 16, rst := 0x0, ro := 0xFFFFFFFF },
  /- MBXn_DOORBELL -/ { off := 0x300040, s1 := 0x100, n1 := 16, s2 := 0x0, n2 := 1, rst := 0x0, ro := 0xFFFF },
  /- MBXn_DBSTAT -/ { off := 0x300044, s1 := 0x100, n1 := 16, s2 := 0x0, n2 := 1, rst := 0x0, w1c := 0x100, ro := 0x2FF },
  /- MBXn_PUB -/ { off := 0x300048, s1 := 0x100, n1 := 16, s2 := 0x0, n2 := 1, rst := 0x0, wo := 0xFF },
  /- MBXn_SEQ -/ { off := 0x300080, s1 := 0x100, n1 := 16, s2 := 0x0, n2 := 1, rst := 0x0, ro := 0xFFFF },
  /- MBXn_STATUS -/ { off := 0x300084, s1 := 0x100, n1 := 16, s2 := 0x0, n2 := 1, rst := 0x0, ro := 0x800000FF },
  /- MBXn_RESw -/ { off := 0x300088, s1 := 0x100, n1 := 16, s2 := 0x4, n2 := 30, rst := 0x0, rw := 0xFFFFFFFF },
  /- HIF_APa -/ { off := 0x301000, s1 := 0x4, n1 := 16, s2 := 0x0, n2 := 1, rst := 0x0, rw := 0xC03FFFFF },
  /- HIF_WINCTL -/ { off := 0x301040, s1 := 0x0, n1 := 1, s2 := 0x0, n2 := 1, rst := 0x0, rw := 0x1 },
  /- HIF_WINERR -/ { off := 0x301044, s1 := 0x0, n1 := 1, s2 := 0x0, n2 := 1, rst := 0x0, w1c := 0x80000000, ro := 0x1F },
  /- HIF_WINADDR_LO -/ { off := 0x301048, s1 := 0x0, n1 := 1, s2 := 0x0, n2 := 1, rst := 0x0, ro := 0xFFFFFFFF },
  /- HIF_WINADDR_HI -/ { off := 0x30104C, s1 := 0x0, n1 := 1, s2 := 0x0, n2 := 1, rst := 0x0, ro := 0xFFFF },
  /- HIF_LINK -/ { off := 0x301050, s1 := 0x0, n1 := 1, s2 := 0x0, n2 := 1, rst := 0x0, w1c := 0x20, ro := 0x1F },
  /- HIF_DBPEND -/ { off := 0x301054, s1 := 0x0, n1 := 1, s2 := 0x0, n2 := 1, rst := 0x0, w1c := 0xFFFF },
  /- HIF_MSIREQ -/ { off := 0x301058, s1 := 0x0, n1 := 1, s2 := 0x0, n2 := 1, rst := 0x0, wo := 0xF }]

/-- Registers at block upd (offset 0x340000). -/
def updRows : List RegRow := [
  /- UPD_CTL -/ { off := 0x340000, s1 := 0x0, n1 := 1, s2 := 0x0, n2 := 1, rst := 0x2, rw := 0x3 },
  /- UPD_STAT -/ { off := 0x340004, s1 := 0x0, n1 := 1, s2 := 0x0, n2 := 1, rst := 0x0, ro := 0xFFF },
  /- UPD_RECV -/ { off := 0x340008, s1 := 0x0, n1 := 1, s2 := 0x0, n2 := 1, rst := 0x0, ro := 0xFFFFFFFF },
  /- UPD_PLEN -/ { off := 0x34000C, s1 := 0x0, n1 := 1, s2 := 0x0, n2 := 1, rst := 0x0, ro := 0xFFFFFFFF },
  /- UPD_INT -/ { off := 0x340010, s1 := 0x0, n1 := 1, s2 := 0x0, n2 := 1, rst := 0x0, w1c := 0x1F },
  /- UPD_INTEN -/ { off := 0x340014, s1 := 0x0, n1 := 1, s2 := 0x0, n2 := 1, rst := 0x0, rw := 0x1F },
  /- UPD_ARB -/ { off := 0x340018, s1 := 0x0, n1 := 1, s2 := 0x0, n2 := 1, rst := 0x0, ro := 0x7F },
  /- UPD_FUSE -/ { off := 0x34001C, s1 := 0x0, n1 := 1, s2 := 0x0, n2 := 1, rst := 0x0, wo := 0x7F, ro := 0x80 },
  /- UPD_KEYID -/ { off := 0x340020, s1 := 0x0, n1 := 1, s2 := 0x0, n2 := 1, rst := 0x0, ro := 0xFF },
  /- UPD_KEYLOCK -/ { off := 0x340024, s1 := 0x0, n1 := 1, s2 := 0x0, n2 := 1, rst := 0x0, wl := 0x1 },
  /- UPD_FLASH -/ { off := 0x340028, s1 := 0x0, n1 := 1, s2 := 0x0, n2 := 1, rst := 0x0, ro := 0x7 },
  /- UPD_ROOTHASHm -/ { off := 0x340040, s1 := 0x4, n1 := 12, s2 := 0x0, n2 := 1, rst := 0x0, ro := 0xFFFFFFFF }]

/-- Registers at block bst (offset 0x380000). -/
def bstRows : List RegRow := [
  /- BST_CTL -/ { off := 0x380000, s1 := 0x0, n1 := 1, s2 := 0x0, n2 := 1, rst := 0x7, rw := 0x7 },
  /- BST_STAT -/ { off := 0x380004, s1 := 0x0, n1 := 1, s2 := 0x0, n2 := 1, rst := 0x0, ro := 0x1FFFFF },
  /- BST_PU -/ { off := 0x380008, s1 := 0x0, n1 := 1, s2 := 0x0, n2 := 1, rst := 0x0, ro := 0xFFFF },
  /- BST_PUTIME -/ { off := 0x38000C, s1 := 0x0, n1 := 1, s2 := 0x0, n2 := 1, rst := 0x0, ro := 0x3FFFF },
  /- BST_INT -/ { off := 0x380010, s1 := 0x0, n1 := 1, s2 := 0x0, n2 := 1, rst := 0x0, w1c := 0xF },
  /- BST_INTEN -/ { off := 0x380014, s1 := 0x0, n1 := 1, s2 := 0x0, n2 := 1, rst := 0x0, rw := 0xF },
  /- BST_LAST -/ { off := 0x380018, s1 := 0x0, n1 := 1, s2 := 0x0, n2 := 1, rst := 0x0, ro := 0xFFFFFFF },
  /- BST_CYCLES -/ { off := 0x38001C, s1 := 0x0, n1 := 1, s2 := 0x0, n2 := 1, rst := 0x0, ro := 0xFFFFFFFF },
  /- BST_CORRCNT -/ { off := 0x380020, s1 := 0x0, n1 := 1, s2 := 0x0, n2 := 1, rst := 0x0, rc := 0xFFFFFFFF },
  /- BST_FATALCNT -/ { off := 0x380024, s1 := 0x0, n1 := 1, s2 := 0x0, n2 := 1, rst := 0x0, rc := 0xFFFFFFFF },
  /- BST_ABORTCNT -/ { off := 0x380028, s1 := 0x0, n1 := 1, s2 := 0x0, n2 := 1, rst := 0x0, rc := 0xFFFFFFFF },
  /- BST_WEAKCNT -/ { off := 0x38002C, s1 := 0x0, n1 := 1, s2 := 0x0, n2 := 1, rst := 0x0, rc := 0xFFFFFFFF },
  /- BST_WARNCNT -/ { off := 0x380030, s1 := 0x0, n1 := 1, s2 := 0x0, n2 := 1, rst := 0x0, ro := 0xFF }]

/-- Registers at block dbg (offset 0x3C0000). Bits [5:0] of DBG_TRCBASE_LO and [31:16] of DBG_TRCBASE_HI are no address bits of the
ring, and count as reserved (DESIGN CHOICE, log 59). -/
def dbgRows : List RegRow := [
  /- DBG_CTL -/ { off := 0x3C0000, s1 := 0x0, n1 := 1, s2 := 0x0, n2 := 1, rst := 0x5, rw := 0xF },
  /- DBG_STAT -/ { off := 0x3C0004, s1 := 0x0, n1 := 1, s2 := 0x0, n2 := 1, rst := 0x0, w1c := 0x100, ro := 0xFF },
  /- DBG_NONCEm -/ { off := 0x3C0010, s1 := 0x4, n1 := 8, s2 := 0x0, n2 := 1, rst := 0x0, ro := 0xFFFFFFFF },
  /- DBG_RESPm -/ { off := 0x3C0030, s1 := 0x4, n1 := 8, s2 := 0x0, n2 := 1, rst := 0x0, wo := 0xFFFFFFFF },
  /- DBG_AUTH -/ { off := 0x3C0050, s1 := 0x0, n1 := 1, s2 := 0x0, n2 := 1, rst := 0x0, wo := 0x1F },
  /- DBG_HALT -/ { off := 0x3C0060, s1 := 0x0, n1 := 1, s2 := 0x0, n2 := 1, rst := 0x0, wo := 0xFFFF },
  /- DBG_RESUME -/ { off := 0x3C0064, s1 := 0x0, n1 := 1, s2 := 0x0, n2 := 1, rst := 0x0, wo := 0xFFFF },
  /- DBG_XMASK -/ { off := 0x3C0068, s1 := 0x0, n1 := 1, s2 := 0x0, n2 := 1, rst := 0x0, rw := 0xFFFF },
  /- DBG_STEP -/ { off := 0x3C006C, s1 := 0x0, n1 := 1, s2 := 0x0, n2 := 1, rst := 0x0, wo := 0xF },
  /- DBG_STEPTO -/ { off := 0x3C0070, s1 := 0x0, n1 := 1, s2 := 0x0, n2 := 1, rst := 0x0, rw := 0xFFFFFFFF },
  /- DBG_TREG -/ { off := 0x3C0078, s1 := 0x0, n1 := 1, s2 := 0x0, n2 := 1, rst := 0x0, rw := 0xFFFFFFFF },
  /- DBG_TSEL -/ { off := 0x3C0074, s1 := 0x0, n1 := 1, s2 := 0x0, n2 := 1, rst := 0x0, rw := 0xFF },
  /- DBG_SKIPCNT -/ { off := 0x3C007C, s1 := 0x0, n1 := 1, s2 := 0x0, n2 := 1, rst := 0x0, rc := 0xFFFFFFFF },
  /- DBG_INT -/ { off := 0x3C0080, s1 := 0x0, n1 := 1, s2 := 0x0, n2 := 1, rst := 0x0, w1c := 0x7 },
  /- DBG_INTEN -/ { off := 0x3C0084, s1 := 0x0, n1 := 1, s2 := 0x0, n2 := 1, rst := 0x0, rw := 0x7 },
  /- DBG_TRCCTL -/ { off := 0x3C0090, s1 := 0x0, n1 := 1, s2 := 0x0, n2 := 1, rst := 0x30, rw := 0xFF },
  /- DBG_TRCBASE_LO -/ { off := 0x3C0094, s1 := 0x0, n1 := 1, s2 := 0x0, n2 := 1, rst := 0x0, rw := 0xFFFFFFC0 },
  /- DBG_TRCBASE_HI -/ { off := 0x3C0098, s1 := 0x0, n1 := 1, s2 := 0x0, n2 := 1, rst := 0x0, rw := 0xFFFF },
  /- DBG_TRCSIZE -/ { off := 0x3C009C, s1 := 0x0, n1 := 1, s2 := 0x0, n2 := 1, rst := 0x0, rw := 0xFFFFFFFF },
  /- DBG_TRCPTR -/ { off := 0x3C00A0, s1 := 0x0, n1 := 1, s2 := 0x0, n2 := 1, rst := 0x0, ro := 0xFFFFFFFF },
  /- DBG_SPn -/ { off := 0x3C0100, s1 := 0x4, n1 := 32, s2 := 0x0, n2 := 1, rst := 0x0, wo := 0xFFFFFFFF }]

/-- Registers at block pmc (offset 0x400000). -/
def pmcRows : List RegRow := [
  /- PMCn_CFG -/ { off := 0x400000, s1 := 0x20, n1 := 64, s2 := 0x0, n2 := 1, rst := 0x0, rw := 0xFFFFF },
  /- PMCn_THR -/ { off := 0x400004, s1 := 0x20, n1 := 64, s2 := 0x0, n2 := 1, rst := 0x0, rw := 0xFFFFFFFF },
  /- PMCn_LO -/ { off := 0x400008, s1 := 0x20, n1 := 64, s2 := 0x0, n2 := 1, rst := 0x0, rw := 0xFFFFFFFF },
  /- PMCn_HI -/ { off := 0x40000C, s1 := 0x20, n1 := 64, s2 := 0x0, n2 := 1, rst := 0x0, rw := 0xFFFF, w1c := 0x80000000 },
  /- PMCn_SNAP_LO -/ { off := 0x400010, s1 := 0x20, n1 := 64, s2 := 0x0, n2 := 1, rst := 0x0, ro := 0xFFFFFFFF },
  /- PMCn_SNAP_HI -/ { off := 0x400014, s1 := 0x20, n1 := 64, s2 := 0x0, n2 := 1, rst := 0x0, ro := 0x8000FFFF },
  /- PMC_CTL -/ { off := 0x400800, s1 := 0x0, n1 := 1, s2 := 0x0, n2 := 1, rst := 0x2, rw := 0x3, wo := 0x4 },
  /- PMC_STAT -/ { off := 0x400804, s1 := 0x0, n1 := 1, s2 := 0x0, n2 := 1, rst := 0x0, w1c := 0x2, ro := 0x1 },
  /- PMC_BWCTL -/ { off := 0x400808, s1 := 0x0, n1 := 1, s2 := 0x0, n2 := 1, rst := 0x3E8, rw := 0x3FFFFF },
  /- PMC_BWSELm -/ { off := 0x400900, s1 := 0x4, n1 := 48, s2 := 0x0, n2 := 1, rst := 0x0, rw := 0x3FF },
  /- PMC_BWm_LO -/ { off := 0x400A00, s1 := 0x8, n1 := 48, s2 := 0x0, n2 := 1, rst := 0x0, ro := 0xFFFFFFFF },
  /- PMC_BWm_HI -/ { off := 0x400A04, s1 := 0x8, n1 := 48, s2 := 0x0, n2 := 1, rst := 0x0, ro := 0xFFFF }]

/-- Registers at block wdg (offset 0x440000). -/
def wdgRows : List RegRow := [
  /- WDG_CTL -/ { off := 0x440000, s1 := 0x0, n1 := 1, s2 := 0x0, n2 := 1, rst := 0x2, rw := 0x2, wl := 0x1 },
  /- WDG_PERIOD -/ { off := 0x440004, s1 := 0x0, n1 := 1, s2 := 0x0, n2 := 1, rst := 0x3E8, rw := 0xFFFFFF },
  /- WDG_SVC -/ { off := 0x440008, s1 := 0x0, n1 := 1, s2 := 0x0, n2 := 1, rst := 0x0, wo := 0xFFFFFFFF },
  /- WDG_COUNT -/ { off := 0x44000C, s1 := 0x0, n1 := 1, s2 := 0x0, n2 := 1, rst := 0x0, ro := 0xFFFFFFFF },
  /- WDG_STAT -/ { off := 0x440010, s1 := 0x0, n1 := 1, s2 := 0x0, n2 := 1, rst := 0x0, w1c := 0x3, ro := 0x4 },
  /- TB_LO -/ { off := 0x440020, s1 := 0x0, n1 := 1, s2 := 0x0, n2 := 1, rst := 0x0, ro := 0xFFFFFFFF },
  /- TB_HI -/ { off := 0x440024, s1 := 0x0, n1 := 1, s2 := 0x0, n2 := 1, rst := 0x0, ro := 0xFFFFFFFF },
  /- TMRn_CTL -/ { off := 0x440040, s1 := 0x10, n1 := 4, s2 := 0x0, n2 := 1, rst := 0x0, rw := 0x6, wo := 0x9 },
  /- TMRn_LOAD -/ { off := 0x440044, s1 := 0x10, n1 := 4, s2 := 0x0, n2 := 1, rst := 0x0, rw := 0xFFFFFFFF },
  /- TMRn_STAT -/ { off := 0x440048, s1 := 0x10, n1 := 4, s2 := 0x0, n2 := 1, rst := 0x0, w1c := 0x1, ro := 0x2 }]

/-- The rows of the 64 KiB block that holds an offset; E1 has its own block (R289). -/
def regRows (off : Nat) : List RegRow :=
  match off / 0x10000 with
  | 0 => glbRows
  | 1 => pwrRows
  | 2 => ldgRows
  | 4 => frdRows
  | 8 => bankRows
  | 9 => ddrRows
  | 12 => mtxRows
  | 16 => stmRows
  | 20 => trpRows
  | 24 => spcRows
  | 32 => ethRows
  | 36 => iobRows
  | 40 => lichenRows
  | 48 => hifRows
  | 52 => updRows
  | 56 => bstRows
  | 60 => dbgRows
  | 64 => pmcRows
  | 68 => wdgRows
  | 33 => ethRows
  | _ => []

/-- A row holds an offset: it is the base plus whole strides within the counts. -/
def RegRow.holds (r : RegRow) (off : Nat) : Bool :=
  decide (r.off ≤ off) &&
    (let d := off - r.off
     let i := if r.n1 ≤ 1 then 0 else d / r.s1
     let e := if r.n1 ≤ 1 then d else d % r.s1
     let j := if r.n2 ≤ 1 then 0 else e / r.s2
     let f := if r.n2 ≤ 1 then e else e % r.s2
     decide (i < r.n1) && decide (j < r.n2) && f == 0)

/-- The row of a register, if the offset holds one (R51). -/
def regRow (off : Nat) : Option RegRow := (regRows off).find? (fun r => r.holds off)

/-- The reset value of the register at an offset (R5); 0 where there is none. -/
def regReset (off : Nat) : Word :=
  match regRow off with
  | some r => BitVec.ofNat 32 r.rst
  | none => 0

end Sys2Proof.Machine
end

