-- ==== Sys2Proof/Machine/Bits.lean ====
section
/-! DEFINITION. Bit fields, byte order and small arithmetic used everywhere (00_scope.md: bit ranges, little-endian
storage, ceil and div of the pseudocode). -/

namespace Sys2Proof.Machine

/-- Bits hi..lo of a natural number. -/
def bits (v hi lo : Nat) : Nat := v / 2 ^ lo % 2 ^ (hi - lo + 1)

/-- Bit i of a natural number. -/
def nbit (v i : Nat) : Bool := v.testBit i

/-- A natural number with bits hi..lo replaced by x (cut to the field's width). -/
def putBits (v hi lo x : Nat) : Nat :=
  v - bits v hi lo * 2 ^ lo + x % 2 ^ (hi - lo + 1) * 2 ^ lo

/-- Field [hi:lo] of a word. -/
def fld (v : Word) (hi lo : Nat) : Nat := bits v.toNat hi lo

/-- A word with field [hi:lo] replaced. -/
def setFld (v : Word) (hi lo x : Nat) : Word := BitVec.ofNat 32 (putBits v.toNat hi lo x)

/-- 1 for true, 0 for false. -/
def b2n (b : Bool) : Nat := if b then 1 else 0

/-- ceil(a / b); 0 when b is 0. -/
def ceilDiv (a b : Nat) : Nat := if b = 0 then 0 else (a + b - 1) / b

/-- The n low bytes of a number, least significant first (little-endian storage). -/
def leBytes : Nat → Nat → List Byte
  | 0, _ => []
  | n + 1, v => BitVec.ofNat 8 (v % 256) :: leBytes n (v / 256)

/-- The number whose bytes these are, least significant first. -/
def leVal : List Byte → Nat
  | [] => 0
  | b :: t => b.toNat + 256 * leVal t

/-- n bytes of a list from an offset, as a number. -/
def leField (b : List Byte) (o n : Nat) : Nat := leVal ((b.drop o).take n)

/-- The n low bytes of a number, most significant first. -/
def beBytes (n v : Nat) : List Byte := (leBytes n v).reverse

/-- The number whose bytes these are, most significant first. -/
def beVal (l : List Byte) : Nat := leVal l.reverse

/-- A number of w bits read as two's complement. -/
def toSigned (w v : Nat) : Int :=
  let u := v % 2 ^ w
  if u < 2 ^ (w - 1) then (u : Int) else (u : Int) - (2 ^ w : Nat)

/-- An integer cut to w bits. -/
def ofSigned (w : Nat) (i : Int) : Nat := (i % ((2 ^ w : Nat) : Int)).toNat

/-- Sum saturating at the largest w-bit value. -/
def satAdd (w a b : Nat) : Nat := min (a + b) (2 ^ w - 1)

/-- Sum modulo 2^w. -/
def wrapAdd (w a b : Nat) : Nat := (a + b) % 2 ^ w

/-- Bit mask 2^i. -/
def bitMask (i : Nat) : Nat := 2 ^ i

/-- Set or clear bit i of a number. -/
def putBit (v i : Nat) (b : Bool) : Nat :=
  if v.testBit i then (if b then v else v - 2 ^ i) else (if b then v + 2 ^ i else v)

/-- The member of an eight by number. -/
def Oct.get {α : Type} (o : Oct α) (i : Nat) : α :=
  match i with
  | 0 => o.x0
  | 1 => o.x1
  | 2 => o.x2
  | 3 => o.x3
  | 4 => o.x4
  | 5 => o.x5
  | 6 => o.x6
  | _ => o.x7

/-- An eight with one member replaced. -/
def Oct.set {α : Type} (o : Oct α) (i : Nat) (a : α) : Oct α :=
  match i with
  | 0 => { o with x0 := a }
  | 1 => { o with x1 := a }
  | 2 => { o with x2 := a }
  | 3 => { o with x3 := a }
  | 4 => { o with x4 := a }
  | 5 => { o with x5 := a }
  | 6 => { o with x6 := a }
  | _ => { o with x7 := a }

/-- The member of a four by number. -/
def Quad.get {α : Type} (o : Quad α) (i : Nat) : α :=
  match i with
  | 0 => o.x0
  | 1 => o.x1
  | 2 => o.x2
  | _ => o.x3

/-- A four with one member replaced. -/
def Quad.set {α : Type} (o : Quad α) (i : Nat) (a : α) : Quad α :=
  match i with
  | 0 => { o with x0 := a }
  | 1 => { o with x1 := a }
  | 2 => { o with x2 := a }
  | _ => { o with x3 := a }

/-- The member of a pair by number. -/
def Duo.get {α : Type} (o : Duo α) (i : Nat) : α :=
  match i with
  | 0 => o.x0
  | _ => o.x1

/-- A pair with one member replaced. -/
def Duo.set {α : Type} (o : Duo α) (i : Nat) (a : α) : Duo α :=
  match i with
  | 0 => { o with x0 := a }
  | _ => { o with x1 := a }

end Sys2Proof.Machine
end

