-- ==== Sys2Proof/Machine/Sparse.lean ====
section
/-! DEFINITION. Sparse maps in canonical form: keys strictly rising, and no entry equal to what its key reads as when
it is not listed. Memory, flash and the register file are such maps, so equal contents are equal lists. -/

namespace Sys2Proof.Machine

/-- What a key reads as: its entry, or the default of an unlisted key. -/
def sget {α : Type} (d : Nat → α) : SMap α → Nat → α
  | [], k => d k
  | (a, v) :: t, k => if k = a then v else sget d t k

/-- A map without a key's entry. -/
def sdel {α : Type} (m : SMap α) (k : Nat) : SMap α := m.filter (fun e => e.1 != k)

/-- An entry put before the first entry of a higher key. -/
def sins {α : Type} (k : Nat) (v : α) : SMap α → SMap α
  | [] => [(k, v)]
  | (a, w) :: t => if k < a then (k, v) :: (a, w) :: t else (a, w) :: sins k v t

/-- A map with one key's value replaced; writing the default removes the entry. -/
def sput {α : Type} [DecidableEq α] (d : Nat → α) (m : SMap α) (k : Nat) (v : α) : SMap α :=
  if v = d k then sdel m k else sins k v (sdel m k)

/-- Canonical form from a lower bound of the keys on. -/
def swfFrom {α : Type} [DecidableEq α] (d : Nat → α) : Nat → SMap α → Bool
  | _, [] => true
  | lo, (a, v) :: t => decide (lo ≤ a) && decide (v ≠ d a) && swfFrom d (a + 1) t

/-- Canonical form. -/
def swf {α : Type} [DecidableEq α] (d : Nat → α) (m : SMap α) : Bool := swfFrom d 0 m

/-- Consecutive values written from a key on. -/
def sputMany {α : Type} [DecidableEq α] (d : Nat → α) (m : SMap α) : Nat → List α → SMap α
  | _, [] => m
  | k, v :: t => sputMany d (sput d m k v) (k + 1) t

/-- n consecutive values read from a key on. -/
def sgetMany {α : Type} (d : Nat → α) (m : SMap α) (k : Nat) : Nat → List α
  | 0 => []
  | n + 1 => sget d m k :: sgetMany d m (k + 1) n

/-- Every entry whose key satisfies p is removed: those keys read as their default again. -/
def sdrop {α : Type} (p : Nat → Bool) (m : SMap α) : SMap α := m.filter (fun e => !p e.1)

end Sys2Proof.Machine
end

