-- ==== Sys2Proof/Machine/Ops.lean ====
section
/-! DEFINITION. The named operations every block uses: the register file, threads and other members of State, memory
bytes, counters, producer events, machine traps, the bus-error log, outputs, and the modes. -/

namespace Sys2Proof.Machine

/-- The outcome type of every meaning. -/
abbrev Res := Host.Outcome State Fault Refusal

/-! ### Register file -/

/-- The stored value of the register at an offset from CS_BASE (R5). -/
def State.rd (s : State) (off : Nat) : Word := sget regReset s.csr off

/-- The registers that events have changed in the present clk, each with its value before (R6). -/
def State.changed (s : State) : SMap Word := if s.eventClk = s.clk then s.events else []

/-- A register's value before the events of the present clk (R6). -/
def State.before (s : State) (off : Nat) : Word :=
  ((s.changed.find? (fun e => e.1 == off)).map (fun e => e.2)).getD (s.rd off)

/-- What the events of the present clk brought to a register: bits that they set, or the amount that they counted (R6). -/
def State.fresh (s : State) (off : Nat) : Word := if s.eventClk = s.clk then sget (fun _ => 0) s.brought off else 0

/-- The register at an offset replaced whole, by the engine itself: an event of the present clk (R6). -/
def State.wr (s : State) (off : Nat) (v : Word) : State :=
  { s with
    csr := sput regReset s.csr off v
    events := if s.changed.any (fun e => e.1 == off) then s.changed else (off, s.rd off) :: s.changed
    brought := if s.eventClk = s.clk then s.brought else []
    eventClk := s.clk }

/-- An event replaces a register and brings bits, or an amount, that a software access of the same clk leaves (R6). -/
def State.bring (s : State) (off : Nat) (v amount : Word) : State :=
  { s.wr off v with brought := sput (fun _ => 0) (s.wr off v).brought off amount }

/-- The register at an offset replaced whole by a software access. -/
def State.setReg (s : State) (off : Nat) (v : Word) : State := { s with csr := sput regReset s.csr off v }

/-- A value that software gives a register: each bit that an event changes in the same clk stays at the event's value (R6). -/
def State.soft (s : State) (off : Nat) (v : Word) : State :=
  let hw := s.before off ^^^ s.rd off
  s.setReg off ((s.rd off &&& hw) ||| (v &&& ~~~ hw))

/-- Software clears bits of a register but for those that an event sets in the same clk (R6). -/
def State.clears (s : State) (off : Nat) (m : Word) : State := s.soft off (s.rd off &&& ~~~ (m &&& ~~~ s.fresh off))

/-- A software access has met its register; an access after it is of a later clk (R6; log 66). -/
def State.accessDone (s : State) : State := { s with events := [], brought := [] }

/-- Field [hi:lo] of a stored register. -/
def State.f (s : State) (off hi lo : Nat) : Nat := fld (s.rd off) hi lo

/-- Bit i of a stored register. -/
def State.b (s : State) (off i : Nat) : Bool := (s.rd off).getLsbD i

/-- Field [hi:lo] of a register set by the engine. -/
def State.putF (s : State) (off hi lo x : Nat) : State := s.wr off (setFld (s.rd off) hi lo x)

/-- Bit i of a register set or cleared by the engine. -/
def State.setB (s : State) (off i : Nat) (v : Bool) : State :=
  s.bring off (setFld (s.rd off) i i (b2n v)) (setFld (s.fresh off) i i (b2n v))

/-- A saturating counter field of w bits at bit 0 (RC counters). -/
def State.count (s : State) (off w n : Nat) : State :=
  s.bring off (setFld (s.rd off) (w - 1) 0 (satAdd w (s.f off (w - 1) 0) n))
    (BitVec.ofNat 32 (satAdd w (s.fresh off).toNat n))

/-- A wrapping 32-bit counter. -/
def State.countW (s : State) (off n : Nat) : State :=
  s.bring off (BitVec.ofNat 32 ((s.rd off).toNat + n)) (BitVec.ofNat 32 ((s.fresh off).toNat + n))

/-! ### Members of State -/

/-- Thread t. -/
def State.thr (s : State) (t : Nat) : Thread := s.threads.get t

/-- Thread t replaced. -/
def State.setThr (s : State) (t : Nat) (h : Thread) : State := { s with threads := s.threads.set t h }

/-- Thread t changed. -/
def State.onThr (s : State) (t : Nat) (g : Thread → Thread) : State := s.setThr t (g (s.thr t))

/-- The ledger changed. -/
def State.onLdg (s : State) (g : Ledger → Ledger) : State := { s with ledger := g s.ledger }

/-- The register writes that wait changed. -/
def State.onCtl (s : State) (g : List CtlWait → List CtlWait) : State := { s with ctlWaits := g s.ctlWaits }

/-- Memory changed. -/
def State.onMem (s : State) (g : Memory → Memory) : State := { s with mem := g s.mem }

/-- The matrix changed. -/
def State.onMtx (s : State) (g : Matrix → Matrix) : State := { s with matrix := g s.matrix }

/-- The spore block changed. -/
def State.onSpo (s : State) (g : Spores → Spores) : State := { s with spores := g s.spores }

/-- Field I/O changed. -/
def State.onIo (s : State) (g : FieldIo → FieldIo) : State := { s with io := g s.io }

/-- Ethernet port e. -/
def State.eth (s : State) (e : Nat) : EthPort := s.io.eth.get e

/-- Ethernet port e changed. -/
def State.onEth (s : State) (e : Nat) (g : EthPort → EthPort) : State :=
  s.onIo (fun i => { i with eth := i.eth.set e (g (i.eth.get e)) })

/-- The fabric changed. -/
def State.onFab (s : State) (g : Fabric → Fabric) : State := { s with fabric := g s.fabric }

/-- Lichen port p. -/
def State.lnk (s : State) (p : Nat) : LichenPort := s.fabric.ports.get p

/-- Lichen port p changed. -/
def State.onLnk (s : State) (p : Nat) (g : LichenPort → LichenPort) : State :=
  s.onFab (fun f => { f with ports := f.ports.set p (g (f.ports.get p)) })

/-- The host interface changed. -/
def State.onHost (s : State) (g : HostIf → HostIf) : State := { s with host := g s.host }

/-- Firmware's state changed. -/
def State.onFw (s : State) (g : Firmware → Firmware) : State := { s with fw := g s.fw }

/-- The update engine changed. -/
def State.onUpd (s : State) (g : Update → Update) : State := { s with upd := g s.upd }

/-- The BIST engine changed. -/
def State.onBist (s : State) (g : Bist → Bist) : State := { s with bist := g s.bist }

/-- The debug port changed. -/
def State.onDbg (s : State) (g : Debug → Debug) : State := { s with dbg := g s.dbg }

/-- The counters' own state changed. -/
def State.onPmc (s : State) (g : Pmc → Pmc) : State := { s with pmc := g s.pmc }

/-- Power changed. -/
def State.onPwr (s : State) (g : Power → Power) : State := { s with power := g s.power }

/-- Frond k changed. -/
def State.onFrd (s : State) (k : Nat) (g : Frond → Frond) : State :=
  { s with fronds := s.fronds.set k (g (s.fronds.get k)) }

/-- Something left the engine. -/
def State.emit (s : State) (o : Out) : State := { s with out := o :: s.out }

/-- The change folded over a list, oldest first. -/
def State.each {α : Type} (s : State) (l : List α) (g : State → α → State) : State := l.foldl g s

/-! ### Modes (R12, R437) -/

/-- PWR_MODE.MODE: 0 power-up or Off, 1 Dormant, 2 Config, 3 Run, 4 Hold, 5 Safe (R437). -/
def State.mode (s : State) : Nat := s.f R.PWR_MODE 2 0

/-- The engine is in Run or Hold. -/
def State.inFrame (s : State) : Bool := s.mode == 3 || s.mode == 4

/-- The engine is in Config. -/
def State.inConfig (s : State) : Bool := s.mode == 2

/-- The core clocks run: Config, Run, Hold or Safe (R430). -/
def State.running (s : State) : Bool := decide (2 ≤ s.mode) && decide (s.mode ≤ 5)

/-! ### Levels and origins (R50, R220, R255) -/

/-- A thread's privilege level, PSW.PL. -/
def Thread.pl (h : Thread) : Nat := fld h.psw 13 12

/-- The level the debug port holds (R401): 0 none, 1 Task debug, 2 Full. -/
def State.dbgLevel (s : State) : Nat := s.f R.DBG_STAT 1 0

/-- A request has Machine origin (R50). -/
def State.machineOrigin (s : State) : Origin → Bool
  | .thread t => (s.thr t.val).pl == 3
  | .debug => s.dbgLevel == 2
  | .lichen m => m

/-- A request has Supervisor or Machine origin (R418, R471): a thread above Task level, or a Machine origin. -/
def State.supervisorOrigin (s : State) : Origin → Bool
  | .thread t => decide (1 ≤ (s.thr t.val).pl)
  | o => s.machineOrigin o

/-- The master identifier of an origin (R70). -/
def originMaster : Origin → Nat
  | .thread _ => 8
  | .debug => 15
  | .lichen _ => 11

/-- The requester of R7: one per master, and one per Stem thread (numbered from 16). -/
def originRequester : Origin → Nat
  | .thread t => 16 + t.val
  | o => originMaster o

/-! ### Bytes of memory -/

/-- What an unlisted byte of a bank or of DDR5 reads as (R59; log 2). -/
def memDefault : Nat → Byte := fun _ => 0

/-- What an unlisted byte of the flash reads as (R214's note on erased flash; log 2). -/
def flashDefault : Nat → Byte := fun _ => 0xFF

/-- Memory is in canonical form. -/
def Memory.wf (m : Memory) : Bool := swf memDefault m.cells && swf flashDefault m.flash

/-- One byte at a home address. -/
def State.byte (s : State) (a : Nat) : Byte := sget memDefault s.mem.cells a

/-- n bytes from a home address on. -/
def State.bytesAt (s : State) (a n : Nat) : List Byte := sgetMany memDefault s.mem.cells a n

/-- Bytes stored from a home address on. -/
def State.setBytes (s : State) (a : Nat) (l : List Byte) : State :=
  s.onMem (fun m => { m with cells := sputMany memDefault m.cells a l })

/-- A range of home addresses cleared to what unlisted bytes read as. -/
def State.clearBytes (s : State) (a n : Nat) : State :=
  s.onMem (fun m => { m with cells := sdrop (fun k => decide (a ≤ k) && decide (k < a + n)) m.cells })

/-- n bytes of flash from an offset on. -/
def State.flashAt (s : State) (a n : Nat) : List Byte := sgetMany flashDefault s.mem.flash a n

/-- Bytes programmed into flash from an offset on. -/
def State.setFlash (s : State) (a : Nat) (l : List Byte) : State :=
  s.onMem (fun m => { m with flash := sputMany flashDefault m.flash a l })

/-- A range of flash erased. -/
def State.eraseFlash (s : State) (a n : Nat) : State :=
  s.onMem (fun m => { m with flash := sdrop (fun k => decide (a ≤ k) && decide (k < a + n)) m.flash })

/-- The low n bytes of a number stored little-endian at a home address. -/
def State.setLe (s : State) (a n v : Nat) : State := s.setBytes a (leBytes n v)

/-- The number held little-endian in n bytes at a home address. -/
def State.leAt (s : State) (a n : Nat) : Nat := leVal (s.bytesAt a n)

/-! ### Producer events (R245, R246) -/

/-- A producer event of a kind, with the parameter its slots must hold. -/
def State.produce (s : State) (kind param : Nat) : State :=
  s.onSpo (fun p => { p with events := p.events ++ [{ kind := kind, param := param }] })

/-- A producer event for one channel (completion, FIU, software and remote spores). -/
def State.produceOn (s : State) (e : Event) : State :=
  s.onSpo (fun p => { p with events := p.events ++ [e] })

/-! ### Machine traps (R235) -/

/-- A thread that can hold a machine trap for delivery: not STOPPED and not LOCKED. -/
def Thread.takesTraps (h : Thread) : Bool := decide (h.st ≠ .stopped) && decide (h.st ≠ .locked)

/-- Machine trap 0x0C + m is raised: at the thread TRP_MROUTE selects, at the other when that one is STOPPED or
LOCKED, and otherwise it stays pending and sets TRP_STAT.MUNDEL (R235). -/
def State.raiseMachine (s : State) (m : Nat) : State :=
  let first := b2n (s.b R.TRP_MROUTE m)
  let other := 1 - first
  if (s.thr first).takesTraps then s.onThr first (fun h => { h with mpend := putBit h.mpend m true })
  else if (s.thr other).takesTraps then s.onThr other (fun h => { h with mpend := putBit h.mpend m true })
  else { s.setB R.TRP_STAT 9 true with undelivered := putBit s.undelivered m true }

/-! ### Bus errors (R79) -/

/-- A bus error is logged: MTX_ERR and MTX_ERRADDR when no error is held, and MTX_ERRCNT always (R79). -/
def State.busError (s : State) (master target : Nat) (write : Bool) (cause addr : Nat) : State :=
  let s1 := s.count R.MTX_ERRCNT 32 1
  if s1.b R.MTX_ERR 31 then s1
  else
    ((s1.wr R.MTX_ERR (BitVec.ofNat 32 (master + target * 16 + b2n write * 1024 + cause * 2048 + 2 ^ 31))).wr
      R.MTX_ERRADDR_LO (BitVec.ofNat 32 addr)).wr R.MTX_ERRADDR_HI (BitVec.ofNat 32 (addr / 2 ^ 32 % 65536))

/-! ### Interrupt status words -/

/-- An LDG_GUARD bit sets (R40, R46); GET_STATUS reports it (R347). -/
def State.guard (s : State) (i : Nat) : State :=
  (s.setB R.LDG_GUARD i true).onFw (fun f => { f with guardSince := putBit f.guardSince i true })

/-! ### Time -/

/-- The timebase in ns (R416). -/
def State.ns (s : State) : Nat := s.tb / 16

/-- A bound of µs as 1/16 ns of elapsed time (R3). -/
def usTime (us : Nat) : Nat := us * 16000

/-- CORE_CLK divider 2^DIV (R431). -/
def State.divider (s : State) : Nat := 2 ^ s.f R.PWR_CLKDIV 1 0

end Sys2Proof.Machine
end

