-- ==== Sys2Proof/Machine/Pmc.lean ====
section
/-! DEFINITION. Performance counters (17_performance_counters.md): what an event or a clk adds to the counters that
select it, and the bytes of the bandwidth windows. -/

namespace Sys2Proof.Machine

/-- The event code is assigned, with its largest UNIT and whether it is an occupancy (R420). -/
def pmcEventInfo (e : Nat) : Option (Nat × Bool) :=
  match e with
  | 0x01 => some (0, false)
  | 0x02 => some (7, false)
  | 0x03 => some (7, false)
  | 0x04 => some (7, false)
  | 0x05 => some (7, true)
  | 0x10 => some (23, false)
  | 0x11 => some (11, true)
  | 0x18 => some (35, false)
  | 0x20 => some (33, false)
  | 0x21 => some (33, true)
  | 0x22 => some (15, false)
  | 0x28 => some (147, true)
  | 0x29 => some (0, false)
  | 0x2A => some (0, false)
  | 0x2B => some (0, false)
  | 0x30 => some (8, false)
  | 0x38 => some (15, false)
  | 0x39 => some (3, false)
  | 0x40 => some (1, false)
  | 0x41 => some (0, false)
  | _ => none

/-- The account indices of R23. -/
def acctAssigned (r : Nat) : Bool :=
  decide (r ≤ 23) || (decide (32 ≤ r) && decide (r ≤ 67)) || (decide (80 ≤ r) && decide (r ≤ 87)) ||
    (decide (96 ≤ r) && decide (r ≤ 111)) || (decide (128 ≤ r) && decide (r ≤ 147))

/-- A PMCn_CFG value names an assigned event, a UNIT in its range, and a MODE permitted for it (R419). -/
def pmcCfgOk (v : Word) : Bool :=
  let e := fld v 7 0
  let u := fld v 15 8
  let m := fld v 17 16
  match pmcEventInfo e with
  | none => false
  | some (maxU, occ) =>
    decide (u ≤ maxU) && (if e = 0x28 then acctAssigned u else true) && (occ || m == 0 || m == 3)

/-- Counter n counts in this clk: enabled, and not stopped by a freeze (R419, R422). -/
def State.pmcCounts (s : State) (n : Nat) : Bool :=
  s.b R.PMC_CTL 0 && s.b (R.PMC_CFG n) 18 && !(s.b (R.PMC_CFG n) 19 && s.b R.PMC_STAT 0) && s.running

/-- The 48-bit value of counter n. -/
def State.pmcValue (s : State) (n : Nat) : Nat := (s.rd (R.PMC_LO n)).toNat + s.f (R.PMC_HI n) 15 0 * 2 ^ 32

/-- Counter n set to a 48-bit value. -/
def State.setPmc (s : State) (n v : Nat) : State :=
  (s.wr (R.PMC_LO n) (BitVec.ofNat 32 v)).putF (R.PMC_HI n) 15 0 (v / 2 ^ 32)

/-- Counter n advanced; a wrap from 2^48 - 1 to 0 sets its sticky OVF (R419). -/
def State.pmcAdd (s : State) (n k : Nat) : State :=
  let v := s.pmcValue n + k
  let s1 := s.setPmc n (v % 2 ^ 48)
  if v < 2 ^ 48 then s1 else s1.setB (R.PMC_HI n) 31 true

/-- The condition of an EDGE counter held in each of the last `clks` clk: 1 if it did not hold in the clk before them (R419). -/
def State.pmcEdge (s : State) (n clks : Nat) : State :=
  let last := sget (fun _ => 0) s.pmc.lastHeld n
  let s1 := s.onPmc (fun p => { p with lastHeld := sput (fun _ => 0) p.lastHeld n (s.clk + 1) })
  if last ≠ 0 ∧ s.clk + 1 ≤ last + clks then s1 else s1.pmcAdd n 1

/-- What k events in the last `clks` clk add to counter n, by its MODE (R419). -/
def State.pmcHit (s : State) (n k clks : Nat) : State :=
  match s.f (R.PMC_CFG n) 17 16 with
  | 0 => s.pmcAdd n k
  | _ => s.pmcEdge n clks

/-- The counters, 0 to 63. -/
def pmcIndices : List Nat := List.range 64

/-- k events of a code at a unit, in each of the last `clks` clk, reach every counter that selects them (R419, R420). Event 0x30
also counts on unit 8, all threads. -/
def State.eventOver (s : State) (code unit k clks : Nat) : State :=
  if s.b R.PMC_CTL 0 && decide (0 < k) then
    s.each pmcIndices (fun s n =>
      if s.pmcCounts n && s.f (R.PMC_CFG n) 7 0 == code &&
          (s.f (R.PMC_CFG n) 15 8 == unit || (code == 0x30 && s.f (R.PMC_CFG n) 15 8 == 8))
      then s.pmcHit n k clks else s)
  else s

/-- k events of a code at a unit in this clk. -/
def State.event (s : State) (code unit k : Nat) : State := s.eventOver code unit k 1

/-- An occupancy sampled for n clk reaches every counter that selects it (R419). -/
def State.occupancy (s : State) (code unit level clks : Nat) : State :=
  s.each pmcIndices (fun s n =>
    if s.pmcCounts n && s.f (R.PMC_CFG n) 7 0 == code && s.f (R.PMC_CFG n) 15 8 == unit then
      let thr := (s.rd (R.PMC_THR n)).toNat
      match s.f (R.PMC_CFG n) 17 16 with
      | 1 => if thr < level then s.pmcAdd n clks else s
      | 2 => if thr ≤ level then s.pmcAdd n clks else s
      | 3 => if thr ≤ level then s.pmcEdge n clks else s
      | _ => s
    else s)

/-- Bytes moved by a port of R424: kind 1 matrix target, 2 matrix master, 3 Lichen payload sent. -/
def State.moved (s : State) (kind id n : Nat) : State :=
  if s.b R.PMC_BWCTL 20 then
    s.each (List.range 48) (fun s m =>
      let sel := sget (fun _ => 0) s.pmc.sel m
      if fld sel 9 8 == kind && fld sel 7 0 == id then
        s.onPmc (fun p => { p with bytes := sput (fun _ => 0) p.bytes m (sget (fun _ => 0) p.bytes m + n) })
      else s)
  else s

/-- The open window's selections are those of PMC_BWSELm at its start (R424). -/
def State.openWindow (s : State) : State :=
  s.onPmc (fun p => { p with
    bytes := []
    winAt := s.now
    sel := (List.range 48).foldl (fun m i => sput (fun _ => 0) m i (s.rd (R.PMC_BWSEL i))) [] })

/-- A window's end: every PMC_BWm latches its bytes and BWNEW sets; the next window opens (R424). -/
def State.closeWindow (s : State) : State :=
  let s1 := s.each (List.range 48) (fun s m =>
    let v := sget (fun _ => 0) s.pmc.bytes m
    (s.wr (R.PMC_BW_LO m) (BitVec.ofNat 32 v)).wr (R.PMC_BW_HI m) (BitVec.ofNat 32 (v / 2 ^ 32 % 65536)))
  (s1.setB R.PMC_STAT 1 true).openWindow

/-- The copies taken at a tick (R423). -/
def State.snapshot (s : State) : State :=
  if s.b R.PMC_CTL 1 then
    s.each pmcIndices (fun s n =>
      (s.wr (R.PMC_SNAP_LO n) (s.rd (R.PMC_LO n))).wr (R.PMC_SNAP_HI n) (s.rd (R.PMC_HI n)))
  else s

end Sys2Proof.Machine
end

