-- ==== Sys2Proof/Machine/Clock.lean ====
section
/-! DEFINITION. Time: what passes in n clk of CORE_CLK (R3, R416, R417, R409, R430). -/

namespace Sys2Proof.Machine

/-- 1/16 ns in one clk: 10, times the divider of R431. -/
def State.clkSixteenths (s : State) : Nat := 10 * s.divider

/-- d sixteenths of a ns pass for the always-on counters: elapsed time, the generator's count and the timebase at its
disciplined rate, the timebase less what it is held still for (R3, R15, R416). -/
def State.passTb (s : State) (d : Nat) : State :=
  let x := d * (1000000 + s.tbRate).toNat + s.tbPart
  let w := x / 1000000
  { s with now := s.now + d, gen := s.gen + w, tb := s.tb + (w - s.tbHold), tbHold := s.tbHold - w, tbPart := x % 1000000 }

/-- Clk until the timebase's rate has counted d sixteenths of a ns more. -/
def State.clkFor (s : State) (d : Nat) : Nat :=
  ceilDiv (ceilDiv (d * 1000000 - s.tbPart) (1000000 + s.tbRate).toNat) s.clkSixteenths

/-- The timers that run count down on the timebase's clock; they stay at zero until their expiry is taken (R417). -/
def Timer.pass (t : Timer) (d : Nat) : Timer := if t.run then { t with left := t.left - d } else t

/-- The watchdog's count runs (R410): EN is set, the mode is Config, Run or Hold, and it is not frozen. -/
def State.wdgRuns (s : State) : Bool :=
  s.b R.WDG_CTL 0 && !s.b R.WDG_STAT 2 &&
    (s.mode == 2 || s.mode == 3 || s.mode == 4)

/-- WDG_COUNT shows the µs that remain, rounded up. -/
def State.showWdg (s : State) : State :=
  s.wr R.WDG_COUNT (BitVec.ofNat 32 (ceilDiv s.wdg.left 16000))

/-- The watchdog reloads its full period. -/
def State.wdgReload (s : State) : State :=
  ({ s with wdg := { left := s.f R.WDG_PERIOD 23 0 * 16000, prebitten := false } } : State).showWdg

/-- The watchdog is frozen in Dormant and while a thread at level 3 is HALTED with WDG_CTL.WDHALT set; it reloads when that ends
(R410). -/
def State.wdgCheck (s : State) : State :=
  let stop := s.mode == 1 ||
    (s.b R.WDG_CTL 1 && (List.range 8).any (fun t => decide ((s.thr t).st = .halted) && (s.thr t).pl == 3))
  if stop then s.setB R.WDG_STAT 2 true
  else if s.b R.WDG_STAT 2 then
    let s1 := s.setB R.WDG_STAT 2 false
    if s1.b R.WDG_CTL 0 then s1.wdgReload else s1
  else s

/-- A thread or a Frond is halted (R404). -/
def State.held (s : State) : Bool :=
  (List.range 8).any (fun t => decide ((s.thr t).st = .halted)) || (List.range 8).any (fun k => (s.fronds.get k).halted)

/-- DBG_STAT.HALTED while something is halted. -/
def State.showHalted (s : State) : State := (s.setB R.DBG_STAT 6 s.held).wdgCheck

/-- d sixteenths of a ns pass: timebase, timers and watchdog (R409, R416, R417). -/
def State.passTime (s : State) (d : Nat) : State :=
  let s1 := s.passTb d
  let s2 : State := { s1 with timers := ⟨s1.timers.x0.pass d, s1.timers.x1.pass d, s1.timers.x2.pass d, s1.timers.x3.pass d⟩ }
  if s2.wdgRuns then { s2 with wdg := { s2.wdg with left := s2.wdg.left - d } }.showWdg else s2

/-- Whether Frond k runs a job (R119). -/
def State.frondRuns (s : State) (k : Nat) : Bool :=
  s.jobs.any (fun j => decide (j.st = .running) && decide (j.base ≤ k) && decide (k < j.base + j.gang))

/-- Requests waiting at a target port (R420, event 0x21). -/
def State.waitingAt (s : State) (target : Nat) : Nat := (s.matrix.waiting.filter (fun q => q.target == target)).length

/-- Charge and use of a job on an account. -/
def Job.charge (j : Job) (r : Nat) : Nat := sget (fun _ => 0) j.charges r
/-- Use of a job on an account. -/
def Job.use (j : Job) (r : Nat) : Nat := sget (fun _ => 0) j.used r

/-- backlog_r: charges of admitted jobs not yet complete, less their use (R34). -/
def State.backlogOf (s : State) (r : Nat) : Nat := s.jobs.foldl (fun n j => n + (j.charge r - j.use r)) 0

/-- The per-clk samples of n clk: cycles, running Fronds, and the occupancies of R420. The stream buffers hold no line
between two commands (log 16). -/
def State.sample (s : State) (n : Nat) : State :=
  if s.b R.PMC_CTL 0 then
    let s1 := s.eventOver 0x01 0 n n
    let s2 := s1.each (List.range 8) (fun s k => if s.frondRuns k then s.eventOver 0x03 k n n else s)
    let s3 := s2.each (List.range 8) (fun s k => s.occupancy 0x05 k 0 n)
    let s4 := s3.each (List.range 12) (fun s c => s.occupancy 0x11 c (s.waitingAt (18 + c)) n)
    let s5 := s4.each (List.range 34) (fun s t => s.occupancy 0x21 t (s.waitingAt t) n)
    s5.each ((List.range 148).filter acctAssigned) (fun s r => s.occupancy 0x28 r (s.backlogOf r) n)
  else s

/-- n clk pass. -/
def State.advance (s : State) (n : Nat) : State :=
  let s1 := { s with clk := s.clk + n }
  let s2 := s1.passTime (n * s1.clkSixteenths)
  s2.sample n

/-- The clk count moved on to an instant, if that lies ahead. -/
def State.until (s : State) (c : Nat) : State := if s.clk < c then s.advance (c - s.clk) else s

/-- The clk count moved on until an instant of elapsed time, if that lies ahead (R3). -/
def State.untilTime (s : State) (t : Nat) : State := if s.now < t then s.advance (ceilDiv (t - s.now) s.clkSixteenths) else s

/-- One clk of a block with no command waiting: in Off nothing runs, in Dormant the always-on timebase alone (R429,
R430; log 7). -/
def State.idle (s : State) : State :=
  if s.mode = 0 then s else if s.mode = 1 then s.passTb s.clkSixteenths else s.advance 1

end Sys2Proof.Machine
end

