-- ==== Sys2Proof/Machine/Crypto.lean ====
section
/-! DEFINITION. The published algorithms the spec names (00_scope.md, standards): SHA-256, HMAC-SHA-256, SHA-384,
CRC-32, CRC-64 of ECMA-182, AES-256-GCM decryption, and ECDSA P-384 verification. -/

namespace Sys2Proof.Machine

/-! ### SHA-2 (FIPS 180-4) -/

/-- The first 80 primes. -/
def primes80 : List Nat :=
  [2, 3, 5, 7, 11, 13, 17, 19, 23, 29, 31, 37, 41, 43, 47, 53, 59, 61, 67, 71] ++
  [73, 79, 83, 89, 97, 101, 103, 107, 109, 113, 127, 131, 137, 139, 149, 151, 157, 163, 167, 173] ++
  [179, 181, 191, 193, 197, 199, 211, 223, 227, 229, 233, 239, 241, 251, 257, 263, 269, 271, 277, 281] ++
  [283, 293, 307, 311, 313, 317, 331, 337, 347, 349, 353, 359, 367, 373, 379, 383, 389, 397, 401, 409]

/-- The largest r with r^k at most n, found bit by bit. -/
def iroot (k n : Nat) : Nat → Nat → Nat
  | 0, r => r
  | b + 1, r => iroot k n b (if (r + 2 ^ b) ^ k ≤ n then r + 2 ^ b else r)

/-- First w bits of the fractional part of the k-th root of p. -/
def rootFrac (k w p : Nat) : Nat := iroot k (p * 2 ^ (k * w)) (w + 5) 0 % 2 ^ w

/-- The round constants of a word width. -/
def shaK (w : Nat) : List Nat := (primes80.take (if w = 32 then 64 else 80)).map (rootFrac 3 w)
/-- Initial hash of SHA-256. -/
def sha256H : List Nat := (primes80.take 8).map (rootFrac 2 32)
/-- Initial hash of SHA-384. -/
def sha384H : List Nat := ((primes80.drop 8).take 8).map (rootFrac 2 64)

/-- Rotation right of a w-bit number. -/
def ror (w n x : Nat) : Nat := x / 2 ^ n + x % 2 ^ n * 2 ^ (w - n)

/-- The amounts of a width's sigma functions: Sigma0, Sigma1, sigma0, sigma1 (the last amount of a small sigma is a shift). -/
def shaAmts (w : Nat) : List Nat :=
  if w = 32 then [2, 13, 22, 6, 11, 25, 7, 18, 3, 17, 19, 10] else [28, 34, 39, 14, 18, 41, 1, 8, 7, 19, 61, 6]

/-- Large sigma i. -/
def bigSigma (w i x : Nat) : Nat :=
  let a := shaAmts w
  ror w (a.getD (3 * i) 0) x ^^^ ror w (a.getD (3 * i + 1) 0) x ^^^ ror w (a.getD (3 * i + 2) 0) x

/-- Small sigma i. -/
def smallSigma (w i x : Nat) : Nat :=
  let a := shaAmts w
  ror w (a.getD (6 + 3 * i) 0) x ^^^ ror w (a.getD (7 + 3 * i) 0) x ^^^ (x / 2 ^ a.getD (8 + 3 * i) 0)

/-- The message schedule, newest word first. -/
def shaSchedule (w : Nat) : Nat → List Nat → List Nat
  | 0, l => l
  | n + 1, l =>
    shaSchedule w n (((smallSigma w 1 (l.getD 1 0) + l.getD 6 0 + smallSigma w 0 (l.getD 14 0) + l.getD 15 0) % 2 ^ w) :: l)

/-- One round on the eight working words. -/
def shaRound (w : Nat) (h : List Nat) (kw : Nat) : List Nat :=
  match h with
  | [a, b, c, d, e, f, g, hh] =>
    let ch := (e &&& f) ^^^ ((2 ^ w - 1 - e) &&& g)
    let mj := (a &&& b) ^^^ (a &&& c) ^^^ (b &&& c)
    let t1 := hh + bigSigma w 1 e + ch + kw
    [(t1 + bigSigma w 0 a + mj) % 2 ^ w, a, b, c, (d + t1) % 2 ^ w, e, f, g]
  | l => l

/-- One block compressed into the hash. -/
def shaBlock (w : Nat) (ks h : List Nat) (block : List Byte) : List Nat :=
  let m := (List.range 16).map (fun i => beVal ((block.drop (i * (w / 8))).take (w / 8)))
  let sched := (shaSchedule w (ks.length - 16) m.reverse).reverse
  let out := (List.zipWith (· + ·) ks sched).foldl (shaRound w) h
  List.zipWith (fun a b => (a + b) % 2 ^ w) h out

/-- The blocks of a padded message. -/
def shaBlocks (w : Nat) (ks : List Nat) : Nat → List Nat → List Byte → List Nat
  | 0, h, _ => h
  | n + 1, h, l => shaBlocks w ks n (shaBlock w ks h (l.take (2 * w))) (l.drop (2 * w))

/-- Padding: 0x80, zeros, and the bit length in two words. -/
def shaPad (w : Nat) (m : List Byte) : List Byte :=
  let b := 2 * w
  let z := (b - (m.length + 1 + w / 4) % b) % b
  m ++ [0x80] ++ List.replicate z 0 ++ beBytes (w / 4) (8 * m.length)

/-- The hash of a message as words. -/
def sha (w : Nat) (h : List Nat) (m : List Byte) : List Nat :=
  let p := shaPad w m
  shaBlocks w (shaK w) (p.length / (2 * w)) h p

/-- SHA-256 as 32 bytes. -/
def sha256 (m : List Byte) : List Byte := (sha 32 sha256H m).flatMap (beBytes 4)

/-- SHA-384 as 48 bytes. -/
def sha384 (m : List Byte) : List Byte := ((sha 64 sha384H m).take 6).flatMap (beBytes 8)

/-- HMAC-SHA-256 (FIPS 198-1) under a key of at most 64 bytes. -/
def hmac256 (key m : List Byte) : List Byte :=
  let k := key ++ List.replicate (64 - key.length) 0
  sha256 (k.map (· ^^^ 0x5C) ++ sha256 (k.map (· ^^^ 0x36) ++ m))

/-! ### CRC -/

/-- One bit of a reflected CRC. -/
def crcStep (poly : Nat) : Nat → Nat → Nat
  | 0, c => c
  | n + 1, c => crcStep poly n (if c % 2 = 1 then c / 2 ^^^ poly else c / 2)

/-- CRC-32 of IEEE 802.3. -/
def crc32 (m : List Byte) : Nat :=
  (m.foldl (fun c b => crcStep 0xEDB88320 8 (c ^^^ b.toNat)) 0xFFFFFFFF) ^^^ 0xFFFFFFFF

/-- One bit of an unreflected 64-bit CRC. -/
def crcUp (poly : Nat) : Nat → Nat → Nat
  | 0, c => c
  | n + 1, c => crcUp poly n (if c.testBit 63 then (2 * c) % 2 ^ 64 ^^^ poly else 2 * c)

/-- CRC-64 of ECMA-182 from an initial value, with a final exclusive or. -/
def crc64 (init final : Nat) (m : List Byte) : Nat :=
  (m.foldl (fun c b => crcUp 0x42F0E1EBA9EA3693 8 (c ^^^ (b.toNat * 2 ^ 56))) init) ^^^ final

/-! ### AES-256-GCM (FIPS 197, SP 800-38D) -/

/-- Multiplication in GF(2^8) with the AES polynomial. -/
def gmul8 : Nat → Nat → Nat → Nat
  | 0, _, _ => 0
  | n + 1, a, b =>
    (if b % 2 = 1 then a else 0) ^^^ gmul8 n (if 128 ≤ a then (2 * a) % 256 ^^^ 0x1B else 2 * a) (b / 2)

/-- Product in GF(2^8). -/
def gm (a b : Nat) : Nat := gmul8 8 a b

/-- x^254, the inverse in GF(2^8). -/
def ginv (x : Nat) : Nat :=
  let x2 := gm x x
  let x3 := gm x2 x
  let x6 := gm x3 x3
  let x12 := gm x6 x6
  let x15 := gm x12 x3
  let x30 := gm x15 x15
  let x60 := gm x30 x30
  let x120 := gm x60 x60
  let x126 := gm x120 x6
  let x127 := gm x126 x
  gm x127 x127

/-- The AES S-box. -/
def sbox (x : Nat) : Nat :=
  let b := ginv x
  let rl := fun n => (b * 2 ^ n) % 256 ^^^ (b / 2 ^ (8 - n))
  b ^^^ rl 1 ^^^ rl 2 ^^^ rl 3 ^^^ rl 4 ^^^ 0x63

/-- The S-box as a table. -/
def sboxTable : Array Nat := ((List.range 256).map sbox).toArray
/-- One byte through the S-box. -/
def sub8 (x : Nat) : Nat := sboxTable.getD x 0

/-- The key schedule of AES-256: words as four bytes, newest first. -/
def aesExpand : Nat → Nat → Nat → List (List Nat) → List (List Nat)
  | 0, _, _, l => l
  | n + 1, i, rc, l =>
    let prev := l.getD 0 []
    let old := l.getD 7 []
    let t := if i % 8 = 0 then
        match (prev.drop 1 ++ prev.take 1).map sub8 with
        | a :: r => (a ^^^ rc) :: r
        | [] => []
      else if i % 8 = 4 then prev.map sub8 else prev
    aesExpand n (i + 1) (if i % 8 = 0 then gm rc 2 else rc) (List.zipWith (· ^^^ ·) t old :: l)

/-- The fifteen round keys of a 32-byte key. -/
def aesKeys (key : List Byte) : List (List Nat) :=
  let w := (List.range 8).map (fun i => ((key.drop (4 * i)).take 4).map (fun b => b.toNat))
  let all := (aesExpand 52 8 1 w.reverse).reverse
  (List.range 15).map (fun r => ((all.drop (4 * r)).take 4).flatMap id)

/-- ShiftRows on a column-major block. -/
def shiftRows (b : List Nat) : List Nat := (List.range 16).map (fun i => b.getD ((i + 4 * (i % 4)) % 16) 0)

/-- MixColumns. -/
def mixColumns (b : List Nat) : List Nat :=
  (List.range 16).map (fun i =>
    let c := i / 4 * 4
    let g := fun k => b.getD (c + (i + k) % 4) 0
    gm 2 (g 0) ^^^ gm 3 (g 1) ^^^ g 2 ^^^ g 3)

/-- One block enciphered. -/
def aesBlock (ks : List (List Nat)) (b : List Nat) : List Nat :=
  let x := fun (a k : List Nat) => List.zipWith (· ^^^ ·) a k
  let mid := ((ks.drop 1).take 13).foldl (fun a k => x (mixColumns (shiftRows (a.map sub8))) k) (x b (ks.getD 0 []))
  x (shiftRows (mid.map sub8)) (ks.getD 14 [])

/-- Multiplication in GF(2^128) of GCM, on big-endian 128-bit numbers. -/
def gmul128 : Nat → Nat → Nat → Nat → Nat
  | 0, _, _, z => z
  | n + 1, x, v, z =>
    gmul128 n (2 * x % 2 ^ 128) (if v % 2 = 1 then v / 2 ^^^ (0xE1 * 2 ^ 120) else v / 2)
      (if x.testBit 127 then z ^^^ v else z)

/-- GHASH of a byte string whose length is a multiple of 16. -/
def ghash (h : Nat) : Nat → Nat → List Byte → Nat
  | 0, y, _ => y
  | n + 1, y, l => ghash h n (gmul128 128 (y ^^^ beVal (l.take 16)) h 0) (l.drop 16)

/-- Zero padding to 16 bytes. -/
def pad16 (l : List Byte) : List Byte := l ++ List.replicate ((16 - l.length % 16) % 16) 0

/-- The cipher stream from a counter block on, applied to data. -/
def gctr (ks : List (List Nat)) (iv : List Byte) : Nat → Nat → List Byte → List Byte
  | 0, _, _ => []
  | n + 1, c, d =>
    let k := aesBlock ks ((iv ++ beBytes 4 c).map (fun b => b.toNat))
    List.zipWith (fun a b => a ^^^ BitVec.ofNat 8 b) (d.take 16) k ++ gctr ks iv n (c + 1) (d.drop 16)

/-- AES-256-GCM with a 12-byte IV: the plaintext and the tag of a ciphertext. -/
def gcmOpen (key iv aad ct : List Byte) : List Byte × List Byte :=
  let ks := aesKeys key
  let h := beVal ((aesBlock ks (List.replicate 16 0)).map (BitVec.ofNat 8))
  let m := pad16 aad ++ pad16 ct ++ beBytes 8 (8 * aad.length) ++ beBytes 8 (8 * ct.length)
  let y := ghash h (m.length / 16) 0 m
  let e := beVal ((aesBlock ks ((iv ++ beBytes 4 1).map (fun b => b.toNat))).map (BitVec.ofNat 8))
  (gctr ks iv ((ct.length + 15) / 16) 2 ct, beBytes 16 (y ^^^ e))

/-! ### ECDSA P-384 (FIPS 186-5) -/

/-- The prime of P-384. -/
def p384P : Nat := 2 ^ 384 - 2 ^ 128 - 2 ^ 96 + 2 ^ 32 - 1
/-- The order of P-384. -/
def p384N : Nat :=
  0xffffffffffffffffffffffffffffffffffffffffffffffffc7634d81f4372ddf581a0db248b0a77aecec196accc52973
/-- The coefficient b of P-384. -/
def p384B : Nat :=
  0xb3312fa7e23ee7e4988e056be3f82d19181d9c6efe8141120314088f5013875ac656398d8a2ed19d2a85c8edd3ec2aef
/-- The base point of P-384. -/
def p384G : Nat × Nat :=
  (0xaa87ca22be8b05378eb1c71ef320ad746e1d3b628ba79b9859f741e082542a385502f25dbf55296c3a545e3872760ab7,
   0x3617de4a96262c6f5d9e98bf9292dc29f8f41dbd289a147ce9da3113b5f0b8c00a60b1ce1d7e819d7a431d7c90ea0e5f)

/-- a^e modulo m, e of at most n bits. -/
def powMod (m : Nat) : Nat → Nat → Nat → Nat
  | 0, _, _ => 1 % m
  | n + 1, a, e => (if e % 2 = 1 then a else 1) * powMod m n (a * a % m) (e / 2) % m

/-- Inverse modulo a prime of at most 384 bits. -/
def invMod (m a : Nat) : Nat := powMod m 384 (a % m) (m - 2)

/-- A point of P-384: none is the point at infinity. -/
abbrev Point := Option (Nat × Nat)

/-- Point addition. -/
def ptAdd (a b : Point) : Point :=
  match a, b with
  | none, q => q
  | q, none => q
  | some (x1, y1), some (x2, y2) =>
    let p := p384P
    if x1 = x2 ∧ (y1 + y2) % p = 0 then none
    else
      let l := if x1 = x2 then (3 * x1 * x1 + p - 3) * invMod p (2 * y1) % p
        else (y2 + p - y1) * invMod p (x2 + p - x1) % p
      let x3 := (l * l + 2 * p - x1 - x2) % p
      some (x3, (l * (x1 + p - x3) + p - y1) % p)

/-- Scalar multiple, n bits. -/
def ptMul : Nat → Nat → Point → Point
  | 0, _, _ => none
  | n + 1, k, q => ptAdd (if k % 2 = 1 then q else none) (ptMul n (k / 2) (ptAdd q q))

/-- A point lies on the curve. -/
def onCurve (x y : Nat) : Bool :=
  decide (x < p384P) && decide (y < p384P) && (y * y % p384P == (x * x * x + (p384P - 3) * x + p384B) % p384P)

/-- ECDSA verification of a hash (as a number) under a public key and a signature (r, s). -/
def ecdsaOk (qx qy e r s : Nat) : Bool :=
  decide (0 < r) && decide (r < p384N) && decide (0 < s) && decide (s < p384N) && onCurve qx qy &&
    (let w := invMod p384N s
     match ptAdd (ptMul 384 (e * w % p384N) (some p384G)) (ptMul 384 (r * w % p384N) (some (qx, qy))) with
     | none => false
     | some (x, _) => x % p384N == r)

end Sys2Proof.Machine
end

