-- ==== Sys2Proof/Machine/Mem.lean ====
section
/-! DEFINITION. The address map, the paths of the matrix, the banks with their ECC, DDR5 with its interleave and ECC,
and one access of a master to memory (R47-R59, R63-R67, R70-R72). Control space and other devices' windows are only
named here; CtlSpace.lean and Remote.lean serve them. -/

namespace Sys2Proof.Machine

/-- CS_BASE (00_scope.md). -/
def csBase : Nat := 0x200000000
/-- Home address of bank 0. -/
def bankBase : Nat := 0x100000000
/-- Start of the DDR5 window. -/
def ddrBase : Nat := 0x10000000000
/-- Start of the Lichen remote windows. -/
def remoteBase : Nat := 0x800000000000
/-- Size of one remote window. -/
def remoteSize : Nat := 0x20000000000

/-- Home address of bank b (R47). -/
def bankHome (b : Nat) : Nat :=
  if b < 16 then bankBase + b * 0x400000 else if b = 16 then 0x104000000 else 0x104200000

/-- Size of bank b in bytes (R47). -/
def bankSize (b : Nat) : Nat := if b < 16 then 0x400000 else 0x200000

/-- Where a physical address leads (R47). -/
inductive Loc where
  | bank (b off : Nat)
  | ddr (p : Nat)
  | control (off : Nat)
  | bootRom (off : Nat)
  | xspi (off : Nat)
  | remote (dev w : Nat)
  | unmapped
  deriving DecidableEq, Repr

/-- The map of R47 and R49 under a setting of REMAP. -/
def locateIn (remap : Bool) (a : Nat) : Loc :=
  if a < 0x200000 then (if remap then .bank 16 a else .bootRom (a % 0x40000))
  else if a < bankBase then .unmapped
  else if a < 0x104000000 then .bank ((a - bankBase) / 0x400000) ((a - bankBase) % 0x400000)
  else if a < 0x104200000 then .bank 16 (a - 0x104000000)
  else if a < 0x104400000 then .bank 17 (a - 0x104200000)
  else if a < csBase then .unmapped
  else if a < 0x204000000 then .control (a - csBase)
  else if a < 0x300000000 then .unmapped
  else if a < 0x300040000 then .bootRom (a - 0x300000000)
  else if a < 0x310000000 then .unmapped
  else if a < 0x320000000 then .xspi (a - 0x310000000)
  else if a < ddrBase then .unmapped
  else if a < 0x20000000000 then .ddr (a - ddrBase)
  else if a < remoteBase then .unmapped
  else if a < 0x1000000000000 then .remote ((a - remoteBase) / remoteSize) ((a - remoteBase) % remoteSize)
  else .unmapped

/-- The map of R47 and R49, with the low window resolved by REMAP. -/
def State.locate (s : State) (a : Nat) : Loc := locateIn (s.b R.GLB_REMAP 0) a

/-- This device's ID, when it has one (FAB_STAT). -/
def State.ownId (s : State) : Option Nat := if s.b R.FAB_STAT 6 then some (s.f R.FAB_STAT 5 0) else none

/-- The fabric is up (FAB_STAT.UP). -/
def State.fabUp (s : State) : Bool := s.b R.FAB_STAT 14

/-- The remote window of device d can be used: the fabric is up and the table holds a route (R50). -/
def State.remoteOk (s : State) (d : Nat) : Bool :=
  s.fabUp && (s.ownId == some d || s.b (R.FAB_RT d) 2)

/-- An address in this device's own remote window (R50). -/
def State.isOwnWindow (s : State) (a : Nat) : Bool :=
  match s.locate a with
  | .remote d _ => s.ownId == some d
  | _ => false

/-- The physical line of R77: low window and own-ID window resolved to home addresses. -/
def State.home (s : State) (a : Nat) : Nat :=
  let b := match s.locate a with
    | .remote d w => if s.ownId = some d then w else a
    | _ => a
  match s.locate b with
  | .bank 16 off => bankHome 16 + off
  | .bootRom off => 0x300000000 + off
  | _ => b

/-! ### DDR5 placement -/

/-- Mapped size M in bytes (R62). -/
def State.mappedSize (s : State) : Nat :=
  if s.b R.DDRC_CFG 3 then 1536 * (s.rd R.DDRC_SUBLINES).toNat else 0

/-- The interleave of R63: subchannel, line index within it, byte within the line. -/
def ddrPlace (p : Nat) : Nat × Nat × Nat :=
  let l := p / 64
  let g := l % 3
  let q := l / 3
  let h := (q ^^^ (q / 8) ^^^ (q / 64) ^^^ (q / 512) ^^^ (q / 4096)) % 8
  (8 * g + h, q / 8, p % 64)

/-- The target port of a DDR5 offset: its channel (R71). -/
def ddrTarget (p : Nat) : Nat := 18 + (ddrPlace p).1 / 2

/-- The rank field of line j in a channel (R65): the ranks per channel take 0, 1 or 2 bits above the bank field. -/
def State.ddrRank (s : State) (chan j : Nat) : Nat :=
  let m := R.DDR_MODULE chan
  let low := if s.b m 1 then 11 else 12
  let ranks := (s.f m 0 0 + 1) * (s.f R.DDRC_CFG 2 2 + 1)
  if ranks ≤ 1 then 0 else if ranks = 2 then j / 2 ^ low % 2 else j / 2 ^ low % 4

/-! ### Who asks, and the paths of R72 -/

/-- A request's master, whether it has Machine origin (R50), and the Stem thread it comes from; whether a Frond takes its home
path to port B (R52, R53), whether the stream's buffer holds the line already, so that no access is made (R28), and REMAP as it
stood when the request entered the matrix (R49). -/
structure Who where
  master : Nat
  machine : Bool := false
  thread : Option Nat := none
  homePath : Bool := false
  held : Bool := false
  remap : Option Bool := none
  deriving DecidableEq, Repr

/-- The target identifier of a place (R70); 63 for an unmapped address (R79). -/
def Loc.target : Loc → Nat
  | .bank b _ => b
  | .ddr p => ddrTarget p
  | .control _ => 30
  | .bootRom _ => 31
  | .xspi _ => 32
  | .remote _ _ => 33
  | .unmapped => 63

/-- The connectivity table of R72: may the master read, may it write, and does writing need Machine origin. -/
def pathRights (m : Nat) : Loc → Bool × Bool × Bool
  | .unmapped => (false, false, false)
  | .bank b _ =>
    if m < 8 then (true, true, false)
    else if m = 8 ∨ m = 14 ∨ m = 15 then (true, true, false)
    else if m = 9 then (if b = 16 then (true, false, false) else if b = 17 then (false, true, false) else (false, false, false))
    else if m = 10 then (true, false, false)
    else if m = 11 then (true, true, b == 16)
    else if m = 12 then (if b < 16 then (true, true, false) else if b = 17 then (true, false, false) else (false, false, false))
    else if m = 13 then (if b = 16 then (true, false, false) else (false, false, false))
    else (false, false, false)
  | .ddr _ =>
    if m < 9 ∨ m = 11 ∨ m = 12 ∨ m = 13 ∨ m = 15 then (true, true, false)
    else if m = 9 ∨ m = 10 then (true, false, false) else (false, false, false)
  | .control _ => if m = 8 ∨ m = 15 then (true, true, false) else if m = 11 then (true, true, true) else (false, false, false)
  | .bootRom _ => if m = 8 ∨ m = 15 then (true, false, false) else (false, false, false)
  | .xspi _ => if m = 8 ∨ m = 12 ∨ m = 15 then (true, false, false) else (false, false, false)
  | .remote _ _ => if m < 9 ∨ m = 12 ∨ m = 15 then (true, true, false) else (false, false, false)

/-- A bank beside its registers. -/
def State.bank (s : State) (b : Nat) : Bank := sget (fun _ => ({} : Bank)) s.mem.banks b

/-- Bank b changed. -/
def State.onBank (s : State) (b : Nat) (g : Bank → Bank) : State :=
  s.onMem (fun m => { m with banks := sput (fun _ => ({} : Bank)) m.banks b (g (sget (fun _ => ({} : Bank)) m.banks b)) })

/-- What R48 and R79 decide from an address alone: the CAUSE of the bus error, or none. -/
def State.addrCause (s : State) (w : Who) (l : Loc) (write : Bool) : Option Nat :=
  let (rd, wr, mo) := pathRights w.master l
  match l with
  | .unmapped => some 0
  | .bank b _ =>
    if (if write then wr else rd) = false then some 1
    else if mo && write && !w.machine then some 5
    else if (s.bank b).actual ≠ .on then some 3 else none
  | .ddr p =>
    if (if write then wr else rd) = false then some 1
    else if s.mappedSize ≤ p ∨ s.mem.selfRefresh = true then some 6 else none
  | .control _ => if (if write then wr else rd) = false then some 1 else if mo && !w.machine then some 5 else none
  | .bootRom _ => if rd = false then some 1 else if write then some 2 else none
  | .xspi off =>
    if rd = false then some 1 else if write then some 2 else if s.mem.flashSize ≤ off then some 6 else none
  | .remote d _ => if rd = false then some 1 else if s.remoteOk d then none else some 1

/-- The place an address leads to for a master, its rights at that place, and whether it goes through the own-ID
window: an access through the own remote window is an inbound request of the Lichen engine (R50). -/
def State.route (s : State) (w : Who) (a : Nat) : Who × Loc × Bool :=
  let remap := w.remap.getD (s.b R.GLB_REMAP 0)
  match locateIn remap a with
  | .remote d x =>
    if s.fabUp ∧ s.ownId = some d then ({ w with master := 11, homePath := false }, locateIn remap x, true)
    else (w, .remote d x, false)
  | l => (w, l, false)

/-! ### Bank and DDR5 storage with ECC -/

/-- Storage offset in B17 of a port-B access (R271): input slots follow the frozen and live halves, output slots are
in H0; port A uses bank offsets as they are. -/
def State.imageOff (s : State) (off : Nat) : Nat :=
  let view := off / 0x100000
  let k := off % 0x100000 / 16
  let frozen := s.f R.SIM_STAT 0 0
  if s.io.inputSlots.contains k then
    (if view = 0 then frozen else 1 - frozen) * 0x100000 + off % 0x100000
  else off % 0x100000

/-- The storage address of a bank offset for a port-B access (home address, B17 through its views). -/
def State.bankAddr (s : State) (b off : Nat) : Nat :=
  if b = 17 then bankHome 17 + s.imageOff off else bankHome b + off

/-- The storage address behind a physical address of memory: home address, with B17 through its views (R77, R271). -/
def State.storage (s : State) (a : Nat) : Nat :=
  match s.locate (s.home a) with
  | .bank b off => s.bankAddr b off
  | _ => s.home a

/-- The error state of the doubleword that holds a storage address. -/
def State.eccAt (s : State) (a : Nat) : Option EccState := sget (fun _ => none) (s.mem.ecc.map (fun e => (e.1, some e.2))) (a / 8)

/-- The error state of a doubleword set or cleared. -/
def State.setEcc (s : State) (a : Nat) (e : Option EccState) : State :=
  s.onMem (fun m => { m with ecc :=
    match e with
    | none => m.ecc.filter (fun x => x.1 ≠ a / 8)
    | some v => sput (fun _ => EccState.poison) (m.ecc.filter (fun x => x.1 ≠ a / 8)) (a / 8) v })

/-- Doubleword addresses covered by [a, a + n). -/
def dwords (a n : Nat) : List Nat := (List.range ((a + n + 7) / 8 - a / 8)).map (fun i => (a / 8 + i) * 8)

/-- A corrected read of a bank doubleword: counted, logged, and queued for repair (R56, R57). REPQ shows 3 for three entries and
for four (log 67). -/
def State.bankCorrected (s : State) (b a : Nat) : State :=
  let dw := (a - bankHome b) / 8
  let s1 := ((s.count (R.BANK_CECNT b) 16 1).setB (R.BANK_STAT b) 0 true).wr (R.BANK_ERRADDR b)
    (BitVec.ofNat 32 (dw + 2 ^ 31))
  let q := (s1.bank b).repair
  if q.contains dw ∨ 4 ≤ q.length then s1
  else (s1.onBank b (fun k => { k with repair := q ++ [dw] })).putF (R.BANK_STAT b) 4 3 (min 3 (q.length + 1))

/-- An uncorrectable read of a bank doubleword (R56). -/
def State.bankUncorrectable (s : State) (b a : Nat) : State :=
  let dw := (a - bankHome b) / 8
  (((s.count (R.BANK_UECNT b) 16 1).setB (R.BANK_STAT b) 1 true).wr (R.BANK_ERRADDR b)
    (BitVec.ofNat 32 (dw + 2 ^ 30 + 2 ^ 31))).guard 0

/-- The ECC check of a bank read: each doubleword in turn; whether all data are good (R56). -/
def State.bankCheck (s : State) (b : Nat) : List Nat → State × Bool
  | [] => (s, true)
  | a :: t =>
    match s.eccAt a with
    | none => s.bankCheck b t
    | some (.single _) => (s.bankCorrected b a).bankCheck b t
    | some _ => (s.bankUncorrectable b a, false)

/-- Doublewords of the repair queue that a write touches: their write-backs will be dropped (R57). -/
def State.noteRewritten (s : State) (b a n : Nat) : State :=
  if (s.bank b).repair = [] then s
  else
    let hit := (dwords a n).map (fun d => (d - bankHome b) / 8)
    s.onBank b (fun k => { k with rewritten := k.rewritten ++ k.repair.filter (fun x => hit.contains x) })

/-- A bank write's effect on ECC: a full doubleword write replaces an error (and takes an injected one, R80); a partial
write over an uncorrectable doubleword stores it poisoned, over a correctable one stores it corrected (R56). -/
def State.eccWrite (s : State) (b a n : Nat) : State :=
  (s.noteRewritten b a n).each (dwords a n) (fun s d =>
    if a ≤ d ∧ d + 8 ≤ a + n then
      let inj := R.BANK_ERRINJ b
      let s1 := s.setEcc d (if s.b inj 1 then some (.double 0) else if s.b inj 0 then some (.single 0) else none)
      if s.b inj 0 ∨ s.b inj 1 then s1.wr inj 0 else s1
    else
      match s.eccAt d with
      | none => s
      | some (.single _) => s.setEcc d none
      | some _ => s.setEcc d (some .poison))

/-- A write that takes effect on bytes of a 64-byte granule clears every reservation on it but the writer's own
(R198): `thread` is the writing thread, if a thread writes. -/
def State.clearReservations (s : State) (thread : Option Nat) (a n : Nat) : State :=
  s.each (List.range 8) (fun s t =>
    match (s.thr t).resv with
    | none => s
    | some g =>
      if thread ≠ some t ∧ a < g + 64 ∧ g < a + n then s.onThr t (fun h => { h with resv := none }) else s)

/-- A DDR5 error in its channel's log (R67, R68). Corrected errors are counted by whole seconds of elapsed time, and a count above
CELIM stays as a trigger until the channel is retrained (R69; log 67). -/
def State.ddrLog (s : State) (p : Nat) (ue patrol : Bool) (device : Nat) : State :=
  let (sub, j, _) := ddrPlace p
  let c := sub / 2
  let s1 := (s.count (if ue then R.DDR_UECNT c else R.DDR_CECNT c) 16 1).setB (R.DDR_STAT c) (if ue then 4 else 3) true
  let sec := s.now / usTime 1000000
  let old := sget (fun _ => (0, 0)) s.mem.ceRate c
  let n := if old.1 = sec then old.2 + 1 else 1
  let s2 := if ue then s1 else s1.onMem (fun m =>
    { m with
      ceRate := sput (fun _ => (0, 0)) m.ceRate c (sec, n)
      ceTrig := if s.f R.DDRC_RTCFG 15 0 < n ∧ m.ceTrig.contains c = false then m.ceTrig ++ [c] else m.ceTrig })
  if s2.b (R.DDR_ERRLOG_HI c) 31 then s2
  else (s2.wr (R.DDR_ERRLOG_LO c) (BitVec.ofNat 32 (p / 64))).wr (R.DDR_ERRLOG_HI c)
    (BitVec.ofNat 32 (p / 2 ^ 38 % 4 + sub % 2 * 4 + s.ddrRank c j * 8 + device * 32 + b2n ue * 512 +
      b2n patrol * 1024 + 2 ^ 31))

/-- The worst error among the doublewords of a line. -/
def State.lineError (s : State) (a : Nat) : Option EccState :=
  let es := (dwords (a / 64 * 64) 64).filterMap s.eccAt
  match es.find? (fun e => match e with | .single _ => false | _ => true) with
  | some e => some e
  | none => es.head?

/-- The error check of a demand read of one DDR5 line (R67). -/
def State.ddrCheck (s : State) (p : Nat) : State × Bool :=
  match s.lineError (ddrBase + p) with
  | none => (s, true)
  | some (.single d) => (s.ddrLog p false false d, true)
  | some (.double d) => ((s.ddrLog p true false d).guard 0, false)
  | some .poison => ((s.ddrLog p true false 15).guard 0, false)

/-! ### One access -/

/-- What an access answers: data (empty for a write), a bus error with its CAUSE, a wait for a target that does not
accept it now (a clearing bank, a retraining channel), a control-space access, or another device's window. -/
inductive MemRes where
  | ok (data : List Byte)
  | err (cause : Nat)
  | wait
  | control (off : Nat)
  | remote (dev w : Nat)
  deriving DecidableEq, Repr

/-- A range cut where a multiple of a unit lies inside it: address and length of each cut, lower first. -/
def cutAt (unit : Nat) : Nat → Nat → Nat → List (Nat × Nat)
  | 0, _, _ => []
  | fuel + 1, a, n =>
    let k := min n (unit - a % unit)
    if n = 0 then [] else (a, k) :: cutAt unit fuel (a + k) (n - k)

/-- The pieces of an access of n bytes by line, lower first (R55, R71). -/
def pieces (a n : Nat) : List (Nat × Nat) := cutAt 64 (n / 64 + 2) a n

/-- The pieces that leave for a remote device: one master's line requests of one kind to ascending lines of an aligned 2,048-byte
block are one packet (R307). -/
def blocks (a n : Nat) : List (Nat × Nat) := cutAt 2048 (n / 2048 + 2) a n

/-- How an access of n bytes is cut: by line, and for another device by block (R307). The line requests of one access reach the
Lichen engine in consecutive clk (log 70). -/
def State.cuts (s : State) (a n : Nat) : List (Nat × Nat) :=
  match s.locate a with
  | .remote d _ => if s.ownId = some d then pieces a n else blocks a n
  | _ => pieces a n

/-- A master reaches a bank through its port A (R52): the Stem B16, the Sorter B17, and a Frond its home banks but for the
streams that take the home path. -/
def Who.portA (w : Who) (b : Nat) : Bool :=
  (decide (w.master < 8) && b / 2 == w.master && decide (b < 16) && !w.homePath) || (w.master == 8 && b == 16) ||
    (w.master == 9 && b == 17)

/-- Counts of one granted access (R420, R424): the bank port, the target's grant, the DDR5 transfer, the bytes. A home path enters
the arbitration of port B without the Frond's crossbar port (R52). -/
def State.countAccess (s : State) (w : Who) (l : Loc) (n : Nat) : State :=
  if w.held then s
  else match l with
    | .bank b _ =>
      let s1 := s.event 0x18 (2 * b + b2n (!w.portA b)) 1
      if w.portA b then s1
      else
        let s2 := (s1.event 0x20 b 1).moved 1 b n
        if w.homePath then s2 else s2.moved 2 w.master n
    | .ddr p =>
      let t := ddrTarget p
      (((s.event 0x20 t 1).event 0x10 (ddrPlace p).1 1).moved 1 t n).moved 2 w.master n
    | l => ((s.event 0x20 l.target 1).moved 1 l.target n).moved 2 w.master n

/-! ### The two ports of a bank in one clk (R54) -/

/-- The accesses through bank ports in the present clk. -/
def State.portNow (s : State) : List PortAccess := if s.mem.portClk = s.clk then s.mem.ports else []

/-- A port of a bank is used: it makes one access in a clk, so a second one is of a later clk than what stands recorded. -/
def State.portOpen (s : State) (b : Nat) (portA : Bool) : State :=
  let l := s.portNow
  let again := l.any (fun p => p.bank == b && p.portA == portA)
  s.onMem (fun m => { m with ports := if again then l.filter (fun p => p.bank != b) else l, portClk := s.clk })

/-- The byte at a storage address as the other port's write of this clk found it. -/
def State.portOld (s : State) (b : Nat) (portA : Bool) (a : Nat) : Option Byte :=
  (s.mem.ports.find? (fun p => p.bank == b && p.portA != portA && decide (p.addr ≤ a) && decide (a < p.addr + p.old.length))).map
    (fun p => p.old.getD (a - p.addr) 0)

/-- An access of a port noted: a read keeps no old bytes. -/
def State.portNote (s : State) (b : Nat) (portA : Bool) (a : Nat) (old : List Byte) : State :=
  s.onMem (fun m => { m with ports := { bank := b, portA := portA, addr := a, old := old } :: m.ports })

/-- Bytes read through a port: what the other port writes in the same clk is read as before the write (R54). -/
def State.portRead (s : State) (b : Nat) (portA : Bool) (a n : Nat) : State × List Byte :=
  (s.portNote b portA a [],
    if s.mem.ports.isEmpty then s.bytesAt a n
    else (List.range n).map (fun i => (s.portOld b portA (a + i)).getD (s.byte (a + i))))

/-- Bytes written through a port: where port A writes in the same clk, port B's write loses (R54). -/
def State.portWrite (s : State) (b : Nat) (portA : Bool) (a : Nat) (d : List Byte) : State :=
  let d1 := if portA || s.mem.ports.isEmpty then d
    else (List.range d.length).map (fun i => if (s.portOld b portA (a + i)).isSome then s.byte (a + i) else d.getD i 0)
  (s.setBytes a d1).portNote b portA a (s.bytesAt a d.length)

/-- The storage parts of a port access at a bank offset: offset, storage address and length of each. A port-B access to B17 lies in
image slots, each with its own half (R271). -/
def State.bankParts (s : State) (w : Who) (b off n : Nat) : List (Nat × Nat × Nat) :=
  if b = 17 ∧ w.portA b = false then (cutAt 16 (n / 16 + 2) off n).map (fun p => (p.1, s.bankAddr b p.1, p.2))
  else [(off, bankHome b + off, n)]

/-- The parts of a bank read in order: data while they are good. -/
def State.readParts (s : State) (w : Who) (b : Nat) : List (Nat × Nat × Nat) → List Byte → State × Option (List Byte)
  | [], acc => (s, some acc)
  | (_, a, n) :: t, acc =>
    match s.bankCheck b (dwords a n) with
    | (s1, true) =>
      let (s2, d) := if w.held then (s1, s1.bytesAt a n) else s1.portRead b (w.portA b) a n
      s2.readParts w b t (acc ++ d)
    | (s1, false) => (s1, none)

/-- The parts of a bank write in order; a port-B write to an input slot is discarded (R272). The answer tells whether one was. -/
def State.writeParts (s : State) (w : Who) (b : Nat) : List (Nat × Nat × Nat) → List Byte → State × Bool
  | [], _ => (s, false)
  | (off, a, n) :: t, d =>
    if b = 17 ∧ w.portA b = false ∧ s.io.inputSlots.contains (off % 0x100000 / 16) = true then
      ((s.writeParts w b t (d.drop n)).1, true)
    else
      (((s.eccWrite b a n).portWrite b (w.portA b) a (d.take n)).clearReservations w.thread a n).writeParts w b t (d.drop n)

/-- A bank that is clearing, or a channel in retraining, makes an access wait (R59, R69). -/
def State.mustWait (s : State) (l : Loc) : Bool :=
  match l with
  | .bank b _ => (s.bank b).clearing
  | .ddr p => s.mem.retraining.any (fun e => e.1 == (ddrPlace p).1 / 2)
  | _ => false

/-- A bus error met by a request, logged under its own master (R79); a bank that is not On also sets PWRERR (R58). -/
def State.refuse (s : State) (w : Who) (l : Loc) (write : Bool) (cause a : Nat) : State :=
  let s1 := match l with
    | .bank b _ => if cause = 3 then s.setB (R.BANK_STAT b) 2 true else s
    | _ => s
  let t := match l with
    | .remote _ _ => 33
    | l => l.target
  s1.busError w.master t write cause a

/-- Read of one piece within a line, at its place: one port access or transfer (R55). -/
def State.readPiece (s : State) (w : Who) (l : Loc) (n : Nat) : State × Option (List Byte) :=
  let s1 := s.countAccess w l n
  match l with
  | .bank b off => (if w.held then s1 else s1.portOpen b (w.portA b)).readParts w b (s1.bankParts w b off n) []
  | .ddr p =>
    let (s2, good) := s1.ddrCheck p
    (s2, if good then some (s2.bytesAt (ddrBase + p) n) else none)
  | .bootRom off => (s1, some ((List.range n).map (fun i => Config.bootRom (off + i))))
  | .xspi off => (s1, some (s1.flashAt off n))
  | _ => (s1, some [])

/-- Write of one piece within a line, at its place; one write to input slots counts once (R272). A DDR5 line's error goes with the
write of the doubleword that holds it (log 52). -/
def State.writePiece (s : State) (w : Who) (l : Loc) (d : List Byte) : State :=
  let s1 := s.countAccess w l d.length
  match l with
  | .bank b off =>
    match (if w.held then s1 else s1.portOpen b (w.portA b)).writeParts w b (s1.bankParts w b off d.length) d with
    | (s2, true) => ((s2.setB R.SIM_STAT 3 true).setB R.IOB_INT 1 true).count R.SIM_INWRCNT 32 1
    | (s2, false) => s2
  | .ddr p =>
    let a := ddrBase + p
    let s2 := s1.each (dwords a d.length) (fun s x => if a ≤ x ∧ x + 8 ≤ a + d.length then s.setEcc x none else s)
    (s2.setBytes a d).onMem (fun m => { m with patrolFix := m.patrolFix.filter (fun e => e.2 != p / 64 + 1) })
  | _ => s1

/-- The master and CAUSE of a refused access to control space: a path R72 does not list, a request through the own-ID window
without Machine origin, which is the Lichen engine's, or one that is no aligned 32-bit access (R50, R51, R72, R79). -/
def State.controlRefusal (s : State) (w : Who) (a : Nat) (write : Bool) : Nat × Nat :=
  let (w1, l, _) := s.route w a
  (w1.master, (s.addrCause w1 l write).getD 2)

/-- A read piece by piece: the bytes read before the first failure, and the outcome. -/
def State.readPieces (s : State) (w : Who) : List (Nat × Nat) → List Byte → State × MemRes × List Byte
  | [], acc => (s, .ok acc, acc)
  | (a, n) :: t, acc =>
    let (w1, l, _) := s.route w a
    match l with
    | .control off => (s, .control off, acc)
    | .remote d x => match s.addrCause w1 l false with
      | some c => (s.refuse w1 l false c a, .err c, acc)
      | none => (s, .remote d x, acc)
    | l => match s.addrCause w1 l false with
      | some c => (s.refuse w1 l false c a, .err c, acc)
      | none =>
        if s.mustWait l then (s, .wait, acc)
        else match s.readPiece w1 l n with
          | (s1, some d) => s1.readPieces w t (acc ++ d)
          | (s1, none) => (s1.busError w1.master l.target false 4 a, .err 4, acc)

/-- A read of n bytes at a physical address (R48, R55, R71). -/
def State.readMem (s : State) (w : Who) (a n : Nat) : State × MemRes :=
  let (s1, r, _) := s.readPieces w (pieces a n) []
  (s1, r)

/-- A write piece by piece. -/
def State.writePieces (s : State) (w : Who) : List (Nat × Nat) → List Byte → State × MemRes
  | [], _ => (s, .ok [])
  | (a, n) :: t, d =>
    let (w1, l, _) := s.route w a
    match l with
    | .control off => (s, .control off)
    | .remote dv x => match s.addrCause w1 l true with
      | some c => (s.refuse w1 l true c a, .err c)
      | none => (s, .remote dv x)
    | l => match s.addrCause w1 l true with
      | some c => (s.refuse w1 l true c a, .err c)
      | none =>
        if s.mustWait l then (s, .wait)
        else (s.writePiece w1 l (d.take n)).writePieces w t (d.drop n)

/-- A write of bytes at a physical address. -/
def State.writeMem (s : State) (w : Who) (a : Nat) (d : List Byte) : State × MemRes :=
  s.writePieces w (pieces a d.length) d

/-- What the address decides for every piece of an access, before any of it is performed (R105, R191, R194). -/
def State.checkMem (s : State) (w : Who) (a n : Nat) (write : Bool) : Option (Nat × Nat) :=
  (pieces a n).findSome? (fun p =>
    let (w1, l, _) := s.route w p.1
    (s.addrCause w1 l write).map (fun c => (p.1, c)))

/-- A bank's clear done: zeros and valid ECC (R59). -/
def State.finishClear (s : State) (b : Nat) : State :=
  let s1 := s.clearBytes (bankHome b) (bankSize b)
  let s2 := s1.onMem (fun m => { m with ecc := sdrop (fun k =>
    decide (bankHome b / 8 ≤ k) && decide (k < (bankHome b + bankSize b) / 8)) m.ecc })
  let s3 := (s2.onBank b (fun k => { k with clearing := false })).setB (R.BANK_PWR b) 4 false
  s3.setB (R.BANK_PWR b) 5 (decide ((s3.bank b).actual = .on))

/-- The retraining of a channel ends (R69). -/
def State.endRetrain (s : State) (c : Nat) : State :=
  (s.onMem (fun m =>
    { m with
      retraining := []
      trainTemp := sput (fun _ => 0) m.trainTemp c (toSigned 8 (s.f (R.DDR_TEMP c) 7 0))
      ceTrig := m.ceTrig.filter (fun x => x != c) })).setB (R.DDR_STAT c) 6 false

/-- What an access waits for comes first: a bank's clear (R59), or the end of a channel's retraining (R69). -/
def State.settle (s : State) (a : Nat) : State :=
  match s.locate (s.home a) with
  | .bank b _ => if (s.bank b).clearing ∧ (s.bank b).actual = .on then s.finishClear b else s
  | .ddr p =>
    let c := (ddrPlace p).1 / 2
    if s.mem.retraining.any (fun e => e.1 == c) then s.endRetrain c else s
  | _ => s

/-- What every piece of an access waits for comes first. -/
def State.settleAll (s : State) (a n : Nat) : State := s.each (pieces a n) (fun s p => s.settle p.1)

end Sys2Proof.Machine
end

