-- ==== Sys2Proof/Machine/Remote.lean ====
section
/-! DEFINITION. Remote requests of this device (R294, R307, R309): a packet queued on the port the routing table names,
an outstanding TAG, and an access that is answered piece by piece from the responses received so far. -/

namespace Sys2Proof.Machine

/-- The first port toward device d (FAB_RTd.PORT). -/
def State.fabPort (s : State) (d : Nat) : Nat := s.f (R.FAB_RT d) 1 0

/-- SRC of this device's packets: its device ID. -/
def State.srcId (s : State) : BitVec 6 := BitVec.ofNat 6 (s.f R.FAB_STAT 5 0)

/-- A data packet queued at a Lichen port (R296): none leaves a device with FAB_CTL.EN = 0 (R302); one held at a port in RETRAIN is
late (R306). -/
def State.queuePacket (s : State) (port : Nat) (p : Packet) : State :=
  if s.b R.FAB_CTL 0 then
    s.onLnk port (fun l => { l with txq := l.txq ++ [{ p with late := p.late || s.f (R.LNK_STAT port) 2 0 == 5 }] })
  else s

/-- The next free TAG, from a candidate on: at most 4,096 are in use (R294). -/
def freeTag (used : List Nat) : Nat → Nat → Nat
  | 0, c => c % 4096
  | k + 1, c => if used.contains (c % 4096) then freeTag used k (c + 1) else c % 4096

/-- A request to a remote device: its packet leaves on the routed port and its TAG is outstanding until a RESP or the
timeout of R309. -/
def State.request (s : State) (user : RemoteUser) (op dev len w : Nat) (payload : List Byte) (morg hi : Bool)
    (sub : Nat) : State × Nat :=
  let tag := freeTag (s.fabric.outstanding.map (fun o => o.tag)) 4096 s.fabric.nextTag
  let port := s.fabPort dev
  let p : Packet :=
    { op := BitVec.ofNat 4 op, vc := 1, dst := BitVec.ofNat 6 dev, src := s.srcId, late := false, morg := morg,
      sub := BitVec.ofNat 2 sub, hi := hi, len := BitVec.ofNat 12 len, tag := BitVec.ofNat 12 tag,
      addr := BitVec.ofNat 41 w, payload := payload }
  let o : Outstanding :=
    { tag := tag, dst := dev, op := op, len := len, addr := w, port := port, since := s.now, lines := (pieces w len).length, user := user }
  ((s.onFab (fun f => { f with outstanding := f.outstanding ++ [o], nextTag := (tag + 1) % 4096 })).queuePacket port p,
    tag)

/-- The CAUSE of a failed remote access: 5 and 1 for STATUS 2 and 3 (R79); for STATUS 1 and 4 the spec names none. -/
def State.remoteFail (s : State) (status : Nat) : State × Nat :=
  match status with
  | 2 => (s, 5)
  | 3 => (s, 1)
  | _ => ({ s with free := s.free + 1 }, (Config.remoteCause s.free).val)

/-- What an access that may be remote answers. -/
inductive AccRes where
  | ok (data : List Byte)
  | err (cause : Nat)
  | wait
  | control (off : Nat)
  | need (dev w len : Nat) (addr : Nat) (data : List Byte)
  deriving DecidableEq, Repr

/-- The answer received for a piece of an access. -/
def answerOf (ans : List RemoteAnswer) (a n : Nat) (write : Bool) : Option RemoteAnswer :=
  ans.find? (fun x => x.addr == a && x.write == write && (x.status != 0 || write || x.data.length == n))

/-- One piece of a read: local, or answered from the responses. -/
def State.readOne (s : State) (w : Who) (ans : List RemoteAnswer) (a n : Nat) : State × AccRes :=
  match s.readMem w a n with
  | (s1, .ok d) => (s1, .ok d)
  | (s1, .err c) => (s1, .err c)
  | (s1, .wait) => (s1, .wait)
  | (s1, .control off) => (s1, .control off)
  | (s1, .remote dev x) =>
    match answerOf ans a n false with
    | none => (s1, .need dev x n a [])
    | some r =>
      if r.status = 0 then (s1, .ok r.data)
      else
        let (s2, c) := s1.remoteFail r.status
        (s2.busError w.master 33 false c a, .err c)

/-- The pieces of a read in order. -/
def State.readSome (s : State) (w : Who) (ans : List RemoteAnswer) : List (Nat × Nat) → List Byte → State × AccRes
  | [], acc => (s, .ok acc)
  | (a, n) :: t, acc =>
    match s.readOne w ans a n with
    | (s1, .ok d) => s1.readSome w ans t (acc ++ d)
    | r => r

/-- A read of n bytes that may lie in a remote window. -/
def State.readAns (s : State) (w : Who) (ans : List RemoteAnswer) (a n : Nat) : State × AccRes :=
  s.readSome w ans (s.cuts a n) []

/-- One piece of a write. -/
def State.writeOne (s : State) (w : Who) (ans : List RemoteAnswer) (a : Nat) (d : List Byte) : State × AccRes :=
  match s.writeMem w a d with
  | (s1, .ok _) => (s1, .ok [])
  | (s1, .err c) => (s1, .err c)
  | (s1, .wait) => (s1, .wait)
  | (s1, .control off) => (s1, .control off)
  | (s1, .remote dev x) =>
    match answerOf ans a d.length true with
    | none => (s1, .need dev x d.length a d)
    | some r =>
      if r.status = 0 then (s1, .ok [])
      else
        let (s2, c) := s1.remoteFail r.status
        (s2.busError w.master 33 true c a, .err c)

/-- The pieces of a write in order. -/
def State.writeSome (s : State) (w : Who) (ans : List RemoteAnswer) : List (Nat × Nat) → List Byte → State × AccRes
  | [], _ => (s, .ok [])
  | (a, n) :: t, d =>
    match s.writeOne w ans a (d.take n) with
    | (s1, .ok _) => s1.writeSome w ans t (d.drop n)
    | r => r

/-- A write that may lie in a remote window. -/
def State.writeAns (s : State) (w : Who) (ans : List RemoteAnswer) (a : Nat) (d : List Byte) : State × AccRes :=
  s.writeSome w ans (s.cuts a d.length) d

/-- A write of the engine that waits for nothing: remote pieces leave as posted WRITE requests; whether every local
piece was accepted. -/
def State.postPieces (s : State) (user : RemoteUser) (w : Who) : List (Nat × Nat) → List Byte → State × Bool
  | [], _ => (s, true)
  | (a, n) :: t, d =>
    match s.writeMem w a (d.take n) with
    | (s1, .remote dev x) =>
      (s1.request user 1 dev n x (d.take n) w.machine false 0).1.postPieces user w t (d.drop n)
    | (s1, .ok _) => s1.postPieces user w t (d.drop n)
    | (s1, .wait) => ((s1.settle a).writeMem w a (d.take n)).1.postPieces user w t (d.drop n)
    | (s1, .control _) =>
      let (m, c) := s1.controlRefusal w a true
      (s1.busError m 30 true c a, false)
    | (s1, .err _) => (s1, false)

/-- A posted write of the engine's own. -/
def State.post (s : State) (w : Who) (a : Nat) (d : List Byte) : State × Bool :=
  s.postPieces (.posted w.master) w (s.cuts a d.length) d

end Sys2Proof.Machine
end

