-- ==== Sys2Proof/Machine/Fp.lean ====
section
/-! DEFINITION. Floating-point arithmetic on bit patterns (06_arithmetic_rules.md R151-R168): exact values, the one
rounding step of R153, and each rounding operation as one exact result and one rounding. A result comes with a set of
flags as bits: NV 0, DZ 1, OF 2, UF 3, NX 4, DF 5 (the places of STAT.FLAGS, R85), and two stops, VF_DEN 6 and
VF_DECIMAL 7. -/

namespace Sys2Proof.Machine

/-- NV. -/
def flNV : Nat := 1
/-- DZ. -/
def flDZ : Nat := 2
/-- OF. -/
def flOF : Nat := 4
/-- UF. -/
def flUF : Nat := 8
/-- NX. -/
def flNX : Nat := 16
/-- DF. -/
def flDF : Nat := 32
/-- The element stops with VF_DEN (R160). -/
def flDEN : Nat := 64
/-- The element stops with VF_DECIMAL (R177). -/
def flDEC : Nat := 128

/-- A floating-point format: exponent and fraction widths (R151). -/
structure Fmt where
  ew : Nat
  fw : Nat
  deriving DecidableEq, Repr

/-- binary32. -/
def fmt32 : Fmt := ⟨8, 23⟩
/-- binary64. -/
def fmt64 : Fmt := ⟨11, 52⟩

/-- The format of an ETYPE code: 9 is binary32, 10 is binary64. -/
def fmtOf (ty : Nat) : Fmt := if ty = 9 then fmt32 else fmt64

/-- Exponent bias. -/
def Fmt.bias (f : Fmt) : Nat := 2 ^ (f.ew - 1) - 1
/-- Width in bits. -/
def Fmt.width (f : Fmt) : Nat := f.ew + f.fw + 1
/-- The default NaN dN (R151). -/
def Fmt.dN (f : Fmt) : Nat := (2 ^ (f.ew + 1) - 1) * 2 ^ (f.fw - 1)
/-- Zero with a sign. -/
def Fmt.zero (f : Fmt) (neg : Bool) : Nat := b2n neg * 2 ^ (f.ew + f.fw)
/-- Infinity with a sign. -/
def Fmt.inf (f : Fmt) (neg : Bool) : Nat := f.zero neg + (2 ^ f.ew - 1) * 2 ^ f.fw
/-- The largest finite value Mx with a sign. -/
def Fmt.maxFin (f : Fmt) (neg : Bool) : Nat := f.inf neg - 1

/-- What a bit pattern means: a NaN (signalling or quiet), an infinity, or the exact value (-1)^neg * m * 2^e. -/
inductive FpV where
  | nan (signalling : Bool)
  | inf (neg : Bool)
  | fin (neg : Bool) (m : Nat) (e : Int)
  deriving DecidableEq, Repr

/-- The meaning of a bit pattern (R151). -/
def Fmt.unpack (f : Fmt) (v : Nat) : FpV :=
  let neg := v.testBit (f.ew + f.fw)
  let ex := v / 2 ^ f.fw % 2 ^ f.ew
  let fr := v % 2 ^ f.fw
  if ex = 2 ^ f.ew - 1 then (if fr = 0 then .inf neg else .nan (!fr.testBit (f.fw - 1)))
  else if ex = 0 then .fin neg fr (1 - (f.bias : Int) - f.fw)
  else .fin neg (2 ^ f.fw + fr) ((ex : Int) - f.bias - f.fw)

/-- A pattern is a subnormal. -/
def Fmt.isSub (f : Fmt) (v : Nat) : Bool := v / 2 ^ f.fw % 2 ^ f.ew == 0 && v % 2 ^ f.fw != 0

/-- A pattern is a NaN. -/
def Fmt.isNaN (f : Fmt) (v : Nat) : Bool := match f.unpack v with | .nan _ => true | _ => false

/-- A pattern is a signalling NaN. -/
def Fmt.isSNaN (f : Fmt) (v : Nat) : Bool := match f.unpack v with | .nan s => s | _ => false

/-- NV for every signalling NaN among the inputs (R152). -/
def Fmt.snanFlags (f : Fmt) (l : List Nat) : Nat := if l.any f.isSNaN then flNV else 0

/-- The subnormal mode applied to an input a stage reads (R158-R160): its value and what it raises. -/
def Fmt.input (f : Fmt) (flush : Bool) (v : Nat) : Nat × Nat :=
  if f.isSub v then (if flush then (f.zero (v.testBit (f.ew + f.fw)), flDF) else (v, flDEN)) else (v, 0)

/-- The rounding attributes of a stage: RND and SUBN = FLUSH (R84). -/
structure Rnd where
  mode : Nat
  flush : Bool
  deriving DecidableEq, Repr

/-- Whether the magnitude is rounded up: by direction and sign, or by the discarded part against one half. -/
def roundUp (mode : Nat) (neg odd : Bool) (rem half : Nat) (sticky : Bool) : Bool :=
  match mode with
  | 0 => decide (half < rem) || (rem == half && (sticky || odd))
  | 1 => false
  | 2 => !neg && (rem != 0 || sticky)
  | _ => neg && (rem != 0 || sticky)

/-- round(v) of R153 for v = (-1)^neg * (m + sticky part) * 2^e, m not 0; with a sticky part m has more than p bits. -/
def Fmt.round (f : Fmt) (r : Rnd) (neg : Bool) (m : Nat) (e : Int) (sticky : Bool) : Nat × Nat :=
  let p := f.fw + 1
  let len := Nat.log2 m + 1
  let sh := len - p
  let q0 := if p ≤ len then m / 2 ^ sh else m * 2 ^ (p - len)
  let x0 := e + (len : Int) - p
  let rem := if p ≤ len then m % 2 ^ sh else 0
  let inexact := rem != 0 || sticky
  let up := if sh = 0 then (match r.mode with
      | 0 => false
      | 1 => false
      | 2 => !neg && sticky
      | _ => neg && sticky)
    else roundUp r.mode neg (q0 % 2 == 1) rem (2 ^ (sh - 1)) sticky
  let q1 := if up then q0 + 1 else q0
  let carry := q1 == 2 ^ p
  let q := if carry then 2 ^ (p - 1) else q1
  let x := if carry then x0 + 1 else x0
  let top := x + (p - 1 : Nat)
  if (f.bias : Int) < top then
    let toInf := r.mode == 0 || (r.mode == 2 && !neg) || (r.mode == 3 && neg)
    (if toInf then f.inf neg else f.maxFin neg, flOF + flNX)
  else if top < 1 - (f.bias : Int) then
    if r.flush then (f.zero neg, flUF + flNX + flDF) else (f.zero neg, flDEN)
  else
    (f.zero neg + (top + f.bias).toNat * 2 ^ f.fw + (q - 2 ^ (p - 1)), if inexact then flNX else 0)

/-- The sign of an exact zero sum (R154). -/
def zeroSumSign (r : Rnd) (a b : Bool) : Bool := if a == b then a else r.mode == 3

/-- An exact signed dyadic value i * 2^e rounded; `zs` is the sign of an exact zero. -/
def Fmt.roundInt (f : Fmt) (r : Rnd) (i : Int) (e : Int) (zs : Bool) : Nat × Nat :=
  if i = 0 then (f.zero zs, 0) else f.round r (decide (i < 0)) i.natAbs e false

/-- The signed integer mantissa of a finite value. -/
def signedM (neg : Bool) (m : Nat) : Int := if neg then -(m : Int) else m

/-- A sum of two dyadic values: mantissa and exponent. -/
def dyAdd (a : Int) (ea : Int) (b : Int) (eb : Int) : Int × Int :=
  if ea ≤ eb then (a + b * 2 ^ (eb - ea).toNat, ea) else (a * 2 ^ (ea - eb).toNat + b, eb)

/-- A sum of two extended values, rounded (R153, R154, R163). -/
def Fmt.addV (f : Fmt) (r : Rnd) (a b : FpV) : Nat × Nat :=
  match a, b with
  | .nan s, .nan t => (f.dN, if s || t then flNV else 0)
  | .nan s, _ => (f.dN, if s then flNV else 0)
  | _, .nan t => (f.dN, if t then flNV else 0)
  | .inf s, .inf t => if s == t then (f.inf s, 0) else (f.dN, flNV)
  | .inf s, _ => (f.inf s, 0)
  | _, .inf t => (f.inf t, 0)
  | .fin s m e, .fin t n g =>
    let (i, x) := dyAdd (signedM s m) e (signedM t n) g
    f.roundInt r i x (if m = 0 ∧ n = 0 then zeroSumSign r s t else r.mode == 3)

/-- A negated value. -/
def FpV.neg : FpV → FpV
  | .nan s => .nan s
  | .inf n => .inf (!n)
  | .fin n m e => .fin (!n) m e

/-- The exact product of two values, or the invalid 0 x infinity (a signalling NaN). -/
def FpV.mul : FpV → FpV → FpV
  | .nan s, .nan t => .nan (s || t)
  | .nan s, _ => .nan s
  | _, .nan t => .nan t
  | .inf s, .inf t => .inf (s ^^ t)
  | .inf s, .fin t m _ => if m = 0 then .nan true else .inf (s ^^ t)
  | .fin s m _, .inf t => if m = 0 then .nan true else .inf (s ^^ t)
  | .fin s m e, .fin t n g => .fin (s ^^ t) (m * n) (e + g)

/-- An exact value rounded (R153); a zero keeps its sign. -/
def Fmt.roundV (f : Fmt) (r : Rnd) (a : FpV) : Nat × Nat :=
  match a with
  | .nan s => (f.dN, if s then flNV else 0)
  | .inf s => (f.inf s, 0)
  | .fin s m e => f.roundInt r (signedM s m) e s

/-- a x b + c of exact values with one rounding; 0 x infinity raises NV whatever c holds (R165). -/
def Fmt.fmaV (f : Fmt) (r : Rnd) (a b c : FpV) : Nat × Nat :=
  let anyS := [a, b, c].any (fun v => match v with | .nan s => s | _ => false)
  match a.mul b, c with
  | .nan s, _ => (f.dN, if s || anyS then flNV else 0)
  | p, c => f.addV r p c

/-- a / b (R164). -/
def Fmt.divV (f : Fmt) (r : Rnd) (a b : FpV) : Nat × Nat :=
  match a, b with
  | .nan s, .nan t => (f.dN, if s || t then flNV else 0)
  | .nan s, _ => (f.dN, if s then flNV else 0)
  | _, .nan t => (f.dN, if t then flNV else 0)
  | .inf _, .inf _ => (f.dN, flNV)
  | .inf s, .fin t _ _ => (f.inf (s ^^ t), 0)
  | .fin s _ _, .inf t => (f.zero (s ^^ t), 0)
  | .fin s m e, .fin t n g =>
    if n = 0 then (if m = 0 then (f.dN, flNV) else (f.inf (s ^^ t), flDZ))
    else if m = 0 then (f.zero (s ^^ t), 0)
    else
      let k := Nat.log2 n + f.fw + 5
      let q := m * 2 ^ k / n
      f.round r (s ^^ t) q (e - g - k) (m * 2 ^ k % n != 0)

/-- The largest x below 2^k with x * x at most n, found bit by bit. -/
def isqrtBits : Nat → Nat → Nat → Nat
  | 0, _, x => x
  | k + 1, n, x => if (x + 2 ^ k) * (x + 2 ^ k) ≤ n then isqrtBits k n (x + 2 ^ k) else isqrtBits k n x

/-- The square root (R166). -/
def Fmt.sqrtV (f : Fmt) (r : Rnd) (a : FpV) : Nat × Nat :=
  match a with
  | .nan s => (f.dN, if s then flNV else 0)
  | .inf neg => if neg then (f.dN, flNV) else (f.inf false, 0)
  | .fin neg m e =>
    if m = 0 then (f.zero neg, 0)
    else if neg then (f.dN, flNV)
    else
      let k0 := 2 * (f.fw + 4)
      let k := if (e - k0) % 2 = 0 then k0 else k0 + 1
      let n := m * 2 ^ k
      let x := isqrtBits (Nat.log2 n / 2 + 1) n 0
      f.round r false x ((e - k) / 2) (x * x != n)

/-- An exact value rounded to an integer under RND: the integer, and whether it is inexact. -/
def roundToInt (mode : Nat) (neg : Bool) (m : Nat) (e : Int) : Int × Bool :=
  if 0 ≤ e then (signedM neg (m * 2 ^ e.toNat), false)
  else
    let k := (-e).toNat
    let q := m / 2 ^ k
    let rem := m % 2 ^ k
    let up := roundUp mode neg (q % 2 == 1) rem (2 ^ (k - 1)) false
    (signedM neg (if up then q + 1 else q), rem != 0)

/-- RINT: an integral value in the same format (R137, R166). -/
def Fmt.rintV (f : Fmt) (r : Rnd) (v : Nat) : Nat × Nat :=
  match f.unpack v with
  | .nan s => (f.dN, if s then flNV else 0)
  | .inf neg => (f.inf neg, 0)
  | .fin neg m e =>
    let (i, nx) := roundToInt r.mode neg m e
    ((f.roundInt r i 0 neg).1, if nx then flNX else 0)

/-- The least and greatest value of a type of w bits. -/
def intRange (signed : Bool) (w : Nat) : Int × Int :=
  if signed then (-(2 ^ (w - 1) : Nat), (2 ^ (w - 1) : Nat) - 1) else (0, (2 ^ w : Nat) - 1)

/-- An exact value converted to an integer type (R138): NaN gives 0 with NV, out of range saturates with NV. -/
def toIntV (mode : Nat) (signed : Bool) (w : Nat) (a : FpV) : Nat × Nat :=
  let (lo, hi) := intRange signed w
  match a with
  | .nan _ => (0, flNV)
  | .inf neg => (ofSigned w (if neg then lo else hi), flNV)
  | .fin neg m e =>
    let (i, nx) := roundToInt mode neg m e
    if i < lo then (ofSigned w lo, flNV)
    else if hi < i then (ofSigned w hi, flNV)
    else (ofSigned w i, if nx then flNX else 0)

/-- Exact order of two values that are no NaN: a < b, with the zeros equal. -/
def FpV.lt : FpV → FpV → Bool
  | .inf s, .inf t => s && !t
  | .inf s, .fin _ _ _ => s
  | .fin _ _ _, .inf t => !t
  | .fin s m e, .fin t n g => decide ((dyAdd (signedM s m) e (-(signedM t n)) g).1 < 0)
  | _, _ => false

/-- Exact equality of two values that are no NaN, with the zeros equal. -/
def FpV.eq (a b : FpV) : Bool :=
  match a, b with
  | .nan _, _ => false
  | _, .nan _ => false
  | _, _ => !a.lt b && !b.lt a

/-- a < b with -0 below +0 (R126). -/
def FpV.ltZ (a b : FpV) : Bool :=
  match a, b with
  | .fin s m _, .fin t n _ => if m = 0 ∧ n = 0 then s && !t else a.lt b
  | _, _ => a.lt b

/-- MIN and MAX of R126. -/
def Fmt.minMax (f : Fmt) (isMin : Bool) (a b : Nat) : Nat × Nat :=
  if f.isNaN a || f.isNaN b then (f.dN, f.snanFlags [a, b])
  else
    let lt := if isMin then (f.unpack b).ltZ (f.unpack a) else (f.unpack a).ltZ (f.unpack b)
    (if lt then b else a, 0)

/-- The exact sum of two values, unrounded; none for infinity - infinity or a NaN (R141). -/
def FpV.addX (a b : FpV) : Option FpV :=
  match a, b with
  | .nan _, _ => none
  | _, .nan _ => none
  | .inf s, .inf t => if s == t then some (.inf s) else none
  | .inf s, _ => some (.inf s)
  | _, .inf t => some (.inf t)
  | .fin s m e, .fin t n g =>
    let (i, x) := dyAdd (signedM s m) e (signedM t n) g
    some (.fin (decide (i < 0)) i.natAbs x)

/-- The value is negative: below zero (a -0 is not, R168). -/
def FpV.negative : FpV → Bool
  | .inf s => s
  | .fin s m _ => s && m != 0
  | .nan _ => false

/-- FILT1 on inputs already under the subnormal mode (R141). -/
def Fmt.filt1 (f : Fmt) (r : Rnd) (x al s : Nat) : Nat × Nat :=
  let (d, fl) := f.addV r (f.unpack x) (f.unpack s).neg
  if fl % 128 / 64 = 1 then (d, fl)
  else
    let (y, fl2) := f.fmaV r (f.unpack al) (f.unpack d) (f.unpack s)
    (y, fl ||| fl2)

/-- DBAND (R141). -/
def Fmt.dband (f : Fmt) (a b c : Nat) : Nat × Nat :=
  let va := f.unpack a
  let vb := f.unpack b
  let vc := f.unpack c
  if vc.negative then (f.dN, flNV)
  else match vb.addX vc.neg, vb.addX vc with
    | some lo, some hi => if !(va.lt lo) && !(hi.lt va) then (b, 0) else (a, 0)
    | _, _ => (f.dN, flNV)

/-- HYST (R141). -/
def Fmt.hyst (f : Fmt) (r : Rnd) (a s c : Nat) : Nat × Nat :=
  let va := f.unpack a
  let vs := f.unpack s
  let vc := f.unpack c
  if vc.negative then (f.dN, flNV)
  else match va.addX vc.neg, va.addX vc with
    | some lo, some hi =>
      if vs.lt lo then f.addV r va vc.neg else if hi.lt vs then f.addV r va vc else (s, 0)
    | _, _ => (f.dN, flNV)

/-- RLIM (R141). -/
def Fmt.rlim (f : Fmt) (r : Rnd) (a s d : Nat) : Nat × Nat :=
  let va := f.unpack a
  let vs := f.unpack s
  let vd := f.unpack d
  if vd.negative then (f.dN, flNV)
  else match va.addX vs.neg, vs.addX va.neg with
    | some up, some dn =>
      if vd.lt up then f.addV r vs vd else if vd.lt dn then f.addV r vs vd.neg else (a, 0)
    | _, _ => (f.dN, flNV)

end Sys2Proof.Machine
end

