-- ==== Sys2Proof/Machine/Vop.lean ====
section
/-! DEFINITION. The vector operation catalogue (05_vector_operations.md): types, arities, rates and the result of one
element of each operation, with the integer and packed-decimal edges of 06_arithmetic_rules.md. -/

namespace Sys2Proof.Machine

/-! ### Element types (R86) -/

/-- A signed integer type. -/
def tyS (t : Nat) : Bool := decide (1 ≤ t) && decide (t ≤ 4)
/-- An unsigned integer type. -/
def tyU (t : Nat) : Bool := decide (5 ≤ t) && decide (t ≤ 8)
/-- An integer type. -/
def tySU (t : Nat) : Bool := tyS t || tyU t
/-- A floating-point type. -/
def tyF (t : Nat) : Bool := t == 9 || t == 10
/-- Any type of S, U or F. -/
def tySUF (t : Nat) : Bool := decide (1 ≤ t) && decide (t ≤ 10)
/-- Any element type, codes 1 to 11. -/
def tyAny (t : Nat) : Bool := decide (1 ≤ t) && decide (t ≤ 11)

/-- Element size in bytes; 0 for mask bits. -/
def tyBytes (t : Nat) : Nat :=
  match t with
  | 1 => 1
  | 5 => 1
  | 2 => 2
  | 6 => 2
  | 3 => 4
  | 7 => 4
  | 9 => 4
  | 4 => 8
  | 8 => 8
  | 10 => 8
  | 11 => 8
  | _ => 0

/-- Element width in bits. -/
def tyBits (t : Nat) : Nat := if t = 12 then 1 else 8 * tyBytes t

/-- The type is of the 64-bit lane class (R86). -/
def tyLane64 (t : Nat) : Bool := t == 4 || t == 8 || t == 10 || t == 11

/-! ### The catalogue (R120, R125-R145) -/

/-- Arity of an operation; none for an unassigned code (R146). -/
def opArity (op : Nat) : Option Nat :=
  if op = 0 then none
  else if op ≤ 0x05 then some 2
  else if op ≤ 0x08 then some 3
  else if op ≤ 0x0A then some 2
  else if op ≤ 0x0D then some 1
  else if op ≤ 0x18 then some 2
  else if op = 0x19 then some 1
  else if op = 0x1A then some 2
  else if 0x20 ≤ op ∧ op ≤ 0x26 then some 2
  else if 0x28 ≤ op ∧ op ≤ 0x2A then some 2
  else if op = 0x2B then some 1
  else if op = 0x32 then some 2
  else if 0x30 ≤ op ∧ op ≤ 0x39 then some 1
  else if op = 0x40 ∨ op = 0x43 then some 1
  else if op = 0x41 ∨ op = 0x42 then some 3
  else if op = 0x53 then some 3
  else if 0x50 ≤ op ∧ op ≤ 0x54 then some 1
  else if 0x60 ≤ op ∧ op ≤ 0x66 then some 3
  else if op = 0x70 ∨ op = 0x71 then some 3
  else if op = 0x80 ∨ op = 0x81 then some 1
  else if op = 0x82 ∨ op = 0x83 then some 2
  else none

/-- The working types an operation permits. -/
def opType (op ty : Nat) : Bool :=
  if op ≤ 0x04 then tySUF ty
  else if op = 0x05 then tySU ty
  else if op ≤ 0x08 then tyF ty
  else if op ≤ 0x0A then tySUF ty
  else if op ≤ 0x0C then tyS ty || tyF ty
  else if op = 0x0D then tyF ty
  else if op ≤ 0x19 then tySU ty
  else if op = 0x1A then tyF ty
  else if op ≤ 0x25 then tySUF ty
  else if op = 0x26 then tyF ty
  else if op ≤ 0x2B then ty == 12
  else if op = 0x30 then tySUF ty
  else if op ≤ 0x32 then tyF ty
  else if op ≤ 0x38 then tySUF ty
  else if op = 0x39 then tyAny ty
  else if op = 0x40 then tySUF ty
  else if op = 0x41 then tySU ty && decide (tyBytes ty ≤ 4)
  else if op ≤ 0x43 then tyF ty
  else if op ≤ 0x53 then tyAny ty
  else if op = 0x54 then tySU ty && decide (2 ≤ tyBytes ty)
  else if op = 0x60 then tyF ty
  else if op = 0x61 then tySUF ty
  else if op ≤ 0x63 then tyF ty
  else if op = 0x64 then tySUF ty
  else if op = 0x65 then tyF ty
  else if op = 0x66 then tySUF ty
  else if op ≤ 0x71 then tyF ty
  else if op = 0x80 then ty == 4
  else ty == 11

/-- The operations that produce the job ETYPE (R121). -/
def opConv (op : Nat) : Bool := op == 0x40 || op == 0x41 || op == 0x42 || op == 0x80 || op == 0x81

/-- The job ETYPE that a conversion can produce (R137, R145). -/
def convTarget (op ty : Nat) : Bool :=
  match op with
  | 0x40 => tySUF ty
  | 0x41 => tyF ty
  | 0x42 => tySU ty
  | 0x80 => ty == 11
  | 0x81 => ty == 4
  | _ => true

/-- Compare and mask operations. -/
def opMask (op : Nat) : Bool := decide (0x20 ≤ op) && decide (op ≤ 0x2B)
/-- Mask-bit logic. -/
def opMaskLogic (op : Nat) : Bool := decide (0x28 ≤ op) && decide (op ≤ 0x2B)
/-- Reductions and scans. -/
def opRed (op : Nat) : Bool := decide (0x30 ≤ op) && decide (op ≤ 0x39)
/-- MVDOT and MVDOTX. -/
def opMat (op : Nat) : Bool := op == 0x70 || op == 0x71
/-- MINIDX and MAXIDX. -/
def opIdx (op : Nat) : Bool := op == 0x35 || op == 0x36
/-- One result for the whole job at its last element (R124). -/
def opOneOut (op : Nat) : Bool := opRed op && op != 0x37 && op != 0x38

/-- The type of a stage's result (R121). -/
def opResult (op wt job : Nat) : Nat :=
  if opConv op then job else if opMask op then 12 else if op = 0x39 then 8 else if op = 0x66 then 6 else wt

/-- The partial state of an operation on a working type (R130, R144): 0 none, 1 tree, 2 exact. -/
def opForm (op wt : Nat) : Nat :=
  if op = 0x30 ∨ op = 0x37 ∨ op = 0x38 then (if tyF wt then 1 else 2)
  else if op = 0x31 ∨ op = 0x32 ∨ op = 0x39 ∨ op = 0x71 then 2
  else if 0x33 ≤ op ∧ op ≤ 0x36 then 1
  else if op = 0x70 then 1
  else 0

/-- ceil(log2 k). -/
def clog2 (k : Nat) : Nat := if k ≤ 1 then 0 else Nat.log2 (k - 1) + 1

/-- The rate factor f (R120, R142): `lam` is the lane count, `wt` the working type, `k` the PWL table size. -/
def opRate (op lam wt k : Nat) : Nat :=
  if op = 0x04 ∨ op = 0x05 ∨ op = 0x0D then (if lam = 16 then 4 else 8)
  else if op = 0x0E then (if tyBits wt = 64 then 2 else 1)
  else if op = 0x31 ∨ op = 0x32 ∨ op = 0x71 then (if lam = 16 then 1 else 2)
  else if op = 0x38 then 2
  else if op = 0x65 then clog2 k + 2
  else if op = 0x80 ∨ op = 0x81 then 4
  else if op = 0x82 ∨ op = 0x83 then 2
  else 1

/-! ### Packed decimal (R174, R175) -/

/-- The value of n digits above the sign nibble; none for an invalid digit. -/
def digitsVal : Nat → Nat → Option Nat
  | 0, _ => some 0
  | n + 1, v => if v % 16 < 10 then (digitsVal n (v / 16)).map (fun h => v % 16 + 10 * h) else none

/-- A packed-decimal pattern of n digits as an integer; none when it is invalid. -/
def decVal (n v : Nat) : Option Int :=
  match digitsVal n (v / 16) with
  | none => none
  | some d =>
    if v % 16 = 0xC ∨ v % 16 = 0xF then some d else if v % 16 = 0xD then some (-(d : Int)) else none

/-- n digits of a magnitude, units first. -/
def decDigits : Nat → Nat → Nat
  | 0, _ => 0
  | n + 1, v => v % 10 + 16 * decDigits n (v / 10)

/-- A packed-decimal pattern with the low n digits of a magnitude and a sign. -/
def decPack (n mag : Nat) (neg : Bool) : Nat := decDigits n mag * 16 + (if neg then 0xD else 0xC)

/-- A vector decimal result (R177): beyond 15 digits it is VF_DECIMAL. -/
def decResult (i : Int) : Nat × Nat :=
  if i.natAbs < 10 ^ 15 then (decPack 15 i.natAbs (decide (i < 0)), 0) else (0, flDEC)

/-! ### Integers (R150) -/

/-- The integer that a pattern of an integer type means. -/
def ival (ty v : Nat) : Int := if tyS ty then toSigned (tyBits ty) v else (v : Int)

/-- An exact integer result written modulo 2^w, with OF when it lies outside the type's range. -/
def iresult (ty : Nat) (i : Int) : Nat × Nat :=
  let (lo, hi) := intRange (tyS ty) (tyBits ty)
  (ofSigned (tyBits ty) i, if i < lo ∨ hi < i then flOF else 0)

/-- An exact integer result saturated to the type's range. -/
def isat (ty : Nat) (i : Int) : Nat × Int :=
  let (lo, hi) := intRange (tyS ty) (tyBits ty)
  if i < lo then (ofSigned (tyBits ty) lo, lo) else if hi < i then (ofSigned (tyBits ty) hi, hi)
  else (ofSigned (tyBits ty) i, i)

/-- Shifts and rotates of R125. -/
def ishift (op w a b : Nat) : Nat :=
  let t := b % (2 * w)
  match op with
  | 0x11 => a * 2 ^ t % 2 ^ w
  | 0x12 => a / 2 ^ t
  | 0x13 => ofSigned w (toSigned w a / ((2 ^ min t w : Nat) : Int))
  | 0x14 => (a * 2 ^ (t % w) + a / 2 ^ (w - t % w)) % 2 ^ w
  | _ => (a / 2 ^ (t % w) + a * 2 ^ (w - t % w)) % 2 ^ w

/-- Integer arithmetic of group 0x01-0x1F. -/
def evalInt (op ty a b : Nat) : Nat × Nat :=
  let w := tyBits ty
  let ia := ival ty a
  let ib := ival ty b
  let (lo, hi) := intRange (tyS ty) w
  match op with
  | 0x01 => iresult ty (ia + ib)
  | 0x02 => iresult ty (ia - ib)
  | 0x03 => iresult ty (ia * ib)
  | 0x04 =>
    if b = 0 then (ofSigned w (if ia < 0 then lo else hi), flDZ) else iresult ty (Int.tdiv ia ib)
  | 0x05 =>
    if b = 0 then (a, flDZ) else (ofSigned w (Int.tmod ia ib), if ia = lo ∧ ib = -1 then flOF else 0)
  | 0x09 => (if ib < ia then b else a, 0)
  | 0x0A => (if ia < ib then b else a, 0)
  | 0x0B => iresult ty (ia.natAbs : Int)
  | 0x0C => iresult ty (-ia)
  | 0x0E => (ofSigned w (ia * ib / ((2 ^ w : Nat) : Int)), 0)
  | 0x0F => ((isat ty (ia + ib)).1, 0)
  | 0x10 => ((isat ty (ia - ib)).1, 0)
  | 0x16 => (a &&& b, 0)
  | 0x17 => (a ||| b, 0)
  | 0x18 => (a ^^^ b, 0)
  | 0x19 => (2 ^ w - 1 - a, 0)
  | _ => (ishift op w a b, 0)

/-! ### Floating point -/

/-- The operations to which the subnormal mode does not apply (R158). -/
def modeFree (op : Nat) : Bool :=
  op == 0x09 || op == 0x0A || op == 0x0B || op == 0x0C || op == 0x1A || (decide (0x50 ≤ op) && decide (op ≤ 0x5F))

/-- Inputs of a stage, each with its type, under the subnormal mode (R158, R159). -/
def inputMode (r : Rnd) (op : Nat) : List (Nat × Nat) → List Nat × Nat
  | [] => ([], 0)
  | (ty, v) :: t =>
    let (vs, fl) := inputMode r op t
    if tyF ty && !modeFree op then
      let (v1, f1) := (fmtOf ty).input r.flush v
      (v1 :: vs, f1 ||| fl)
    else (v :: vs, fl)

/-- Arithmetic of group 0x01-0x1F on F. -/
def evalF (op : Nat) (f : Fmt) (r : Rnd) (a b c : Nat) : Nat × Nat :=
  let va := f.unpack a
  let vb := f.unpack b
  let vc := f.unpack c
  let sb := f.zero true
  match op with
  | 0x01 => f.addV r va vb
  | 0x02 => f.addV r va vb.neg
  | 0x03 => f.roundV r (va.mul vb)
  | 0x04 => f.divV r va vb
  | 0x06 => f.fmaV r va vb vc
  | 0x07 => f.fmaV r va vb vc.neg
  | 0x08 => f.fmaV r va.neg vb vc
  | 0x09 => f.minMax true a b
  | 0x0A => f.minMax false a b
  | 0x0B => if f.isNaN a then (f.dN, 0) else (a % sb, 0)
  | 0x0C => if f.isNaN a then (f.dN, 0) else (if sb ≤ a then a - sb else a + sb, 0)
  | 0x0D => f.sqrtV r va
  | _ => if f.isNaN a || f.isNaN b then (f.dN, 0) else (a % sb + b / sb * sb, 0)

/-- The mask bit of a compare on F (R127). -/
def cmpF (op : Nat) (f : Fmt) (a b : Nat) : Nat × Nat :=
  let va := f.unpack a
  let vb := f.unpack b
  let un := f.isNaN a || f.isNaN b
  let fl := if (op ≤ 0x21 ∨ op = 0x26) then f.snanFlags [a, b] else if un then flNV else 0
  let r := match op with
    | 0x20 => va.eq vb
    | 0x21 => !va.eq vb
    | 0x22 => !un && va.lt vb
    | 0x23 => !un && !vb.lt va
    | 0x24 => !un && vb.lt va
    | 0x25 => !un && !va.lt vb
    | _ => un
  (b2n r, fl)

/-- The mask bit of a compare on integers. -/
def cmpI (op : Nat) (a b : Int) : Nat :=
  b2n (match op with
    | 0x20 => a == b
    | 0x21 => a != b
    | 0x22 => decide (a < b)
    | 0x23 => decide (a ≤ b)
    | 0x24 => decide (b < a)
    | _ => decide (b ≤ a))

/-- CVT from a type to another (R138). -/
def evalCvt (r : Rnd) (src dst a : Nat) : Nat × Nat :=
  if tyF src then
    if tyF dst then (fmtOf dst).roundV r ((fmtOf src).unpack a)
    else toIntV r.mode (tyS dst) (tyBits dst) ((fmtOf src).unpack a)
  else if tyF dst then (fmtOf dst).roundInt r (ival src a) 0 false
  else
    let (v, k) := isat dst (ival src a)
    (v, if k = ival src a then 0 else flOF)

/-- An integer as an exact value. -/
def intV (i : Int) : FpV := .fin (decide (i < 0)) i.natAbs 0

/-- SCOUT: a x b + c formed exactly and rounded once to an integer (R137, R138). -/
def evalScout (r : Rnd) (f : Fmt) (dst a b c : Nat) : Nat × Nat :=
  match (f.unpack a).mul (f.unpack b) with
  | .nan _ => (0, flNV)
  | p =>
    match p.addX (f.unpack c) with
    | none => (0, flNV)
    | some v => toIntV r.mode (tyS dst) (tyBits dst) v

/-- RCHK (R143). -/
def evalRchk (ty a lo hi : Nat) : Nat × Nat :=
  if tyF ty then
    let f := fmtOf ty
    let va := f.unpack a
    let vl := f.unpack lo
    let vh := f.unpack hi
    (b2n (va.lt vl) + 2 * b2n (vh.lt va) + 4 * b2n (f.isNaN a) + 8 * b2n (vh.lt vl || f.isNaN lo || f.isNaN hi),
      f.snanFlags [a, lo, hi])
  else
    let ia := ival ty a
    let il := ival ty lo
    let ih := ival ty hi
    (b2n (decide (ia < il)) + 2 * b2n (decide (ih < ia)) + 8 * b2n (decide (ih < il)), 0)

/-- The plant functions on F, 0x60-0x64 (R141): a NaN in any input gives the default NaN and raises NV. -/
def plantF (op : Nat) (f : Fmt) (r : Rnd) (a b c : Nat) : Nat × Nat :=
  if f.isNaN a || f.isNaN b || f.isNaN c then (f.dN, flNV)
  else match op with
    | 0x60 => f.filt1 r a b c
    | 0x61 => f.dband a b c
    | 0x62 => f.hyst r a b c
    | 0x63 => f.rlim r a b c
    | _ =>
      let (m, _) := f.minMax false a b
      f.minMax true m c

/-- DBAND and CLAMP on integers (R141). -/
def plantI (op ty a b c : Nat) : Nat :=
  let ia := ival ty a
  let ib := ival ty b
  let ic := ival ty c
  if op = 0x61 then (if ib - ic ≤ ia ∧ ia ≤ ib + ic then b else a)
  else
    let m := if ia < ib then b else a
    if ic < ival ty m then c else m

/-- The decimal operations (R145, R177). -/
def evalDec (op a b : Nat) : Nat × Nat :=
  match op with
  | 0x80 => decResult (toSigned 64 a)
  | 0x81 => match decVal 15 a with
    | some i => (ofSigned 64 i, 0)
    | none => (0, flDEC)
  | _ => match decVal 15 a, decVal 15 b with
    | some i, some j => decResult (if op = 0x82 then i + j else i - j)
    | _, _ => (0, flDEC)

/-- One element of an elementwise operation: `wt` is the stage's working type, `job` the job ETYPE, `ins` the inputs
with their types; the result and the flags it raises. PWL, reductions and matrix operations are evaluated elsewhere. -/
def evalOp (r : Rnd) (op wt job : Nat) (ins : List (Nat × Nat)) : Nat × Nat :=
  let (vs, fl) := inputMode r op ins
  let a := vs.getD 0 0
  let b := vs.getD 1 0
  let c := vs.getD 2 0
  let f := fmtOf wt
  let (v, f2) :=
    if op ≤ 0x1A then (if tyF wt then evalF op f r a b c else evalInt op wt a b)
    else if op ≤ 0x26 then (if tyF wt then cmpF op f a b else (cmpI op (ival wt a) (ival wt b), 0))
    else if op = 0x28 then (a &&& b, 0)
    else if op = 0x29 then (a ||| b, 0)
    else if op = 0x2A then (a ^^^ b, 0)
    else if op = 0x2B then (1 - a, 0)
    else if op = 0x40 then evalCvt r wt job a
    else if op = 0x41 then
      (fmtOf job).fmaV r (intV (ival wt a)) ((fmtOf job).unpack b) ((fmtOf job).unpack c)
    else if op = 0x42 then evalScout r f job a b c
    else if op = 0x43 then f.rintV r a
    else if op = 0x53 then (if a = 1 then b else c, 0)
    else if op = 0x54 then (beVal (leBytes (tyBytes wt) a), 0)
    else if op ≤ 0x5F then (a, 0)
    else if op ≤ 0x64 then (if tyF wt then plantF op f r a b c else (plantI op wt a b c, 0))
    else if op = 0x66 then evalRchk wt a b c
    else if op ≤ 0x71 then (a, 0)
    else evalDec op a b
  (v, fl ||| f2)

/-! ### PWL (R142) -/

/-- The binary search of R142: lo and hi, and the records whose X it read. `le k` says X[k] ≤ x. -/
def pwlSearch (le : Nat → Bool) : Nat → Nat → Nat → List Nat → Nat × Nat × List Nat
  | 0, lo, hi, acc => (lo, hi, acc)
  | fuel + 1, lo, hi, acc =>
    if lo + 1 < hi then
      let mid := (lo + hi) / 2
      if le mid then pwlSearch le fuel mid hi (acc ++ [mid]) else pwlSearch le fuel lo mid (acc ++ [mid])
    else (lo, hi, acc)

/-- A value that a table gives as the result: a NaN becomes dN (R152). -/
def Fmt.passNaN (f : Fmt) (v : Nat) : Nat × Nat := if f.isNaN v then (f.dN, f.snanFlags [v]) else (v, 0)

/-- PWL of x over a table of k records (R142): result, flags, and the records accessed in order. -/
def evalPwl (r : Rnd) (f : Fmt) (x k : Nat) (tx ty : Nat → Nat) : Nat × Nat × List Nat :=
  let (x1, fx) := f.input r.flush x
  let vx := f.unpack x1
  let mode := fun v => f.input r.flush v
  let le := fun a b : FpV => !a.lt b && (match a, b with | .nan _, _ => false | _, .nan _ => false | _, _ => true)
  if f.isNaN x then (f.dN, f.snanFlags [x], [])
  else
    let (x0, f0) := mode (tx 0)
    if le (f.unpack x0) vx then
      let (y, fy) := mode (ty 0)
      let (y1, fn) := f.passNaN y
      (y1, fx ||| f0 ||| fy ||| fn, [0])
    else
      let (xl, fl) := mode (tx (k - 1))
      if le vx (f.unpack xl) then
        let (y, fy) := mode (ty (k - 1))
        let (y1, fn) := f.passNaN y
        (y1, fx ||| f0 ||| fl ||| fy ||| fn, [0, k - 1])
      else
        let (lo, hi, mids) := pwlSearch (fun m => le vx (f.unpack (mode (tx m)).1)) 17 0 (k - 1) []
        let fm := mids.foldl (fun acc m => acc ||| (mode (tx m)).2) 0
        let (a0, g0) := mode (tx lo)
        let (a1, g1) := mode (tx hi)
        let (b0, g2) := mode (ty lo)
        let (b1, g3) := mode (ty hi)
        let (d1, h1) := f.addV r vx (f.unpack a0).neg
        let (d2, h2) := f.addV r (f.unpack a1) (f.unpack a0).neg
        let (dy, h3) := f.addV r (f.unpack b1) (f.unpack b0).neg
        let (q, h4) := f.divV r (f.unpack d1) (f.unpack d2)
        let (y, h5) := f.fmaV r (f.unpack q) (f.unpack dy) (f.unpack b0)
        (y, fx ||| f0 ||| fl ||| fm ||| g0 ||| g1 ||| g2 ||| g3 ||| h1 ||| h2 ||| h3 ||| h4 ||| h5,
          [0, k - 1] ++ mids ++ [lo, hi])

/-! ### Combination (R129-R134, R170) -/

/-- op of a tree combination on two non-empty values, left operand covering the lower indices: SUM, or the rules of
R132. Whether the right operand was taken tells whose index goes with it. -/
def combine (r : Rnd) (op ty a b : Nat) : Nat × Nat × Bool :=
  let f := fmtOf ty
  if op = 0x33 ∨ op = 0x34 ∨ op = 0x35 ∨ op = 0x36 then
    let isMin := op == 0x33 || op == 0x35
    if tyF ty then
      if f.isNaN a then (a, 0, false)
      else if f.isNaN b then (b, 0, true)
      else
        let t := if isMin then (f.unpack b).ltZ (f.unpack a) else (f.unpack a).ltZ (f.unpack b)
        (if t then b else a, 0, t)
    else
      let t := if isMin then decide (ival ty b < ival ty a) else decide (ival ty a < ival ty b)
      (if t then b else a, 0, t)
  else
    let (v, fl) := f.addV r (f.unpack a) (f.unpack b)
    (v, fl, false)

/-- The all-empty value of an operation on a type (R130). -/
def emptyVal (op ty : Nat) : Nat :=
  let (lo, hi) := intRange (tyS ty) (tyBits ty)
  if op = 0x33 ∨ op = 0x35 then (if tyF ty then (fmtOf ty).inf false else ofSigned (tyBits ty) hi)
  else if op = 0x34 ∨ op = 0x36 then (if tyF ty then (fmtOf ty).inf true else ofSigned (tyBits ty) lo)
  else 0

/-- op with empty operands (R123). -/
def combineE (r : Rnd) (op ty : Nat) (x y : TreeEntry) : TreeEntry × Nat :=
  if x.empty then (y, 0)
  else if y.empty then (x, 0)
  else
    let (v, fl, right) := combine r op ty x.val.toNat y.val.toNat
    ({ val := BitVec.ofNat 64 v, idx := if right then y.idx else x.idx, empty := false }, fl)

/-- The empty subtree of a level map. -/
def noEntry : Nat → TreeEntry := fun _ => { val := 0, idx := 0, empty := true }

/-- A level holds a value (CTX_LEVELS). -/
def hasLevel (l : SMap TreeEntry) (m : Nat) : Bool := l.any (fun e => e.1 == m)

/-- The counter step of R129: a leaf enters, merging the levels that hold a value, from level m on. -/
def treeStep (r : Rnd) (op ty : Nat) : Nat → Nat → SMap TreeEntry → TreeEntry → SMap TreeEntry × Nat
  | 0, _, l, _ => (l, 0)
  | fuel + 1, m, l, v =>
    if hasLevel l m then
      let x := ((l.find? (fun e => e.1 == m)).map (fun e => e.2)).getD (noEntry 0)
      let (w, fl) := combineE r op ty x v
      let (l2, f2) := treeStep r op ty fuel (m + 1) (l.filter (fun e => e.1 != m)) w
      (l2, fl ||| f2)
    else ((l.filter (fun e => decide (e.1 < m))) ++ [(m, v)] ++ l.filter (fun e => decide (m < e.1)), 0)

/-- The final fold of R129, smallest subtree first. -/
def treeFold (r : Rnd) (op ty : Nat) (l : SMap TreeEntry) : TreeEntry × Nat :=
  l.foldl (fun acc e =>
    let (v, fl) := combineE r op ty e.2 acc.1
    (v, acc.2 ||| fl)) (noEntry 0, 0)

/-- A term entering the exact accumulator (R169, R170): accumulator, state word, flags. -/
def exactTerm (a : Int) (st : Nat) (v : FpV) : Int × Nat × Nat :=
  let enter := fun (s n : Nat) => s ||| n
  match v with
  | .nan sig => (a, enter st (4 + 8 + 16), if sig then flNV else 0)
  | .inf neg =>
    let s1 := enter st ((if neg then 2 else 1) + 8 + 16)
    if s1 % 4 = 3 then (a, enter s1 4, if st % 4 = 3 then 0 else flNV) else (a, s1, 0)
  | .fin neg m e =>
    let s1 := enter st (if m = 0 then (if neg then 16 else 8) else 8 + 16)
    (a + signedM neg m * 2 ^ (e + 2148).toNat, s1, 0)

/-- The result of R171. -/
def exactResult (r : Rnd) (f : Fmt) (a : Int) (st : Nat) : Nat × Nat :=
  if st.testBit 2 then (f.dN, 0)
  else if st.testBit 0 then (f.inf false, 0)
  else if st.testBit 1 then (f.inf true, 0)
  else if a ≠ 0 then f.roundInt r a (-2148) false
  else if !st.testBit 3 && st.testBit 4 then (f.zero true, 0)
  else if st.testBit 3 && st.testBit 4 && r.mode == 3 then (f.zero true, 0)
  else (f.zero false, 0)

/-- The integer result of R131: the exact value modulo 2^w, OF outside the type's range. -/
def exactInt (ty : Nat) (a : Int) : Nat × Nat := iresult ty (a / ((2 ^ 2148 : Nat) : Int))

/-- CNT: an active element that is not equal to zero (R130, R177): 1 or 0, and the flags. -/
def cntTerm (r : Rnd) (ty v : Nat) : Nat × Nat :=
  if tyF ty then
    let (v1, fl) := (fmtOf ty).input r.flush v
    (b2n (v1 % (fmtOf ty).zero true != 0), fl)
  else if ty = 11 then
    match decVal 15 v with
    | some i => (b2n (i != 0), 0)
    | none => (0, flDEC)
  else (b2n (v != 0), 0)

end Sys2Proof.Machine
end

