-- ==== Sys2Proof/Machine/Vjd.lean ====
section
/-! DEFINITION. The Vector Job Descriptor (04_vector_jobs.md R81-R95): its fields, its chain with the types of every
stage, the streams it makes, and where each element of a stream lies. -/

namespace Sys2Proof.Machine

/-- Word i of a descriptor as a number. -/
def vw (ws : List Word) (i : Nat) : Nat := (ws.getD i 0).toNat

/-- An operand descriptor (R88): its slot (0 A, 1 B, 2 C, 3 D, 4 W, 5 M) and its four words. -/
structure Opnd where
  slot : Nat
  w0 : Nat
  w1 : Nat
  w2 : Nat
  w3 : Nat
  deriving DecidableEq, Repr

/-- Operand of a slot. -/
def opnd (ws : List Word) (k : Nat) : Opnd :=
  ⟨k, vw ws (8 + 4 * k), vw ws (9 + 4 * k), vw ws (10 + 4 * k), vw ws (11 + 4 * k)⟩

/-- SEL. -/
def Opnd.sel (o : Opnd) : Nat := bits o.w0 15 0
/-- FORM. -/
def Opnd.form (o : Opnd) : Nat := bits o.w0 19 16
/-- FCNT. -/
def Opnd.fcnt (o : Opnd) : Nat := bits o.w0 21 20
/-- FIDX. -/
def Opnd.fidx (o : Opnd) : Nat := bits o.w0 23 22
/-- ETYPE override. -/
def Opnd.eto (o : Opnd) : Nat := bits o.w0 27 24
/-- STRIDE in elements, signed. -/
def Opnd.stride (o : Opnd) : Int := toSigned 32 o.w2
/-- ISEL. -/
def Opnd.isel (o : Opnd) : Nat := bits o.w3 15 0
/-- ITYPE. -/
def Opnd.itype (o : Opnd) : Nat := bits o.w3 19 16
/-- ISCALE. -/
def Opnd.iscale (o : Opnd) : Nat := bits o.w3 23 20
/-- The value of a scalar broadcast, words 1-2. -/
def Opnd.scalar (o : Opnd) : Nat := o.w1 + o.w2 * 2 ^ 32
/-- The operand's type under a job ETYPE (R87). -/
def Opnd.ty (o : Opnd) (et : Nat) : Nat := if o.eto = 0 then et else o.eto

/-- The form rules of R88-R91: reserved bits, zero fields and slots. -/
def Opnd.formOk (o : Opnd) (et : Nat) : Bool :=
  bits o.w0 31 28 == 0 &&
  match o.form with
  | 0 => o.w0 == 0 && o.w1 == 0 && o.w2 == 0 && o.w3 == 0
  | 1 =>
    o.fcnt == 0 && o.fidx == 0 && o.w3 == 0 &&
      (if o.slot = 5 then o.w2 == 1 && (o.eto == 0 || o.eto == 12) else true)
  | 2 =>
    o.slot != 5 && o.fcnt == 0 && o.fidx == 0 && bits o.w3 31 24 == 0 && (o.itype == 3 || o.itype == 7) &&
      decide (o.iscale ≤ 6)
  | 3 => o.slot != 5 && o.w2 == 0 && o.w3 == 0 && decide (1 ≤ o.fcnt) && decide (o.fidx ≤ o.fcnt)
  | 4 =>
    decide (o.slot < 4) && o.sel == 0 && o.fcnt == 0 && o.fidx == 0 && o.w3 == 0 && tyAny (o.ty et) &&
      decide (o.scalar < 2 ^ tyBits (o.ty et))
  | 5 => decide (o.slot < 4) && o.sel == 0 && o.fcnt == 0 && o.fidx == 0 && o.eto == 0 && o.w1 == 0 && o.w2 == 0 &&
      o.w3 == 0
  | _ => false

/-- An input of a stage: the result of an earlier stage, or an operand slot. -/
inductive VIn where
  | res (k : Nat)
  | slot (k : Nat)
  deriving DecidableEq, Repr

/-- A stage of a chain: operation, inputs, working type, result type (R92, R121). -/
structure VStage where
  op : Nat
  ins : List VIn
  wt : Nat
  rt : Nat
  deriving DecidableEq, Repr

/-- A descriptor that has passed the checks of R83-R93 and of the catalogue. -/
structure VJob where
  words : List Word
  n : Nat
  et : Nat
  stages : List VStage
  deriving DecidableEq, Repr

/-- CTL.OP1 to OP3 that are used. -/
def vOps (ws : List Word) : List Nat := [bits (vw ws 0) 7 0, bits (vw ws 0) 15 8, bits (vw ws 0) 23 16].filter (· != 0)
/-- CTL.ETYPE. -/
def vEtype (ws : List Word) : Nat := bits (vw ws 0) 27 24
/-- CTL.CHAIN = FORK. -/
def vFork (ws : List Word) : Bool := bits (vw ws 0) 31 28 == 1
/-- FPC.RND and SUBN. -/
def vRnd (ws : List Word) : Rnd := ⟨bits (vw ws 2) 1 0, !(vw ws 2).testBit 2⟩
/-- The trap enables TE_NV to TE_NX as a flag set (R84). -/
def vTraps (ws : List Word) : Nat := bits (vw ws 2) 7 3
/-- FPC.CLASS. -/
def vClass (ws : List Word) : Nat := bits (vw ws 2) 14 12
/-- FPC.DEFER. -/
def vDefer (ws : List Word) : Bool := (vw ws 2).testBit 15
/-- FPC.CHAN. -/
def vChan (ws : List Word) : Nat := bits (vw ws 2) 23 16
/-- FPC.GANG as G. -/
def vGang (ws : List Word) : Nat := 2 ^ bits (vw ws 2) 25 24
/-- FPC.FWD. -/
def vFwd (ws : List Word) : Bool := (vw ws 2).testBit 26

/-- The wiring of one stage: chain values first, then the next slots; a FORM 5 slot gives the result before (R92).
Answers the inputs and the next free slot; none for a form that R92 forbids. -/
def wireSlots (ws : List Word) (stage : Nat) (fork : Bool) : Nat → Nat → List VIn → Option (List VIn × Nat)
  | 0, nxt, acc => some (acc, nxt)
  | k + 1, nxt, acc =>
    if 4 ≤ nxt then none
    else
      let o := opnd ws nxt
      if o.form = 0 then none
      else if o.form = 5 then
        if stage = 0 ∨ (fork = true ∧ stage = 1) then none
        else wireSlots ws stage fork k (nxt + 1) (acc ++ [.res (stage - 1)])
      else wireSlots ws stage fork k (nxt + 1) (acc ++ [.slot nxt])

/-- The wiring of every stage in order (R92). -/
def wireAll (ws : List Word) (fork : Bool) : List Nat → Nat → Nat → Option (List (Nat × List VIn) × Nat)
  | [], _, nxt => some ([], nxt)
  | op :: t, k, nxt =>
    match opArity op with
    | none => none
    | some a =>
      let pre := if fork then (if k = 2 then [VIn.res 0, VIn.res 1] else []) else if k = 0 then [] else [VIn.res (k - 1)]
      if a < pre.length then none
      else match wireSlots ws k fork (a - pre.length) nxt pre with
        | none => none
        | some (ins, n2) => (wireAll ws fork t (k + 1) n2).map (fun r => ((op, ins) :: r.1, r.2))

/-- The input that sets a stage's working type: the second of SELECT, else the first (R121, R139). -/
def typeInput (op : Nat) : Nat := if op = 0x53 then 1 else 0

/-- The type R121 asks of input p, other than the one that sets the working type. -/
def neededType (op p wt et : Nat) : Nat :=
  if op = 0x41 then et
  else if op = 0x53 ∧ p = 0 then 12
  else if op = 0x65 ∧ p = 2 then 7
  else if (op = 0x70 ∨ op = 0x71) ∧ p = 2 then 8
  else wt

/-- Type of an input. -/
def inType (ws : List Word) (et : Nat) (done : List VStage) : VIn → Nat
  | .res k => (done.getD k ⟨0, [], 0, 0⟩).rt
  | .slot k => (opnd ws k).ty et

/-- The inputs of a stage have the types R121 gives them, and every override stands where these rules require a type
other than the job's: on an input whose row names one, or on a working-type input up to a conversion (`conv`). -/
def insOk (ws : List Word) (et op wt : Nat) (conv : Bool) (done : List VStage) : Nat → List VIn → Bool
  | _, [] => true
  | p, i :: t =>
    let ty := inType ws et done i
    let isD := p == typeInput op
    (if isD then ty == wt else ty == neededType op p wt et) &&
      (match i with
        | .res _ => true
        | .slot k =>
          let o := opnd ws k
          ty != 12 && (o.eto == 0 || (o.eto != et && (conv || !isD)))) &&
      insOk ws et op wt conv done (p + 1) t

/-- Typing of the stages in order. -/
def typeAll (ws : List Word) (et : Nat) : List (Nat × List VIn) → List VStage → Option (List VStage)
  | [], done => some done
  | (op, ins) :: t, done =>
    let wt := inType ws et done (ins.getD (typeInput op) (.res 9))
    let conv := opConv op || t.any (fun x => opConv x.1)
    if opType op wt && insOk ws et op wt conv done 0 ins && (!opConv op || convTarget op et) then
      typeAll ws et t (done ++ [⟨op, ins, wt, opResult op wt et⟩])
    else none

/-- The rules of single operations: PWL (R142), matrix (R144), M of COMPRESS and EXPAND (R140), and where a reduction
may stand (R93). -/
def stageRules (ws : List Word) (stages : List VStage) : Bool :=
  (List.range stages.length).all (fun i =>
    let st := stages.getD i ⟨0, [], 0, 0⟩
    let last := i + 1 == stages.length
    (if opRed st.op then last else true) &&
    (if opMat st.op then
      stages.length == 1 && (opnd ws 0).form == 1 && (opnd ws 1).form == 1 && (opnd ws 2).form == 4 &&
        decide (1 ≤ (opnd ws 2).w1) && vw ws 1 % (opnd ws 2).w1 == 0
     else true) &&
    (if st.op = 0x65 then
      match st.ins.getD 1 (.res 0), st.ins.getD 2 (.res 0) with
      | .slot b, .slot c =>
        (opnd ws b).form == 3 && (opnd ws b).fcnt == 1 && (opnd ws b).fidx == 0 && (opnd ws c).form == 4 &&
          decide (2 ≤ (opnd ws c).w1) && decide ((opnd ws c).w1 ≤ 65536)
      | _, _ => false
     else true) &&
    (if st.op = 0x51 ∨ st.op = 0x52 then (opnd ws 5).form != 0 else true))

/-- The rules of the destination (R121, R128, R134, R136, R144). -/
def destOk (ws : List Word) (et : Nat) (last : VStage) : Bool :=
  let o := opnd ws 4
  if o.form = 0 then !(opIdx last.op || last.op == 0x37 || opMat last.op)
  else if o.form = 4 ∨ o.form = 5 then false
  else
    (if opIdx last.op then o.form == 1 && o.w2 == 1 && o.eto == 0
     else o.ty et == last.rt && (o.eto == 0 || o.eto != et)) &&
    (if last.rt = 12 then o.form == 1 && o.w2 == 1 else true) &&
    (if last.op = 0x37 then o.form == 2 else true) &&
    (if opMat last.op then o.form == 1 else true)

/-- The descriptor checked as step 3 of R108 does, but for ACC and BASE; none is VF_DESC. -/
def parseVjd (ws : List Word) : Option VJob :=
  let ops := vOps ws
  let et := vEtype ws
  let chain := bits (vw ws 0) 31 28
  let op1 := bits (vw ws 0) 7 0
  let op2 := bits (vw ws 0) 15 8
  let op3 := bits (vw ws 0) 23 16
  if bits (vw ws 2) 11 8 ≠ 0 ∨ bits (vw ws 2) 31 27 ≠ 0 ∨ op1 = 0 ∨ (op3 ≠ 0 ∧ op2 = 0) ∨ 1 < chain ∨
      tyAny et = false ∨ vw ws 1 < vw ws 3 then none
  else if (List.range 6).all (fun k => (opnd ws k).formOk et) = false then none
  else if chain = 1 ∧ op3 = 0 then none
  else
    match wireAll ws (chain == 1) ops 0 0 with
    | none => none
    | some (wired, nxt) =>
      if (List.range 4).all (fun k => decide (k < nxt) || (opnd ws k).form == 0) = false then none
      else match typeAll ws et wired [] with
        | none => none
        | some stages =>
          if stageRules ws stages && destOk ws et (stages.getLastD ⟨0, [], 0, 0⟩) then some ⟨ws, vw ws 1, et, stages⟩
          else none

/-! ### Facts of a checked job -/

/-- The last used stage. -/
def VJob.last (v : VJob) : VStage := v.stages.getLastD ⟨0, [], 0, 0⟩
/-- Some stage runs an operation. -/
def VJob.has (v : VJob) (op : Nat) : Bool := v.stages.any (fun s => s.op == op)
/-- K of a matrix job (R144) or of PWL (R142). -/
def VJob.kOf (v : VJob) : Nat :=
  match v.stages.find? (fun s => s.op == 0x65) with
  | some st => (match st.ins.getD 2 (.res 0) with | .slot c => (opnd v.words c).w1 | _ => 1)
  | none => if opMat v.last.op then (opnd v.words 2).w1 else 1
/-- The slot of the PWL table, if there is one. -/
def VJob.tableSlot (v : VJob) : Option Nat :=
  match v.stages.find? (fun s => s.op == 0x65) with
  | some st => (match st.ins.getD 1 (.res 0) with | .slot b => some b | _ => none)
  | none => none
/-- Types of operands in use. -/
def VJob.opTy (v : VJob) (k : Nat) : Nat := if k = 5 then 12 else (opnd v.words k).ty v.et
/-- Lane count (R87). -/
def VJob.lam (v : VJob) : Nat :=
  if tyLane64 v.et || (List.range 5).any (fun k => (opnd v.words k).form != 0 && (opnd v.words k).form != 5 &&
      tyLane64 (v.opTy k)) then 8 else 16
/-- Strip length (R87). -/
def VJob.sl (v : VJob) : Nat := 128 * v.lam
/-- The chain's rate factor (R26). -/
def VJob.rate (v : VJob) : Nat := v.stages.foldl (fun m s => max m (opRate s.op v.lam s.wt v.kOf)) 1
/-- The form of the partial state (R130). -/
def VJob.ctxForm (v : VJob) : Nat := opForm v.last.op v.last.wt

/-- Source slots that access memory: linear, indexed or structure, in the order A-D. -/
def VJob.sources (v : VJob) : List Nat :=
  (List.range 4).filter (fun k => decide (1 ≤ (opnd v.words k).form) && decide ((opnd v.words k).form ≤ 3))

/-- Indexed slots in operand order (A-D, W). -/
def VJob.indexed (v : VJob) : List Nat := (List.range 5).filter (fun k => (opnd v.words k).form == 2)

/-- W is used. -/
def VJob.hasW (v : VJob) : Bool := (opnd v.words 4).form != 0
/-- M is present. -/
def VJob.hasM (v : VJob) : Bool := (opnd v.words 5).form != 0

/-- A signed 64-bit offset (R89). -/
def off64 (i : Int) : Int := toSigned 64 (ofSigned 64 i)

/-- The segment offset of position i of a linear or structure stream of a slot (R89); mask bits by byte (R91); the
matrix operands by row and column (R144). -/
def VJob.pos (v : VJob) (k i : Nat) : Int :=
  let o := opnd v.words k
  let e := tyBytes (v.opTy k)
  if v.opTy k = 12 then (o.w1 + i / 8 : Nat)
  else if opMat v.last.op && k == 0 then
    off64 (o.w1 + ((i / v.kOf * (opnd v.words 2).w2 : Nat) + (i % v.kOf : Nat) * o.stride) * e)
  else if opMat v.last.op && k == 1 then off64 (o.w1 + (i % v.kOf : Nat) * o.stride * e)
  else if o.form = 3 then off64 ((o.w1 + i * (o.fcnt + 1) * e + o.fidx * e : Nat))
  else off64 (o.w1 + (i : Int) * o.stride * e)

/-- The byte distance of successive positions. -/
def VJob.step (v : VJob) (k : Nat) : Int :=
  let o := opnd v.words k
  let e := tyBytes (v.opTy k)
  if o.form = 3 then ((o.fcnt + 1) * e : Nat) else o.stride * e

/-- Bytes of one position: 16 for the record of MINIDX and MAXIDX, 1 for mask bits. -/
def VJob.width (v : VJob) (k : Nat) : Nat :=
  if v.opTy k = 12 then 1 else if k = 4 ∧ opIdx v.last.op then 16 else tyBytes (v.opTy k)

/-- The position of W that element i's commit writes, if it writes one: `p` is p_i (R124, R135, R136, R140, R144). -/
def VJob.wPos (v : VJob) (i p : Nat) : Option Nat :=
  if opOneOut v.last.op then (if i + 1 = v.n then some 0 else none)
  else if opMat v.last.op then (if (i + 1) % v.kOf = 0 then some (i / v.kOf) else none)
  else if v.has 0x51 then some p
  else some i

/-- The positions of a stream that elements a to b - 1 access: first position and count (R100, R124). `pa` is p_a. -/
def VJob.span (v : VJob) (k a b pa : Nat) : Nat × Nat :=
  if k = 4 ∧ opOneOut v.last.op then (0, 1)
  else if k = 4 ∧ opMat v.last.op then (a / v.kOf, b / v.kOf - a / v.kOf)
  else if (k = 4 ∧ v.has 0x51) ∨ (k = 0 ∧ v.has 0x52) then (pa, b - pa)
  else (a, b - a)

/-! ### Charges (R26-R33) -/

/-- A charge added to an account. -/
def addCharge (m : SMap Nat) (r x : Nat) : SMap Nat := sput (fun _ => 0) m r (sget (fun _ => 0) m r + x)

/-- chargeF of R27. -/
def chargeFrond (n lam g f : Nat) : Nat :=
  min (ceilDiv n lam) (128 * ceilDiv (ceilDiv n (128 * lam)) g) * f + 64

/-- Lt of R30 for n elements of e bytes at byte stride s; mask bits (e = 0) count 1/8 byte. -/
def lineTouch (n s e : Nat) (aligned : Bool) : Nat :=
  if e = 0 then ceilDiv n 512 + 1
  else if s ≤ 64 then ceilDiv ((n - 1) * s + e) 64 + 1
  else n * (if aligned then 1 else 2)

/-- Four times the charge factor c of R29. -/
def strideClass4 (s : Nat) : Nat := if s ≤ 8 then 4 else if 192 ≤ s ∧ s % 192 = 0 then 12 else 5

/-- The DDR5 charges of R31 for Lt lines at four times factor c4, moved by the Fronds named. -/
def chargeDdr (m : SMap Nat) (lt c4 master : Nat) (movers : List Nat) : SMap Nat :=
  let m1 := (List.range 24).foldl (fun m r => addCharge m r (ceilDiv (lt * c4) 96 + 2)) m
  let m2 := (List.range 12).foldl (fun m c => addCharge m (136 + c) (ceilDiv (lt * c4) 48 + 2)) m1
  movers.foldl (fun m k => addCharge m (128 + k) master) m2

end Sys2Proof.Machine
end

