-- ==== Sys2Proof/Machine/Ledger.lean ====
section
/-! DEFINITION. The Tick Ledger (02_frame_and_ledger.md): phases, accounts, grants, capacity, admission, use, top-ups
and refunds. -/

namespace Sys2Proof.Machine

/-! ### Phases (R20) -/

/-- Clk since the tick of the open frame. -/
def State.phase (s : State) : Nat := s.clk - s.ledger.tickClk
/-- LDG_PERIOD in clk. -/
def State.periodClk (s : State) : Nat := s.f R.LDG_PERIOD 23 0 * 16
/-- LDG_TCUT in clk. -/
def State.tcutClk (s : State) : Nat := s.f R.LDG_TCUT 23 0 * 16
/-- LDG_TDL in clk. -/
def State.tdlClk (s : State) : Nat := s.f R.LDG_TDL 23 0 * 16
/-- LDG_TOUT in clk. -/
def State.toutClk (s : State) : Nat := s.f R.LDG_TOUT 23 0 * 16

/-- LDG_STAT.PHASE: 0 before T_CUT, 1 to T_DL, 2 to T_OUT, 3 in the idle window, and 3 in Safe (R440). -/
def State.phaseNow (s : State) : Nat :=
  if s.mode = 5 then 3
  else if s.inFrame = false ∨ s.ledger.open_ = false then 0
  else if s.phase < s.tcutClk then 0
  else if s.phase < s.tdlClk then 1
  else if s.phase < s.toutClk then 2
  else 3

/-- The idle window: from T_OUT to the next tick in Run and Hold, and all of Config (R57, R387). -/
def State.idleWindow (s : State) : Bool := s.inConfig || (s.inFrame && s.phaseNow == 3)

/-- The limits of R20. -/
def State.phasesOk (s : State) : Bool :=
  let p := s.f R.LDG_PERIOD 23 0
  let c := s.f R.LDG_TCUT 23 0
  let d := s.f R.LDG_TDL 23 0
  let o := s.f R.LDG_TOUT 23 0
  decide (5000 ≤ p) && decide (p ≤ 10000000) && decide (c ≤ d) && decide (1000 ≤ d) && decide (d + 500 ≤ o) &&
    decide (o + 500 ≤ p)

/-! ### Accounts (R23-R25, R446) -/

/-- Every account index of R23. -/
def acctIndices : List Nat := (List.range 148).filter acctAssigned

/-- Account r. -/
def State.acct (s : State) (r : Nat) : Acct := sget (fun _ => ({} : Acct)) s.ledger.accts r

/-- Account r changed. -/
def State.onAcct (s : State) (r : Nat) (g : Acct → Acct) : State :=
  s.onLdg (fun l => { l with accts := sput (fun _ => ({} : Acct)) l.accts r (g (sget (fun _ => ({} : Acct)) l.accts r)) })

/-- The Frond duty of a throttle level as quarters (R445). -/
def dutyQuarters (level : Nat) : Nat := if level = 0 then 4 else if level = 1 then 3 else 2

/-- A Lichen port's link counts as up: UP or RETRAIN (R24, R43). -/
def State.linkUp (s : State) (p : Nat) : Bool := s.f (R.LNK_STAT p) 2 0 == 4 || s.f (R.LNK_STAT p) 2 0 == 5

/-- The share of a virtual channel in sixteenths (R24). -/
def vcShare (share : Word) (v : Nat) : Nat := if v = 0 then 1 else fld share (4 * v - 1) (4 * v - 4)

/-- A value that the grants and capacities of the open frame take as captured at its tick, and that counts as written otherwise
(R21, R45). -/
def State.inForce {α : Type} (s : State) (captured written : α) : α := if s.ledger.open_ then captured else written

/-- LDG_VCSHARE in force (R21). -/
def State.vcShares (s : State) : Word := s.inForce s.ledger.capVc (s.rd R.LDG_VCSHARE)

/-- The share of patrol scrub in force (R21, R68). -/
def State.scrubShare (s : State) : Nat := s.inForce s.ledger.capScrub (s.f R.LDG_DERATE 25 16)

/-- The raw rate of account r per clk as numerator and denominator (R23), with the throttle of R446. -/
def State.acctRate (s : State) (r : Nat) : Nat × Nat :=
  let ddr := if s.f R.DDRC_CFG 1 0 = 2 then 8 else 7
  if r < 24 then (ddr, 32)
  else if r < 80 then (1, 1)
  else if r < 96 then (dutyQuarters s.power.level, 4)
  else if r < 128 then
    let p := (r - 96) / 4
    let base := if s.f (R.LNK_CTL p) 1 0 = 2 then 49 else 124
    (if s.linkUp p then base * vcShare s.vcShares ((r - 96) % 4) else 0, 16384)
  else if r < 136 then (dutyQuarters s.power.level, 4)
  else (ddr, 16)

/-- D_r: refresh and scrub derating of DDR accounts in force (R24, R21). -/
def State.derate (s : State) (r : Nat) : Nat :=
  if r < 24 ∨ 136 ≤ r then min 1024 (s.inForce s.ledger.capRef (s.f R.LDG_DERATE 9 0) + s.scrubShare) else 0

/-- Work that account r delivers in c clk (R24, R25). -/
def State.workIn (s : State) (r c : Nat) : Nat :=
  let (n, d) := s.acctRate r
  c * n * (1024 - s.derate r) / (d * 1024)

/-- grant_r of R24. -/
def State.grantOf (s : State) (r : Nat) : Nat := s.workIn r s.tdlClk

/-- cap_r now (R25). -/
def State.capOf (s : State) (r : Nat) : Nat := s.workIn r (s.tdlClk - s.phase)

/-- The admission test of R34 for a set of charges. -/
def State.admissible (s : State) (charges : SMap Nat) : Bool :=
  charges.all (fun c => c.2 == 0 ||
    (decide (s.backlogOf c.1 + c.2 ≤ s.capOf c.1) && decide ((c.2 : Int) ≤ (s.acct c.1).pool)))

/-- Admission deducts every charge from its pool (R34). -/
def State.deduct (s : State) (charges : SMap Nat) : State :=
  s.each charges (fun s c => s.onAcct c.1 (fun a => { a with pool := a.pool - c.2 }))

/-- A job's charge less its use returns to the pools (R37, R42): counted in REFUNDED and in GRANTED. -/
def State.refund (s : State) (j : Job) : State :=
  s.each j.charges (fun s c =>
    let u := c.2 - j.use c.1
    if u = 0 then s
    else s.onAcct c.1 (fun a =>
      { a with pool := a.pool + u, refunded := a.refunded + u, granted := a.granted + u }))

/-- A job without charges. -/
def Job.settled (j : Job) : Job := { j with charges := [], used := [], stall := none }

/-- The credits of step 5 that a strip which crossed a tick still holds on account r (R41). -/
def Job.credit (j : Job) (r : Nat) : Nat := match j.tail with
  | some t => sget (fun _ => 0) t.credits r
  | none => 0

/-- Credits of step 5 drawn. -/
def StripTail.draw (t : StripTail) (r k : Nat) : StripTail :=
  { t with credits := sput (fun _ => 0) t.credits r (sget (fun _ => 0) t.credits r - k) }

/-- One use of a credits of account r by a job (R32): within its charge, or by top-ups under the test of R34; in a strip that
crossed a tick within the charge of step 5, or by top-ups (R41). None: the top-up fails. -/
def State.useOne (s : State) (j : Job) (r a : Nat) : Option (State × Job) :=
  if j.charged = false then some (s, j)
  else
    let k := min a (j.credit r)
    let b := a - k
    let c := j.charge r
    let u := j.use r
    let x := if j.tail.isSome then b else u + b - max c u
    let j1 :=
      { j with
        charges := addCharge j.charges r x, used := addCharge j.used r b, tail := j.tail.map (fun t => t.draw r k) }
    let s1 := s.onAcct r (fun n => { n with consumed := n.consumed + b, pool := n.pool - x })
    if x = 0 then some (s1, j1)
    else if s.backlogOf r + 1 ≤ s.capOf r ∧ (x : Int) ≤ (s.acct r).pool then some (s1.event 0x2B 0 x, j1)
    else none

/-- The uses of one element in order; the account whose top-up fails first. -/
def State.useAll (s : State) (j : Job) : List (Nat × Nat) → State × Job × Option Nat
  | [] => (s, j, none)
  | (r, a) :: t =>
    match s.useOne j r a with
    | none => (s, j, some r)
    | some (s1, j1) => s1.useAll j1 t

/-! ### Queues of jobs (R38, R109) -/

/-- A job is in flight at an address (R108). -/
def State.jobAt (s : State) (vjd : Nat) : Option Job := s.jobs.find? (fun j => j.vjd == vjd)

/-- The job at an address replaced. -/
def State.putJob (s : State) (j : Job) : State :=
  { s with jobs := s.jobs.map (fun k => if k.vjd = j.vjd then j else k) }

/-- The job at an address removed. -/
def State.dropJob (s : State) (vjd : Nat) : State := { s with jobs := s.jobs.filter (fun k => k.vjd != vjd) }

/-- A job holds a queue entry of each member (R109). -/
def Job.queued (j : Job) : Bool := decide (j.st = .queued) || decide (j.st = .running) || decide (j.st = .carried)

/-- A job belongs to Frond k's queue. -/
def Job.onFrond (j : Job) (k : Nat) : Bool := j.queued && decide (j.base ≤ k) && decide (k < j.base + j.gang)

/-- Queue depth of Frond k. -/
def State.depth (s : State) (k : Nat) : Nat := (s.jobs.filter (fun j => j.onFrond k)).length

/-- Every member queue of a gang has a free entry. -/
def State.hasRoom (s : State) (base gang : Nat) : Bool :=
  (List.range gang).all (fun i => decide (s.depth (base + i) < 16))

/-- The members of a job's gang. -/
def Job.members (j : Job) : List Nat := (List.range j.gang).map (fun i => j.base + i)

/-- The ledger class of a job. -/
def Job.cls (j : Job) : Nat := vClass j.words

/-- Order of R38: class, then admission. -/
def Job.before (a b : Job) : Bool := decide (a.cls < b.cls) || (a.cls == b.cls && decide (a.seq < b.seq))

/-- The first job in the order of R38 among some. -/
def firstJob (l : List Job) : Option Job :=
  l.foldl (fun m j => match m with
    | none => some j
    | some x => if j.before x then some j else some x) none

/-- The running job of Frond k. -/
def State.runningOn (s : State) (k : Nat) : Option Job := s.jobs.find? (fun j => decide (j.st = .running) && j.onFrond k)

/-- The held jobs in the hold queue (R35). -/
def State.heldJobs (s : State) : List Job := s.jobs.filter (fun j => decide (j.st = .held))

/-- Insertion into an order. -/
def insertBy {α : Type} (lt : α → α → Bool) (x : α) : List α → List α
  | [] => [x]
  | y :: t => if lt x y then x :: y :: t else y :: insertBy lt x t

/-- A list in an order, equal elements as they stood. -/
def sortBy {α : Type} (lt : α → α → Bool) (l : List α) : List α := l.foldl (fun acc x => insertBy lt x acc) []

/-- LEDGER_DENIED: counted (R46). -/
def State.denied (s : State) : State := (s.count R.LDG_DENYCNT 16 1).event 0x2A 0 1

/-- The overrun spore (R39): emitted and counted. -/
def State.overrunSpore (s : State) : State := (s.count R.LDG_OVRCNT 16 1).produce 0x0B 0

end Sys2Proof.Machine
end

