-- ==== Sys2Proof/Machine/Spores.lean ====
section
/-! DEFINITION. Spore channels (10_spore_channels.md): producer slots, the counts of the task inputs, relays, sends and
arrivals, and the rights of R255. -/

namespace Sys2Proof.Machine

/-! ### Producers (R245, R246) -/

/-- The producer kinds of R246. -/
def spcKinds : List Nat :=
  [0x00, 0x01, 0x02, 0x03, 0x08, 0x09, 0x0A, 0x0B, 0x10, 0x11, 0x18, 0x20, 0x21, 0x28, 0x29, 0x30, 0x38]

/-- Channel n is Secure. -/
def State.chSecure (s : State) (n : Nat) : Bool := s.b (R.CH_CFG n) 8

/-- A slot of kind `k` and parameter `p` on channel n counts an event (R246). -/
def State.slotTakes (s : State) (n k p : Nat) (e : Event) : Bool :=
  k != 0 && k == e.kind && (match e.chan with | none => true | some c => c == n) &&
  match k with
  | 0x01 => !s.chSecure n || e.machine
  | 0x02 => p % 8 == e.param
  | 0x03 => p % 8 == e.param
  | 0x11 => p % 512 == e.param
  | 0x18 => p.testBit 6 || p % 64 == e.param
  | 0x20 => p % 4 == e.param
  | 0x21 => p % 16 == e.param % 16 && decide (0 < ((p / 16) &&& (e.param / 16)) % 4)
  | 0x28 => p == e.param
  | 0x29 => p == e.param
  | 0x38 => p % 16 == e.param
  | _ => true

/-- How many slots of channel n count an event. -/
def State.slotsFor (s : State) (n : Nat) (e : Event) : Nat :=
  ((List.range 4).filter (fun m => s.slotTakes n (s.f (R.CH_PROD n m) 7 0) (s.f (R.CH_PROD n m) 23 8) e)).length

/-- Spores put on a channel (R247): carried, its flag set, counted. -/
def State.carry (s : State) (n hop origin k : Nat) : State :=
  ((s.onSpo (fun p => { p with carried := p.carried ++ [{ chan := n, hop := hop, origin := origin, count := k }] })).setB
    (R.SPC_FLAG (n / 32)) (n % 32) true).countW (R.CH_CNT n) k

/-- One event at every channel (R245). -/
def State.produceAt (s : State) (e : Event) : State :=
  s.each (match e.chan with | some c => [c] | none => List.range 256) (fun s n =>
    let k := s.slotsFor n e
    if k = 0 then s else s.carry n e.hop (if e.kind = 0x38 then e.origin.getD n else n) (k * e.count))

/-- The spore events that the FIU emits in this clk: at most four of its queue (R279). -/
def State.fiuEvents (s : State) : List Event := (s.io.fiuQueue.take 4).map (fun c => { kind := 0x10, chan := some c })

/-- The events that have occurred reach their slots, in order. A write that changes a slot or a channel's attributes meets them
first, so that they use the old setting (R256). -/
def State.produceNow (s : State) : State :=
  (s.onSpo (fun p => { p with events := [] })).each s.spores.events (fun s e => s.produceAt e)

/-- SPORE_PRODUCE (R245): the events of the clk, in order. The block's clock stops in Dormant (R257). -/
def State.sporeProduce (s : State) : State :=
  if s.running = false then s
  else (s.produceNow.onIo (fun i => { i with fiuQueue := i.fiuQueue.drop 4 })).each s.fiuEvents (fun s e => s.produceAt e)

/-- SPORE_PRODUCE. -/
def execSporeProduce (s : State) : Res := .next s.sporeProduce

/-! ### Task inputs (R248, R250) -/

/-- Pending count of task input i. -/
def State.pend (s : State) (i : Nat) : Nat := s.f (R.SPC_TI_STAT i) 7 0

/-- k spores with a hop count and an origin arrive at task input i (R248, R254). -/
def State.arrive (s : State) (i k hop origin : Nat) : State :=
  let v := s.pend i + k
  let s1 := (s.putF (R.SPC_TI_STAT i) 7 0 (min v 255)).countW (R.SPC_TI_ARRIVED i) k
  let s2 := if 255 < v then (s1.countW (R.SPC_TI_SATCNT i) (v - 255)).setB (R.SPC_TI_STAT i) 8 true else s1
  let add := fun (l : List (Nat × Nat)) => (l ++ List.replicate k (hop, origin)).take 255
  s2.onSpo (fun p => { p with hops := sput (fun _ => []) p.hops i (add (sget (fun _ => []) p.hops i)) })

/-- k counts are taken at task input i (R248). -/
def State.take (s : State) (i k : Nat) : State :=
  let n := min k (s.pend i)
  let s1 := (s.putF (R.SPC_TI_STAT i) 7 0 (s.pend i - n)).countW (R.SPC_TI_TAKEN i) n
  s1.onSpo (fun p => { p with hops := sput (fun _ => []) p.hops i ((sget (fun _ => []) p.hops i).drop n) })

/-- The hop counts and origins pending at an input, oldest first. -/
def State.hopsAt (s : State) (i : Nat) : List (Nat × Nat) := sget (fun _ => []) s.spores.hops i

/-- k spores arrive at a plan entry's start input. -/
def PlanEntry.arrive (e : PlanEntry) (k : Nat) : PlanEntry :=
  let v := e.pend + k
  { e with pend := min v 255, arrived := e.arrived + k, satcnt := e.satcnt + (v - 255), ovf := e.ovf || decide (255 < v) }

/-- The enabled task inputs that select a channel. -/
def State.inputsOf (s : State) (n : Nat) : List Nat :=
  (List.range 186).filter (fun i => s.b (R.SPC_TI_CFG i) 8 && s.f (R.SPC_TI_CFG i) 7 0 == n)

/-- The spores carried by channel n reach every input that selects it, and the start inputs of plan entries (R247). -/
def State.deliver (s : State) (n : Nat) : State :=
  let mine := s.spores.carried.filter (fun c => c.chan == n)
  let s1 := s.onSpo (fun p => { p with carried := p.carried.filter (fun c => c.chan != n) })
  let s2 := s1.each mine (fun s c => s.each (s.inputsOf n) (fun s i => s.arrive i c.count c.hop c.origin))
  let total := mine.foldl (fun t c => t + c.count) 0
  if total = 0 then s2
  else
    let hit := fun (e : PlanEntry) => if e.chan = n then e.arrive total else e
    s2.onLdg (fun l => { l with slot0 := l.slot0.map hit, slot1 := l.slot1.map hit })

/-! ### Relays and sends (R251, R252, R254) -/

/-- A spore dropped at HOPMAX: counted, and the origin channel's LOOP flag set (R254). -/
def State.loopDrop (s : State) (origin n : Nat) : State :=
  (s.count R.SPC_LOOPCNT 32 n).setB (R.SPC_LOOP (origin / 32)) (origin % 32) true

/-- Slots of kind 0x38 on every channel that name COUNT input n. -/
def State.relaySlots (s : State) (n : Nat) : Nat :=
  (List.range 256).foldl (fun t c => t + s.slotsFor c { kind := 0x38, param := n }) 0

/-- One completed multiple of COUNT input n, by the spore that completed it (R251, R254). -/
def State.emitRelay (s : State) (n : Nat) (last : Nat × Nat) : State :=
  if s.f R.SPC_CTL 3 0 ≤ last.1 + 1 then s.loopDrop last.2 (s.relaySlots n)
  else s.produceOn { kind := 0x38, param := n, hop := last.1 + 1, origin := some last.2 }

/-- COUNT input n takes its counts (R251): k multiples completed emit k spores. Nothing is taken in Safe (R250). -/
def State.countRelay (s : State) (n : Nat) : State :=
  let i := 136 + n
  let k := s.pend i
  if k = 0 ∨ s.mode = 5 ∨ s.running = false then s
  else
    let big := s.f (R.SPC_TI_CFG i) 23 16 + 1
    let cval := s.f (R.SPC_TI_STAT i) 23 16
    let taken := s.hopsAt i
    let done := (cval + k) / big
    let lasts := (List.range done).map (fun m => taken.getD ((m + 1) * big - cval - 1) (0, 0))
    let s1 := (s.take i k).putF (R.SPC_TI_STAT i) 23 16 ((cval + k) % big)
    let s2 := s1.onSpo (fun p => { p with lastTaken := sput (fun _ => (0, 0)) p.lastTaken n (taken.getD (k - 1) (0, 0)) })
    s2.each lasts (fun s l => s.emitRelay n l)

/-- COUNT_RELAY (R251). -/
def execCountRelay (input : Fin 16) (s : State) : Res := .next (s.countRelay input.val)

/-- The device that REMOTE input n sends to, and its channel (R252, R258). -/
def State.remoteTarget (s : State) (i : Nat) : Nat × Nat := (s.f (R.SPC_TI_CFG i) 21 16, s.f (R.SPC_TI_CFG i) 31 24)

/-- A REMOTE input can take now: the table holds a route and VC0 of its first port has a credit (R252). -/
def State.remoteReady (s : State) (i : Nat) : Bool :=
  let d := (s.remoteTarget i).1
  s.b (R.FAB_RT d) 2 && decide (0 < (s.lnk (s.f (R.FAB_RT d) 1 0)).vc.x0.cr)

/-- REMOTE input n takes one count and sends it as a remote spore (R252, R254). -/
def State.remoteSend (s : State) (n : Nat) : State :=
  let i := 152 + n
  if s.pend i = 0 ∨ s.mode = 5 ∨ s.running = false ∨ s.remoteReady i = false then s
  else
    let (hop, origin) := (s.hopsAt i).headD (0, 0)
    let (dev, chan) := s.remoteTarget i
    let s1 := s.take i 1
    if s.f R.SPC_CTL 3 0 ≤ hop + 1 then s1.loopDrop origin 1
    else
      let p : Packet :=
        { op := 4, vc := 0, dst := BitVec.ofNat 6 dev, src := BitVec.ofNat 6 (s.f R.FAB_STAT 5 0), late := false,
          morg := false, sub := 0, hi := false, len := 0, tag := 0,
          addr := BitVec.ofNat 41 (chan + (hop + 1) * 256 + b2n (s.b (R.SPC_TI_CFG i) 9) * 4096), payload := [] }
      s1.onLnk (s.f (R.FAB_RT dev) 1 0) (fun l => { l with txq := l.txq ++ [p] })

/-- REMOTE_SEND (R252). -/
def execRemoteSend (input : Fin 32) (s : State) : Res := .next (s.remoteSend input.val)

/-- A remote spore at its target channel: an event there, or refused and counted (R253). -/
def State.remoteArrive (s : State) (chan hop : Nat) (sec : Bool) (dev : Nat) : State :=
  let e : Event := { kind := 0x18, param := dev, chan := some chan, hop := hop }
  if s.running = false then s
  else if (s.chSecure chan && !sec) || s.slotsFor chan e == 0 then s.count R.SPC_RDROP 32 1 else s.produceOn e

/-- REMOTE_SPORE_ARRIVE (R253). -/
def execRemoteSporeArrive (chan : Fin 256) (hop : BitVec 4) (sec : Bool) (dev : BitVec 6) (s : State) : Res :=
  .next (s.remoteArrive chan.val hop.toNat sec dev.toNat)

/-! ### Rights (R255) -/

/-- The writer is Machine origin, or the owner thread of a Non-secure channel, or for such a channel the debug port with
Task debug authorisation; a channel that firmware or the host owns is written only from Machine origin. -/
def State.chanRights (s : State) (o : Origin) (n : Nat) : Bool :=
  s.machineOrigin o || (!s.chSecure n && match o with
    | .thread t => s.f (R.CH_CFG n) 1 0 == 2 && s.f (R.CH_CFG n) 4 2 == t.val
    | .debug => decide (1 ≤ s.dbgLevel) && s.f (R.CH_CFG n) 1 0 == 2
    | .lichen _ => false)

/-- The writer may configure task input i with a value (R250, R255). -/
def State.inputRights (s : State) (o : Origin) (i : Nat) (chan : Nat) : Bool :=
  s.machineOrigin o || (match o with
    | .thread t => i == t.val && !s.chSecure chan
    | _ => false)

/-- An SPC_TRIG write's effect (R256). -/
def State.softTrigger (s : State) (n : Nat) : State :=
  let e : Event := { kind := 0x30, chan := some n }
  if s.slotsFor n e = 0 then s.setB R.SPC_STAT 0 true else s.produceOn e

end Sys2Proof.Machine
end

