-- ==== Sys2Proof/Machine/Egress.lean ====
section
/-! DEFINITION. The Egress Composer and the transmit side of the Ethernet ports (R262, R263, R282-R288): templates,
composition, sends, gates and preemption. -/

namespace Sys2Proof.Machine

/-! ### Field conversion (R267, R268, R283) -/

/-- Round to nearest even in FLUSH mode. -/
def rneFlush : Rnd := ⟨0, true⟩

/-- Bytes of a field by TYPE: int16, int32, uint16, uint32, binary32, binary64, bit field, QUALITY. -/
def fieldBytes (ty : Nat) : Nat := if ty = 0 ∨ ty = 2 ∨ ty = 7 then 2 else if ty = 5 then 8 else 4

/-- The number in a field's bytes in its byte order. -/
def FieldEntry.number (f : FieldEntry) (b : List Byte) : Nat := if f.be then beVal b else leVal b

/-- A number as a field's bytes in its byte order. -/
def FieldEntry.bytes (f : FieldEntry) (v : Nat) : List Byte :=
  if f.be then beBytes (fieldBytes f.ty) v else leBytes (fieldBytes f.ty) v

/-- The raw value of a field and whether a subnormal was flushed (R267, R268). -/
def FieldEntry.raw (f : FieldEntry) (x : Nat) : FpV × Bool :=
  match f.ty with
  | 0 => (intV (toSigned 16 x), false)
  | 1 => (intV (toSigned 32 x), false)
  | 2 => (intV (x : Nat), false)
  | 3 => (intV (x : Nat), false)
  | 4 => (fmt32.unpack (fmt32.input true x).1, fmt32.isSub x)
  | 5 => (fmt64.unpack (fmt64.input true x).1, fmt64.isSub x)
  | _ =>
    let b := bits x (f.bitpos + f.bitlen - 1) f.bitpos
    (intV (if f.bsigned then toSigned f.bitlen b else (b : Nat)), false)

/-- v := round(r x GAIN + OFS), or r itself (R268): the slot's value and its quality bits NAN, OVF, FLUSHED. -/
def FieldEntry.ingest (f : FieldEntry) (x : Nat) : Nat × Nat :=
  let (r, sub) := f.raw x
  match r with
  | .nan _ => (fmt64.dN, 2)
  | _ =>
    if f.scale then
      let (g, fg) := fmt64.input true f.gain.toNat
      let (o, fo) := fmt64.input true f.ofs.toNat
      let (v, fl) := fmt64.fmaV rneFlush r (fmt64.unpack g) (fmt64.unpack o)
      let all := fl ||| fg ||| fo
      (v, 2 * b2n (fmt64.isNaN v) + 4 * b2n (all.testBit 2) + 8 * b2n (sub || all.testBit 5))
    else ((fmt64.roundV rneFlush r).1, 8 * b2n sub)

/-- The exact value that leaves: v x GAIN + OFS or v, none when that is a NaN (R283). -/
def FieldEntry.outExact (f : FieldEntry) (v : Nat) : Option FpV :=
  let x := fmt64.unpack (fmt64.input true v).1
  if f.scale then
    match x.mul (fmt64.unpack (fmt64.input true f.gain.toNat).1) with
    | .nan _ => none
    | p => p.addX (fmt64.unpack (fmt64.input true f.ofs.toNat).1)
  else match x with
    | .nan _ => none
    | x => some x

/-- An integer field: rounded once, saturated to its width, 0 for a NaN. -/
def FieldEntry.outInt (f : FieldEntry) (signed : Bool) (w v : Nat) : Nat :=
  match f.outExact v with
  | none => 0
  | some x => (toIntV 0 signed w x).1

/-- The bits an egress field puts into the frame for a slot value and its QUALITY word (R283): FLUSH stands for the integer
types, bit fields and binary32, and a binary64 value keeps its subnormals (log 69). -/
def FieldEntry.egress (f : FieldEntry) (v quality : Nat) : Nat :=
  match f.ty with
  | 0 => f.outInt true 16 v
  | 1 => f.outInt true 32 v
  | 2 => f.outInt false 16 v
  | 3 => f.outInt false 32 v
  | 4 =>
    match fmt64.unpack (fmt64.input true v).1 with
    | .nan _ => fmt32.dN
    | x => (fmt32.roundV rneFlush x).1
  | 5 =>
    if f.scale then (fmt64.fmaV ⟨0, false⟩ (fmt64.unpack v) (fmt64.unpack f.gain.toNat) (fmt64.unpack f.ofs.toNat)).1
    else if fmt64.isNaN v then fmt64.dN else v
  | 6 => f.outInt f.bsigned f.bitlen v
  | _ => quality

/-- Bytes replaced in a list from an offset on. -/
def patch (l : List Byte) (off : Nat) (b : List Byte) : List Byte := l.take off ++ b ++ l.drop (off + b.length)

/-- The bytes of a list at an offset. -/
def slice (l : List Byte) (off n : Nat) : List Byte := (l.drop off).take n

/-- A field put into stored bytes; a bit field replaces only its own bits of its word. -/
def FieldEntry.put (f : FieldEntry) (l : List Byte) (x : Nat) : List Byte :=
  if f.ty = 6 then
    let w := f.number (slice l f.offset 4)
    patch l f.offset (f.bytes (putBits w (f.bitpos + f.bitlen - 1) f.bitpos x))
  else patch l f.offset (f.bytes x)

/-- The bits of a field as they stand in stored bytes. -/
def FieldEntry.at (f : FieldEntry) (l : List Byte) : Nat :=
  let w := f.number (slice l f.offset (fieldBytes f.ty))
  if f.ty = 6 then bits w (f.bitpos + f.bitlen - 1) f.bitpos else w

/-! ### Templates -/

/-- Template t. -/
def State.tmpl (s : State) (t : Nat) : Template := sget (fun _ => ({} : Template)) s.io.templates t

/-- Template t changed. -/
def State.onTmpl (s : State) (t : Nat) (g : Template → Template) : State :=
  s.onIo (fun i =>
    { i with templates := sput (fun _ => ({} : Template)) i.templates t (g (sget (fun _ => ({} : Template)) i.templates t)) })

/-- Egress field k. -/
def State.egrField (s : State) (k : Nat) : FieldEntry := sget (fun _ => ({} : FieldEntry)) s.io.egrFields k

/-- The egress fields of a template, in order. -/
def State.fieldsOf (s : State) (t : Template) : List FieldEntry := (List.range t.nfield).map (fun k => s.egrField (t.first + k))

/-- The next free value of the composer (log 11). -/
def State.freeSlot (s : State) : State × Nat := ({ s with free := s.free + 1 }, (Config.slotValue s.free).toNat)

/-- The conversion of SAFE of a field (R284, R287). For a QUALITY field SAFE has none: a free value (log 11). -/
def State.safeOf (s : State) (f : FieldEntry) : State × Nat :=
  if f.ty = 7 then s.freeSlot else (s, f.egress f.safe.toNat 0)

/-- A slot read by the Composer: an input slot through the frozen view, an output slot from its storage (R284). -/
def State.readSlot (s : State) (k : Nat) : State × Option (Nat × Nat) :=
  let s0 := s.settle (bankHome 17)
  match s0.readMem { master := 10 } (bankHome 17 + 16 * k) 16 with
  | (s1, .ok b) => (s1, some (leVal (b.take 8), leVal (slice b 12 2)))
  | (s1, _) => (s1, none)

/-- The bits a field takes in this frame (R284, R287): its slot's conversion, or in Hold and in a DEBUG_SKIPPED frame its
fallback. -/
def State.composeField (s : State) (t : Template) (hold : Bool) (f : FieldEntry) : State × Nat :=
  if hold then
    if f.fallback then s.safeOf f
    else match t.runBytes with
      | some b => (s, f.at b)
      | none => s.safeOf f
  else
    match s.readSlot f.slot with
    | (s1, some (v, q)) => (s1, f.egress v q)
    | (s1, none) => s1.freeSlot

/-- One template composed (R284). -/
def State.composeOne (s : State) (t : Nat) : State :=
  let hold := s.mode == 4 || s.ledger.skipped
  let s1 := s.each (s.fieldsOf (s.tmpl t)) (fun s f =>
    let (s2, x) := s.composeField (s.tmpl t) hold f
    s2.onTmpl t (fun m => { m with bytes := f.put m.bytes x }))
  if hold then s1 else s1.onTmpl t (fun m => { m with runBytes := some m.bytes })

/-- The fields of a template hold the conversion of SAFE until its first composition (R284). -/
def State.safeFill (s : State) (t : Nat) : State :=
  s.each (s.fieldsOf (s.tmpl t)) (fun s f =>
    let (s1, x) := s.safeOf f
    s1.onTmpl t (fun m => { m with bytes := f.put m.bytes x }))

/-- Composition at T_DL: the enabled templates in index order (R284). -/
def State.compose (s : State) : State :=
  if s.b R.EGR_CTL 0 && s.inFrame then
    s.each ((s.io.templates.filter (fun e => e.2.en)).map (fun e => e.1)) (fun s t => s.composeOne t)
  else s

/-! ### Transmission (R262, R263, R285) -/

/-- The port's link is up (ETHe_STAT.LINK). -/
def State.ethUp (s : State) (e : Nat) : Bool := s.b (R.ETH_STAT e) 0

/-- The gate of a class is open: always without QBV, and until a gate list has become operational (R262). -/
def State.gateOpen (s : State) (e tc : Nat) : Bool :=
  !s.b (R.ETH_CTL e) 6 || (s.eth e).oper == [] || (((s.eth e).oper.getD (s.eth e).operIdx (255, 0)).1).testBit tc

/-- A class is sent as express now: TC7, a port whose preemption is off or not verified, or a class that is not preemptable
(R263). -/
def State.expressClass (s : State) (e tc : Nat) : Bool :=
  tc == 7 || !s.b (R.ETH_CTL e) 5 || !s.b (R.ETH_STAT e) 4 || !s.b (R.ETH_TCCFG e) tc

/-- A frame may begin: its gate is open; the rest of a preempted frame may always go on. -/
def State.mayBegin (s : State) (e : Nat) (f : TxFrame) : Bool := f.fragment || s.gateOpen e f.tc

/-- How a queued frame would be sent now (R263): an FIU send always as express, any other as its class. -/
def State.asSent (s : State) (e : Nat) (f : TxFrame) : TxFrame := { f with express := f.express || s.expressClass e f.tc }

/-- Frame a goes before frame b: of two frames due at the same instant the lower template (R285); else express first, then the rest
of a preempted frame, then the higher class, then order of queueing. -/
def TxFrame.precedes (a b : TxFrame) : Bool :=
  if a.due.isSome && a.due == b.due && !a.fragment && !b.fragment then decide (a.template < b.template)
  else if a.express != b.express then a.express
  else if a.fragment != b.fragment then a.fragment
  else decide (b.tc < a.tc)

/-- The first of the frames that may begin. -/
def firstFrame : List TxFrame → Option TxFrame
  | [] => none
  | f :: t => match firstFrame t with
    | none => some f
    | some g => if g.precedes f then some g else some f

/-- The first occurrence of a frame removed from a queue. -/
def dropFrame (x : TxFrame) : List TxFrame → List TxFrame
  | [] => []
  | f :: t => if f = x then t else f :: dropFrame x t

/-- A frame's first bit leaves the balls; the rest of a preempted frame was recorded with its first part. -/
def State.beginTx (s : State) (e : Nat) (f : TxFrame) : State :=
  let s1 := s.onEth e (fun p => { p with txq := dropFrame f p.txq, sending := some (s.asSent e f) })
  if f.fragment then s1 else s1.emit (.ethFrame e f.template f.bytes)

/-- The frame that goes next: the first of those that may begin, as each would be sent now. -/
def State.nextFrame (s : State) (e : Nat) : Option TxFrame :=
  let l := (s.eth e).txq.filter (fun f => s.mayBegin e f)
  match firstFrame (l.map (fun f => s.asSent e f)) with
  | none => none
  | some x => l.find? (fun f => s.asSent e f == x)

/-- The port starts the next frame when it is idle, or preempts a preemptable one for an express frame (R263); in Run and Hold only
(R12). -/
def State.startTx (s : State) (e : Nat) : State :=
  if s.ethUp e = false ∨ s.inFrame = false then s
  else
    match s.nextFrame e with
    | none => s
    | some f =>
      match (s.eth e).sending with
      | none => s.beginTx e f
      | some g =>
        if (s.asSent e f).express && !g.express then
          ((s.onEth e (fun p => { p with txq := { g with fragment := true } :: p.txq })).count (R.ETH_TXPRE e) 32 1).beginTx e f
        else s

/-- The ports of a two-bit set. -/
def portsOf (p : Nat) : List Nat := (List.range 2).filter (fun e => p.testBit e)

/-- The frame of a template with a sequence number: its stored bytes, the R-tag after the source address or the C-tag,
and the FCS (R282, R288). -/
def Template.frame (t : Template) : List Byte :=
  let body :=
    if t.rtag then
      let at_ := if beVal (slice t.bytes 12 2) = 0x8100 then 16 else 12
      t.bytes.take at_ ++ beBytes 2 0xF1C1 ++ beBytes 2 0 ++ beBytes 2 t.seq ++ t.bytes.drop at_
    else t.bytes
  body ++ leBytes 4 (crc32 body)

/-- This device is one of a twin pair (R318). -/
def State.isTwin (s : State) : Bool := s.b R.FAB_TWIN 0 && s.fabric.paired

/-- A twin that is not the lead sends nothing (R318). -/
def State.mutedTwin (s : State) : Bool := s.isTwin && !s.b R.FAB_TWIN 10

/-- The queues of frames that wait for transmission are emptied: no frame leaves outside Run and Hold (R12). -/
def State.dropQueued (s : State) : State := s.each (List.range 2) (fun s e => s.onEth e (fun p => { p with txq := [] }))

/-- A send of a template on a class: queued on every port of PORTS with the current sequence number, which then
increments; a suppressed send only counts and increments (R286, R288, R318). -/
def State.sendTemplate (s : State) (t tc : Nat) (express muted : Bool) (due : Option Nat) : State :=
  let m := s.tmpl t
  let s1 := s.onTmpl t (fun m => { m with seq := wrapAdd 16 m.seq 1 })
  if muted then s1.count R.FAB_TWINSUPP 32 1
  else
    s1.each (portsOf m.ports) (fun s e =>
      let f : TxFrame := { template := t, tc := tc, express := express, due := due, bytes := m.frame }
      ((s.onEth e (fun p => { p with txq := p.txq ++ [f] })).count R.EGR_TXCNT 32 1).startTx e)

/-- An FIU send: TC7, express, at once (R286). -/
def State.fiuSend (s : State) (t : Nat) : State :=
  let muted := s.mutedTwin && !s.b R.FAB_TWIN 9
  (if muted then s else s.count R.EGR_EXPCNT 32 1).sendTemplate t 7 true muted none

/-- A template waits for its scheduled release in this frame (R285). -/
def Template.waits (m : Template) : Bool := m.en && m.sched && !m.released

/-- The release of a template at T_OUT + RELOFS, or its skip when that is not before the next tick (R285). -/
def State.releaseOne (s : State) (t : Nat) : State :=
  let m := s.tmpl t
  let due := s.toutClk + m.relofs * 16
  let s0 := s.onTmpl t (fun m => { m with released := true })
  if s.periodClk ≤ due then (s0.setB R.IOB_INT 2 true).count R.EGR_LATECNT 32 1
  else (s0.until (s.ledger.tickClk + due)).sendTemplate t m.tc false s.mutedTwin (some (s.ledger.tickClk + due))

/-- The templates that leave before template t or with it: those due at an earlier instant, and those due at the same instant with
a lower index, in that order (R285). -/
def State.releasesUpTo (s : State) (t : Nat) : List Nat :=
  let key := fun (m : Template) (k : Nat) => m.relofs * 512 + k
  let l := (s.io.templates.filter (fun e => e.2.waits && decide (key e.2 e.1 < key (s.tmpl t) t))).map (fun e => (key e.2 e.1, e.1))
  (sortBy (fun a b => decide (a.1 < b.1)) l).map (fun x => x.2) ++ [t]

/-- An EGRESS task input takes one count and sends its template (R250, R286); in Config the send is suppressed and
counted, and in Safe nothing is taken. -/
def State.egressTake (s : State) (n : Nat) : State :=
  let i := 72 + n
  if s.pend i = 0 ∨ (s.inConfig || s.inFrame) = false then s
  else
    let s1 := s.take i 1
    if s.inConfig then s1.count R.EGR_SUPPCNT 32 1
    else
      let t := s.f (R.SPC_TI_CFG i) 24 16
      s1.sendTemplate t (s1.tmpl t).tc false s1.mutedTwin none

/-- EGRESS_TAKE (R286). -/
def execEgressTake (input : Fin 64) (s : State) : Res := .next (s.egressTake input.val)

/-- A port finishes a frame or fragment and starts the next (R285). -/
def State.txEnd (s : State) (e : Nat) : State :=
  match (s.eth e).sending with
  | none => s
  | some _ => ((s.onEth e (fun p => { p with sending := none })).count (R.ETH_TXFRM e) 32 1).startTx e

/-- ETH_TRANSMIT_END. -/
def execEthTransmitEnd (port : Fin 2) (s : State) : Res := .next (s.txEnd port.val)

/-! ### Gate control (R262) -/

/-- The administrative gate list: gates and interval of its LEN entries. -/
def State.adminGates (s : State) (e : Nat) : List (Nat × Nat) :=
  (List.range (s.f (R.ETH_GCLCTL e) 8 0)).map (fun m => (s.f (R.ETH_GCL e m) 7 0, s.f (R.ETH_GCL e m) 31 8))

/-- A write of ETHe_GCLCTL (R262): LEN, and CHANGE, which schedules the list or sets GCLERR. -/
def State.writeGclCtl (s : State) (e : Nat) (v : Word) : State :=
  let s1 := s.putF (R.ETH_GCLCTL e) 8 0 (fld v 8 0)
  if v.getLsbD 9 = false then s1
  else
    let cyc := s.f (R.ETH_GCLCYC e) 23 0
    if fld v 8 0 = 0 ∨ cyc < 100 ∨ 10000000 < cyc then s1.setB (R.ETH_INT e) 4 true
    else s1.setB (R.ETH_GCLCTL e) 10 true

/-- A 64-bit base time. -/
def State.gclBase (s : State) (e : Nat) : Nat := (s.rd (R.ETH_GCLBASE_LO e)).toNat + (s.rd (R.ETH_GCLBASE_HI e)).toNat * 2 ^ 32

/-- Clk until the timebase reaches an instant in ns. -/
def State.clkTo (s : State) (ns : Nat) : Nat := s.clkFor (ns * 16 + s.tbHold - s.tb)

/-- GCL_ACTIVATE (R262): at the first BASE + k x cycle that lies in the future the list becomes operational. -/
def State.gclActivate (s : State) (e : Nat) : State :=
  if s.b (R.ETH_GCLCTL e) 10 && s.running then
    let base := s.gclBase e
    let cyc := s.f (R.ETH_GCLCYC e) 23 0 * 10
    let at_ := if s.ns < base then base else base + ((s.ns - base) / cyc + 1) * cyc
    let s1 := (s.advance (s.clkTo at_)).setB (R.ETH_GCLCTL e) 10 false
    (s1.onEth e (fun p =>
      { p with
        oper := s1.adminGates e, operCycle := cyc / 10, operBase := at_, operIdx := 0
        operSum := ((s1.adminGates e).getD 0 (255, 0)).2 })).startTx e
  else s

/-- GCL_ACTIVATE. -/
def execGclActivate (port : Fin 2) (s : State) : Res := .next (s.gclActivate port.val)

/-- The end of an interval (R262): the next entry, or the next cycle after the last entry or at the cycle's end. -/
def State.gclIntervalEnd (s : State) (e : Nat) : State :=
  let p := s.eth e
  if p.oper = [] ∨ s.running = false then s
  else if p.operIdx + 1 < p.oper.length ∧ p.operSum < p.operCycle then
    let s1 := s.advance (s.clkTo (p.operBase + p.operSum * 10))
    (s1.onEth e (fun p =>
      { p with operIdx := p.operIdx + 1, operSum := p.operSum + (p.oper.getD (p.operIdx + 1) (255, 0)).2 })).startTx e
  else
    let s1 := s.advance (s.clkTo (p.operBase + p.operCycle * 10))
    (s1.onEth e (fun p =>
      { p with operIdx := 0, operBase := p.operBase + p.operCycle * 10, operSum := (p.oper.getD 0 (255, 0)).2 })).startTx e

/-- GCL_INTERVAL_END. -/
def execGclIntervalEnd (port : Fin 2) (s : State) : Res := .next (s.gclIntervalEnd port.val)

end Sys2Proof.Machine
end

