-- ==== Sys2Proof/Machine/Ingress.lean ====
section
/-! DEFINITION. The receive side of field I/O (R259-R281): the parser, streams and elimination, the Sorter, the Signal
Image's flip and copy, the Fast Interlock Unit, and the time-aware end station. -/

namespace Sys2Proof.Machine

/-! ### Parser (R264, R265) -/

/-- What the parser reads of a frame: destination address, VID of a C-tag, sequence number of an R-tag, EtherType, where
the payload starts, and for a usable IPv4/UDP frame its destination address, port, and where its payload starts and
ends. -/
structure Parsed where
  da : Nat
  vid : Option Nat
  seq : Option Nat
  etype : Nat
  start : Nat
  udp : Option (Nat × Nat × Nat × Nat)
  deriving DecidableEq, Repr

/-- A big-endian number in a frame. -/
def be (b : List Byte) (i n : Nat) : Nat := beVal (slice b i n)

/-- One's-complement sum of a header's half-words, folded. -/
def onesSum (b : List Byte) (i n : Nat) : Nat :=
  let t := (List.range (n / 2)).foldl (fun a k => a + be b (i + 2 * k) 2) 0
  let u := t % 65536 + t / 65536
  u % 65536 + u / 65536

/-- An IPv4/UDP header at an offset: version 4, a good checksum, no fragment, protocol 17 (R264). -/
def parseUdp (b : List Byte) (i : Nat) : Option (Nat × Nat × Nat × Nat) :=
  let h := be b i 1 % 16 * 4
  let u := i + h
  if be b i 1 / 16 = 4 ∧ 20 ≤ h ∧ u + 8 ≤ b.length - 4 ∧ onesSum b i h = 65535 ∧ be b (i + 6) 2 % 16384 = 0 ∧ be b (i + 9) 1 = 17 then
    some (be b (i + 16) 4, be b (u + 2) 2, u + 8, min (b.length - 4) (u + be b (u + 4) 2))
  else none

/-- The parser of R264. -/
def parseFrame (b : List Byte) : Parsed :=
  let tagged := be b 12 2 = 0x8100
  let o := if tagged then 16 else 12
  let rtag := be b o 2 = 0xF1C1
  let p := if rtag then o + 6 else o
  let et := be b p 2
  { da := be b 0 6, vid := if tagged then some (be b 14 2 % 4096) else none
    seq := if rtag then some (be b (o + 4) 2) else none
    etype := et, start := p + 2, udp := if et = 0x0800 then parseUdp b (p + 2) else none }

/-- EtherTypes that match no stream: S-tags, stacked tags, pause and PFC (R259). -/
def unmatchedType (et : Nat) : Bool := et == 0x8100 || et == 0x88A8 || et == 0x8808

/-- A frame matches a stream entry (R265). -/
def State.matchesStream (s : State) (p : Parsed) (port : Nat) (e : StreamEntry) : Bool :=
  e.ports.testBit port && (if e.vlan then p.vid == some e.vid else p.vid == none) && !unmatchedType p.etype &&
  match e.kind with
  | 1 => p.da == e.dest && p.etype == s.f R.ING_CTL 15 0
  | 2 => (match p.udp with
    | some (ip, port, _, _) => ip == e.ip && port == e.udp
    | none => false)
  | _ => false

/-- Stream n. -/
def State.stream (s : State) (n : Nat) : StreamEntry := sget (fun _ => ({} : StreamEntry)) s.io.streams n

/-- The lowest-numbered matching stream; a frame without an R-tag on an ELIM stream has none (R265, R266). -/
def State.streamOf (s : State) (p : Parsed) (port : Nat) : Option Nat :=
  if s.b R.ING_CTL 16 = false then none
  else match s.io.streams.find? (fun e => s.matchesStream p port e.2) with
    | none => none
    | some (n, e) => if e.elim && p.seq == none then none else some n

/-- Where the payload of a stream's frame starts and ends. -/
def Parsed.payload (p : Parsed) (e : StreamEntry) (b : List Byte) : Nat × Nat :=
  match e.kind, p.udp with
  | 2, some (_, _, st, en) => (st, en)
  | _, _ => (p.start, b.length - 4)

/-- Ingest field k. -/
def State.inField (s : State) (k : Nat) : FieldEntry := sget (fun _ => ({} : FieldEntry)) s.io.fields k

/-- The fields of a stream extracted and converted, and whether one lay beyond the payload (R267, R268). -/
def State.extract (s : State) (e : StreamEntry) (b : List Byte) (st en : Nat) : List SlotWrite × Bool :=
  (List.range e.nfield).foldl (fun (acc : List SlotWrite × Bool) k =>
    let f := s.inField (e.first + k)
    if en < st + f.offset + fieldBytes f.ty then (acc.1, true)
    else
      let (v, q) := f.ingest (f.number (slice b (st + f.offset) (fieldBytes f.ty)))
      (acc.1 ++ [{ slot := f.slot, value := BitVec.ofNat 64 v, quality := 1 + q }], acc.2)) ([], false)

/-! ### Fast Interlock Unit (R276-R280) -/

/-- The FIU acts: enabled, in Run or Hold (R280). -/
def State.fiuActs (s : State) : Bool := s.b R.FIU_CTL 0 && s.inFrame

/-- a is at most b, exactly; false for a NaN. -/
def FpV.le (a b : FpV) : Bool :=
  match a, b with
  | .nan _, _ => false
  | _, .nan _ => false
  | _, _ => !b.lt a

/-- An exact sum compared; false where the sum is none. -/
def leSum (a : FpV) (b : Option FpV) : Bool := match b with | some x => a.le x | none => false

/-- An exact sum at most a value. -/
def sumLe (a : Option FpV) (b : FpV) : Bool := match a with | some x => x.le b | none => false

/-- An exact sum strictly above a value. -/
def ltSum (a : FpV) (b : Option FpV) : Bool := match b with | some x => a.lt x | none => false

/-- A value strictly above an exact sum. -/
def sumLt (a : Option FpV) (b : FpV) : Bool := match a with | some x => x.lt b | none => false

/-- The next state of a rule from a new slot value and its quality word (R277). -/
def FiuRule.next (r : FiuRule) (asserted : Bool) (value quality : Nat) : Bool :=
  let v := fmt64.unpack value
  let nan := fmt64.isNaN value
  let t1 := fmt64.unpack r.t1.toNat
  let t2 := fmt64.unpack r.t2.toNat
  let h := fmt32.unpack r.h.toNat
  let masked := quality &&& (r.t1.toNat % 65536)
  let zero := FpV.fin false 0 0
  match r.cmp, asserted with
  | 1, false => t1.lt v || nan
  | 1, true => !leSum v (t1.addX h.neg)
  | 2, false => v.lt t1 || nan
  | 2, true => !sumLe (t1.addX h) v
  | 3, false => v.lt t1 || t2.lt v || nan
  | 3, true => !(sumLe (t1.addX h) v && leSum v (t2.addX h.neg))
  | 4, false => t1.le v && v.le t2
  | 4, true => !(ltSum v (t1.addX h.neg) || sumLt (t2.addX h) v || nan)
  | 5, _ => masked != 0
  | 6, _ => !v.eq zero
  | _, a => a

/-- The rules of a slot, by index. -/
def State.rulesOf (s : State) (slot : Nat) : List (Nat × FiuRule) := s.io.rules.filter (fun e => e.2.slot == slot)

/-- The rule results of a frame's fields, in field order and then rule order, each from the state the earlier fields
left (R278). -/
def State.ruleResults (s : State) (l : List SlotWrite) : List (Nat × Bool) :=
  (l.foldl (fun (acc : List (Nat × Bool) × List (Nat × Bool)) w =>
    (s.rulesOf w.slot).foldl (fun acc e =>
      let cur := match acc.2.find? (fun x => x.1 == e.1) with
        | some x => x.2
        | none => e.2.asserted
      let n := e.2.next cur w.value.toNat w.quality
      (acc.1 ++ [(e.1, n)], (e.1, n) :: acc.2)) acc) ([], [])).1

/-- FIU rule k. -/
def State.rule (s : State) (k : Nat) : FiuRule := sget (fun _ => ({} : FiuRule)) s.io.rules k

/-- FIU rule k changed. -/
def State.onRule (s : State) (k : Nat) (g : FiuRule → FiuRule) : State :=
  s.onIo (fun i =>
    { i with rules := sput (fun _ => ({} : FiuRule)) i.rules k (g (sget (fun _ => ({} : FiuRule)) i.rules k)) })

/-- A spore event enters the FIU's queue of 1,024, or is dropped (R279). -/
def State.fiuSpore (s : State) (chan : Nat) : State :=
  if 1024 ≤ s.io.fiuQueue.length then (s.count R.FIU_SPDROP 32 1).setB R.IOB_INT 3 true
  else s.onIo (fun i => { i with fiuQueue := i.fiuQueue ++ [chan] })

/-- The stored bytes after a rule's template action with VSET or VCLR (R279). -/
def FiuRule.write (r : FiuRule) (asserts : Bool) (b : List Byte) : List Byte :=
  let v := if asserts then r.vset else r.vclr
  match r.width with
  | 0 => patch b r.byte [BitVec.ofNat 8 (putBit ((b.getD r.byte 0).toNat) r.bit (v.testBit 0))]
  | 1 => patch b r.byte [BitVec.ofNat 8 v]
  | _ => patch b r.byte (beBytes 2 v)

/-- A rule's action (R279): spore, template write, count; the template to send is added to the list. -/
def State.fiuAction (s : State) (k : Nat) (asserts : Bool) (sends : List Nat) : State × List Nat :=
  let r := s.rule k
  let s1 := ((s.onRule k (fun r => { r with acts := wrapAdd 16 r.acts 1 })).count R.FIU_ACTCNT 32 1).event 0x41 0 1
  let s2 := if r.spore then s1.fiuSpore r.chan else s1
  let s3 := if r.tmpl then s2.onTmpl r.template (fun t => { t with bytes := r.write asserts t.bytes }) else s2
  (s3, if r.trig && !sends.contains r.template then sends ++ [r.template] else sends)

/-- The commit of a frame's rule results: states, actions, then each triggered template once (R278, R279). -/
def State.fiuCommit (s : State) (l : List SlotWrite) : State :=
  if s.fiuActs then
    let (s1, sends) := (s.ruleResults l).foldl (fun (acc : State × List Nat) x =>
      let was := (acc.1.rule x.1).asserted
      let s1 := acc.1.onRule x.1 (fun r => { r with asserted := x.2 })
      if was == x.2 then (s1, acc.2)
      else if x.2 || (acc.1.rule x.1).actClr then s1.fiuAction x.1 x.2 acc.2
      else (s1, acc.2)) (s, [])
    s1.each sends (fun s t => s.fiuSend t)
  else s

/-! ### Reception (R260, R264, R266) -/

/-- Size of a port's receive buffer. -/
def rxBufferSize : Nat := 131072

/-- ETH_FRAME_RECEIVE (R264): the frame enters the port's buffer, is parsed and matched, and its fields are staged with
the FIU's results, or it finds the buffer full and is dropped whole. -/
def State.ethReceive (s : State) (e : Nat) (b : List Byte) : State :=
  if s.ethUp e = false ∨ s.running = false then s
  else if rxBufferSize < (s.eth e).rxBytes + b.length then (s.count (R.ETH_RXOVF e) 32 1).setB (R.ETH_INT e) 1 true
  else
    let p := parseFrame b
    let n := if p.etype = 0x88F7 ∨ s.mode = 5 then none else s.streamOf p e
    let (l, short) := match n with
      | none => ([], false)
      | some k => let (st, en) := p.payload (s.stream k) b; s.extract (s.stream k) b st en
    let f : RxFrame :=
      { port := e, bytes := b, ts := BitVec.ofNat 32 s.ns, stream := n, seqTag := p.seq, fields := l, short := short
        held := if s.fiuActs then s.ruleResults l else []
        fcsGood := decide (4 ≤ b.length) && leVal (b.drop (b.length - 4)) == crc32 (b.take (b.length - 4)) }
    s.onEth e (fun q => { q with rx := q.rx ++ [f], rxBytes := q.rxBytes + b.length })

/-- ETH_FRAME_RECEIVE. -/
def execEthFrameReceive (port : Fin 2) (bytes : List Byte) (s : State) : Res := .next (s.ethReceive port.val bytes)

/-- 802.1CB vector recovery (R266): whether the copy is accepted, and the recovery state after it. -/
def Recovery.see (r : Recovery) (hist q : Nat) : Bool × Recovery :=
  let d := toSigned 16 (q + 65536 - r.seq)
  let n := d.natAbs
  if r.take then (true, { take := false, seq := q, history := true :: List.replicate (hist - 1) false })
  else if (hist : Int) ≤ d ∨ d ≤ -(hist : Int) then (false, r)
  else if d ≤ 0 then
    if r.history.getD n true then (false, r) else (true, { r with history := r.history.set n true })
  else (true, { r with seq := q, history := (true :: (List.replicate (n - 1) false ++ r.history)).take hist })

/-- The recovery state of a stream. -/
def State.recoveryOf (s : State) (n : Nat) : Recovery := sget (fun _ => ({} : Recovery)) s.io.recovery n

/-- Elimination of a frame on its stream (R266): whether it is accepted. -/
def State.eliminate (s : State) (n : Nat) (q : Option Nat) : State × Bool :=
  let e := s.stream n
  match e.elim, q with
  | true, some q =>
    let (ok, r) := (s.recoveryOf n).see e.hist q
    (s.onIo (fun i => { i with recovery := sput (fun _ => ({} : Recovery)) i.recovery n r }), ok)
  | _, _ => (s, true)

/-- An accepted frame (R264 step 4): counted, its stream's producer event, the FIU's commit, and its place in the order
of commits. -/
def State.acceptFrame (s : State) (f : RxFrame) (n : Nat) : State :=
  let s1 := ((s.count (R.ETH_RXFRM f.port) 32 1).countW (R.ING_STRCNT n) 1).event 0x40 f.port 1
  let s2 := (s1.onIo (fun i =>
    { i with lastAccept := sput (fun _ => 0) i.lastAccept n s1.now, commits := i.commits ++ [f] })).produce 0x11 n
  let s3 := if f.short then s2.setB R.IOB_INT 0 true else s2
  s3.fiuCommit f.fields

/-- FRAME_ACCEPT (R264, R266, R275): the FCS result of the oldest frame of a port. -/
def State.frameAccept (s : State) (e : Nat) : State :=
  match (s.eth e).rx with
  | [] => s
  | f :: rest =>
    let s1 := s.onEth e (fun q => { q with rx := rest, rxBytes := q.rxBytes - f.bytes.length })
    let n := f.bytes.length
    if n < 64 ∨ 1536 < n then
      (if f.fcsGood then s1 else s1.count (R.ETH_RXFCS e) 32 1).count (R.ETH_RXLEN e) 32 1
    else if f.fcsGood = false then s1.count (R.ETH_RXFCS e) 32 1
    else if (parseFrame f.bytes).etype = 0x88F7 then s1.count (R.ETH_RXFRM e) 32 1
    else if s.mode = 5 then s1.count (R.ETH_RXNOM e) 32 1
    else match f.stream with
      | none => s1.count (R.ETH_RXNOM e) 32 1
      | some k => match s1.eliminate k f.seqTag with
        | (s2, true) => s2.acceptFrame f k
        | (s2, false) => s2.count (R.ETH_RXDUP e) 32 1

/-- FRAME_ACCEPT. -/
def execFrameAccept (port : Fin 2) (s : State) : Res := .next (if s.running then s.frameAccept port.val else s)

/-- RECOVERY_RESET_TIMEOUT (R266): RESETMS ms after the last accepted frame the recovery of a stream resets. -/
def State.recoveryReset (s : State) (n : Nat) : State :=
  let e := s.stream n
  if e.elim && !(s.recoveryOf n).take && s.running then
    (s.untilTime (sget (fun _ => 0) s.io.lastAccept n + usTime (e.resetMs * 1000))).onIo (fun i =>
      { i with recovery := sput (fun _ => ({} : Recovery)) i.recovery n {} })
  else s

/-- RECOVERY_RESET_TIMEOUT. -/
def execRecoveryResetTimeout (stream : Fin 512) (s : State) : Res := .next (s.recoveryReset stream.val)

/-! ### Signal Image (R269-R275) -/

/-- Storage address of input slot k in half h. -/
def halfAddr (h k : Nat) : Nat := bankHome 17 + h * 0x100000 + 16 * k

/-- The frozen half. -/
def State.frozen (s : State) : Nat := s.f R.SIM_STAT 0 0

/-- The 16 bytes of a slot (R269). -/
def slotBytes (w : SlotWrite) (ts : Word) (stream port : Nat) : List Byte :=
  leBytes 8 w.value.toNat ++ leBytes 4 ts.toNat ++ leBytes 2 w.quality ++ leBytes 2 (stream % 512 + port % 2 * 512)

/-- One field of an accepted frame written into the live half through port A; `again` says that the access of its line is made
already. -/
def State.commitField (s : State) (f : RxFrame) (w : SlotWrite) (again : Bool) : State :=
  let (s1, _) := s.writeMem { master := 9, machine := true, held := again } (halfAddr (1 - s.frozen) w.slot)
    (slotBytes w f.ts (f.stream.getD 0) f.port)
  s1.onIo (fun i => { i with committed := if i.committed.contains w.slot then i.committed else w.slot :: i.committed })

/-- The fields of a frame line by line, the lines in the order of their first fields; those that share a line follow the first as
one access with it. -/
def byLine : List SlotWrite → List (SlotWrite × Bool)
  | [] => []
  | w :: t => (w, false) :: (t.filter (fun x => x.slot / 4 == w.slot / 4)).map (fun x => (x, true)) ++
      (byLine t).filter (fun x => x.1.slot / 4 != w.slot / 4)

/-- The commit of one accepted frame into the live half through port A, in field-entry order, fields that share a line in one
access (R270). -/
def State.commitFrame (s : State) (f : RxFrame) : State :=
  (s.settle (bankHome 17)).each (byLine f.fields) (fun s x => s.commitField f x.1 x.2)

/-- SLOT_COMMIT (R270, R273): the next accepted frame commits, outside the commit hold. -/
def State.slotCommit (s : State) : State :=
  if s.b R.SIM_STAT 2 ∨ s.running = false then s
  else match s.io.commits with
    | [] => s
    | f :: rest => (s.onIo (fun i => { i with commits := rest })).commitFrame f

/-- SLOT_COMMIT. -/
def execSlotCommit (s : State) : Res := .next s.slotCommit

/-- FRESH cleared in the live half of a slot (R274), which keeps its value there. -/
def State.clearFresh (s : State) (k : Nat) : State :=
  let a := halfAddr (1 - s.frozen) k + 12
  s.setBytes a [s.byte a &&& 0xFE]

/-- One slot copied from the frozen half to the live half with FRESH cleared (R274). A doubleword that reads with an
uncorrectable error is logged and leaves a poisoned copy (log 12). -/
def State.copySlot (s : State) (k : Nat) : State :=
  let src := halfAddr s.frozen k
  let dst := halfAddr (1 - s.frozen) k
  let (s1, good) := s.bankCheck 17 (dwords src 16)
  let b := s1.bytesAt src 16
  let d := patch b 12 [(b.getD 12 0) &&& 0xFE]
  let s2 := ((s1.eccWrite 17 dst 16).setBytes dst d).clearReservations none dst 16
  if good then s2 else s2.each (dwords dst 16) (fun s a => s.setEcc a (some .poison))

/-- Port A accesses of a copy: each line of the slots read and written once (R274, R420). -/
def State.copyLines (s : State) (l : List Nat) : State := s.event 0x18 34 (2 * (l.map (· / 4)).eraseDups.length)

/-- IMAGE_COPY (R274): every slot of the closing frame that the new frame has not committed yet. A slot of the frame before, not
committed since, loses the FRESH that it still has in the live half, so that FRESH marks the slots of the last frame alone
(log 69). -/
def State.imageCopy (s : State) : State :=
  if s.b R.SIM_STAT 1 && s.running then
    let l := s.io.toCopy.filter (fun k => !s.io.committed.contains k)
    let old := s.io.stale.filter (fun k => !s.io.committed.contains k)
    let s1 := ((s.copyLines l).each l (fun s k => s.copySlot k)).each old (fun s k => s.clearFresh k)
    (s1.onIo (fun i => { i with toCopy := [], stale := [] })).setB R.SIM_STAT 1 false
  else s

/-- IMAGE_COPY. -/
def execImageCopy (s : State) : Res := .next s.imageCopy

/-- The flip of R273: the halves change roles for input slots, the hold ends, and the copy of R274 begins. A copy that
is still to do ends first (it always ends before the next tick). -/
def State.flipImage (s : State) : State :=
  let s0 := s.imageCopy
  let stale := s0.io.lastFrame.filter (fun k => !s0.io.committed.contains k)
  let s1 := ((s0.putF R.SIM_STAT 0 0 (1 - s0.frozen)).setB R.SIM_STAT 2 false).setB R.SIM_STAT 1
    (s0.io.committed != [] || stale != [])
  s1.onIo (fun i =>
    { i with toCopy := i.committed, stale := stale, lastFrame := i.committed, committed := [], holdEnded := false })

/-! ### Time-aware end station and links (R261, R263, R416) -/

/-- The selected source is lost (R17, R18): LOSS, and holdover when it is enabled. -/
def State.loseSource (s : State) : State :=
  let s1 := (s.setB R.LDG_STAT 3 true).onLdg (fun l => { l with lost := true })
  if s.b R.LDG_CTL 2 then (s1.setB R.LDG_STAT 2 true).putF R.LDG_STAT 1 0 0 else s1

/-- The port runs 802.1AS: enabled and up. -/
def State.ptpOn (s : State) (e : Nat) : Bool := s.b (R.ETH_PTPCFG e) 0 && s.ethUp e

/-- The time at which a port's reception of Sync lapses: SYNCTO of its sync intervals after the last (R261). -/
def State.syncLapse (s : State) (e : Nat) : Option Nat :=
  match (s.eth e).lastSync with
  | none => none
  | some c => some (c + s.f (R.ETH_PTPCFG e) 4 1 * (s.eth e).syncInterval * 16)

/-- The port receives Sync. -/
def State.getsSync (s : State) (e : Nat) : Bool :=
  s.ptpOn e && (match s.syncLapse e with | some c => decide (s.now ≤ c) | none => false)

/-- The slave port: the enabled port with PRIMARY while it receives Sync, otherwise the other enabled port (R261). -/
def State.slavePort (s : State) : Nat :=
  let prim := fun e => s.ptpOn e && s.b (R.ETH_PTPCFG e) 5
  let p := if prim 0 then 0 else if prim 1 then 1 else if s.ptpOn 0 then 0 else 1
  if s.getsSync p then p else if s.ptpOn (1 - p) then 1 - p else p

/-- The slave port chosen anew, and SLAVE and SYNC of both ports shown. -/
def State.showSync (s : State) : State :=
  (s.onIo (fun i => { i with slave := s.slavePort })).each (List.range 2) (fun s e =>
    (s.setB (R.ETH_STAT e) 5 (s.ptpOn e && s.io.slave == e)).setB (R.ETH_STAT e) 6 (s.ptpOn e && s.io.synced))

/-- The timebase follows gPTP time (R416): above 1 ms of offset it is stepped forward, or held still until the offset falls to
1 ms; within it the rate is set, anywhere within 100 ppm (the control law is a free value, log 47). -/
def State.discipline (s : State) (offset : Int) : State :=
  if offset < -1000000 then { s with tb := s.tb + offset.natAbs * 16, tbHold := 0 }
  else if 1000000 < offset then { s with tbHold := (offset.natAbs - 1000000) * 16 }
  else { s with tbHold := 0, tbRate := (Config.servoRate s.free offset : Int) - 100, free := s.free + 1 }

/-- SYNC_RECEIVE (R261, R416). `offset` is the engine's time less the master's, in ns. -/
def State.syncReceive (s : State) (e : Nat) (offset : Int) (interval : Nat) : State :=
  if s.ptpOn e = false ∨ s.running = false then s
  else
    let s1 := s.onEth e (fun p =>
      { p with
        lastSync := some s.now, syncInterval := interval
        goodSyncs := if offset.natAbs ≤ 100 then p.goodSyncs + 1 else 0 })
    let s2 := s1.showSync
    if s2.io.slave = e then
      let o := max (-2147483648) (min 2147483647 offset)
      let s3 := (s2.wr (R.ETH_PTPOFS e) (BitVec.ofNat 32 (ofSigned 32 o))).discipline offset
      (s3.onIo (fun i => { i with synced := i.synced || decide (8 ≤ (s3.eth e).goodSyncs) })).showSync
    else s2

/-- SYNC_RECEIVE. -/
def execSyncReceive (port : Fin 2) (offset : Int) (interval : Nat) (s : State) : Res :=
  .next (s.syncReceive port.val offset interval)

/-- PEER_DELAY (R261): a peer-delay exchange on an enabled port. -/
def State.measurePeer (s : State) (e delay : Nat) : State :=
  if s.ptpOn e && s.running then (s.onEth e (fun p => { p with peerDelay := delay })).emit (.gptp e 2) else s

/-- PEER_DELAY. -/
def execPeerDelay (port : Fin 2) (delay : Nat) (s : State) : Res := .next (s.measurePeer port.val delay)

/-- SYNC_LOSS (R261, R17): no enabled port has accepted a Sync within its SYNCTO intervals; the slave port is the one that was it
until then. -/
def State.syncLoss (s : State) : State :=
  if s.io.synced = false ∨ s.running = false then s
  else
    let due := (List.range 2).foldl (fun m e => if s.ptpOn e then max m ((s.syncLapse e).getD 0) else m) 0
    let s0 := (s.untilTime due).showSync
    let s1 := (s0.untilTime (due + 1)).onIo (fun i => { i with synced := false })
    let s2 := s1.each (List.range 2) (fun s e => s.onEth e (fun p => { p with goodSyncs := 0 }))
    let s3 := (s2.setB (R.ETH_INT s0.io.slave) 2 true).showSync
    if s.f R.LDG_CTL 1 0 = 3 then s3.loseSource else s3

/-- SYNC_LOSS. -/
def execSyncLoss (s : State) : Res := .next s.syncLoss

/-- ETH_LINK_CHANGE (R259, R260): the link of a port that is on comes up or goes down. -/
def State.ethLink (s : State) (e : Nat) (up anDone : Bool) : State :=
  let on := s.f (R.ETH_CTL e) 1 0 != 0
  let now := up && on
  if s.running = false ∨ s.ethUp e = now then s
  else
    let s1 := ((s.setB (R.ETH_STAT e) 0 now).setB (R.ETH_STAT e) 1 (anDone && now && s.b (R.ETH_CTL e) 4)).putF
      (R.ETH_STAT e) 3 2 (if now then s.f (R.ETH_CTL e) 3 2 else 0)
    let s2 := (s1.setB (R.ETH_INT e) 0 true)
    if now then s2.startTx e
    else ((s2.setB (R.ETH_STAT e) 4 false).onEth e (fun p => { p with sending := none, goodSyncs := 0, lastSync := none })).showSync

/-- ETH_LINK_CHANGE. -/
def execEthLinkChange (port : Fin 2) (up anDone : Bool) (s : State) : Res := .next (s.ethLink port.val up anDone)

/-- PREEMPTION_VERIFY (R263): the verify procedure ends on a port with preemption on. -/
def State.verifyDone (s : State) (e : Nat) (ok : Bool) : State :=
  if s.ethUp e && s.b (R.ETH_CTL e) 5 && s.running then
    (if ok then s.setB (R.ETH_STAT e) 4 true else (s.setB (R.ETH_STAT e) 4 false).setB (R.ETH_INT e) 3 true)
  else s

/-- PREEMPTION_VERIFY. -/
def execPreemptionVerify (port : Fin 2) (ok : Bool) (s : State) : Res := .next (s.verifyDone port.val ok)

/-- A write of ETHe_CTL (R260): a port set to MODE 0 goes down. -/
def State.writeEthCtl (s : State) (e : Nat) (v : Word) : State :=
  let s1 := s.wr (R.ETH_CTL e) (v &&& 0x7F)
  let s2 := if v.getLsbD 5 then s1 else s1.setB (R.ETH_STAT e) 4 false
  if fld v 1 0 = 0 then s2.ethLink e false false else s2

/-! ### Loads (R265, R267, R276, R282) -/

/-- Word i of a table entry. -/
def tblWord (b : List Byte) (i : Nat) : Nat := leVal (slice b (4 * i) 4)

/-- A stream entry of 32 bytes, or none where R265 refuses it. -/
def parseStream (b : List Byte) : Option StreamEntry :=
  let w := tblWord b
  let e : StreamEntry :=
    { kind := bits (w 0) 1 0, vlan := (w 0).testBit 2, elim := (w 0).testBit 3, ports := bits (w 0) 5 4
      nfield := bits (w 0) 24 16, dest := w 1 + bits (w 2) 15 0 * 2 ^ 32, vid := bits (w 2) 27 16, ip := w 3
      udp := bits (w 4) 15 0, first := bits (w 5) 15 0, hist := bits (w 6) 5 0, resetMs := bits (w 6) 31 16 }
  let reserved := bits (w 0) 15 6 = 0 ∧ bits (w 0) 31 25 = 0 ∧ bits (w 2) 31 28 = 0 ∧ bits (w 4) 31 16 = 0 ∧
    bits (w 5) 31 16 = 0 ∧ bits (w 6) 15 6 = 0 ∧ w 7 = 0
  if e.kind = 3 ∨ 256 < e.nfield ∨ 65536 < e.first + e.nfield ∨ ¬ reserved then none
  else if e.kind ≠ 0 ∧ e.elim = true ∧ (e.hist < 1 ∨ 32 < e.hist ∨ e.resetMs = 0) then none
  else some e

/-- A field entry of 32 bytes for ingest, or none where R267 refuses it. -/
def parseField (b : List Byte) : Option FieldEntry :=
  let w := tblWord b
  let f : FieldEntry :=
    { slot := bits (w 0) 15 0, offset := bits (w 0) 26 16, ty := bits (w 0) 30 27, be := (w 0).testBit 31
      bitpos := bits (w 1) 4 0, bitlen := bits (w 1) 9 5 + 1, bsigned := (w 1).testBit 10, scale := (w 1).testBit 11
      gain := BitVec.ofNat 64 (w 2 + w 3 * 2 ^ 32), ofs := BitVec.ofNat 64 (w 4 + w 5 * 2 ^ 32) }
  if 6 < f.ty ∨ bits (w 1) 31 12 ≠ 0 ∨ w 6 ≠ 0 ∨ w 7 ≠ 0 then none
  else if f.ty = 6 ∧ 32 < f.bitpos + f.bitlen then none
  else some f

/-- An egress field entry of 32 bytes (R283). -/
def parseEgrField (b : List Byte) : Option FieldEntry :=
  let w := tblWord b
  let f : FieldEntry :=
    { slot := bits (w 0) 15 0, offset := bits (w 0) 26 16, ty := bits (w 0) 30 27, be := (w 0).testBit 31
      bitpos := bits (w 1) 4 0, bitlen := bits (w 1) 9 5 + 1, bsigned := (w 1).testBit 10, scale := (w 1).testBit 11
      fallback := (w 1).testBit 12, gain := BitVec.ofNat 64 (w 2 + w 3 * 2 ^ 32)
      ofs := BitVec.ofNat 64 (w 4 + w 5 * 2 ^ 32), safe := BitVec.ofNat 64 (w 6 + w 7 * 2 ^ 32) }
  if 7 < f.ty ∨ bits (w 1) 31 13 ≠ 0 then none
  else if f.ty = 6 ∧ 32 < f.bitpos + f.bitlen then none
  else some f

/-- A rule of 32 bytes, or none where a field of it is refused (R276). -/
def parseRule (b : List Byte) : Option FiuRule :=
  let w := tblWord b
  let r : FiuRule :=
    { slot := bits (w 0) 15 0, cmp := bits (w 0) 18 16, actClr := (w 0).testBit 19, spore := (w 0).testBit 20
      tmpl := (w 0).testBit 21, chan := bits (w 0) 31 24, template := bits (w 1) 8 0, byte := bits (w 1) 19 9
      width := bits (w 1) 21 20, bit := bits (w 1) 24 22, trig := (w 1).testBit 25
      t1 := BitVec.ofNat 64 (w 2 + w 3 * 2 ^ 32), t2 := BitVec.ofNat 64 (w 4 + w 5 * 2 ^ 32), h := BitVec.ofNat 32 (w 6)
      vset := bits (w 7) 15 0, vclr := bits (w 7) 31 16 }
  let hOk := match fmt32.unpack (w 6) with
    | .fin neg m _ => !neg || m == 0
    | _ => false
  if r.cmp = 7 ∨ r.width = 3 ∨ bits (w 0) 23 22 ≠ 0 ∨ bits (w 1) 31 26 ≠ 0 ∨ hOk = false then none else some r

/-- A template header of 32 bytes, or none where a field of it is refused (R282). -/
def parseTemplate (b : List Byte) : Option Template :=
  let w := tblWord b
  let t : Template :=
    { len := bits (w 0) 10 0, en := (w 0).testBit 11, sched := (w 0).testBit 12, tc := bits (w 0) 15 13
      ports := bits (w 0) 17 16, rtag := (w 0).testBit 18, nfield := bits (w 0) 27 19, relofs := bits (w 1) 23 0
      first := bits (w 2) 12 0 }
  let reserved := bits (w 0) 31 28 = 0 ∧ bits (w 1) 31 24 = 0 ∧ bits (w 2) 31 13 = 0 ∧ w 3 = 0 ∧ w 4 = 0 ∧ w 5 = 0 ∧
    w 6 = 0 ∧ w 7 = 0
  if t.len < 60 ∨ 1536 < t.len + 4 + 6 * b2n t.rtag ∨ 256 < t.nfield ∨ 6144 < t.first + t.nfield ∨ ¬ reserved then none
  else some t

/-- Bit positions [from, to) of the stored bytes that a field occupies, as (byte, bits of that byte). A bit field's bits
lie in its word in the field's byte order. -/
def FieldEntry.bitsUsed (f : FieldEntry) : List Nat :=
  if f.ty = 6 then
    (List.range f.bitlen).map (fun i =>
      let b := f.bitpos + i
      let byte := if f.be then 3 - b / 8 else b / 8
      (f.offset + byte) * 8 + b % 8)
  else (List.range (fieldBytes f.ty * 8)).map (fun i => f.offset * 8 + i)

/-- The fields of a template lie within LEN and do not overlap (R283). -/
def templateFieldsOk (len : Nat) (l : List FieldEntry) : Bool :=
  l.all (fun f => decide (f.offset + fieldBytes f.ty ≤ len)) && decide ((l.flatMap FieldEntry.bitsUsed).Nodup)

/-- The bits a rule writes in its template's stored bytes (R276, R279). -/
def FiuRule.bitsUsed (r : FiuRule) : List Nat :=
  match r.width with
  | 0 => [r.byte * 8 + r.bit]
  | 1 => (List.range 8).map (fun i => r.byte * 8 + i)
  | _ => (List.range 16).map (fun i => r.byte * 8 + i)

/-- A rule is compatible with the loaded templates (R276). -/
def State.ruleOk (s : State) (r : FiuRule) : Bool :=
  let t := s.tmpl r.template
  let used := r.bitsUsed
  (!r.tmpl || (used.all (fun b => decide (b < t.len * 8)) &&
      used.all (fun b => !(s.fieldsOf t).any (fun f => f.bitsUsed.contains b)))) &&
    (!r.trig || decide (t.len + 4 + 6 * b2n t.rtag ≤ 256))

end Sys2Proof.Machine
end

