-- ==== Sys2Proof/Machine/Matrix.lean ====
section
/-! DEFINITION. The queues of the bus matrix (R73-R77): requests waiting at target ports, requests held at their master,
responses not yet taken, and the host window's error log (R331). -/

namespace Sys2Proof.Machine

/-! ### One request -/

/-- The error log of the host window (R331): HIF_WINERR and HIF_WINADDR keep the first error until VALID is cleared; the
error is reported to the host. -/
def State.winError (s : State) (cause addr : Nat) (write : Bool) : State :=
  let s0 : State := if s.b R.HIF_WINERR 31 then s else
    ((s.wr R.HIF_WINERR (BitVec.ofNat 32 (cause + b2n write * 16 + 2 ^ 31))).wr R.HIF_WINADDR_LO
      (BitVec.ofNat 32 addr)).wr R.HIF_WINADDR_HI (BitVec.ofNat 32 (addr / 2 ^ 32 % 65536))
  if write then s0.emit .postedError else s0

/-- The master, rights and thread of a queued request, with the setting of REMAP under which it completes (R49). -/
def MatrixReq.who (q : MatrixReq) : Who :=
  { master := q.master, machine := q.machine, thread := q.thread, homePath := q.homePath, remap := some q.remap }

/-- A queued write takes effect at its target; none: the target accepts no access now (R59, R69). -/
def State.perform (s : State) (q : MatrixReq) : Option State :=
  match s.writeMem q.who q.addr q.data with
  | (_, .wait) => none
  | (s1, .ok _) => some s1
  | (s1, .err c) => some (if q.master = 12 then s1.winError (c + 2) q.addr true else s1)
  | (s1, .control _) =>
    let (m, c) := s1.controlRefusal q.who q.addr true
    let s2 := s1.busError m 30 true c q.addr
    some (if q.master = 12 then s2.winError (c + 2) q.addr true else s2)
  | (s1, .remote dev x) => some (s1.request (.posted q.master) 1 dev q.data.length x q.data q.machine false 0).1

/-- The response of a performed request, reserved until its master takes it (R75). -/
def MatrixReq.response (q : MatrixReq) : MatrixResp :=
  { master := q.master, thread := q.thread, target := q.target, write := q.write, line := q.line, ownWindow := q.ownWindow }

/-! ### Entry, limits and holdback (R74, R77) -/

/-- Requests of a master outstanding: waiting, held, or with a response not yet taken. -/
def State.outstandingOf (s : State) (m : Nat) : Nat :=
  (s.matrix.waiting.filter (fun q => q.master == m)).length + (s.matrix.held.filter (fun q => q.master == m)).length +
    (s.matrix.responses.filter (fun r => r.master == m)).length

/-- The writes a master may have outstanding (R74). -/
def writeLimit (m : Nat) : Nat :=
  if m = 8 then 8 else if m = 11 then 64 else if m = 12 then 32 else if m = 13 then 8 else if m = 14 then 4 else 1

/-- An older write of a master to a line is outstanding on a path other than that by a target port, through the own-ID window or
not (R77); the B16 of the Stem's own port is no target port, and counts as one of its own. -/
def Matrix.onOtherPath (x : Matrix) (m line target : Nat) (own : Bool) : Bool :=
  let hit := fun (m1 l1 t1 : Nat) (o1 : Bool) => m1 == m && l1 == line && (t1 != target || o1 != own)
  x.waiting.any (fun r => hit r.master r.line r.target r.ownWindow) || x.held.any (fun r => hit r.master r.line r.target r.ownWindow) ||
    x.responses.any (fun r => hit r.master r.line r.target r.ownWindow)

/-- An older request of the same master to the same line is outstanding on a different path (R77); a remote line also
through a different first port. -/
def State.conflicts (s : State) (q : MatrixReq) : Bool :=
  s.matrix.onOtherPath q.master q.line q.target q.ownWindow ||
    (match s.locate q.addr with
      | .remote d x => s.fabric.outstanding.any (fun o => o.user == .posted q.master && o.dst == d &&
          o.addr / 64 == x / 64 && o.port != s.fabPort d)
      | _ => false)

/-- A request enters the matrix at its target port, or is held at its master: because of R77, which counts a hold, or
behind an older held request to the same target, which R76 keeps first. One to an unmapped address, which no port serves, is
answered at once with its bus error (R48, R79). -/
def State.enqueue (s : State) (q : MatrixReq) : State :=
  if 34 ≤ q.target then (s.perform q).getD s
  else if s.conflicts q then
    ((s.count R.MTX_HOLDCNT 32 1).event 0x22 q.master 1).onMtx (fun m => { m with held := m.held ++ [q] })
  else if s.matrix.held.any (fun r => r.master == q.master && r.target == q.target) then
    s.onMtx (fun m => { m with held := m.held ++ [q] })
  else s.onMtx (fun m => { m with waiting := m.waiting ++ [q] })

/-- The target port and window of an address for a master (R70, R50). -/
def State.portOf (s : State) (a : Nat) : Nat × Bool :=
  match s.locate a with
  | .remote d x => if s.ownId = some d then ((s.locate x).target, true) else (33, false)
  | l => (l.target, false)

/-- A write of a master as line requests (R71). -/
def State.lineWrites (s : State) (w : Who) : List (Nat × Nat) → List Byte → List MatrixReq
  | [], _ => []
  | (a, n) :: t, d =>
    { master := w.master, thread := w.thread, target := (s.portOf a).1, addr := a, data := d.take n, write := true,
      ownWindow := (s.portOf a).2, machine := w.machine, since := s.clk, remap := s.b R.GLB_REMAP 0,
      line := s.home a / 64 } :: s.lineWrites w t (d.drop n)

/-! ### Grants (R73) -/

/-- The compute window of Run and Hold: from the tick to T_DL. -/
def State.computeWindow (s : State) : Bool := s.inFrame && s.ledger.open_ && decide (s.phase < s.tdlClk)

/-- The 4-bit priority of a master at a target (MTX_PRIn). -/
def State.matrixPri (s : State) (target m : Nat) : Nat :=
  if m < 8 then s.f (R.MTX_PRI_LO target) (4 * m + 3) (4 * m) else s.f (R.MTX_PRI_HI target) (4 * m - 29) (4 * m - 32)

/-- The oldest waiting request of each master at a target. -/
def firstPerMaster : List MatrixReq → List MatrixReq
  | [] => []
  | q :: t => q :: (firstPerMaster t).filter (fun r => r.master != q.master)

/-- Distance of a master in the round robin after the one last granted. -/
def rrDistance (last m : Nat) : Nat := (m + 15 - last) % 16

/-- The request that a target port grants (R73): charged first in the compute window, an aged one first outside it, then
priority, then round robin. Among several aged requests the one that has waited longest comes first, and before the first grant
of a port the round robin starts at master 0 (log 67). -/
def State.choose (s : State) (target : Nat) : Option MatrixReq :=
  let cand := firstPerMaster (s.matrix.waiting.filter (fun q => q.target == target))
  let aged := cand.filter (fun q => decide (q.since + (s.rd R.MTX_AGE).toNat ≤ s.clk) && !q.charged)
  let charged := cand.filter (fun q => q.charged)
  if !s.computeWindow && !aged.isEmpty then
    aged.foldl (fun m q => match m with
      | none => some q
      | some x => if q.since < x.since then some q else some x) none
  else
    let l := if s.computeWindow && !charged.isEmpty then charged else cand
    let last := sget (fun _ => 15) s.matrix.lastGrant target
    l.foldl (fun m q => match m with
      | none => some q
      | some x =>
        let pq := s.matrixPri target q.master
        let px := s.matrixPri target x.master
        if px < pq ∨ (px = pq ∧ rrDistance last q.master < rrDistance last x.master) then some q else some x) none

/-- A list without the first element equal to x. -/
def removeFirst {α : Type} [DecidableEq α] (x : α) : List α → List α
  | [] => []
  | y :: t => if y = x then t else y :: removeFirst x t

/-- MATRIX_GRANT (R73): the port grants one request; its write takes effect and its response stands. -/
def State.grant (s : State) (target : Nat) : State :=
  match s.choose target with
  | none => s
  | some q =>
    match s.perform q with
    | none => s
    | some s1 => s1.onMtx (fun m =>
        { m with
          waiting := removeFirst q m.waiting
          responses := m.responses ++ [q.response]
          lastGrant := sput (fun _ => 15) m.lastGrant target q.master })

/-- MATRIX_GRANT. -/
def execMatrixGrant (target : Fin 34) (s : State) : Res := .next (if s.running then s.grant target.val else s)

/-- MATRIX_RESPONSE (R75): the master takes its oldest response, which releases the reservation. -/
def State.takeResponse (s : State) (m : Nat) : State :=
  match s.matrix.responses.find? (fun r => r.master == m) with
  | none => s
  | some r => s.onMtx (fun x => { x with responses := removeFirst r x.responses })

/-- MATRIX_RESPONSE. -/
def execMatrixResponse (master : Fin 16) (s : State) : Res := .next (if s.running then s.takeResponse master.val else s)

/-- HOLDBACK_RELEASE (R77): the oldest held request of a master enters once nothing older holds it. -/
def State.holdbackRelease (s : State) (m : Nat) : State :=
  match s.matrix.held.find? (fun q => q.master == m) with
  | none => s
  | some q =>
    let s1 := s.onMtx (fun x => { x with held := removeFirst q x.held })
    if s1.conflicts q then s else s1.onMtx (fun x => { x with waiting := x.waiting ++ [q] })

/-- HOLDBACK_RELEASE. -/
def execHoldbackRelease (master : Fin 16) (s : State) : Res := .next (if s.running then s.holdbackRelease master.val else s)

/-! ### Completion of a master's older requests (R51, R76, R332) -/

/-- Requests performed in order; none when a target accepts no access now. -/
def State.performAll (s : State) : List MatrixReq → Option State
  | [] => some s
  | q :: t =>
    match s.perform q with
    | none => none
    | some s1 => s1.performAll t

/-- Every outstanding request of a master completes and it takes its responses, which releases their reservations (R75). -/
def State.flushMaster (s : State) (m : Nat) : Option State :=
  let mine := fun (q : MatrixReq) => q.master == m
  let s1 := s.onMtx (fun x =>
    { x with
      waiting := x.waiting.filter (fun q => !mine q)
      held := x.held.filter (fun q => !mine q)
      responses := x.responses.filter (fun r => r.master != m) })
  s1.performAll (s.matrix.waiting.filter mine ++ s.matrix.held.filter mine)

/-- A read, or a write that is granted in its own step, enters the matrix: where an older request of the same master to one of its
lines is outstanding on a different path it is held until that retires, and the hold is counted (R77). Older requests of the
master complete before it unless it takes the Stem's own port (R76). -/
def State.enter (s : State) (w : Who) (a n : Nat) (direct : Bool) : Option State :=
  let held := (pieces a n).any (fun p =>
    let (t, own) := if direct then (64, false) else s.portOf p.1
    s.matrix.onOtherPath w.master (s.home p.1 / 64) t own)
  let s1 := if held then (s.count R.MTX_HOLDCNT 32 1).event 0x22 w.master 1 else s
  if direct && !held then some s1 else s1.flushMaster w.master

end Sys2Proof.Machine
end

