-- ==== Sys2Proof/Machine/Pub.lean ====
section
/-! DEFINITION. Mailboxes and messages to the host (R333-R341): doorbells, publishes, MSI-X, EP3 reports, and firmware's
event log (R359). -/

namespace Sys2Proof.Machine

/-! ### MSI-X and EP3 (R327, R333) -/

/-- What an unlisted word of the MSI-X table reads as: every vector masked, as PCIe resets it. -/
def msixDefault (k : Nat) : Word := if k % 4 = 3 then 1 else 0

/-- Word k of the MSI-X table. -/
def State.msixWord (s : State) (k : Nat) : Word := sget msixDefault s.host.msix k

/-- MSI-X vector v: sent, or pending while masked; nothing while MSI-X is not enabled (R333, R334). -/
def State.sendMsi (s : State) (v : Nat) : State :=
  if s.host.msixEn = false then s
  else if (s.msixWord (4 * v + 3)).getLsbD 0 then
    s.onHost (fun h => { h with msixPending := putBit h.msixPending v true })
  else s.emit (.msix v)

/-- A word of the MSI-X table written by the host: a pending vector that is unmasked is sent (R333). -/
def State.writeMsix (s : State) (k : Nat) (v : Word) : State :=
  let s1 := s.onHost (fun h => { h with msix := sput msixDefault h.msix k v, msixEn := true })
  let vec := k / 4
  if k % 4 = 3 ∧ v.getLsbD 0 = false ∧ s1.host.msixPending.testBit vec = true then
    (s1.onHost (fun h => { h with msixPending := putBit h.msixPending vec false })).emit (.msix vec)
  else s1

/-- Vector 16 + k and its bit of the next EP3 report (HIF_MSIREQ). -/
def State.signalHost (s : State) (k : Nat) : State :=
  (s.onHost (fun h => { h with ep3 := putBit h.ep3 (16 + k) true })).sendMsi (16 + k)

/-- A write of HIF_MSIREQ.VEC (R333). -/
def State.msiRequest (s : State) (v : Nat) : State :=
  s.each (List.range 4) (fun s k => if v.testBit k then s.signalHost k else s)

/-- A FAB_INT bit sets (R321): FABRIC_STATUS reports it (R353), and the host hears of it (R333). -/
def State.fabInt (s : State) (i : Nat) : State :=
  ((s.setB R.FAB_INT i true).onFab (fun f => { f with intSince := putBit f.intSince i true })).signalHost 3

/-! ### Mailboxes (R335-R341) -/

/-- Mailbox n is in progress (MBXn_DBSTAT.INPROG). -/
def State.inProgress (s : State) (n : Nat) : Bool := s.b (R.MBX_DBSTAT n) 9

/-- Command word w of mailbox n. -/
def State.cmdWord (s : State) (n w : Nat) : Word := s.rd (R.MBX_CMD n w)

/-- Staging result word w of mailbox n. -/
def State.stagingWord (s : State) (n w : Nat) : Word := sget (fun _ => 0) s.host.staging (32 * n + w)

/-- Staging result word w of mailbox n written. -/
def State.setStaging (s : State) (n w : Nat) (v : Word) : State :=
  s.onHost (fun h => { h with staging := sput (fun _ => 0) h.staging (32 * n + w) v })

/-- A doorbell of mailbox n with value v (R336). MBXn_DOORBELL keeps the accepted value. -/
def State.ring (s : State) (n : Nat) (v : Word) : State :=
  let x := fld v 15 0
  if s.inProgress n then s.putF (R.MBX_DBSTAT n) 7 0 2
  else if x = s.f (R.MBX_SEQ n) 15 0 then s.putF (R.MBX_DBSTAT n) 7 0 4
  else
    let s1 := ((s.putF (R.MBX_DBSTAT n) 7 0 0).setB (R.MBX_DBSTAT n) 9 true).wr (R.MBX_DOORBELL n) (BitVec.ofNat 32 x)
    (s1.wr (R.MBX_STATUS n) 1).setB R.HIF_DBPEND n true

/-- The publish of R338 in a mailbox in progress. Whoever writes MBXn_PUB, firmware's command there is over (log 58). -/
def State.publish (s : State) (n code : Nat) : State :=
  let s1 := s.each (List.range 30) (fun s w => s.wr (R.MBX_RES n w) (s.stagingWord n w))
  let s2 := (s1.wr (R.MBX_SEQ n) (s.rd (R.MBX_DOORBELL n))).wr (R.MBX_STATUS n) (BitVec.ofNat 32 (code % 256 + 2 ^ 31))
  let s3 := (s2.setB (R.MBX_DBSTAT n) 9 false).onHost (fun h =>
    { h with
      ep3 := putBit h.ep3 n true
      waits := h.waits.filter (fun e => e.1 != n)
      asked := h.asked.filter (fun x => x != n)
      answers := h.answers.filter (fun e => e.1 != n) })
  s3.sendMsi n

/-- Firmware's result words of a command, those it does not define 0, and the publish (R338). -/
def State.answer (s : State) (n code : Nat) (res : List Nat) : State :=
  (s.each (List.range 30) (fun s w => s.setStaging n w (BitVec.ofNat 32 (res.getD w 0)))).publish n code

/-- The mailboxes that wait, in order. -/
def State.waiting (s : State) (p : MailboxWait → Bool) : List Nat := (s.host.waits.filter (fun e => p e.2)).map (fun e => e.1)

/-- A waiting command publishes. -/
def State.endWait (s : State) (n code : Nat) (res : List Nat) : State :=
  s.answer n code res

/-! ### Event log (R359) -/

/-- Firmware writes an entry for an interrupt or machine trap that reached T0 or T1, and signals vector 16 (R333). -/
def State.logEvent (s : State) (src : Nat) : State :=
  if s.fw.loaded = false then s
  else
    let d := (Config.eventDetail s.free).toNat
    let w3 : Word := BitVec.ofNat 32 (src % 256 * 256 + d % 256 + d / 65536 * 65536)
    let e := (s.fw.nextEvent, (BitVec.ofNat 64 s.ns : DWord), w3)
    let s1 : State := { s with free := s.free + 1 }
    (s1.onFw (fun f =>
      { f with
        events := (f.events ++ [e]).drop ((f.events.length + 1) - 4096)
        nextEvent := f.nextEvent + 1 })).signalHost 0

end Sys2Proof.Machine
end

