-- ==== Sys2Proof/Machine/Link.lean ====
section
/-! DEFINITION. The link layer of a Lichen port (R290-R301, R311): its states, sequence numbers and retry, credits, the
audit, RESYNC and delay measurement; and how an outstanding remote request completes (R299, R307, R309). -/

namespace Sys2Proof.Machine

/-! ### Packets (R292-R294) -/

/-- Flits of a data packet (R292). -/
def pktFlits (p : Packet) : Nat := ceilDiv (28 + p.payload.length) 64

/-- The virtual channel of an OP (R294). -/
def opVc (op : Nat) : Nat := if op ≤ 2 then 1 else if op = 3 then 2 else if op ≤ 6 then 0 else 3

/-- Buffer of a virtual channel in flits, B_v (R296). -/
def vcBuffer (v : Nat) : Nat := if v = 0 then 64 else if v = 1 then 192 else if v = 2 then 256 else 128

/-- The 8 bytes of a link header (R293). -/
def linkBytes (h : LinkHeader) (kind : Nat) : List Byte :=
  leBytes 4 (h.seq.toNat + h.ack.toNat * 0x1000 + b2n h.nak * 0x1000000 + kind * 0x2000000) ++
    leBytes 4 (h.crcnt.toNat + h.crvc.toNat * 0x10000)

/-- The 16 bytes of a transport header (R294). -/
def transportBytes (k : Packet) : List Byte :=
  leBytes 4 (k.op.toNat + k.vc.toNat * 0x10 + k.dst.toNat * 0x40 + k.src.toNat * 0x1000 + b2n k.late * 0x40000 +
    b2n k.morg * 0x80000 + k.sub.toNat * 0x100000 + b2n k.hi * 0x400000) ++
    leBytes 4 (k.len.toNat + k.tag.toNat * 0x1000) ++ leBytes 8 k.addr.toNat

/-- A data packet on the wire (R292): headers, payload, the CRC-32 of every byte before it, and zeros to whole flits. -/
def wireBytes (h : LinkHeader) (k : Packet) : List Byte :=
  let body := linkBytes h 0 ++ transportBytes k ++ k.payload
  body ++ leBytes 4 (crc32 body) ++ List.replicate (64 * pktFlits k - body.length - 4) 0

/-- KIND of a packet on the wire (R293). -/
def wireKind (b : List Byte) : Nat := leField b 0 4 / 0x2000000 % 8

/-- The link header of a packet on the wire. -/
def wireLink (b : List Byte) : LinkHeader :=
  let w := leField b 0 4
  let v := leField b 4 4
  { seq := BitVec.ofNat 12 w, ack := BitVec.ofNat 12 (w / 0x1000), nak := w.testBit 24
    crcnt := BitVec.ofNat 16 v, crvc := BitVec.ofNat 2 (v / 0x10000) }

/-- The payload bytes that the transport header announces: none of a READ, LEN of the others (R294). -/
def wireLen (b : List Byte) : Nat := if leField b 8 1 % 16 = 0 then 0 else leField b 12 4 % 0x1000

/-- The transport header and payload of a data packet on the wire. -/
def wirePacket (b : List Byte) : Packet :=
  let w := leField b 8 4
  let v := leField b 12 4
  { op := BitVec.ofNat 4 w, vc := BitVec.ofNat 2 (w / 0x10), dst := BitVec.ofNat 6 (w / 0x40), src := BitVec.ofNat 6 (w / 0x1000)
    late := w.testBit 18, morg := w.testBit 19, sub := BitVec.ofNat 2 (w / 0x100000), hi := w.testBit 22
    len := BitVec.ofNat 12 v, tag := BitVec.ofNat 12 (v / 0x1000), addr := BitVec.ofNat 41 (leField b 16 8)
    payload := (b.drop 24).take (wireLen b) }

/-- Where the CRC stands: after the payload of a data packet, after the link header of an ACK, at the end of the flit of the other
control packets (log 73). -/
def wireCrcAt (b : List Byte) : Nat :=
  if wireKind b = 0 then 24 + wireLen b else if wireKind b = 1 then 8 else 60

/-- The CRC of a packet is good (R292). -/
def wireGood (b : List Byte) : Bool :=
  decide (wireCrcAt b + 4 ≤ b.length) && leField b (wireCrcAt b) 4 == crc32 (b.take (wireCrcAt b))

/-- Every reserved bit of the two headers is 0 (R293, R294). -/
def wireReserved (b : List Byte) : Bool :=
  leField b 0 4 / 0x10000000 == 0 && leField b 4 4 / 0x40000 == 0 && leField b 8 4 / 0x800000 == 0 &&
    leField b 12 4 / 0x1000000 == 0 && leField b 20 4 / 0x200 == 0

/-- A range within one aligned 2,048-byte block. -/
def inBlock (a n : Nat) : Bool := decide (1 ≤ n) && decide (a % 2048 + n ≤ 2048)

/-- The payload of a DOMAIN packet has the length of its subtype's fields; an unlisted subtype has none (R295). -/
def domainLen (p : Packet) : Bool :=
  let n := p.payload.length
  match p.addr.toNat % 256 with
  | 1 => n == 23
  | 2 => decide (13 ≤ n) && (n - 13) % 9 == 0 && decide (n ≤ 49)
  | 3 => n == 9 + 9 * leField p.payload 8 1
  | 4 => n == 272
  | 5 => decide (21 ≤ n)
  | 6 => n == 16
  | 7 => n == 2
  | _ => false

/-- The field rules of R294 and R295. -/
def pktValid (p : Packet) : Bool :=
  let op := p.op.toNat
  let a := p.addr.toNat
  let n := p.len.toNat
  decide (op ≤ 8) && p.vc.toNat == opVc op &&
  match op with
  | 0 => inBlock a n && p.payload == []
  | 1 => inBlock a n && p.payload.length == n
  | 2 =>
    let z := if p.hi then 8 else 4
    decide (p.sub.toNat ≤ 2) && a % z == 0 && p.payload.length == (if p.sub.toNat = 2 then 2 * z else z) && n == p.payload.length
  | 3 => !p.hi && n == p.payload.length && decide (n ≤ 2048)
  | 4 => decide (a < 0x2000) && p.payload == []
  | 5 => n == 32 && p.payload.length == 32
  | 6 => n == p.payload.length && decide (n ≤ 2048) && domainLen p
  | 7 => p.payload.length == n && decide (1 ≤ n) && decide (n ≤ 2048)
  | _ => n == p.payload.length && decide (n ≤ 2048)

/-! ### State of a port (R291) -/

/-- LNKp_STAT.STATE. -/
def State.lnkState (s : State) (p : Nat) : Nat := s.f (R.LNK_STAT p) 2 0

/-- Virtual channel v of port p changed. -/
def State.onVc (s : State) (p v : Nat) (g : VcAcct → VcAcct) : State := s.onLnk p (fun l => { l with vc := l.vc.set v (g (l.vc.get v)) })

/-- The port moves to a state; STATECHG when it enters or leaves UP. -/
def State.setLnkState (s : State) (p n : Nat) : State :=
  let s1 := s.putF (R.LNK_STAT p) 2 0 n
  if (s.lnkState p == 4) != (n == 4) then s1.setB (R.LNK_INT p) 0 true else s1

/-- A packet discarded and counted (R294, R299, R306). -/
def State.dropPacket (s : State) (p n : Nat) : State :=
  if n = 0 then s else (s.count (R.LNK_DROPCNT p) 32 n).setB (R.LNK_INT p) 3 true

/-! ### Completion of a remote request (R299, R307, R309) -/

/-- The physical address of a request in its remote window. -/
def Outstanding.phys (o : Outstanding) : Nat := remoteBase + o.dst * remoteSize + o.addr

/-- The lines that a READ retires, each with its bytes (R307). -/
def Outstanding.readLines (o : Outstanding) (data : List Byte) : List (Nat × List Byte) :=
  (List.range o.lines).map (fun i => (o.phys / 64 + i, (data.drop (64 * i)).take 64))

/-- A charged remote operand of a job met a late response or a retry on its route (R78, R40). -/
def State.lateOperand (s : State) (vjd : Nat) : State :=
  match s.jobAt vjd with
  | some j => if j.charged then s.guard 5 else s
  | none => s

/-- Address of the VJD that firmware uses for the region command in a mailbox (log 25). -/
def regionVjd (fwArea n : Nat) : Nat := bankHome 16 + fwArea - 4096 + 128 * n

/-- A response, or its absence, for an outstanding request: the user takes status and data, and the reservation goes. -/
def State.complete (s : State) (o : Outstanding) (status : Nat) (data : List Byte) (late : Bool) : State :=
  let s0 := s.onFab (fun f => { f with outstanding := f.outstanding.filter (fun x => x.tag != o.tag) })
  match o.user with
  | .thread t =>
    s0.onThr t (fun h => match h.remote with
      | some r =>
        if r.tag = some o.tag then
          { h with remote := some { r with tag := none, answers := r.answers ++ [{ addr := o.phys, write := o.op == 1, status := status, data := data }] } }
        else h
      | none => h)
  | .control =>
    { s0 with ctlWaits := s0.ctlWaits.map (fun w =>
        if w.tag = some o.tag then
          { w with tag := none, answers := w.answers ++ [{ addr := o.phys, write := false, status := status, data := data }] }
        else w) }
  | .atom n =>
    let s1 := (s0.setB (R.FAB_ATOM_CTL n) 4 false).putF (R.FAB_ATOM_CTL n) 7 5 status
    let s2 := if status = 0 ∧ data ≠ [] then
        (s1.wr (R.FAB_ATOM_RES_LO n) (BitVec.ofNat 32 (leVal data))).wr (R.FAB_ATOM_RES_HI n) (BitVec.ofNat 32 (leVal data / 2 ^ 32))
      else s1
    if status = 4 then
      let (s3, c) := s2.remoteFail 4
      s3.busError 8 33 true c o.phys
    else s2
  | .job v =>
    let s1 := if late then s0.lateOperand v else s0
    let got := o.readLines data
    let s1 := s1.onHost (fun h => { h with waits := h.waits.map (fun e => match e.2 with
      | .region w => if v = regionVjd s1.fw.fwArea e.1 ∧ status ≠ 0 then (e.1, .region { w with remote := status }) else e
      | _ => e) })
    { s1 with jobs := s1.jobs.map (fun j =>
        if j.vjd = v then
          (if status = 0 then
            { j with
              rwait := j.rwait.filter (fun x => !got.any (fun e => e.1 == x))
              rdata := got ++ j.rdata.filter (fun e => !got.any (fun g => g.1 == e.1)) }
          else
            { j with
              rwait := j.rwait.filter (fun x => !got.any (fun e => e.1 == x))
              rfail := got.foldl (fun m e => sput (fun _ => 0) m e.1 status) j.rfail })
        else j) }
  | .mailbox n =>
    if s0.host.asked.contains n = false then s0
    else s0.onHost (fun h =>
      { h with
        asked := h.asked.filter (fun x => x != n)
        answers := sput (fun _ => []) h.answers n (sget (fun _ => []) h.answers n ++
          [{ addr := o.phys, write := o.op == 1, status := status, data := data }]) })
  | .usb =>
    if status = 0 then s0.onHost (fun h => { h with usb := h.usb.map (fun u => { u with answer := some (0, data) }) })
    else
      let (s1, c) := s0.remoteFail status
      (s1.busError 12 33 (o.op == 1) c o.phys).onHost (fun h => { h with usb := h.usb.map (fun u => { u with answer := some (status, []) }) })
  | .debug =>
    if status = 0 then s0.onDbg (fun d => { d with status := 0, data := BitVec.ofNat 32 (leVal data) })
    else
      let (s1, c) := s0.remoteFail status
      (s1.busError 15 33 (o.op == 1) c o.phys).onDbg (fun d => { d with status := 1, data := 0 })
  | .host _ =>
    if status = 0 then s0.emit (.readCompletion 0 data)
    else
      let (s1, c) := s0.remoteFail status
      ((s1.busError 12 33 false c o.phys).winError (c + 2) o.phys false).emit (.readCompletion 2 [])
  | .jobWrite v m =>
    let s1 := if late then s0.lateOperand v else s0
    if status = 0 then s1
    else
      let (s2, c) := s1.remoteFail status
      s2.busError m 33 true c o.phys
  | .posted m =>
    if status = 0 then s0
    else
      let (s1, c) := s0.remoteFail status
      let s2 := s1.busError m 33 true c o.phys
      if m = 12 then s2.winError (c + 2) o.phys true else s2

/-- Every outstanding request whose route begins at a port completes with STATUS 4 (R299). -/
def State.failRoute (s : State) (p : Nat) : State :=
  s.each (s.fabric.outstanding.filter (fun o => o.port == p)) (fun s o => s.complete o 4 [] false)

/-! ### Retrain and down (R291, R298, R299) -/

/-- A link retrain or retry on the route of charged remote operands (R40, R306): jobs charged on an account of the port. -/
def State.linkGuard (s : State) (p : Nat) : State :=
  if s.jobs.any (fun j => j.charged && (List.range 4).any (fun v => decide (0 < j.charge (96 + 4 * p + v)))) then s.guard 5 else s

/-- A retrain begins (R291, R298): counted; what the port holds is late (R306). -/
def State.beginRetrain (s : State) (p : Nat) : State :=
  let s1 := ((s.setB (R.LNK_INT p) 2 true).count (R.LNK_RETRAINCNT p) 32 1).linkGuard p
  s1.onLnk p (fun l =>
    { l with
      retrainAt := s.now, audit := none, fecAt := [], resyncSent := false, txq := l.txq.map (fun k => { k with late := true }) })

/-- A port in UP enters RETRAIN (R291, R298). -/
def State.enterRetrain (s : State) (p : Nat) : State := if s.lnkState p ≠ 4 then s else (s.setLnkState p 5).beginRetrain p

/-- A port goes DOWN (R299): its accounts close, its buffers are discarded and counted, requests routed through it
fail, those that still wait to be sent with them. -/
def State.portDown (s : State) (p : Nat) : State :=
  if s.lnkState p = 0 then s
  else
    let l := s.lnk p
    let s1 := (s.setLnkState p 0).dropPacket p (l.retry.length + l.rxq.length)
    let s2 := s1.onLnk p (fun l =>
      { txq := l.txq.filter (fun k => !(decide (k.op.toNat ≤ 2) && k.src == s.srcId)), delays := l.delays })
    let s3 := s2.putF (R.LNK_STAT p) 12 4 0
    s3.failRoute p

/-- A retrain fails, and the next begins; the third in succession takes the port DOWN (R291). Whether it went down. -/
def State.retrainFails (s : State) (p : Nat) : State × Bool :=
  if (s.lnk p).failed + 1 < 3 then ((s.onLnk p (fun l => { l with failed := l.failed + 1 })).beginRetrain p, false)
  else (s.portDown p, true)

/-- RETRAIN regains UP (R298, R301): accounts rebuilt, packets from the partner's next expected SEQ on resent. -/
def State.resyncOk (s : State) (p : Nat) (acct : List (Nat × Nat)) (next : Nat) : Option State :=
  let l := s.lnk p
  let occ := fun v => ((l.rxq.filter (fun k => k.vc.toNat == v)).map pktFlits).sum
  let ok := (List.range 4).all (fun v =>
    let a := l.vc.get v
    let ret := (acct.getD v (0, 0)).2
    decide (ofSigned 32 ((a.tx : Int) - ret) ≤ vcBuffer v) && decide (occ v ≤ ofSigned 32 ((a.rx : Int) - a.ret)))
  if ok then
    let s1 := s.each (List.range 4) (fun s v =>
      s.onVc p v (fun a =>
        let ret := (acct.getD v (0, 0)).2
        { a with rxc := ret, cr := vcBuffer v - ofSigned 32 ((a.tx : Int) - ret), occ := occ v, pend := ofSigned 32 ((a.rx : Int) - a.ret) - occ v }))
    let keep := l.retry.filter (fun e => decide ((e.1 + 4096 - next) % 4096 < 2048))
    some ((s1.onLnk p (fun l => { l with failed := 0, retry := keep, resend := keep, ackClk := s.clk, rounds := 0 })).setLnkState p 4)
  else none

/-! ### Acknowledgement and credit (R293, R296, R297) -/

/-- Resending from the oldest unacknowledged packet; the sixteenth round without progress retrains (R291, R297). -/
def State.resendAll (s : State) (p : Nat) : State :=
  let s1 := (s.onLnk p (fun l => { l with resend := l.retry, rounds := l.rounds + 1, ackClk := s.clk })).linkGuard p
  if 16 ≤ (s1.lnk p).rounds then s1.enterRetrain p else s1

/-- The link header of a packet with a good CRC: packets up to ACK retire, credit returns, a NAK resends. -/
def State.takeHeader (s : State) (p : Nat) (h : LinkHeader) : State :=
  let l := s.lnk p
  let gone := fun (e : Nat × Packet) => decide ((h.ack.toNat + 4096 - e.1) % 4096 < 2048)
  let progress := l.retry.any gone
  let s1 := s.onLnk p (fun l =>
    { l with
      retry := l.retry.filter (fun e => !gone e), resend := l.resend.filter (fun e => !gone e)
      ackClk := if progress then s.clk else l.ackClk, rounds := if progress then 0 else l.rounds })
  let s2 := s1.onVc p h.crvc.toNat (fun a =>
    { a with cr := min (vcBuffer h.crvc.toNat) (a.cr + h.crcnt.toNat), rxc := wrapAdd 32 a.rxc h.crcnt.toNat })
  if h.nak ∧ (s2.lnk p).retry ≠ [] then s2.resendAll p else s2

/-- The credit that the next packet of a port returns: the channel with most flits freed. -/
def LichenPort.owed (l : LichenPort) : Nat × Nat :=
  (List.range 4).foldl (fun b v => if b.2 < (l.vc.get v).pend then (v, (l.vc.get v).pend) else b) (0, 0)

/-- Credit returned in a packet (R296). -/
def State.returnCredit (s : State) (p : Nat) : State × Nat × Nat :=
  let (v, n) := (s.lnk p).owed
  (s.onVc p v (fun a => { a with ret := wrapAdd 32 a.ret n, pend := a.pend - n }), v, n)

/-- ACK of a packet that leaves: the last SEQ accepted in order. -/
def LichenPort.ackSeq (l : LichenPort) : Nat := (l.rxNext + 4095) % 4096

/-- The link header of a packet that leaves: the acknowledgement, and the credit taken off what is owed (R293). -/
def State.nextHeader (s : State) (p seq : Nat) (nak : Bool) : State × LinkHeader :=
  let (s1, v, n) := s.returnCredit p
  (s1, { seq := BitVec.ofNat 12 seq, ack := BitVec.ofNat 12 (s.lnk p).ackSeq, nak := nak, crcnt := BitVec.ofNat 16 n
         crvc := BitVec.ofNat 2 v })

/-- A control packet leaves, with acknowledgement and credit (R293). -/
def State.sendControl (s : State) (p kind : Nat) (nak : Bool) (fields : List Nat) : State :=
  let (s1, h) := s.nextHeader p 0 nak
  s1.emit (.control p kind h fields)

/-- An ACK packet, with a NAK if one is due (R293, R297). -/
def State.sendAck (s : State) (p : Nat) (nak : Bool) : State := s.sendControl p 1 nak []

/-- RESYNC leaves once in a retrain: RX and RET of each channel, RET with the credit that this packet returns, and the next SEQ
expected (R298, R301). -/
def State.sendResync (s : State) (p : Nat) : State :=
  if (s.lnk p).resyncSent then s
  else
    let (s1, h) := (s.onLnk p (fun l => { l with resyncSent := true })).nextHeader p 0 false
    let l := s1.lnk p
    s1.emit (.control p 4 h ((List.range 4).flatMap (fun v => [(l.vc.get v).rx, (l.vc.get v).ret]) ++ [l.rxNext]))

/-- Flits of a received packet freed: occupancy becomes credit to return (R296). -/
def State.freeFlits (s : State) (p : Nat) (k : Packet) : State :=
  s.onVc p k.vc.toNat (fun a => { a with occ := a.occ - (pktFlits k), pend := a.pend + (pktFlits k) })

/-- A received packet taken from its port's buffer, if it is there. -/
def State.takeRx (s : State) (p : Nat) (k : Packet) : State :=
  if (s.lnk p).rxq.contains k then
    (s.onLnk p (fun l => { l with rxq := l.rxq.erase k })).freeFlits p k
  else s

/-! ### Audit (R300) -/

/-- The four checks of R300 for one channel: the sender's TX, RXC, CR and the receiver's own counters. -/
def VcAcct.auditOk (a : VcAcct) (v : Nat) (x : Nat × Nat × Nat) : Bool :=
  let (tx, rxc, cr) := x
  a.rx == tx && decide (ofSigned 32 ((a.ret : Int) - rxc) ≤ vcBuffer v) &&
    ofSigned 32 ((cr : Int) + tx - rxc) == vcBuffer v && a.occ + a.pend == ofSigned 32 ((a.rx : Int) - a.ret)

/-- The audit that waits is evaluated once MARK has been accepted. -/
def State.judgeAudit (s : State) (p : Nat) : State :=
  match (s.lnk p).audit with
  | none => s
  | some (acct, mark) =>
    if ((s.lnk p).ackSeq + 4096 - mark) % 4096 < 2048 then
      let s1 := s.onLnk p (fun l => { l with audit := none })
      if (List.range 4).all (fun v => ((s1.lnk p).vc.get v).auditOk v (acct.getD v (0, 0, 0))) then s1
      else ((s1.setB (R.LNK_INT p) 1 true).count (R.LNK_AUDERRCNT p) 32 1).enterRetrain p
    else s

/-! ### Sending (R296) -/

/-- The first queued packet of a virtual channel that has credit. -/
def LichenPort.ready (l : LichenPort) (v : Nat) : Option Packet :=
  match l.txq.find? (fun k => k.vc.toNat == v) with
  | some k => if (pktFlits k) ≤ (l.vc.get v).cr then some k else none
  | none => none

/-- The channel of VC1 to VC3 at a place of the weighted round robin, of as many places as the shares have (R296). -/
def wrrVc (share : Word) (k : Nat) : Nat :=
  let a := fld share 3 0
  let b := fld share 7 4
  if k < a then 1 else if k < a + b then 2 else 3

/-- The packet a port sends next, and the new place of its round robin. -/
def State.nextPacket (s : State) (p : Nat) : Option (Packet × Nat) :=
  let l := s.lnk p
  match l.ready 0 with
  | some k => some (k, l.wrr)
  | none =>
    let share := s.vcShares
    let total := fld share 3 0 + fld share 7 4 + fld share 11 8
    let places := (List.range total).map (fun i => (l.wrr + i) % total)
    places.findSome? (fun k => (l.ready (wrrVc share k)).map (fun x => (x, (k + 1) % total)))

/-- A TICK as it departs: ACC holds what went before less the timebase at the arrival, or at the source instant, and gains the
timebase at departure (R312). -/
def State.departing (s : State) (k : Packet) : Packet :=
  if k.op = 5 then
    { k with payload := k.payload.take 8 ++ leBytes 8 ((leField k.payload 8 8 + s.tb) % 2 ^ 64) ++ k.payload.drop 16 }
  else k

/-- A data packet leaves as bytes, with ACK and credit; counted by flits and payload (R292, R420, R424). -/
def State.launch (s : State) (p seq : Nat) (k : Packet) : State :=
  let (s1, h) := s.nextHeader p seq false
  ((s1.emit (.packet p (wireBytes h (s.departing k)))).event 0x38 (4 * p + k.vc.toNat) (pktFlits k)).moved 3 p k.payload.length

/-- A new packet fits into the retry buffer (R297). -/
def LichenPort.fits (l : LichenPort) (k : Packet) : Bool :=
  decide ((l.retry.map (fun e => pktFlits e.2)).sum + pktFlits k ≤ 1024) && decide (l.retry.length < 2047)

/-- An ACK packet that only returns credit. -/
def State.ackIfOwed (s : State) (p : Nat) : State := if 0 < (s.lnk p).owed.2 then s.sendAck p false else s

/-- PACKET_SEND (R296, R297): resent packets first, then the next by channel and credit, else an ACK packet that is due; with
FAB_CTL.EN = 0 no data packet (R302). -/
def State.packetSend (s : State) (p : Nat) : State :=
  if s.lnkState p ≠ 4 then s
  else if s.b R.FAB_CTL 0 = false then s.ackIfOwed p
  else
    let l := s.lnk p
    match l.resend with
    | (q, k) :: t =>
      let k1 := { k with late := true }
      ((((s.onLnk p (fun l => { l with resend := t })).launch p q k1).count (R.LNK_RETRYCNT p) 32 1).event 0x39 p 1)
    | [] =>
      match (s.nextPacket p).filter (fun x => l.fits x.1) with
      | some (k, w) =>
        let q := l.txSeq
        let s1 := s.onLnk p (fun l =>
          { l with
            txq := l.txq.erase k, wrr := w, txSeq := (q + 1) % 4096, retry := l.retry ++ [(q, k)]
            ackClk := if l.retry = [] then s.clk else l.ackClk })
        (s1.onVc p k.vc.toNat (fun a => { a with cr := a.cr - (pktFlits k), tx := wrapAdd 32 a.tx (pktFlits k) })).launch p q k
      | none => s.ackIfOwed p

/-- PACKET_SEND. -/
def execPacketSend (port : Fin 4) (s : State) : Res := .next (s.packetSend port.val)

/-- A NAK, once until the expected SEQ arrives (R297). -/
def State.nakOnce (s : State) (p : Nat) : State :=
  if (s.lnk p).nakSent then s else (s.onLnk p (fun l => { l with nakSent := true })).sendAck p true

/-- A data packet as received keeps every field rule, its length in flits too (R292-R295). -/
def wireValid (b : List Byte) : Bool :=
  wireReserved b && pktValid (wirePacket b) && b.length == 64 * pktFlits (wirePacket b)

/-- The data packet that was expected: accepted into its channel's buffer, or, against a field rule, discarded and its flits freed at
once (R294, R296). -/
def State.acceptPacket (s : State) (p : Nat) (b : List Byte) : State :=
  let k := wirePacket b
  let n := b.length / 64
  let s1 := s.onLnk p (fun l => { l with rxNext := (l.rxNext + 1) % 4096, nakSent := false })
  (if wireValid b then
    (s1.onVc p k.vc.toNat (fun a => { a with rx := wrapAdd 32 a.rx n, occ := a.occ + n })).onLnk p (fun l => { l with rxq := l.rxq ++ [k] })
  else
    (s1.onVc p k.vc.toNat (fun a => { a with rx := wrapAdd 32 a.rx n, pend := a.pend + n })).dropPacket p 1).judgeAudit p

/-- A data packet by its SEQ: the one expected, one ahead of it, or one behind, which is acknowledged again (R297). -/
def State.bySeq (s : State) (p : Nat) (b : List Byte) : State :=
  let d := ((wireLink b).seq.toNat + 4096 - (s.lnk p).rxNext) % 4096
  if d = 0 then s.acceptPacket p b else if d < 2048 then s.nakOnce p else s.sendAck p false

/-- DATA_PACKET_RECEIVE (R292-R294, R297): the bytes of a packet as they arrive. A bad CRC counts and is answered with NAK; a packet of
a reserved KIND is discarded; of a control packet the acknowledgement and credit count, and its fields come with its own command. -/
def State.dataReceive (s : State) (p : Nat) (b : List Byte) : State :=
  if s.lnkState p ≠ 4 then s
  else if wireGood b = false then (s.count (R.LNK_CRCERR p) 32 1).nakOnce p
  else
    let s1 := s.takeHeader p (wireLink b)
    if wireKind b = 0 then s1.bySeq p b else if 6 ≤ wireKind b then s1.dropPacket p 1 else s1

/-- DATA_PACKET_RECEIVE: the packet's bytes in the order of the wire. -/
def execDataPacketReceive (port : Fin 4) (hdr body tail : List Byte) (s : State) : Res :=
  .next (s.dataReceive port.val (hdr ++ body ++ tail))

/-- ACK (R297). -/
def execAck (port : Fin 4) (hdr : LinkHeader) (s : State) : Res :=
  .next (if s.lnkState port.val = 4 then s.takeHeader port.val { hdr with nak := false } else s)

/-- NAK_RECEIVE (R297). -/
def execNakReceive (port : Fin 4) (hdr : LinkHeader) (s : State) : Res :=
  .next (if s.lnkState port.val = 4 then s.takeHeader port.val { hdr with nak := true } else s)

/-- RETRY_TIMEOUT (R297): 4,096 clk without progress while packets are outstanding. -/
def State.retryTimeout (s : State) (p : Nat) : State :=
  if s.lnkState p = 4 ∧ s.b R.FAB_CTL 0 = true ∧ (s.lnk p).retry ≠ [] then (s.until ((s.lnk p).ackClk + 4096)).resendAll p else s

/-- RETRY_TIMEOUT. -/
def execRetryTimeout (port : Fin 4) (s : State) : Res := .next (s.retryTimeout port.val)

/-- AUDIT_SEND (R300): the sender's counters and MARK. -/
def State.auditSend (s : State) (p : Nat) : State :=
  if s.lnkState p = 4 then
    let l := s.lnk p
    s.sendControl p 3 false ((List.range 4).flatMap (fun v => [(l.vc.get v).tx, (l.vc.get v).rxc, (l.vc.get v).cr]) ++
      [(l.txSeq + 4095) % 4096])
  else s

/-- AUDIT_SEND. -/
def execAuditSend (port : Fin 4) (s : State) : Res := .next (s.auditSend port.val)

/-- AUDIT (R300): a newer audit replaces one that waits. -/
def execAudit (port : Fin 4) (hdr : LinkHeader) (state : List (Nat × Nat × Nat) × BitVec 12) (s : State) : Res :=
  .next (if s.lnkState port.val = 4 then
    ((s.takeHeader port.val hdr).onLnk port.val (fun l => { l with audit := some (state.1, state.2.toNat) })).judgeAudit port.val else s)

/-! ### Delay (R311) -/

/-- DELAY_MEASURE: DELAY with t1, the timebase as it departs. -/
def execDelayMeasure (port : Fin 4) (s : State) : Res :=
  .next (if s.lnkState port.val = 4 then
    (s.onLnk port.val (fun l => { l with delayT1 := some s.tb })).sendControl port.val 5 false [s.tb] else s)

/-- A completed measurement: LNKp_DELAY shows the mean of the last eight. -/
def State.noteDelay (s : State) (p d : Nat) : State :=
  let l := (d :: (s.lnk p).delays).take 8
  (s.onLnk p (fun x => { x with delays := l, delayT1 := none })).putF (R.LNK_DELAY p) 23 0 (min (2 ^ 24 - 1) (l.sum / l.length))

/-- A DELAY packet: the partner's request, whose t1 the partner keeps, is answered with its arrival t2 and this device's departure t3, one instant here; its reply
with t2 and t3 arrives at t4, the timebase now, and completes the measurement that began at t1. -/
def State.delayPacket (s : State) (p : Nat) (reply : Bool) (t2 t3 : Nat) : State :=
  if reply = false then s.sendControl p 5 false [s.tb, s.tb]
  else match (s.lnk p).delayT1 with
    | some t1 => s.noteDelay p (((s.tb : Int) - t1 - ((t3 : Int) - t2)) / 2).toNat
    | none => s

/-- DELAY. -/
def execDelay (port : Fin 4) (hdr : LinkHeader) (reply : Bool) (_t1 t2 t3 : Nat) (s : State) : Res :=
  .next (if s.lnkState port.val = 4 then (s.takeHeader port.val hdr).delayPacket port.val reply t2 t3 else s)

end Sys2Proof.Machine
end

