-- ==== Sys2Proof/Machine/Domain.lean ====
section
/-! DEFINITION. The fabric domain (R302-R306, R312-R320): election, members, device IDs, routes, quorum, rejoin, twins and
the domain tick. A DOMAIN or TICK packet that leaves is a queued packet; one that arrives is a command of its own, which
frees the packet held in the port's buffer. -/

namespace Sys2Proof.Machine

/-- The device takes part in a domain (R302). -/
def State.fabEn (s : State) : Bool := s.b R.FAB_CTL 0

/-- Ports whose link is UP or in RETRAIN. -/
def State.upPorts (s : State) : List Nat := (List.range 4).filter (fun p => s.linkUp p)

/-- A DOMAIN or TICK packet from a device to another (R294, R295, R312). -/
def domainPacket (src : BitVec 6) (dst op sub : Nat) (payload : List Byte) : Packet :=
  { op := BitVec.ofNat 4 op, vc := 0, dst := BitVec.ofNat 6 dst, src := src, late := false, morg := false, sub := 0
    hi := false, len := BitVec.ofNat 12 payload.length, tag := 0, addr := BitVec.ofNat 41 sub, payload := payload }

/-- A DOMAIN or TICK packet queued at a port (R295, R312). -/
def State.queueDomain (s : State) (port dst op sub : Nat) (payload : List Byte) : State :=
  s.queuePacket port (domainPacket s.srcId dst op sub payload)

/-- The received packet that a typed DOMAIN or TICK command stands for: the one in the port's buffer with its payload. -/
def State.typedPacket (s : State) (p op sub : Nat) (payload : List Byte) : Option Packet :=
  (s.lnk p).rxq.find? (fun k => k.op.toNat == op && (op == 5 || k.addr.toNat % 256 == sub) && k.payload == payload)

/-- The packet of a typed DOMAIN or TICK command leaves the port's receive buffer. -/
def State.takeTyped (s : State) (p op sub : Nat) (payload : List Byte) : State :=
  match s.typedPacket p op sub payload with
  | some k => s.takeRx p k
  | none => s

/-- The port in whose buffer the packet of a typed command without a port stands; the first where none does. -/
def State.typedPort (s : State) (sub : Nat) (payload : List Byte) : Nat :=
  ((List.range 4).find? (fun p => (s.typedPacket p 6 sub payload).isSome)).getD 0

/-- This device's ID in a byte, 0xFF if none (R295). -/
def State.idByte (s : State) : Nat := (s.ownId).getD 255

/-- FAB_PRIO.PRIO. -/
def State.prio (s : State) : Nat := s.f R.FAB_PRIO 7 0

/-- An ADVERT payload (R295). -/
def advertBytes (a : Advert) : List Byte :=
  leBytes 8 a.uid.toNat ++ leBytes 1 a.prio.toNat ++ leBytes 1 a.weight.toNat ++ leBytes 1 a.ownId.toNat ++
    leBytes 1 a.bestPrio.toNat ++ leBytes 8 a.bestUid.toNat ++ leBytes 1 a.hops.toNat ++ leBytes 1 a.mode.toNat ++ leBytes 1 (b2n a.held)

/-- What this device advertises (R295, R302, R303). -/
def State.ownAdvert (s : State) : Advert :=
  { uid := Config.otpUid, prio := BitVec.ofNat 8 s.prio, weight := BitVec.ofNat 8 (s.f R.FAB_VOTE 3 0), ownId := BitVec.ofNat 8 s.idByte
    bestPrio := BitVec.ofNat 8 s.fabric.bestPrio, bestUid := s.fabric.bestUid, hops := BitVec.ofNat 8 s.fabric.bestHops
    mode := BitVec.ofNat 8 s.mode, held := s.held }

/-- ADVERT on every UP port (R295). -/
def State.sendAdverts (s : State) : State :=
  if s.fabEn then s.each s.upPorts (fun s p => s.queueDomain p 0 6 1 (advertBytes s.ownAdvert)) else s

/-! ### Packets for other devices (R306) -/

/-- A packet leaves on its route. Without a route: none. -/
def State.sendOn (s : State) (k : Packet) : Option State :=
  let d := k.dst.toNat
  if s.b (R.FAB_RT d) 2 ∧ s.b (R.FAB_RT d) 3 = false then
    some (s.queuePacket (s.fabPort d) k)
  else none

/-- A packet received for another device goes on; without a route a response, spore, COPY or RELAY packet is discarded and
counted at the port it came by. -/
def State.passOn (s : State) (p : Nat) (k : Packet) : State := (s.sendOn k).getD (s.dropPacket p 1)

/-! ### Election (R303) -/

/-- A candidate for keystone: PRIO, UID, hops to it, port toward it (4: this device). -/
def State.candidates (s : State) : List (Nat × Nat × Nat × Nat) :=
  (s.prio, Config.otpUid.toNat, 0, 4) ::
    (s.upPorts.filter (fun p => (s.lnk p).advSeen)).map (fun p =>
      ((s.lnk p).advPrio, (s.lnk p).advUid.toNat, (s.lnk p).advHops + 1, p))

/-- Order of candidates: PRIO, UID, hops, port. -/
def candLt (a b : Nat × Nat × Nat × Nat) : Bool :=
  if a.1 ≠ b.1 then decide (a.1 < b.1)
  else if a.2.1 ≠ b.2.1 then decide (a.2.1 < b.2.1)
  else if a.2.2.1 ≠ b.2.2.1 then decide (a.2.2.1 < b.2.2.1)
  else decide (a.2.2.2 < b.2.2.2)

/-- The path to the keystone is gone: of every partner only its own pair stays known, until it advertises again (R303). A pair learnt
through this device would otherwise come back to it. -/
def State.forgetPairs (s : State) : State :=
  s.each (List.range 4) (fun s p => s.onLnk p (fun l =>
    { l with
      advPrio := l.advOwn
      advUid := BitVec.ofNat 64 ((s.rd (R.LNK_PEERUID_LO p)).toNat + (s.rd (R.LNK_PEERUID_HI p)).toNat * 2 ^ 32), advHops := 0 }))

/-- The best candidate. -/
def State.best (s : State) : Nat × Nat × Nat × Nat :=
  s.candidates.foldl (fun m c => if candLt c m then c else m) (s.prio, Config.otpUid.toNat, 0, 4)

/-- This device is the keystone. -/
def State.isKeystone (s : State) : Bool := s.b R.FAB_STAT 7

/-- What this device reports in MEMBER (R295). Its quorate flag is 0 in Hold under R315, with or without a decision (log 74). -/
def State.ownMember (s : State) : MemberInfo :=
  { uid := Config.otpUid, weight := s.f R.FAB_VOTE 3 0, pin := s.b R.FAB_PRIO 8, pinId := s.f R.FAB_PRIO 14 9
    prevId := s.idByte, prevQuorate := s.b R.FAB_STAT 15 && !s.fabric.quorumHold
    links := (s.upPorts.filter (fun p => (s.lnk p).advSeen)).map (fun p =>
      (p, BitVec.ofNat 64 ((s.rd (R.LNK_PEERUID_LO p)).toNat + (s.rd (R.LNK_PEERUID_HI p)).toNat * 2 ^ 32))) }

/-- A MEMBER payload. -/
def memberBytes (m : MemberInfo) : List Byte :=
  leBytes 8 m.uid.toNat ++ leBytes 1 m.weight ++ leBytes 1 (b2n m.pin) ++ leBytes 1 m.pinId ++ leBytes 1 m.prevId ++
    leBytes 1 (b2n m.prevQuorate) ++ m.links.flatMap (fun l => leBytes 1 l.1 ++ leBytes 8 l.2.toNat)

/-! ### Device IDs (R304) -/

/-- A claim on an ID beats another: previous quorate flag, then the lower UID. -/
def claimBeats (a b : MemberInfo) : Bool :=
  if a.prevQuorate ≠ b.prevQuorate then a.prevQuorate else decide (a.uid.toNat < b.uid.toNat)

/-- The lowest ID not in use. -/
def lowestFree (used : List Nat) : Option Nat := (List.range 64).find? (fun i => !used.contains i)

/-- Members in ascending UID order. -/
def byUid (l : List MemberInfo) : List MemberInfo := sortBy (fun a b => decide (a.uid.toNat < b.uid.toNat)) l

/-- The assignment of R304. -/
def assignIds (l : List MemberInfo) : List (DWord × Nat) :=
  let m := byUid l
  let kept := (m.filter (fun a => a.prevId < 64 && m.all (fun b => b.uid == a.uid || b.prevId != a.prevId || claimBeats a b))).map
    (fun a => (a.uid, a.prevId))
  let rest := fun (got : List (DWord × Nat)) => m.filter (fun a => !got.any (fun g => g.1 == a.uid))
  let pinned := (rest kept).foldl (fun got a =>
    if a.pin && !got.any (fun g => g.2 == a.pinId) then got ++ [(a.uid, a.pinId)] else got) kept
  (rest pinned).foldl (fun got a =>
    match lowestFree (got.map (fun g => g.2)) with
    | some i => got ++ [(a.uid, i)]
    | none => got) pinned

/-- The device ID of a UID in an assignment, 255 if it has none. -/
def idOf (ids : List (DWord × Nat)) (u : DWord) : Nat :=
  match ids.find? (fun e => e.1 == u) with
  | some e => e.2
  | none => 255

/-! ### Routes (R305) -/

/-- Members one level further, each with its parent and the port at the child: breadth-first from the keystone. A level
is a list of (UID, parent UID, child's port). -/
def nextLevel (l : List MemberInfo) (ids : List (DWord × Nat)) (done level : List DWord) : List (DWord × DWord × Nat) :=
  l.filterMap (fun m =>
    if done.contains m.uid then none
    else
      let cand := m.links.filter (fun k => level.contains k.2)
      let better := fun (a b : Nat × DWord) =>
        decide (idOf ids a.2 < idOf ids b.2) || (idOf ids a.2 == idOf ids b.2 && decide (a.1 < b.1))
      match cand with
      | [] => none
      | c :: t =>
        let k := t.foldl (fun x y => if better y x then y else x) c
        some (m.uid, k.2, k.1))

/-- The tree of R305: child, parent, child's port; at most as many levels as members. -/
def treeOf (l : List MemberInfo) (ids : List (DWord × Nat)) : Nat → List DWord → List DWord → List (DWord × DWord × Nat)
  | 0, _, _ => []
  | n + 1, done, level =>
    let t := nextLevel l ids done level
    if t = [] then [] else t ++ treeOf l ids n (done ++ t.map (fun e => e.1)) (t.map (fun e => e.1))

/-- A member and its ancestors, up to the keystone. -/
def ancestors (tree : List (DWord × DWord × Nat)) : Nat → DWord → List DWord
  | 0, u => [u]
  | n + 1, u => match tree.find? (fun e => e.1 == u) with
    | some e => u :: ancestors tree n e.2.1
    | none => [u]

/-- The port of member x toward its neighbour y: the lowest one. -/
def portToward (l : List MemberInfo) (x y : DWord) : Nat :=
  match l.find? (fun m => m.uid == x) with
  | some m => (m.links.filter (fun k => k.2 == y)).foldl (fun b k => min b k.1) 3
  | none => 0

/-- Entry d of the table of member x, in FAB_RTd format (R305, R321). -/
def routeEntry (l : List MemberInfo) (tree : List (DWord × DWord × Nat)) (x d : DWord) : Word :=
  let n := l.length
  let ax := ancestors tree n x
  let ad := ancestors tree n d
  if x = d then BitVec.ofNat 32 (4 + 8)
  else
    let up := ax.takeWhile (fun u => !ad.contains u)
    let down := ad.takeWhile (fun u => !ax.contains u)
    let port := if up = [] then portToward l x (down.getLast?.getD x) else
      match tree.find? (fun e => e.1 == x) with
      | some e => e.2.2
      | none => 0
    BitVec.ofNat 32 (port + 4 + (up.length + down.length) * 16)

/-- The table of member x by device ID. -/
def routeTable (l : List MemberInfo) (ids : List (DWord × Nat)) (tree : List (DWord × DWord × Nat)) (x : DWord) : List Word :=
  (List.range 64).map (fun i => match ids.find? (fun e => e.2 == i) with
    | some e => routeEntry l tree x e.1
    | none => 0)

/-- A routing table takes effect: FAB_RTd, the tree bits of the ports, and the domain is up (R303, R306). -/
def State.applyRoute (s : State) (t : List Word) : State :=
  let s1 := s.each (List.range 64) (fun s d => s.wr (R.FAB_RT d) (t.getD d 0))
  let ks := s1.f R.FAB_STAT 13 8
  let s2 := s1.each (List.range 4) (fun s p =>
    let used := (List.range 64).any (fun d => s.b (R.FAB_RT d) 2 && !s.b (R.FAB_RT d) 3 && s.fabPort d == p)
    let up := used && !s.isKeystone && s.b (R.FAB_RT ks) 2 && s.fabPort ks == p
    (s.setB (R.LNK_STAT p) 11 used).setB (R.LNK_STAT p) 12 up)
  (s2.onFab (fun f => { f with pendingRoute := none })).setB R.FAB_STAT 14 (s2.b R.FAB_STAT 6)

/-- A ROUTE table: held for its activation frame, or in force at once while the domain is not up or no tick occurs. -/
def State.takeRoute (s : State) (frame : DWord) (t : List Word) : State :=
  if s.fabUp && (s.inFrame || s.mode == 5) then s.onFab (fun f => { f with pendingRoute := some (frame, t) }) else s.applyRoute t

/-! ### Assignment and decision (R304, R314, R315) -/

/-- A member learns of a new epoch: TOPO, no decision of it held yet, and a copy under way ends (R303, R315, R316). -/
def State.enterEpoch (s : State) : State :=
  ((s.onFab (fun f =>
    { f with decision := none, ticksNoDecision := if f.decision.isSome then 0 else f.ticksNoDecision })).setB R.FAB_REJSTAT 0 false).fabInt 0

/-- An assignment takes effect at this member (R304). -/
def State.takeAssign (s : State) (epoch : DWord) (ids : List (DWord × Nat)) : State :=
  let had := s.idByte
  let id := idOf ids Config.otpUid
  let ks := idOf ids s.fabric.bestUid
  let s0 := if epoch = s.fabric.epoch then s else s.enterEpoch
  let s1 := (s0.onFab (fun f => { f with epoch := epoch, ids := ids })).wr R.FAB_EPOCH (BitVec.ofNat 32 epoch.toNat)
  let s2 := (((s1.putF R.FAB_STAT 22 16 ids.length).putF R.FAB_STAT 13 8 ks).setB R.FAB_STAT 6 (id != 255)).setB
    R.FAB_STAT 23 (id == 255)
  let s3 := s2.putF R.FAB_STAT 5 0 (if id = 255 then 0 else id)
  if (had ≠ 255 ∧ had ≠ id) ∨ (s.b R.FAB_PRIO 8 ∧ had = 255 ∧ id ≠ s.f R.FAB_PRIO 14 9) then s3.fabInt 9 else s3

/-- The pair's lead as a decision states it takes effect at a member of the pair, while no change of lead is under way: a pair is
named when each has EN and names the other (R295, R318, R320). -/
def State.statedLead (s : State) (q : QuorumDecision) : State :=
  let peer := s.f R.FAB_TWIN 6 1
  let own := q.leads.any (fun l => l.toNat == s.idByte)
  let named := own || q.leads.any (fun l => l.toNat == peer)
  if s.b R.FAB_TWIN 0 = false ∨ s.fabric.ids.any (fun e => e.2 == peer) = false then s
  else
    let s1 := s.onFab (fun f => { f with paired := named })
    if named ∧ s.fabric.leadGone = none then s1.setB R.FAB_TWIN 10 own else s1

/-- The witness settings of the keystone of this component, as a member comes to know them: no packet carries them (log 72). -/
def State.keystoneWitness (s : State) : Nat :=
  if s.isKeystone then s.f R.FAB_WITNESS 7 0 else fld (Config.memberReg s.fabric.bestUid s.fabric.epoch 1) 7 0

/-- A decision held for the next tick (R315); a TOTAL or witness settings unlike this member's set CFG (R314). In Config, where no
tick comes, the lead of the pair is taken at once. -/
def State.takeDecision (s : State) (q : QuorumDecision) : State :=
  let s1 := (s.onFab (fun f => { f with decision := some q, reentry := q.reentry })).putF R.FAB_VOTE 25 16 q.sum.toNat
  let s2 := if s.mode = 2 then s1.statedLead q else s1
  if q.total.toNat = s.f R.FAB_VOTE 15 6 ∧ s.keystoneWitness = s.f R.FAB_WITNESS 7 0 then s2 else s2.fabInt 11

/-- FAB_TWIN (register 0) or FAB_WITNESS (1) of a member, as the keystone knows it: its own from the register (log 72). -/
def State.memberReg (s : State) (uid : DWord) (r : Nat) : Word :=
  if uid = Config.otpUid then s.rd (if r = 0 then R.FAB_TWIN else R.FAB_WITNESS) else Config.memberReg uid s.fabric.epoch r

/-- Two members form a twin pair (R318): each has EN and names the other. -/
def twinPair (a b : Nat × Word) : Bool :=
  a.2.getLsbD 0 && b.2.getLsbD 0 && fld a.2 6 1 == b.1 && fld b.2 6 1 == a.1

/-- The lead of a pair, of whose members a has the lower ID: the one that leads now; else the one with LEAD; else the lower ID (R318,
R320). -/
def leadOf (a b : Nat × Word) : Nat :=
  let is := fun (x : Nat × Word) (k : Nat) => x.2.getLsbD k
  if is a 10 != is b 10 then (if is a 10 then a.1 else b.1)
  else if is a 7 != is b 7 then (if is a 7 then a.1 else b.1)
  else a.1

/-- The lead IDs of all twin pairs of the component (R295). -/
def State.leads (s : State) : List (BitVec 8) :=
  let m := (sortBy (fun a b => decide (a.2 < b.2)) (s.fabric.ids.filter (fun e => decide (e.2 < 64)))).map (fun e => (e.2, s.memberReg e.1 0))
  m.flatMap (fun a => (m.filter (fun b => decide (a.1 < b.1) && twinPair a b)).map (fun b => BitVec.ofNat 8 (leadOf a b)))

/-- The component holds the witness (R314). -/
def State.holdsWitness (s : State) : Bool :=
  match s.f R.FAB_WITNESS 1 0 with
  | 1 => s.fabric.ids.any (fun e => e.2 == s.f R.FAB_WITNESS 7 2)
  | 2 => s.fabric.ids.any (fun e => (s.memberReg e.1 1).getLsbD 8)
  | _ => false

/-- The decision of R314 for the members of this component, by the keystone. -/
def State.ruling (s : State) : QuorumDecision :=
  let f := s.fabric
  let sum := (f.members.map (fun m => m.weight)).sum
  let total := s.f R.FAB_VOTE 15 6
  { epoch := f.epoch, sum := BitVec.ofNat 16 sum, total := BitVec.ofNat 16 total
    quorate := total == 0 || decide (total < 2 * sum) || (2 * sum == total && s.holdsWitness), reentry := f.reentry, leads := s.leads }

/-- A QUORUM payload. -/
def quorumBytes (q : QuorumDecision) : List Byte :=
  leBytes 8 q.epoch.toNat ++ leBytes 2 q.sum.toNat ++ leBytes 2 q.total.toNat ++ leBytes 1 (b2n q.quorate) ++
    leBytes 8 q.reentry.toNat ++ q.leads.flatMap (fun l => leBytes 1 l.toNat)

/-- An ASSIGN payload. -/
def assignBytes (epoch : DWord) (ids : List (DWord × Nat)) : List Byte :=
  leBytes 8 epoch.toNat ++ leBytes 1 ids.length ++ ids.flatMap (fun e => leBytes 8 e.1.toNat ++ leBytes 1 e.2)

/-- A ROUTE payload: an entry is a word in FAB_RTd format (log 14). -/
def routeBytes (epoch frame : DWord) (t : List Word) : List Byte :=
  leBytes 8 epoch.toNat ++ leBytes 8 frame.toNat ++ t.flatMap (fun w => leBytes 4 w.toNat)

/-- A DOMAIN packet on every UP port but one. -/
def State.floodDomain (s : State) (notOn sub : Nat) (payload : List Byte) : State :=
  s.each (s.upPorts.filter (fun p => p != notOn)) (fun s p => s.queueDomain p 0 6 sub payload)

/-- The keystone states its decision (R315). -/
def State.sendQuorum (s : State) : State :=
  let q := s.ruling
  (s.takeDecision q).floodDomain 4 5 (quorumBytes q)

/-- Of the reports the keystone holds, those it reaches over the links that the reports name: a member cut off drops out (R303). -/
def reachable (l : List MemberInfo) : Nat → List DWord → List MemberInfo
  | 0, seen => l.filter (fun m => seen.contains m.uid)
  | n + 1, seen =>
    reachable l n (seen ++ (l.filter (fun m => seen.contains m.uid)).flatMap (fun m => (m.links.map (fun k => k.2)).filter (fun u => !seen.contains u)))

/-- The keystone's reports, its own renewed and those cut off left out. -/
def State.keptReports (s : State) (l : List MemberInfo) : List MemberInfo :=
  reachable (s.ownMember :: l.filter (fun m => m.uid != Config.otpUid)) l.length [Config.otpUid]

/-- The keystone has MEMBER from every member: every link reported leads to a reported member (R303). -/
def State.membersComplete (s : State) : Bool :=
  s.fabric.members.all (fun m => m.links.all (fun k => s.fabric.members.any (fun n => n.uid == k.2)))

/-! ### Who copies on rejoin (R316, R317; log 74) -/

/-- A REJOIN report to a device (R295): queued on its route. -/
def State.sendRejoin (s : State) (dst region st : Nat) : State :=
  if s.ownId = some dst ∨ s.b (R.FAB_RT dst) 2 = false then s
  else s.queueDomain (s.fabPort dst) dst 6 7 (leBytes 1 region ++ leBytes 1 st)

/-- REJOIN's region in what concerns all regions of a member. -/
def allRegions : Nat := 16

/-- The copy of this member stops: its source is absent, or not in Run (R316). -/
def State.copyFails (s : State) : State :=
  let i := s.f R.FAB_REJSTAT 4 1
  ((s.setB R.FAB_REJSTAT 0 false).setB R.FAB_REJSTAT 5 true).sendRejoin (s.f R.FAB_STAT 13 8) i 3

/-- A member's regions are all done, as the keystone takes it: after the last one it names the re-entry frame, three after its own,
and states it in QUORUM (R317). -/
def State.memberDone (s : State) (id : Nat) : State :=
  let s1 := s.onFab (fun f => { f with rejoinWait := f.rejoinWait.filter (fun x => x != id) })
  if s.fabric.rejoinWait.contains id ∧ s1.fabric.rejoinWait = [] then
    let s2 := s1.onFab (fun f => { f with reentry := f.dframe + 3 })
    let q := s2.ruling
    (s2.takeDecision q).each s2.upPorts (fun s p => s.queueDomain p 0 6 5 (quorumBytes q))
  else s1

/-- This member's regions are all done: it says so to the keystone, or is it. -/
def State.allDone (s : State) : State :=
  let s1 := (s.setB R.FAB_REJSTAT 0 false).onFab (fun f => { f with copied := 0, matched := false })
  if s1.isKeystone then s1.memberDone s1.idByte else s1.sendRejoin (s1.f R.FAB_STAT 13 8) allRegions 2

/-- The copy of region i begins: its source hears of it; without a route to the source it stops (R316). -/
def State.beginRegion (s : State) (i : Nat) : State :=
  if s.fabric.regions.length ≤ i then s.allDone
  else
    let d := (s.fabric.regions.getD i {}).srcDev
    let s1 := ((s.setB R.FAB_REJSTAT 0 true).putF R.FAB_REJSTAT 4 1 i).onFab (fun f => { f with copied := 0 })
    if s.b (R.FAB_RT d) 2 = false ∨ s.ownId = some d then s1.copyFails else s1.sendRejoin d i 1

/-- What the keystone tells a Hold member: to copy its regions from the first on, or that no member is in Run (R316, R317). -/
def State.hearRejoin (s : State) (norun : Bool) : State :=
  if s.fabric.quorumHold = false ∨ s.mode ≠ 4 then s
  else if norun then (s.setB R.FAB_REJSTAT 0 false).fabInt 8
  else s.beginRegion 0

/-- The keystone tells the Hold members, once its routes are in force. -/
def State.tellHold (s : State) : State :=
  if s.isKeystone ∧ s.fabric.rejoinTell = true ∧ s.fabric.pendingRoute = none then
    let st := if s.fabric.norun then 3 else 1
    let s1 := s.onFab (fun f => { f with rejoinTell := false })
    s1.each s1.fabric.rejoinWait (fun s i => if s.ownId = some i then s.hearRejoin s.fabric.norun else s.sendRejoin i allRegions st)
  else s

/-- The members of a quorate component that copy: those that were not quorate; and whether any member is in Run (R316, R317). -/
def State.planRejoin (s : State) (q : QuorumDecision) : State :=
  let hold := s.fabric.members.filter (fun m => !m.prevQuorate)
  if q.quorate ∧ hold ≠ [] then
    s.onFab (fun f =>
      { f with
        rejoinWait := (hold.map (fun m => idOf f.ids m.uid)).filter (fun i => decide (i < 64)), rejoinTell := true
        norun := f.members.all (fun m => !m.prevQuorate) })
  else s.onFab (fun f => { f with rejoinWait := [], rejoinTell := false, norun := false })

/-- The keystone forms the epoch: ASSIGN, ROUTE to each member, and its first QUORUM (R303-R305). Epochs count up by
one (log 13). -/
def State.form (s : State) : State :=
  let l := s.fabric.members
  let ids := assignIds l
  let epoch := s.fabric.epoch + 1
  let s1 := s.takeAssign epoch ids
  let s2 := s1.floodDomain 4 3 (assignBytes epoch (l.map (fun m => (m.uid, idOf ids m.uid))))
  let tree := treeOf l ids l.length [Config.otpUid] [Config.otpUid]
  let frame := s.fabric.dframe + 2
  let own := routeTable l ids tree Config.otpUid
  let s3 := s2.each (l.filter (fun m => m.uid != Config.otpUid && idOf ids m.uid != 255)) (fun s m =>
    let i := idOf ids m.uid
    s.queueDomain (fld (own.getD i 0) 1 0) i 6 4
      (routeBytes epoch frame (routeTable l ids tree m.uid)))
  let s4 := (s3.takeRoute frame own).sendQuorum
  (s4.planRejoin s4.ruling).tellHold

/-- The keystone's reports changed: when they are complete the epoch is formed. -/
def State.collect (s : State) (l : List MemberInfo) : State :=
  let s1 := s.onFab (fun f => { f with members := s.keptReports l })
  if s1.membersComplete then s1.form else s1

/-- A member becomes keystone, with the generator as the domain's source: its source instants lie LAT before the ticks that its
generator counts, so that its next tick is the one that holdover would give. Where that source instant has passed, the tick alone is
given (R313, R18). -/
def State.takeOverTick (s : State) : State :=
  if s.f R.LDG_CTL 1 0 = 2 ∧ s.f R.FAB_CTL 2 1 = 0 ∧ s.ledger.open_ = true then
    let lat := s.f R.FAB_TICKLAT 15 0 * 160
    let due := s.ledger.genBase + s.f R.LDG_PERIOD 23 0 * 160
    let s1 := ((s.onLdg (fun l => { l with genBase := l.genBase - lat, lost := false, back := none })).setB R.LDG_STAT 2 false).putF
      R.LDG_STAT 1 0 2
    if s.gen + lat ≤ due then s1
    else
      let d := s.fabric.dframe + 1
      (s1.onLdg (fun l => { l with genBase := due - lat, tickDue := true })).onFab (fun f =>
        { f with dframe := d, tickAt := some (s.tb + (due - s.gen), d) })
  else s

/-- A new epoch begins (R303): election, TOPO, and this member's report to the keystone. -/
def State.newEpoch (s : State) : State :=
  if s.fabEn = false then s
  else
    let (prio, uid, hops, port) := s.best
    let u : DWord := BitVec.ofNat 64 uid
    let changed := s.fabric.bestUid != u
    let s1 := (s.onFab (fun f =>
      { f with
        bestPrio := prio, bestUid := u, bestHops := hops, bestPort := if port = 4 then none else some port
        decision := none, ticksNoDecision := 0, rejoinWait := [], rejoinTell := false, norun := false, reentry := 0 })).fabInt 0
    let s2 := (if changed then s1.fabInt 2 else s1).setB R.FAB_REJSTAT 0 false
    let s3 := (s2.setB R.FAB_STAT 7 (port == 4)).sendAdverts
    if port = 4 then (if s.isKeystone then s3 else s3.takeOverTick).collect (if s.isKeystone then s.fabric.members else [])
    else (s3.onFab (fun f => { f with members := [] })).queueDomain port 0 6 2 (memberBytes s3.ownMember)

/-- The best pair known changes: another keystone begins an epoch; only another way to the same one is advertised (R303). -/
def State.reelect (s : State) : State :=
  let (_, uid, hops, port) := s.best
  if s.fabric.bestUid ≠ BitVec.ofNat 64 uid then s.newEpoch
  else if s.fabric.bestHops = hops then s
  else (s.onFab (fun f => { f with bestHops := hops, bestPort := if port = 4 then none else some port })).sendAdverts

/-- The path to the keystone led over port p. -/
def State.pathOver (s : State) (p : Nat) : Bool := s.fabric.bestPort == some p

/-- A partner is no member any more, or its link is gone: an epoch begins (R303). -/
def State.partnerGone (s : State) (p : Nat) : State :=
  let s1 := if s.pathOver p then s.forgetPairs else s
  (s1.onLnk p (fun l => { l with advSeen := false })).newEpoch

/-- ADVERT_SEND, every 10 µs: a partner that has not advertised for two such intervals has left the domain (R302, R303; log 75). -/
def State.advertTime (s : State) : State :=
  let gone := s.upPorts.filter (fun p => (s.lnk p).advSeen && decide ((s.lnk p).advAt + usTime 20 < s.now))
  if s.fabEn then (s.each gone (fun s p => s.partnerGone p)).sendAdverts else s

/-- ADVERT_SEND. -/
def execAdvertSend (s : State) : Res := .next (if s.running then s.advertTime else s)

/-- What a partner advertises: a pair 63 hops away or more is one that no member has any more (R303). -/
def LichenPort.noteAdvert (l : LichenPort) (a : Advert) (now : Nat) : LichenPort :=
  let far := decide (63 ≤ a.hops.toNat)
  { l with
    advOwn := a.prio.toNat, advAt := now, advPrio := if far then a.prio.toNat else a.bestPrio.toNat
    advUid := if far then a.uid else a.bestUid, advHops := if far then 0 else a.hops.toNat, advMode := a.mode.toNat
    advHeld := a.held, advSeen := true }

/-- ADVERT (R303): the partner's best pair, its ID, mode and HELD; a new partner or a new best pair begins an epoch. A partner on the
path to the keystone that no longer knows it ends that path. -/
def State.advert (s : State) (p : Nat) (a : Advert) : State :=
  let s0 := s.takeTyped p 6 1 (advertBytes a)
  if s.fabEn = false ∨ s.linkUp p = false then s0
  else
    let new := !(s.lnk p).advSeen
    let s1 := s0.onLnk p (fun l => l.noteAdvert a s.now)
    let s2 := (s1.putF (R.LNK_STAT p) 9 4 a.ownId.toNat).setB (R.LNK_STAT p) 10 (a.ownId.toNat < 64)
    let lost := s.pathOver p && (s2.lnk p).advUid != s.fabric.bestUid
    let s3 := if lost then s2.forgetPairs.onLnk p (fun l => l.noteAdvert a s.now) else s2
    if new then s3.newEpoch else s3.reelect

/-- ADVERT. -/
def execAdvert (port : Fin 4) (a : Advert) (s : State) : Res := .next (s.advert port.val a)

/-- A member that has entered Hold since it reported joins those that copy (R316). -/
def State.addHold (s : State) (id : Nat) : State :=
  let s1 := s.onFab (fun f => { f with rejoinWait := f.rejoinWait ++ [id], norun := f.members.all (fun m => !m.prevQuorate) })
  let st := if s1.fabric.norun then 3 else 1
  if s1.ownId = some id then s1.hearRejoin s1.fabric.norun else s1.sendRejoin id allRegions st

/-- A report as the keystone takes it: another member or link forms a new epoch; of a report that was known only the quorate flag can
begin a copy (R303, R316). -/
def State.memberHeard (s : State) (i : MemberInfo) : State :=
  let others := s.fabric.members.filter (fun x => x.uid != i.uid)
  match s.fabric.members.find? (fun x => x.uid == i.uid) with
  | some x =>
    if x.links = i.links ∧ s.fabUp = true then
      let s1 := s.onFab (fun f => { f with members := others ++ [i] })
      (match s1.fabric.decision with
        | some q => if x.prevQuorate = true ∧ i.prevQuorate = false ∧ q.quorate = true then s1.addHold (idOf s1.fabric.ids i.uid) else s1
        | none => s1)
    else s.collect (others ++ [i])
  | none => s.collect (others ++ [i])

/-- MEMBER (R295, R303): collected by the keystone, sent on up the tree by others. -/
def State.memberReport (s : State) (p : Nat) (m : MemberReport) : State :=
  let i : MemberInfo :=
    { uid := m.uid, weight := m.weight.toNat, pin := m.pin, pinId := m.pinId.toNat, prevId := m.prevId.toNat
      prevQuorate := m.prevQuorate, links := m.links.map (fun k => (k.1.val, k.2)) }
  let s1 := s.takeTyped p 6 2 (memberBytes i)
  if s.fabEn = false then s1
  else
    if s.isKeystone then s1.memberHeard i
    else match s.fabric.bestPort with
      | some q => s1.queueDomain q 0 6 2 (memberBytes i)
      | none => s1

/-- MEMBER. -/
def execMember (port : Fin 4) (m : MemberReport) (s : State) : Res := .next (s.memberReport port.val m)

/-- ASSIGN (R304): taken once per epoch, and sent on down the tree. -/
def State.assignPacket (s : State) (p : Nat) (epoch : DWord) (ids : List (DWord × Nat)) : State :=
  let s1 := s.takeTyped p 6 3 (assignBytes epoch ids)
  if s.fabEn = false ∨ s.isKeystone ∨ (epoch = s.fabric.epoch ∧ ids = s.fabric.ids) then s1
  else (s1.takeAssign epoch ids).floodDomain p 3 (assignBytes epoch ids)

/-- ASSIGN. -/
def execAssign (port : Fin 4) (epoch : BitVec 64) (ids : List (BitVec 64 × BitVec 8)) (s : State) : Res :=
  .next (s.assignPacket port.val epoch (ids.map (fun e => (e.1, e.2.toNat))))

/-- ROUTE (R306): for another member it goes on, by its assigned ID over the link on which that member's report came. -/
def State.routePacket (s : State) (p dst : Nat) (epoch frame : DWord) (t : List Word) : State :=
  let pl := routeBytes epoch frame t
  let s1 := s.takeTyped p 6 4 pl
  if s.fabEn = false then s1
  else if s.ownId ≠ some dst then s1.passOn p ((s.typedPacket p 6 4 pl).getD (domainPacket (s.f R.FAB_STAT 13 8) dst 6 4 pl))
  else if s.isKeystone ∨ epoch ≠ s.fabric.epoch then s1
  else s1.takeRoute frame (t.map (fun w => w &&& 0x3FF))

/-- ROUTE. -/
def execRoute (port : Fin 4) (dst : BitVec 6) (at_ : BitVec 64 × BitVec 64) (table : List Word) (s : State) : Res :=
  .next (s.routePacket port.val dst.toNat at_.1 at_.2 table)

/-- QUORUM (R315): held, and sent on once. -/
def State.quorumPacket (s : State) (p : Nat) (q : QuorumDecision) : State :=
  let s1 := s.takeTyped p 6 5 (quorumBytes q)
  if s.fabEn = false ∨ s.isKeystone ∨ q.epoch ≠ s.fabric.epoch ∨ s.fabric.decision = some q then s1
  else (s1.takeDecision q).floodDomain p 5 (quorumBytes q)

/-- QUORUM. -/
def execQuorum (port : Fin 4) (q : QuorumDecision) (s : State) : Res := .next (s.quorumPacket port.val q)

/-! ### Link states (R291): the commands that change membership -/

/-- LINK_SIGNAL_DETECT (R291): DOWN to TRAIN. In Dormant a signal is a wake source, and WAKE is its command. -/
def State.signalDetect (s : State) (p : Nat) : State :=
  if s.running ∧ s.lnkState p = 0 ∧ s.f (R.LNK_CTL p) 1 0 ≠ 0 then
    (s.setLnkState p 1).onLnk p (fun l => { l with retrainAt := s.now })
  else s

/-- LINK_SIGNAL_DETECT. -/
def execLinkSignalDetect (port : Fin 4) (s : State) : Res := .next (s.signalDetect port.val)

/-- LINK_TRAINED (R291): TRAIN to ALIGN, or back to DOWN after 500 ms. -/
def State.linkTrained (s : State) (p : Nat) (ok : Bool) : State :=
  if s.lnkState p ≠ 1 then s
  else if ok then s.setLnkState p 2
  else (s.untilTime ((s.lnk p).retrainAt + usTime 500000)).setLnkState p 0

/-- LINK_TRAINED. -/
def execLinkTrained (port : Fin 4) (ok : Bool) (s : State) : Res := .next (s.linkTrained port.val ok)

/-- LINK_ALIGNED (R291, R298): lock on all lanes. ALIGN to INIT, and the port sends INIT; in RETRAIN it sends RESYNC. -/
def State.linkAligned (s : State) (p : Nat) : State :=
  if s.lnkState p = 2 then (s.setLnkState p 3).sendControl p 2 false [Config.otpUid.toNat, s.prio, s.idByte]
  else if s.lnkState p = 5 then s.sendResync p
  else s

/-- LINK_ALIGNED. -/
def execLinkAligned (port : Fin 4) (s : State) : Res := .next (s.linkAligned port.val)

/-- INIT (R291, R299): the port comes UP with new accounts, and an epoch begins. -/
def State.linkInit (s : State) (p : Nat) (h : LinkHeader) (uid : DWord) (id : Nat) : State :=
  if s.lnkState p ≠ 3 then s
  else
    let acct := fun v => ({ cr := vcBuffer v } : VcAcct)
    let s1 := s.onLnk p (fun l =>
      { txq := l.txq, delays := l.delays, vc := ⟨acct 0, acct 1, acct 2, acct 3⟩, ackClk := s.clk })
    let s2 := ((s1.wr (R.LNK_PEERUID_LO p) (BitVec.ofNat 32 uid.toNat)).wr (R.LNK_PEERUID_HI p)
      (BitVec.ofNat 32 (uid.toNat / 2 ^ 32))).putF (R.LNK_STAT p) 9 4 id
    (((s2.setB (R.LNK_STAT p) 10 (id < 64)).setLnkState p 4).takeHeader p h).newEpoch

/-- INIT. -/
def execLinkInit (port : Fin 4) (hdr : LinkHeader) (uid : BitVec 64) (prioId : BitVec 8 × BitVec 8) (s : State) : Res :=
  .next (s.linkInit port.val hdr uid prioId.2.toNat)

/-- The port goes DOWN; where its link was UP, an epoch begins (R299, R303). -/
def State.linkDown (s : State) (p : Nat) : State :=
  if s.lnkState p = 0 then s else if s.linkUp p then (s.portDown p).partnerGone p else s.portDown p

/-- Uncorrectable FEC codewords noted with their time: the last 8, of the last 1 ms (R291). -/
def LichenPort.noteFec (l : LichenPort) (n now : Nat) : LichenPort :=
  { l with fecAt := (List.replicate (min n 8) now ++ l.fecAt.filter (fun t => decide (now ≤ t + usTime 1000))).take 8 }

/-- LINK_RETRAIN (R291): loss of lock (no codewords given), or uncorrectable FEC codewords, 8 of which within 1 ms retrain. -/
def State.linkRetrain (s : State) (p fec : Nat) : State :=
  if s.lnkState p ≠ 4 then s
  else if fec = 0 then s.enterRetrain p
  else
    let s1 := ((s.count (R.LNK_FECUE p) 32 fec).setB (R.LNK_INT p) 4 true).onLnk p (fun l => l.noteFec fec s.now)
    if (s1.lnk p).fecAt.length = 8 then s1.enterRetrain p else s1

/-- LINK_RETRAIN. -/
def execLinkRetrain (port : Fin 4) (fecWords : Nat) (s : State) : Res := .next (s.linkRetrain port.val fecWords)

/-- A failed retrain, and the epoch that a port gone DOWN begins. -/
def State.failRetrain (s : State) (p : Nat) : State :=
  let (s1, down) := s.retrainFails p
  if down then s1.partnerGone p else s1

/-- A write of LNKp_CTL (R291, R321). -/
def State.writeLnkCtl (s : State) (p : Nat) (v : Word) : State :=
  let s1 := s.wr (R.LNK_CTL p) (v &&& 0xFF13)
  let s2 := if v.getLsbD 2 then s1.enterRetrain p else s1
  if fld v 1 0 = 0 ∨ v.getLsbD 3 = true then s2.linkDown p else s2

/-- A write of FAB_CTL (R302): with EN = 0 the device leaves its domain, its routes end and no data packet goes out any more. -/
def State.writeFabCtl (s : State) (v : Word) : State :=
  let s1 := s.wr R.FAB_CTL (v &&& 7)
  if v.getLsbD 0 then (if s.fabEn then s1 else s1.newEpoch)
  else
    let s2 := s1.onFab (fun f =>
      { f with members := [], ids := [], decision := none, pendingRoute := none, bestPort := none, rejoinWait := [], rejoinTell := false })
    let s3 := s2.each (List.range 4) (fun s p =>
      ((s.dropPacket p (s.lnk p).txq.length).onLnk p (fun l => { l with txq := [], advSeen := false })).putF (R.LNK_STAT p) 12 11 0)
    ((s3.each (List.range 64) (fun s d => s.wr (R.FAB_RT d) 0)).setB R.FAB_REJSTAT 0 false).wr R.FAB_STAT 0x8000

/-! ### Domain tick (R312, R313) -/

/-- A TICK payload (R312). -/
def tickBytes (dframe : DWord) (acc period lat uid : Nat) : List Byte :=
  leBytes 8 dframe.toNat ++ leBytes 8 acc ++ leBytes 4 period ++ leBytes 4 lat ++ leBytes 8 uid

/-- Ports down the tree. -/
def State.downPorts (s : State) : List Nat :=
  s.upPorts.filter (fun p => s.b (R.LNK_STAT p) 11 && !s.b (R.LNK_STAT p) 12)

/-- ACC of a TICK that is queued now: what it held, less the timebase; departure adds the timebase (R312). -/
def State.accFrom (s : State) (acc : Nat) : Nat := (acc + 2 ^ 64 - s.tb % 2 ^ 64) % 2 ^ 64

/-- At a source instant the keystone sends TICK down the tree, its decision after it, and sets its own instant (R312,
R315). -/
def State.keystoneSend (s : State) (src : Nat) : State :=
  if s.fabEn && s.isKeystone && s.f R.FAB_CTL 2 1 == src then
    let d := s.fabric.dframe + 1
    let lat := s.f R.FAB_TICKLAT 15 0
    let s1 := s.each s.downPorts (fun s p =>
      s.queueDomain p 0 5 0 (tickBytes d (s.accFrom 0) (s.f R.LDG_PERIOD 23 0) lat Config.otpUid.toNat))
    let s2 := (s1.onFab (fun f => { f with dframe := d, tickAt := some (s.tb + lat * 160, d) })).sendQuorum
    if s.f R.LDG_CTL 1 0 = 2 then s2.onLdg (fun l =>
      if l.lost then { l with back := some (s.gen + lat * 160) } else { l with tickDue := true })
    else s2
  else s

/-- TICK_PACKET (R312, R313): forwarded down the tree with the link's delay and this device's residence added; its instant is this
member's next tick, or, of a source that was lost, what its return is measured by (R18). -/
def State.tickPacket (s : State) (p : Nat) (d : DWord) (acc period lat uid : Nat) : State :=
  let s0 := s.takeTyped p 5 0 (tickBytes d acc period lat uid)
  if s.fabEn = false ∨ s.linkUp p = false then s0
  else
    let total := acc + s.f (R.LNK_DELAY p) 23 0
    let s1 := s0.each (s0.downPorts.filter (fun q => q != p)) (fun s q => s.queueDomain q 0 5 0 (tickBytes d (s.accFrom total) period lat uid))
    let mine := s.f R.LDG_CTL 1 0 == 2
    if period ≠ s.f R.LDG_PERIOD 23 0 then
      let s2 := s1.fabInt 4
      if mine then s2.loseSource else s2
    else
      let at_ := s.tb + lat * 160 - total
      let late := decide (s.tb + lat * 160 < total + s.tb)
      let s2 := (if late then s1.fabInt 3 else s1).onFab (fun f => { f with dframe := d, tickAt := some (max s.tb at_, d) })
      if mine then s2.onLdg (fun l =>
        if l.lost then { l with back := some (s.gen + (max s.tb at_ - s.tb)) } else { l with tickDue := true })
      else s2

/-- TICK_PACKET. -/
def execTickPacket (port : Fin 4) (dframe : BitVec 64) (acc period lat : Nat) (uid : BitVec 64) (s : State) : Res :=
  .next (s.tickPacket port.val dframe acc period lat uid.toNat)

/-! ### Rejoin (R316, R317) -/

/-- REJOIN at the device it names (R295, R316, R317): progress is recorded; the keystone's word reaches a Hold member and a member's
last report the keystone; a source that is not in Run says that the copy fails. -/
def State.rejoinReport (s : State) (src region st : Nat) : State :=
  if region = allRegions then
    (if st = 2 then (if s.isKeystone then s.memberDone src else s)
    else if src = s.f R.FAB_STAT 13 8 then s.hearRejoin (st == 3)
    else s)
  else
    let s1 := s.onFab (fun f => { f with copyState := sput (fun _ => 0) f.copyState (256 * src + region) st })
    if st = 1 ∧ s.mode ≠ 3 then s1.sendRejoin src region 3
    else if st = 3 ∧ s.b R.FAB_REJSTAT 0 = true ∧ s.f R.FAB_REJSTAT 4 1 = region ∧ (s.fabric.regions.getD region {}).srcDev = src then s1.copyFails
    else s1

/-- REJOIN (R316), for this device or on its way. -/
def State.rejoinPacket (s : State) (dst src region st : Nat) : State :=
  let pl := leBytes 1 region ++ leBytes 1 st
  let p := s.typedPort 7 pl
  let s1 := s.takeTyped p 6 7 pl
  if s.fabEn = false then s1
  else if s.ownId = some dst then s1.rejoinReport src region st
  else s1.passOn p ((s.typedPacket p 6 7 pl).getD (domainPacket src dst 6 7 pl))

/-- REJOIN. -/
def execRejoin (dst src : BitVec 6) (copy : BitVec 8 × BitVec 8) (s : State) : Res :=
  .next (s.rejoinPacket dst.toNat src.toNat copy.1.toNat copy.2.toNat)

/-- REJOIN_COPY (R316): this device, in Run and in its idle window, sends a region that a member copies as COPY packets. Asked while it
is not in Run it says so. -/
def State.rejoinCopy (s : State) (region member dst len src : Nat) : State :=
  if sget (fun _ => 0) s.fabric.copyState (256 * member + region) ≠ 1 then s
  else if s.mode ≠ 3 then s.sendRejoin member region 3
  else if s.idleWindow = true ∧ s.fabUp = true ∧ s.b (R.FAB_RT member) 2 = true ∧ len ≤ 524288 then
    s.each (blocks dst len) (fun s e =>
      match s.readMem { master := 11, machine := true } (src + (e.1 - dst)) e.2 with
      | (s1, .ok d) => s1.queuePacket (s1.fabPort member)
          { op := 7, vc := 3, dst := BitVec.ofNat 6 member, src := s1.srcId, late := false, morg := true, sub := 0, hi := false
            len := BitVec.ofNat 12 e.2, tag := 0, addr := BitVec.ofNat 41 e.1, payload := d }
      | (s1, _) => s1)
  else s

/-- REJOIN_COPY. -/
def execRejoinCopy (region : Fin 16) (member : BitVec 6) (dst len src : Nat) (s : State) : Res :=
  .next (s.rejoinCopy region.val member.toNat dst len src)

/-- Bytes of the present region written: a region written whole is done, its source hears so, and the next begins (R316). -/
def State.copyProgress (s : State) (n : Nat) : State :=
  if s.b R.FAB_REJSTAT 0 = false then s
  else
    let i := s.f R.FAB_REJSTAT 4 1
    let r := s.fabric.regions.getD i {}
    let s1 := s.onFab (fun f => { f with copied := f.copied + n })
    if r.len ≤ s1.fabric.copied then (s1.sendRejoin r.srcDev i 2).beginRegion (i + 1) else s1

/-- A copy whose source has no route any more stops (R316). -/
def State.checkSource (s : State) : State :=
  let r := s.fabric.regions.getD (s.f R.FAB_REJSTAT 4 1) {}
  if s.b R.FAB_REJSTAT 0 = true ∧ s.b (R.FAB_RT r.srcDev) 2 = false then s.copyFails else s

/-! ### Twins (R318-R320) -/

/-- A write of FAB_TWIN (R318, R320): the configured lead, until a decision of the keystone names the pair and its lead (R295). -/
def State.writeTwin (s : State) (v : Word) : State :=
  (s.wr R.FAB_TWIN ((v &&& 0x3FF) ||| (if v.getLsbD 0 ∧ v.getLsbD 7 then 0x400 else 0))).onFab (fun f =>
    { f with leadGone := none, paired := false })

/-- Twin policy on a mismatch or an absent digest (R319). -/
def State.twinFail (s : State) (bit : Nat) (policy : Bool) : State :=
  let s1 := (s.fabInt bit).count R.FAB_TWINMISCNT 32 1
  if policy && s.b R.FAB_TWIN 8 then s1.onFab (fun f => { f with twinHold := true }) else s1

/-- The own and the peer's digest of one frame compared, once both are there (R319). -/
def State.judgeDigest (s : State) : State :=
  match s.fabric.ownDigest, s.fabric.peerDigest with
  | some a, some (fr, b) =>
    if s.fabric.digestJudged ∨ fr ≠ s.fabric.dframe then s
    else
      let s1 := s.onFab (fun f => { f with digestJudged := true })
      if a = b then s1.onFab (fun f => { f with matched := true }) else s1.twinFail 5 true
  | _, _ => s

/-- The bytes of the twin regions, in table order (R319). -/
def State.twinBytes (s : State) : List Byte :=
  s.fabric.twinRegions.flatMap (fun r => (List.range r.2).map (fun i =>
    let x := s.home (r.1 + i)
    match s.locate x with
    | .bank b off => s.byte (s.bankAddr b off)
    | _ => s.byte x))

/-- At T_DL the twin's digest is computed and sent (R319). -/
def State.twinDigest (s : State) : State :=
  if s.isTwin && s.inFrame && !s.ledger.skipped then
    let d := crc64 0 0 s.twinBytes
    let s1 := (s.onFab (fun f => { f with ownDigest := some (BitVec.ofNat 64 d) })).wr R.FAB_DIG_LO (BitVec.ofNat 32 d)
    let s2 := s1.wr R.FAB_DIG_HI (BitVec.ofNat 32 (d / 2 ^ 32))
    let peer := s.f R.FAB_TWIN 6 1
    let s3 := if s.b (R.FAB_RT peer) 2 then
        s2.queueDomain (s.fabPort peer) peer 6 6 (leBytes 8 s.fabric.dframe.toNat ++ leBytes 8 d) else s2
    s3.judgeDigest
  else s

/-- DIGEST (R319), for this device or on its way. -/
def State.digestPacket (s : State) (dst : Nat) (frame d : DWord) : State :=
  let pl := leBytes 8 frame.toNat ++ leBytes 8 d.toNat
  let p := s.typedPort 6 pl
  let s0 := s.takeTyped p 6 6 pl
  if s.fabEn = false then s0
  else if s.ownId ≠ some dst then s0.passOn p ((s.typedPacket p 6 6 pl).getD (domainPacket 0 dst 6 6 pl))
  else if s.b R.FAB_TWIN 0 = false then s0
  else
    let s1 := (s0.onFab (fun f => { f with peerDigest := some (frame, d) })).wr R.FAB_PEERDIG_LO (BitVec.ofNat 32 d.toNat)
    (s1.wr R.FAB_PEERDIG_HI (BitVec.ofNat 32 (d.toNat / 2 ^ 32))).judgeDigest

/-- DIGEST. -/
def execDigest (dst : BitVec 6) (of_ : BitVec 64 × BitVec 64) (s : State) : Res := .next (s.digestPacket dst.toNat of_.1 of_.2)

/-- The peer shows HELD on a port (R302). -/
def State.peerShows (s : State) (g : LichenPort → Bool) : Bool :=
  (List.range 4).any (fun p => s.b (R.LNK_STAT p) 10 && s.f (R.LNK_STAT p) 9 4 == s.f R.FAB_TWIN 6 1 && (s.lnk p).advSeen && g (s.lnk p))

/-- At T_OUT a digest that has not arrived is absent; a peer that is halted is recorded without policy (R319). -/
def State.twinAbsent (s : State) : State :=
  if s.isTwin && s.inFrame && s.fabric.ownDigest.isSome && !s.fabric.digestJudged then
    (s.onFab (fun f => { f with digestJudged := true })).twinFail 6 (!s.peerShows (fun l => l.advHeld))
  else s

/-! ### At a tick (R306, R315, R317, R319, R320) -/

/-- The members of the epoch as a set of device IDs. -/
def Fabric.memberSet (f : Fabric) : Nat := f.ids.foldl (fun m e => if e.2 < 64 then m ||| 2 ^ e.2 else m) 0

/-- A decision applied: QUORATE shown, trap 0x10 on a change of QUORATE or membership (R315). -/
def State.applyDecision (s : State) (q : QuorumDecision) : State :=
  let now := (q.quorate, s.fabric.memberSet)
  if s.fabric.applied = some now then s
  else
    let s1 := s.onFab (fun f => { f with applied := some now })
    let s2 := if s.b R.FAB_STAT 15 = q.quorate then s1 else (s1.setB R.FAB_STAT 15 q.quorate).fabInt 1
    s2.raiseMachine 4

/-- A non-lead takes over at the second tick after the tick that ended the frame in which it saw the lead go (R320). -/
def State.leadTick (s : State) : State :=
  let quorate := match s.fabric.decision with
    | some q => q.quorate
    | none => false
  let gone := !s.fabric.ids.any (fun e => e.2 == s.f R.FAB_TWIN 6 1) || s.peerShows (fun l => l.advMode == 4)
  if s.mutedTwin && quorate && gone then
    match s.fabric.leadGone with
    | none => s.onFab (fun f => { f with leadGone := some 0 })
    | some 0 => s.onFab (fun f => { f with leadGone := some 1 })
    | some _ => (s.setB R.FAB_TWIN 10 true).onFab (fun f => { f with leadGone := none })
  else s.onFab (fun f => { f with leadGone := none })

/-- The decision of the epoch at a tick; whether it asks for Hold: a decision of not quorate, or the second tick without one
(R315). -/
def State.judged (s : State) : State × Bool :=
  match s.fabric.decision with
  | some q => ((s.applyDecision q).statedLead q, !q.quorate)
  | none => (s.onFab (fun f => { f with ticksNoDecision := f.ticksNoDecision + 1 }), decide (2 ≤ s.fabric.ticksNoDecision + 1))

/-- Hold for want of quorum: a lead stops, and a member without a decision reports again, no longer quorate (R315, R316, R320). -/
def State.loseQuorum (s : State) : State :=
  let s1 := (s.setB R.FAB_TWIN 10 false).onFab (fun f => { f with quorumHold := true, twinHold := false })
  if s.fabric.decision.isSome then s1
  else if s1.isKeystone then s1.memberHeard s1.ownMember
  else match s1.fabric.bestPort with
    | some q => s1.queueDomain q 0 6 2 (memberBytes s1.ownMember)
    | none => s1

/-- The re-entry frame has come for a member in Hold for want of quorum: it is quorate, and as a twin its digest has matched its peer's
in a frame since its copy (R317). -/
def State.reenters (s : State) (hold : Bool) : Bool :=
  s.fabric.quorumHold && s.mode == 4 && s.fabric.reentry != 0 && decide (s.fabric.reentry.toNat ≤ s.fabric.dframe.toNat) && !hold &&
    (s.fabric.matched || !(s.isTwin && s.fabric.ids.any (fun e => e.2 == s.f R.FAB_TWIN 6 1)))

/-- The fabric's part of a tick in Run or Hold: the domain frame, routes, decision, twins; and the mode it asks for. -/
def State.fabricTick (s : State) : State × Option Nat :=
  if s.fabEn = false then (s, none)
  else
    let d := s.fabric.dframe
    let s0 := ((s.wr R.FAB_DFRAME_LO (BitVec.ofNat 32 d.toNat)).wr R.FAB_DFRAME_HI (BitVec.ofNat 32 (d.toNat / 2 ^ 32))).onFab
      (fun f => { f with ownDigest := none, digestJudged := false, copied := 0 })
    let s1 := match s0.fabric.pendingRoute with
      | some (fr, t) => if fr.toNat ≤ d.toNat then s0.applyRoute t else s0
      | none => s0
    let (s2, hold) := s1.judged
    let s3 := s2.leadTick
    if hold ∧ s3.mode = 3 then (s3.loseQuorum, some 4)
    else if s3.fabric.twinHold ∧ s3.mode = 3 then (s3.onFab (fun f => { f with twinHold := false }), some 4)
    else if s3.reenters hold then ((s3.onFab (fun f => { f with quorumHold := false, reentry := 0 })).fabInt 7, some 3)
    else (s3.checkSource.tellHold, none)

/-! ### Packets for this device -/

/-- A packet is for this device. -/
def State.isMine (s : State) (k : Packet) : Bool := s.ownId == some k.dst.toNat

end Sys2Proof.Machine
end

