-- ==== Sys2Proof/Machine/Issue.lean ====
section
/-! DEFINITION. Segment descriptors, and the issue of a vector job (R100-R110): the checks in their order, the streams'
footprints, the port assignment, the charges of a captured descriptor, and the ledger's answer. -/

namespace Sys2Proof.Machine

/-! ### Segment descriptors (R185) -/

/-- A descriptor from its 16 bytes. -/
def parseDesc (b : List Byte) : SegDesc :=
  let w0 := leVal (b.take 4)
  let w1 := leVal ((b.drop 4).take 4)
  let w2 := leVal ((b.drop 8).take 4)
  let w3 := leVal ((b.drop 12).take 4)
  { base := w0 + w1 % 65536 * 2 ^ 32, limit := w2, r := w3.testBit 0, w := w3.testBit 1, x := w3.testBit 2,
    minpl := bits w3 5 4, present := w3.testBit 7,
    bad := decide (65536 ≤ w1) || decide (256 ≤ w3) || w3.testBit 3 || w3.testBit 6 }

/-- Physical address of the descriptor of a selector. -/
def State.descAddr (s : State) (sel : Nat) : Nat :=
  ((s.rd R.STM_DTBASE_LO).toNat / 16 * 16 + s.f R.STM_DTBASE_HI 15 0 * 2 ^ 32 + sel / 8 * 16) % 2 ^ 48

/-- The selector is non-null, aligned, and its index lies below STM_DTCOUNT (R103). -/
def State.selOk (s : State) (sel : Nat) : Bool :=
  decide (8 ≤ sel) && sel % 8 == 0 && decide (sel / 8 < s.f R.STM_DTCOUNT 13 0)

/-- The descriptor's conditions of R103 for a level and rights. -/
def SegDesc.usable (d : SegDesc) (pl : Nat) (needR needW : Bool) : Bool :=
  d.present && !d.bad && d.minpl != 2 && decide (d.minpl ≤ pl) && (!needR || d.r) && (!needW || d.w)

/-- What a step of an issue answers: a value, a fault found at issue (code, FSEL, FADDR), or a wait: for a remote
response, or for a bank or channel that accepts no access now. -/
inductive Chk (α : Type) where
  | ok (a : α)
  | fault (code fsel faddr : Nat)
  | need (dev w len addr : Nat) (data : List Byte)
  | wait
  deriving DecidableEq, Repr

/-- The next step of an issue, if this one answered a value. -/
def chkBind {α β : Type} (r : State × Chk α) (k : State → α → State × Chk β) : State × Chk β :=
  match r with
  | (s, .ok a) => k s a
  | (s, .fault c f x) => (s, .fault c f x)
  | (s, .need dv w n a d) => (s, .need dv w n a d)
  | (s, .wait) => (s, .wait)

/-- The outcome of a read as an issue step: a bus error is VF_BUS with the operand given. -/
def accChk (r : State × AccRes) (w : Who) (a fsel faddr : Nat) : State × Chk (List Byte) :=
  match r with
  | (s, .ok d) => (s, .ok d)
  | (s, .err _) => (s, .fault 9 fsel faddr)
  | (s, .wait) => (s, .wait)
  | (s, .control _) =>
    let (m, c) := s.controlRefusal w a false
    (s.busError m 30 false c a, .fault 9 fsel faddr)
  | (s, .need dv w n a d) => (s, .need dv w n a d)

/-- Low 32 bits of a signed offset: FADDR (R85). -/
def faddrOf (i : Int) : Nat := ofSigned 32 i

/-- WIDE of FSEL (R85): the offset was negative or at least 2^32. -/
def wideOf (i : Int) : Nat := if i < 0 ∨ (2 ^ 32 : Nat) ≤ i then 2 ^ 19 else 0

/-- A selector's descriptor read and checked (R103): VF_SEG for a failed check, VF_BUS for a failed read; `off` is the offset
recorded. -/
def State.segment (s : State) (w : Who) (ans : List RemoteAnswer) (pl sel operand : Nat) (off : Int) (needR needW : Bool) :
    State × Chk SegDesc :=
  let fsel := sel + operand * 65536 + wideOf off
  if s.selOk sel = false then (s, .fault 7 fsel (faddrOf off))
  else chkBind (accChk (s.readAns w ans (s.descAddr sel) 16) w (s.descAddr sel) fsel (faddrOf off)) (fun s1 b =>
    let d := parseDesc b
    if d.usable pl needR needW then (s1, .ok d) else (s1, .fault 7 fsel (faddrOf off)))

/-- Descriptors for a list of uses (selector, operand, FADDR, R, W), in order, added to those captured. -/
def State.segments (s : State) (w : Who) (ans : List RemoteAnswer) (pl : Nat) :
    List (Nat × Nat × Int × Bool × Bool) → List (Nat × SegDesc) → State × Chk (List (Nat × SegDesc))
  | [], acc => (s, .ok acc)
  | (sel, k, fa, r, wr) :: t, acc =>
    chkBind (s.segment w ans pl sel k fa r wr) (fun s1 d =>
      s1.segments w ans pl t (if acc.any (fun e => e.1 == sel) then acc else acc ++ [(sel, d)]))

/-- A captured descriptor by selector. -/
def segOf (segs : List (Nat × SegDesc)) (sel : Nat) : SegDesc :=
  ((segs.find? (fun e => e.1 == sel)).map (fun e => e.2)).getD {}

/-- A stream addressed by p_i (R140): W of COMPRESS, A of EXPAND. -/
def VJob.byP (v : VJob) (k : Nat) : Bool := (k == 4 && v.has 0x51) || (k == 0 && v.has 0x52)

/-- The selector uses of a job in the order of R103, before SG1: selector, operand, the offset recorded, and the rights needed.
For a W with fewer positions than elements the offset is that of position 0, or of the row of element RI (log 68). -/
def VJob.uses (v : VJob) : List (Nat × Nat × Int × Bool × Bool) :=
  let ri := vw v.words 3
  let idx := v.indexed.map (fun k => ((opnd v.words k).isel, 6, (((opnd v.words k).w2 + 4 * ri : Nat) : Int), true, false))
  let dat := fun k (r w : Bool) =>
    let o := opnd v.words k
    let at_ := if k = 4 ∧ opOneOut v.last.op = true then 0 else if k = 4 ∧ opMat v.last.op = true then ri / v.kOf else ri
    (o.sel, k, (if o.form = 2 ∨ v.byP k = true then (o.w1 : Int) else v.pos k at_), r, w)
  idx ++ (if v.hasM then [dat 5 true false] else []) ++ v.sources.map (fun k => dat k true false) ++
    (if v.hasW then [dat 4 false true] else [])

/-! ### Streams and their footprints -/

/-- An access range of a linear, structure or mask stream of a slot: first and last segment offset over positions
a to a + m - 1 (m at least 1). -/
def VJob.extent (v : VJob) (k a m : Nat) : Int × Int :=
  let ps := if opMat v.last.op && (k == 0 || k == 1) then (List.range m).map (fun i => v.pos k (a + i))
    else [v.pos k a, v.pos k (a + m - 1)]
  (ps.foldl min (v.pos k a), ps.foldl max (v.pos k a) + (v.width k - 1 : Nat))

/-- Active bits below position n of M, from the mask's bytes. -/
def countBits (b : List Byte) (first n : Nat) : Nat :=
  ((List.range n).filter (fun i => ((b.getD ((first + i) / 8 - first / 8) 0).getLsbD ((first + i) % 8)))).length

/-- The footprint in home physical addresses (R100). -/
def State.footprint (s : State) (d : SegDesc) (lo hi : Int) : Nat × Nat :=
  let a := s.home ((d.base + lo).toNat)
  let b := s.home ((d.base + hi).toNat)
  (min a b, max a b)

/-- Two ranges intersect. -/
def meets (a b : Nat × Nat) : Bool := decide (a.1 ≤ b.2) && decide (b.1 ≤ a.2)

/-- The segment offset of the first access of a stream from element RI on: by R89's formula, by p_RI, or by row and column (R89,
R140, R144). -/
def VJob.start (v : VJob) (k pri : Nat) : Int := v.pos k (if v.byP k then pri else vw v.words 3)

/-- The bytes of a slot's stream from element RI on, as segment offsets; none: it accesses no position. The PWL table is its K
records (R142). -/
def VJob.range (v : VJob) (k pri : Nat) : Option (Int × Int) :=
  if v.tableSlot = some k then
    some ((opnd v.words k).w1, ((opnd v.words k).w1 + 2 * tyBytes (v.opTy k) * v.kOf - 1 : Nat))
  else
    let (a, m) := v.span k (vw v.words 3) v.n pri
    if m = 0 then none else some (v.extent k a m)

/-- A linear or structure source is identical to W (R100): the same resolved address of element RI, byte stride, element size,
form and, for structure, F and FIDX; of mask streams the stride is 1/8 byte. -/
def State.identical (s : State) (v : VJob) (dk dw : SegDesc) (k pri : Nat) : Bool :=
  let o := opnd v.words k
  let ow := opnd v.words 4
  let at_ := fun (d : SegDesc) (o : Int) => s.home ((d.base + o).toNat)
  v.tableSlot != some k && at_ dk (v.start k pri) == at_ dw (v.start 4 pri) && (v.opTy k == 12) == (v.opTy 4 == 12) &&
    (v.opTy 4 == 12 || (v.step k == v.step 4 && tyBytes (v.opTy k) == v.width 4)) && o.form == ow.form &&
    o.fcnt == ow.fcnt && o.fidx == ow.fidx

/-- The overlap check of R100: W linear or structure against every source stream; `pri` is p_RI. -/
def State.overlaps (s : State) (v : VJob) (segs : List (Nat × SegDesc)) (pri : Nat) : Bool :=
  let ri := vw v.words 3
  let ow := opnd v.words 4
  if ow.form ≠ 1 ∧ ow.form ≠ 3 then false
  else
    match v.range 4 pri with
    | none => false
    | some (wl, wh) =>
      let dw := segOf segs ow.sel
      let fw := s.footprint dw wl wh
      let start := fun (d : SegDesc) (o : Int) => s.home ((d.base + o).toNat)
      let oneSource := fun k =>
        let o := opnd v.words k
        if o.form = 2 then false
        else match v.range k pri with
          | none => false
          | some (lo, hi) =>
            let d := segOf segs o.sel
            let fields := o.form == 3 && ow.form == 3 && start d o.w1 == start dw ow.w1 && o.fcnt == ow.fcnt &&
              v.width k == v.width 4 && o.fidx != ow.fidx
            meets (s.footprint d lo hi) fw && !(s.identical v d dw k pri || fields)
      let oneIndex := fun k =>
        let o := opnd v.words k
        let d := segOf segs o.isel
        let lo : Nat := o.w2 + 4 * ri
        let hi : Nat := o.w2 + 4 * v.n - 1
        let same := start d lo == start dw (v.start 4 pri) && ow.form == 1 && v.step 4 == 4 && v.width 4 == 4
        meets (s.footprint d lo hi) fw && !same
      v.sources.any oneSource || (v.hasM && oneSource 5) || v.indexed.any oneIndex

/-! ### Port assignment (R53) -/

/-- Keys of a job's streams: the slot, or 10 + slot for its index stream; in the order of R53. -/
def VJob.keys (v : VJob) : List Nat :=
  v.sources ++ (if v.hasM then [5] else []) ++ v.indexed.map (· + 10) ++ (if v.hasW then [4] else [])

/-- The physical range that a stream may touch for R53 and R28: the captured segment for an indexed stream and the PWL
table, the stream's extent otherwise. -/
def State.keyRange (s : State) (v : VJob) (segs : List (Nat × SegDesc)) (key : Nat) : Option (Nat × Nat) :=
  let ri := vw v.words 3
  if 10 ≤ key then
    let o := opnd v.words (key - 10)
    let d := segOf segs o.isel
    some (s.footprint d (o.w2 + 4 * ri : Nat) (o.w2 + 4 * v.n - 1 : Nat))
  else
    let o := opnd v.words key
    let d := segOf segs o.sel
    if o.form = 2 ∨ v.tableSlot = some key then some (s.home d.base, s.home d.base + d.limit)
    else
      let first := if key = 5 ∧ (v.has 0x51 || v.has 0x52) then 0 else ri
      let (a, m) := if key = 5 then (first, v.n - first) else
        if (key = 4 ∧ v.has 0x51 = true) ∨ (key = 0 ∧ v.has 0x52 = true) then (ri, v.n - ri) else v.span key ri v.n ri
      if m = 0 then none
      else
        let (lo, hi) := v.extent key a m
        some (s.footprint d lo hi)

/-- A stream reaches its bytes through this device's own remote window: its accesses are the Lichen engine's (R50, R52), and it lies
in no home bank for R53. -/
def State.ownStream (s : State) (v : VJob) (segs : List (Nat × SegDesc)) (key : Nat) : Bool :=
  if 10 ≤ key then
    let o := opnd v.words (key - 10)
    s.isOwnWindow ((segOf segs o.isel).base + o.w2 + 4 * vw v.words 3)
  else
    let o := opnd v.words key
    let d := segOf segs o.sel
    s.isOwnWindow (if o.form = 2 then d.base else (d.base + v.start key 0).toNat)

/-- A home range touches bank b. -/
def touchesBank (r : Nat × Nat) (b : Nat) : Bool := meets r (bankHome b, bankHome b + bankSize b - 1)

/-- The port of a home bank that R53 gives a stream: A for the first, third, ... stream that touches it. -/
def State.portB (s : State) (v : VJob) (segs : List (Nat × SegDesc)) (key b : Nat) : Bool :=
  let before := v.keys.takeWhile (· != key)
  let n := (before.filter (fun k => !s.ownStream v segs k &&
    (match s.keyRange v segs k with | some r => touchesBank r b | none => false))).length
  n % 2 == 1

/-- The account of an access of a stream to bank b by Frond fr (R28). -/
def State.bankAcct (s : State) (v : VJob) (segs : List (Nat × SegDesc)) (key b fr : Nat) : Nat :=
  if b < 16 ∧ b / 2 = fr ∧ s.ownStream v segs key = false then 32 + 2 * b + b2n (s.portB v segs key b) else 33 + 2 * b

/-! ### Charges -/

/-- The strip member that moves element i (R95). -/
def memberOf (v : VJob) (base gang ri0 i : Nat) : Nat := base + (i - ri0) / v.sl % gang

/-- The elements from RI on that member i of a gang moves (R95): those of its strips. -/
def movedBy (v : VJob) (gang i : Nat) : Nat :=
  let n := v.n - vw v.words 3
  let strips := ceilDiv n v.sl
  let mine := (strips + gang - 1 - i) / gang
  mine * v.sl - (if 0 < strips ∧ (strips - 1) % gang = i then strips * v.sl - n else 0)

/-- The members of a gang that move accesses of a stream (R31): those with a strip, of W with fewer positions than elements those
whose strips write one. -/
def moversOf (v : VJob) (base gang key : Nat) : List Nat :=
  let ri := vw v.words 3
  let mems := (List.range (min gang (ceilDiv (v.n - ri) v.sl))).map (fun i => base + i)
  if key = 4 ∧ opOneOut v.last.op = true then [memberOf v base gang ri (v.n - 1)]
  else if key = 4 ∧ opMat v.last.op = true then
    let rows := (List.range (v.n / v.kOf - ri / v.kOf)).map (fun r => memberOf v base gang ri ((ri / v.kOf + r + 1) * v.kOf - 1))
    mems.filter (fun m => rows.contains m)
  else mems

/-- Bank charges of one linear stream, access by access: a line counts when the access before did not hold it (R28). -/
def State.bankCharges (s : State) (v : VJob) (segs : List (Nat × SegDesc)) (base gang key ri0 : Nat) (d : SegDesc)
    (at_ : Nat → Int) (width : Nat) (elem : Nat → Nat) : Nat → Nat → Option (Nat × Nat) → SMap Nat → SMap Nat
  | 0, _, _, m => m
  | fuel + 1, i, prev, m =>
    let a := s.home ((d.base + at_ i).toNat)
    let l1 := a / 64
    let l2 := (a + width - 1) / 64
    let fr := memberOf v base gang ri0 (elem i)
    let cnt := fun (m : SMap Nat) (l : Nat) =>
      match prev with
      | some (p, q) => if p ≤ l ∧ l ≤ q then m else (match s.locate (l * 64) with
        | .bank b _ => addCharge m (s.bankAcct v segs key b fr) 1
        | _ => m)
      | none => (match s.locate (l * 64) with
        | .bank b _ => addCharge m (s.bankAcct v segs key b fr) 1
        | _ => m)
    let m1 := if l1 = l2 then cnt m l1 else cnt (cnt m l1) l2
    s.bankCharges v segs base gang key ri0 d at_ width elem fuel (i + 1) (some (l1, l2)) m1

/-- A home range meets DDR5. -/
def touchesDdr (r : Nat × Nat) : Bool := meets r (ddrBase, ddrBase * 2 - 1)

/-- A range meets the remote windows; the device of its first byte. -/
def remoteDev (r : Nat × Nat) : Option Nat := if remoteBase ≤ r.2 then some ((max r.1 remoteBase - remoteBase) / remoteSize) else none

/-- Charges of one stream (R28-R33, R124). -/
def State.streamCharges (s : State) (v : VJob) (segs : List (Nat × SegDesc)) (base gang : Nat) (m : SMap Nat) (key : Nat) :
    SMap Nat :=
  let ri := vw v.words 3
  match s.keyRange v segs key with
  | none => m
  | some rng =>
    let slot := if 10 ≤ key then key - 10 else key
    let o := opnd v.words slot
    let d := segOf segs (if 10 ≤ key then o.isel else o.sel)
    let movers := moversOf v base gang key
    let isTable := v.tableSlot == some key
    let port := fun dev => 96 + 4 * s.fabPort dev + (if key = 4 then 1 else 2)
    if key < 10 ∧ (o.form = 2 ∨ isTable = true) then
      let one := decide (key = 4) && opOneOut v.last.op
      let per := if isTable then clog2 v.kOf + 4 else 1
      let cnt := if one then 1 else per * (v.n - ri)
      let m1 := (List.range 18).foldl (fun m b =>
        if touchesBank rng b then
          movers.foldl (fun m fr => addCharge m (s.bankAcct v segs key b fr) (if one then 1 else per * movedBy v gang (fr - base))) m
        else m) m
      let m2 := if touchesDdr rng then chargeDdr m1 cnt 8 cnt movers else m1
      match remoteDev rng with
      | some dev => addCharge m2 (port dev) (cnt + ceilDiv cnt 32)
      | none => m2
    else
      let mask := key = 5 ∨ (key < 10 ∧ v.opTy key = 12)
      let first := if key = 5 ∧ (v.has 0x51 || v.has 0x52) = true then 0 else ri
      let (a, cnt) := if 10 ≤ key then (ri, v.n - ri) else if key = 5 then (first, v.n - first)
        else if (key = 4 ∧ v.has 0x51 = true) ∨ (key = 0 ∧ v.has 0x52 = true) then (ri, v.n - ri)
        else v.span key ri v.n ri
      let e := if 10 ≤ key then 4 else if mask then 0 else v.width key
      let st : Nat := if 10 ≤ key then 4 else if mask then 0 else (v.step key).natAbs
      let at_ : Nat → Int := fun i => if 10 ≤ key then ((o.w2 + 4 * (a + i) : Nat) : Int) else
        if mask then ((o.w1 + a / 8 + i : Nat) : Int) else v.pos key (a + i)
      let count := if mask then (a + cnt - 1) / 8 - a / 8 + 1 else cnt
      let elem : Nat → Nat := fun i =>
        if mask then max ri (8 * (a / 8 + i)) else if key = 4 ∧ opOneOut v.last.op = true then v.n - 1
        else if key = 4 ∧ opMat v.last.op = true then (a + i + 1) * v.kOf - 1 else max ri (a + i)
      let aligned := e != 0 && ((d.base + at_ 0).toNat % e == 0)
      let lt := lineTouch cnt st e aligned
      let banks := (List.range 18).any (fun b => touchesBank rng b)
      let m1 := if banks then
          s.bankCharges v segs base gang key ri d at_ (if e = 0 then 1 else e) elem count 0 none m else m
      let m2 := if touchesDdr rng then chargeDdr m1 lt (strideClass4 st) lt movers else m1
      match remoteDev rng with
      | some dev => addCharge m2 (port dev) (lt + ceilDiv lt 32)
      | none => m2

/-- The charges of a captured descriptor from its RI on, on Fronds base to base + gang - 1 (R26). -/
def State.chargesOf (s : State) (ws : List Word) (segs : List (Nat × SegDesc)) (base gang : Nat) : SMap Nat :=
  match parseVjd ws with
  | none => []
  | some v =>
    let n := v.n - vw ws 3
    let m0 := (List.range gang).foldl (fun m i => addCharge m (80 + base + i) (chargeFrond n v.lam gang v.rate)) []
    v.keys.foldl (fun m k => s.streamCharges v segs base gang m k) m0

/-! ### The checks of R108, steps 3 to 6 -/

/-- The 4-byte little-endian words of a byte list. -/
def bytesWords (b : List Byte) : List Word :=
  (List.range (b.length / 4)).map (fun i => BitVec.ofNat 32 (leVal ((b.drop (4 * i)).take 4)))

/-- The context area as read (R116): a header that fits, or none. -/
def parseCtx (v : VJob) (vjd : Nat) (b : List Byte) : Option VCtx :=
  let w := fun o n => leVal ((b.drop o).take n)
  let h := w 0 4
  let form := v.ctxForm
  if bits h 7 0 ≠ form ∨ h.testBit 8 = false ∨ bits h 23 16 ≠ v.last.op ∨ bits h 27 24 ≠ v.last.wt ∨
      bits h 15 9 ≠ 0 ∨ bits h 31 28 ≠ 0 ∨ w 4 4 ≠ vw v.words 3 ∨ w 8 8 ≠ vjd then none
  else
    let entry := fun (m : Nat) =>
      let i := w (0x48 + 16 * m) 8
      ({ val := BitVec.ofNat 64 (w (0x40 + 16 * m) 8), idx := BitVec.ofNat 64 i, empty := i == 2 ^ 64 - 1 } : TreeEntry)
    let lv := w 0x14 4
    if form = 1 then
      some { levels := ((List.range 32).filter (fun m => lv.testBit m)).map (fun m => (m, entry m)), flags := w 0x10 4 % 64 }
    else some { accum := toSigned 4288 (w 0x40 536), stBits := lv % 32, flags := w 0x10 4 % 64 }

/-- A job's context area as 1,024 bytes (R116). -/
def ctxBytes (v : VJob) (vjd ri : Nat) (c : VCtx) : List Byte :=
  let hdr := v.ctxForm + 256 + v.last.op * 65536 + v.last.wt * 2 ^ 24
  let lv := c.levels.foldl (fun n e => n + 2 ^ e.1) 0
  let head := leBytes 4 hdr ++ leBytes 4 ri ++ leBytes 8 vjd ++ leBytes 4 c.flags ++
    leBytes 4 (if v.ctxForm = 1 then lv else c.stBits) ++ leBytes 40 0
  let entry := fun (m : Nat) =>
    match c.levels.find? (fun e => e.1 == m) with
    | some (_, e) =>
      if e.empty then leBytes 8 (emptyVal v.last.op v.last.wt) ++ leBytes 8 (2 ^ 64 - 1)
      else leBytes 8 e.val.toNat ++ leBytes 8 (if opIdx v.last.op then e.idx.toNat else 0)
    | none => leBytes 16 0
  let body := if v.ctxForm = 1 then (List.range 32).flatMap entry else leBytes 536 (ofSigned 4288 c.accum)
  head ++ body ++ leBytes (1024 - head.length - body.length) 0

/-- A job found fit to issue at steps 1 and 3 to 6 of R108, with what was captured. -/
structure Checked where
  job : VJob
  segs : List (Nat × SegDesc)
  ctx : VCtx := {}
  pri : Nat := 0
  done : Bool := false
  deriving DecidableEq, Repr

/-- The read of p_RI (R140): the active bits below RI. -/
def State.readPri (s : State) (w : Who) (ans : List RemoteAnswer) (v : VJob) (segs : List (Nat × SegDesc)) :
    State × Chk Nat :=
  let ri := vw v.words 3
  let o := opnd v.words 5
  if (v.has 0x51 || v.has 0x52) = false ∨ ri = 0 then (s, .ok 0)
  else
    let d := segOf segs o.sel
    let n := (ri + 7) / 8
    let fsel := o.sel + 5 * 65536
    if d.limit < o.w1 + n - 1 then (s, .fault 7 fsel o.w1)
    else chkBind (accChk (s.readAns w ans (d.base + o.w1) n) w (d.base + o.w1) fsel o.w1) (fun s1 b => (s1, .ok (countBits b 0 ri)))

/-- SEGSUM's reread of x_{RI-1} (R136): step 4 of R108. -/
def State.readPrev (s : State) (w : Who) (ans : List RemoteAnswer) (v : VJob) (segs : List (Nat × SegDesc)) :
    State × Chk Nat :=
  let ri := vw v.words 3
  let o := opnd v.words 4
  if v.last.op ≠ 0x37 ∨ ri = 0 then (s, .ok 0)
  else
    let d := segOf segs o.isel
    let a := o.w2 + 4 * (ri - 1)
    let fsel := o.isel + 6 * 65536 + wideOf a
    if d.limit < a + 3 then (s, .fault 7 fsel (a % 2 ^ 32))
    else chkBind (accChk (s.readAns w ans (d.base + a) 4) w (d.base + a) fsel (a % 2 ^ 32)) (fun s1 b => (s1, .ok (leVal b)))

/-- The PWL table's whole range lies within its segment (R142). -/
def VJob.tableOk (v : VJob) (segs : List (Nat × SegDesc)) : Option (Nat × Nat) :=
  match v.tableSlot with
  | none => none
  | some b =>
    let o := opnd v.words b
    if (segOf segs o.sel).limit < o.w1 + 2 * tyBytes (v.opTy b) * v.kOf - 1 then some (o.sel + b * 65536, o.w1) else none

/-- The context at issue (R103, R116, R472): SG1, alignment and extent, then the header when RI > 0. The area's alignment is
checked after SG1's selector, and an area beyond SG1's limit is VF_SEG (log 68). -/
def State.readCtx (s : State) (w : Who) (ans : List RemoteAnswer) (v : VJob) (vjd pl sg1 : Nat)
    (segs : List (Nat × SegDesc)) : State × Chk (List (Nat × SegDesc) × VCtx) :=
  let ctxp := vw v.words 7
  let fsel := sg1 + 7 * 65536
  if v.ctxForm = 0 then (s, .ok (segs, {}))
  else chkBind (s.segment w ans pl sg1 7 ctxp true true) (fun s1 d =>
    let segs1 := if segs.any (fun e => e.1 == sg1) then segs else segs ++ [(sg1, d)]
    if ctxp % 64 ≠ 0 then (s1, .fault 8 fsel ctxp)
    else if d.limit < ctxp + 1023 then (s1, .fault 7 fsel ctxp)
    else if vw v.words 3 = 0 then (s1, .ok (segs1, {}))
    else chkBind (accChk (s1.readAns w ans (d.base + ctxp) 1024) w (d.base + ctxp) fsel ctxp) (fun s2 b =>
      match parseCtx v vjd b with
      | some c => (s2, .ok (segs1, c))
      | none => (s2, .fault 11 fsel ctxp)))

/-- Steps 3 to 6 of R108 on captured words: ACC[31:4] (`acc`), the gang's BASE, the selectors, the context, SEGSUM's
reread, RI = N, and the overlap. `vsegs` holds the VJD's own descriptor. -/
def State.checkJob (s : State) (w : Who) (ans : List RemoteAnswer) (ws : List Word) (acc vjd pl sg1 : Nat)
    (vsegs : List (Nat × SegDesc)) : State × Chk Checked :=
  match parseVjd ws with
  | none => (s, .fault 11 0 0)
  | some v =>
    if 16 ≤ acc ∨ (acc / 8 % 2 = 0 ∧ acc % 8 % vGang ws ≠ 0) then (s, .fault 11 0 0)
    else
      chkBind (s.segments w ans pl v.uses vsegs) fun s1 segs =>
      match v.tableOk segs with
      | some (fsel, fa) => (s1, .fault 7 fsel fa)
      | none =>
      chkBind (s1.readCtx w ans v vjd pl sg1 segs) fun s2 sc =>
      chkBind (s2.readPrev w ans v sc.1) fun s3 prev =>
      if vw ws 3 = v.n then (s3, .ok { job := v, segs := sc.1, ctx := sc.2, done := true })
      else
        chkBind (s3.readPri w ans v sc.1) fun s4 pri =>
        if s4.overlaps v sc.1 pri then (s4, .fault 10 0 0)
        else
          let c := { sc.2 with count := pri, prev := BitVec.ofNat 64 prev }
          (s4, .ok { job := v, segs := sc.1, pri := pri, ctx := c })

/-- The VJD read of R108 step 1: alignment, its segment, its 128 bytes (in this order, log 68). Answers its physical address, the
descriptor and the words. -/
def State.readVjd (s : State) (w : Who) (ans : List RemoteAnswer) (pl sel off : Nat) :
    State × Chk (Nat × List (Nat × SegDesc) × List Word) :=
  let fsel := sel + 7 * 65536
  if off % 64 ≠ 0 then (s, .fault 8 fsel off)
  else chkBind (s.segment w ans pl sel 7 off true true) (fun s1 d =>
    if d.limit < off + 127 ∨ 2 ^ 48 ≤ d.base + off + 127 then (s1, .fault 7 fsel off)
    else chkBind (accChk (s1.readAns w ans (d.base + off) 128) w (d.base + off) fsel off) (fun s2 b =>
      (s2, .ok (d.base + off, [(sel, d)], bytesWords b))))

/-! ### STAT and the VJD's written words (R82, R85, R472) -/

/-- STAT of a state, code, flags and FROND (R85). -/
def statWord (st code flags frond : Nat) : Nat := st + code * 256 + flags % 64 * 65536 + frond % 8 * 2 ^ 24

/-- The FLAGS field of a captured STAT. -/
def statFlags (ws : List Word) : Nat := bits (vw ws 4) 21 16

/-- A fault of a Frond in its log, when that is free (R112, R119). -/
def State.logFrond (s : State) (k code operand vjd elem : Nat) : State :=
  if s.b (R.FRD_FLT k) 31 then s
  else
    (((s.wr (R.FRD_FLT k) (BitVec.ofNat 32 (code + operand * 256 + 2 ^ 31))).wr (R.FRD_FLTVJD_LO k)
      (BitVec.ofNat 32 vjd)).wr (R.FRD_FLTVJD_HI k) (BitVec.ofNat 32 (vjd / 2 ^ 32 % 65536))).wr
      (R.FRD_FLTELEM k) (BitVec.ofNat 32 elem)

/-- The engine's write of words of a VJD: a refused one is dropped and logged with OPERAND 7 (R472). -/
def State.writeVjd (s : State) (master vjd word : Nat) (vals : List Nat) (frond ri : Nat) : State :=
  let d := vals.flatMap (fun v => leBytes 4 v)
  match s.post { master := master } (vjd + 4 * word) d with
  | (s1, true) => s1
  | (s1, false) => s1.logFrond frond 9 7 vjd ri

/-- STAT written at a change of state (R82). -/
def State.writeStat (s : State) (j : Job) (st : Nat) : State :=
  s.writeVjd j.base j.vjd 4 [statWord st 0 j.flags j.base] j.base j.ri

/-- Words 3 to 6 written at a stop (R82). -/
def State.writeStop (s : State) (j : Job) (st code frond ri faddr fsel : Nat) : State :=
  s.writeVjd j.base j.vjd 3 [ri, statWord st code j.flags frond, faddr, fsel] j.base ri

/-- The completion spore of a job, on FPC.CHAN (R246): Machine level decides Secure channels. -/
def State.completionSpore (s : State) (ws : List Word) (pl : Nat) : State :=
  s.produceOn { kind := 1, chan := some (vChan ws), machine := pl == 3 }

/-! ### The ledger's answer (R35, R106-R108 steps 7 and 8) -/

/-- Every member queue of a gang has a free entry, and no started plan entry waits for one of them (R107, R111). -/
def State.gangOpen (s : State) (base gang : Nat) : Bool :=
  s.hasRoom base gang && !(s.jobs.any (fun k => k.roomWait && k.members.any (fun f => decide (base ≤ f) && decide (f < base + gang))))

/-- With ANY, the aligned gang whose deepest queue is shallowest, lowest BASE among equals, out of those that take a job
(R106); with none it is the first. -/
def State.chooseBase (s : State) (g : Nat) : Nat :=
  let cand := ((List.range (8 / g)).map (· * g)).filter (fun b => s.gangOpen b g)
  let deepest := fun b => (List.range g).foldl (fun m i => max m (s.depth (b + i))) 0
  cand.foldl (fun best b => if deepest b < deepest best then b else best) (cand.headD 0)

/-- The outcomes of VISSUE in ACC (R107). -/
inductive Outcome where
  | admitted (base : Nat)
  | deferred (base : Nat)
  | denied
  | qfull
  | fault (code : Nat)
  | busy
  | done
  deriving DecidableEq, Repr

/-- ACC of an outcome. -/
def Outcome.acc : Outcome → Nat
  | .admitted b => b * 256
  | .deferred b => 1 + b * 256
  | .denied => 2
  | .qfull => 3
  | .fault c => 4 + c * 65536
  | .busy => 5
  | .done => 6

/-- A job of a checked descriptor on a gang. -/
def newJob (c : Checked) (vjd sg1 pl base : Nat) (owner : Option Nat) (seq : Nat) : Job :=
  { vjd := vjd, words := c.job.words, segs := c.segs, sg1 := sg1, pl := pl, owner := owner, base := base,
    gang := vGang c.job.words, seq := seq, ri0 := vw c.job.words 3, ri := vw c.job.words 3,
    flags := statFlags c.job.words, ctx := c.ctx }

/-- An admitted job enters its queue with its charges (R34). In Config nothing is deducted (R43). -/
def State.enrol (s : State) (j : Job) (charges : SMap Nat) (charged : Bool) : State :=
  let ch := if charged then charges else []
  let j1 :=
    { j with
      st := .queued, charged := charged, charges := ch, used := [], seq := s.ledger.seq, started := false, lines := [], tail := none, told := false }
  let s0 : State := if charged then s.deduct charges else s
  let s1 : State := s0.onLdg (fun l => { l with seq := l.seq + 1 })
  let s2 : State := { s1 with jobs := (s1.jobs.filter (fun k => k.vjd != j.vjd)) ++ [j1] }
  let s3 := s2.each (s2.jobs.filter (fun k => decide (k.st = .running) && decide (j1.cls < k.cls) &&
      k.members.any (fun f => j1.onFrond f))) (fun s k => s.putJob { k with preempt := true })
  (s3.event 0x29 0 1).writeStat j1 2

/-- Steps 7 and 8 of R108 for a checked job that is not done. -/
def State.askLedger (s : State) (c : Checked) (acc vjd sg1 pl : Nat) (owner : Option Nat) : State × Outcome :=
  let g := vGang c.job.words
  let base := if acc / 8 % 2 = 1 then s.chooseBase g else acc % 8
  let j := newJob c vjd sg1 pl base owner s.ledger.seq
  if s.gangOpen base g = false then (s, .qfull)
  else if s.mode = 5 then (s.denied, .denied)
  else if s.inFrame = false then (s.enrol j [] false, .admitted base)
  else
    let ch := s.chargesOf c.job.words c.segs base g
    let late := decide (s.tcutClk ≤ s.phase) || !s.ledger.open_
    if late = false ∧ s.admissible ch = true then (s.enrol j ch true, .admitted base)
    else if vDefer c.job.words = true ∧ s.heldJobs.length < 64 then
      let j1 := { j with st := .held, seq := s.ledger.seq }
      let s1 := { (s.onLdg (fun l => { l with seq := l.seq + 1 })) with jobs := s.jobs ++ [j1] }
      (s1.writeStat j1 1, .deferred base)
    else (s.denied, .denied)

end Sys2Proof.Machine
end

