-- ==== Sys2Proof/Machine/Frond.lean ====
section
/-! DEFINITION. The Fronds: one element of a job through its chain (R91-R93, R98-R101, R104, R105, R114, R129-R144), the
strips that run it, and the ways a job stops: completion, fault, cancellation, carry and preemption (R112-R118). -/

namespace Sys2Proof.Machine

/-! ### Memory accesses of a Frond -/

/-- What a Frond's read answers: data, a bus error, a remote line that has not arrived, or a wait. -/
inductive FrdRes where
  | ok (data : List Byte)
  | bus
  | need (line : Nat)
  | wait
  deriving DecidableEq, Repr

/-- One piece of a read, within a line. -/
def State.frdPiece (s : State) (j : Job) (who : Nat → Who) (a n : Nat) : State × FrdRes :=
  match s.readMem (who a) a n with
  | (s1, .ok d) => (s1, .ok d)
  | (s1, .err _) => (s1, .bus)
  | (s1, .wait) => (s1, .wait)
  | (s1, .control _) =>
    let (m, c) := s1.controlRefusal (who a) a false
    (s1.busError m 30 false c a, .bus)
  | (s1, .remote _ _) =>
    let line := a / 64
    let status := sget (fun _ => 0) j.rfail line
    if status ≠ 0 then
      let (s2, c) := s1.remoteFail status
      (s2.busError (who a).master 33 false c a, .bus)
    else match j.rdata.find? (fun e => e.1 == line) with
      | some (_, d) => (s1, .ok ((d.drop (a % 64)).take n))
      | none => (s1, .need line)

/-- The pieces of a read, in order. -/
def State.frdSome (s : State) (j : Job) (who : Nat → Who) : List (Nat × Nat) → List Byte → State × FrdRes
  | [], acc => (s, .ok acc)
  | (a, n) :: t, acc =>
    match s.frdPiece j who a n with
    | (s1, .ok d) => s1.frdSome j who t (acc ++ d)
    | r => r

/-- A Frond's read of n bytes; `who` says how it reaches each piece. -/
def State.frdRead (s : State) (j : Job) (who : Nat → Who) (a n : Nat) : State × FrdRes := s.frdSome j who (pieces a n) []

/-- The stream holds a line: its last access touched it (R28). -/
def Job.holds (j : Job) (key line : Nat) : Bool :=
  match j.lines.find? (fun e => e.1 == key) with
  | some (_, p, q) => decide (p ≤ line) && decide (line ≤ q)
  | none => false

/-- How Frond fr reaches an address for a stream: the port that R53 assigns in its home banks, and without an access where a
linear stream holds the line (R28, R52). -/
def State.streamWho (s : State) (v : VJob) (j : Job) (key fr : Nat) (each : Bool) (a : Nat) : Who :=
  let h := s.home a
  let held := !each && j.holds key (h / 64)
  let homePath := match s.locate h with
    | .bank b _ => !held && decide (b < 16) && b / 2 == fr && s.portB v j.segs key b
    | _ => false
  { master := fr, held := held, homePath := homePath }

/-- The bytes at an address as they stand, without an access: local memory, or the remote lines received. -/
def State.peek (s : State) (j : Job) (a n : Nat) : List Byte :=
  (List.range n).map (fun i =>
    let x := s.home (a + i)
    match s.locate x with
    | .bank b off => s.byte (s.bankAddr b off)
    | .ddr _ => s.byte x
    | _ => match j.rdata.find? (fun e => e.1 == (a + i) / 64) with
      | some (_, d) => d.getD ((a + i) % 64) 0
      | none => 0)

/-! ### Use of accounts (R28-R33) -/

/-- The accounts that one line access of a stream uses, each by one credit (a home line); a remote line adds its share of a
header. -/
def State.lineUse (s : State) (v : VJob) (j : Job) (key fr line : Nat) (newBlock : Bool) : List (Nat × Nat) :=
  match s.locate (s.home (line * 64)) with
  | .bank b _ => [(s.bankAcct v j.segs key b fr, 1)]
  | .ddr p =>
    let sub := (ddrPlace p).1
    [(sub, 1), (136 + sub / 2, 1), (128 + fr, 1)]
  | .remote d _ => [(96 + 4 * s.fabPort d + (if key = 4 then 1 else 2), 1 + b2n newBlock)]
  | _ => []

/-- The uses of an access, and the stream's last lines: a linear stream uses a line once while its last access holds it, an
indexed one at every access. -/
def State.touch (s : State) (v : VJob) (j : Job) (key fr a n : Nat) (each : Bool) : Job × List (Nat × Nat) :=
  let h := s.home a
  let l1 := h / 64
  let l2 := (h + n - 1) / 64
  let block := fun l => match j.lines.find? (fun e => e.1 == key) with | some (_, _, x) => x / 32 != l / 32 | none => true
  let use := fun (l : Nat) (b : Bool) => if !each && j.holds key l then [] else s.lineUse v j key fr l b
  ({ j with lines := sput (fun _ => (2 ^ 64, 0)) j.lines key (l1, l2) },
    use l1 (block l1) ++ (if l1 = l2 then [] else use l2 false))

/-! ### One element -/

/-- What an element did: the values of its slots so far and what it used, or a stop. -/
structure Elem where
  s : State
  j : Job
  uses : List (Nat × Nat) := []
  vals : SMap Nat := []
  idx : SMap Nat := []

/-- Why an element did not commit: a fault (code, FSEL, FADDR), a failed top-up, a remote line, or a wait. -/
inductive Stop where
  | fault (code fsel faddr : Nat)
  | stall (r : Nat)
  | need (line : Nat)
  | wait
  deriving DecidableEq, Repr

/-- The outcome of a part of an element. -/
inductive EStep where
  | go (e : Elem)
  | stop (s : State) (why : Stop)

/-- The next part of an element, if this one went on. -/
def EStep.bind (r : EStep) (k : Elem → EStep) : EStep :=
  match r with
  | .go e => k e
  | .stop s w => .stop s w

/-- An offset range lies within a segment (R104, R188). -/
def inSeg (d : SegDesc) (o : Int) (n : Nat) : Bool :=
  decide (0 ≤ o) && decide (o + n ≤ (d.limit : Int) + 1) && decide (d.base + o.toNat + n ≤ 2 ^ 48)

/-- A read of one stream element: segment check, then the access (VF_SEG before VF_BUS, R114). -/
def Elem.read (e : Elem) (v : VJob) (key operand sel : Nat) (fr : Nat) (o : Int) (n : Nat) (each : Bool)
    (k : Elem → List Byte → EStep) : EStep :=
  let d := segOf e.j.segs sel
  let fsel := sel + operand * 65536
  if inSeg d o n = false then .stop e.s (.fault 7 (fsel + wideOf o) (faddrOf o))
  else
    let a := d.base + o.toNat
    match e.s.frdRead e.j (e.s.streamWho v e.j key fr each) a n with
    | (s1, .ok b) =>
      let (j1, u) := s1.touch v e.j key fr a n each
      k { e with s := s1, j := j1, uses := e.uses ++ u } b
    | (s1, .bus) => .stop s1 (.fault 9 fsel (faddrOf o))
    | (s1, .need l) => .stop s1 (.need l)
    | (s1, .wait) => .stop s1 .wait

/-- The index streams of element i, in operand order (R90). -/
def Elem.indexes (e : Elem) (v : VJob) (fr i : Nat) : List Nat → EStep
  | [] => .go e
  | k :: t =>
    let o := opnd v.words k
    e.read v (10 + k) 6 o.isel fr ((o.w2 + 4 * i : Nat) : Int) 4 false (fun e1 b =>
      ({ e1 with idx := e1.idx ++ [(k, leVal b)] }).indexes v fr i t)

/-- The index value of a slot at a position that is not the element's own: p_i for the stream that COMPRESS or EXPAND
addresses by it (R140), 0 for the W of an operation with one result (R124). The index stream's own charge is that of its
elements, so this look draws nothing (DEDUCED, log 24). -/
def Elem.indexAt (e : Elem) (v : VJob) (fr k p : Nat) (next : Elem → EStep) : EStep :=
  let o := opnd v.words k
  e.read v (10 + k) 6 o.isel fr ((o.w2 + 4 * p : Nat) : Int) 4 false (fun e1 b =>
    next { e1 with
      j := { e1.j with lines := e.j.lines }
      uses := e.uses
      idx := sput (fun _ => 0) e1.idx k (leVal b) })

/-- SEGSUM's look at x_{i+1} (R136). -/
def Elem.nextIndex (e : Elem) (v : VJob) (fr i : Nat) : EStep :=
  if v.last.op ≠ 0x37 ∨ v.n ≤ i + 1 then .go e
  else
    let o := opnd v.words 4
    e.read v 14 6 o.isel fr ((o.w2 + 4 * (i + 1) : Nat) : Int) 4 false (fun e1 b =>
      .go { e1 with idx := e1.idx ++ [(20, leVal b)] })

/-- The M bit of element i (R91). -/
def Elem.mask (e : Elem) (v : VJob) (fr i : Nat) (k : Elem → Bool → EStep) : EStep :=
  if v.hasM = false then k e true
  else
    let o := opnd v.words 5
    e.read v 5 5 o.sel fr ((o.w1 + i / 8 : Nat) : Int) 1 false (fun e1 b => k e1 ((b.getD 0 0).getLsbD (i % 8)))

/-- The index value of a slot as the offset multiplier takes it (R90). -/
def Elem.xOf (e : Elem) (v : VJob) (k : Nat) : Int :=
  let x := sget (fun _ => 0) e.idx k
  if (opnd v.words k).itype = 3 then toSigned 32 x else (x : Int)

/-- The offset of an indexed element (R89). -/
def Elem.idxOff (e : Elem) (v : VJob) (k : Nat) : Int :=
  off64 ((opnd v.words k).w1 + e.xOf v k * (2 ^ (opnd v.words k).iscale : Nat))

/-- A slot's value added. -/
def Elem.put (e : Elem) (k x : Nat) : Elem := { e with vals := sput (fun _ => 0) e.vals k x }

/-- The table accesses of one PWL element (R142): each record read. -/
def Elem.records (e : Elem) (v : VJob) (fr b : Nat) (k : Elem → EStep) : List Nat → EStep
  | [] => k e
  | r :: t =>
    let o := opnd v.words b
    let n := 2 * v.width b
    e.read v b b o.sel fr ((o.w1 + n * r : Nat) : Int) n true (fun e1 _ => e1.records v fr b k t)

/-- A forwarded value of a source at an address (R99). -/
def Job.forwarded (j : Job) (k a : Nat) : Option Nat :=
  if j.fwdSlots.contains k then (j.fwdVals.find? (fun x => x.1 == a)).map (fun x => x.2) else none

/-- The value of an input. -/
def inVal (e : Elem) (v : VJob) (res : List Nat) : VIn → Nat
  | .res k => res.getD k 0
  | .slot k => if (opnd v.words k).form = 4 then (opnd v.words k).scalar else sget (fun _ => 0) e.vals k

/-- The elementwise stages of an active element, PWL among them: results and flags by stage. A reduction or matrix stage
hands on its leaf: the value of its first input, or the product of MVDOT's inputs. -/
def stageRun (r : Rnd) (e : Elem) (v : VJob) : List VStage → List Nat → List Nat → List Nat → List Nat × List Nat × List Nat
  | [], res, fls, recs => (res, fls, recs)
  | st :: t, res, fls, recs =>
    let tys := st.ins.map (fun i => inType v.words v.et v.stages i)
    let vs := st.ins.map (inVal e v res)
    if st.op = 0x65 then
      let b := match st.ins.getD 1 (.res 0) with | .slot b => b | _ => 1
      let o := opnd v.words b
      let base := (segOf e.j.segs o.sel).base + o.w1
      let n := v.width b
      let tx := fun k => leVal (e.s.peek e.j (base + 2 * n * k) n)
      let ty := fun k => leVal (e.s.peek e.j (base + 2 * n * k + n) n)
      let (y, fl, acc) := evalPwl r (fmtOf st.wt) (vs.getD 0 0) v.kOf tx ty
      stageRun r e v t (res ++ [y]) (fls ++ [fl]) (recs ++ acc)
    else if opRed st.op ∨ opMat st.op then (res ++ [vs.getD 0 0], fls ++ [0], recs)
    else
      let (y, fl) := evalOp r st.op st.wt v.et (tys.zip vs)
      stageRun r e v t (res ++ [y]) (fls ++ [fl]) recs

/-- The records that the search of an active element reads (R142): from the stages up to PWL. -/
def Elem.tableReads (e : Elem) (v : VJob) : List Nat :=
  let upTo := v.stages.takeWhile (fun st => st.op != 0x65) ++ (v.stages.filter (fun st => st.op == 0x65)).take 1
  (stageRun (vRnd v.words) e v upTo [] [] []).2.2

/-- The source slots of element i in the order A-D (R114): a linear or structure stream is checked whether the element
is active or not (R104), its data are read when it is. The PWL table is read at its own slot: by then the slots before it have
given every value its search compares (R92). -/
def Elem.sourcesOf (e : Elem) (v : VJob) (fr i : Nat) (active : Bool) : List Nat → EStep
  | [] => .go e
  | k :: t =>
    let o := opnd v.words k
    let n := v.width k
    if v.tableSlot = some k then
      let size := 2 * n * v.kOf
      if inSeg (segOf e.j.segs o.sel) o.w1 size then
        if active then e.records v fr k (fun e1 => e1.sourcesOf v fr i active t) (e.tableReads v) else e.sourcesOf v fr i active t
      else .stop e.s (.fault 7 (o.sel + k * 65536) o.w1)
    else if o.form = 2 then
      let get := fun (x : Elem) =>
        x.read v k k o.sel fr (x.idxOff v k) n true (fun e1 b => (e1.put k (leVal b)).sourcesOf v fr i active t)
      if active then (if k == 0 && v.has 0x52 then e.indexAt v fr k e.j.ctx.count get else get e)
      else e.sourcesOf v fr i active t
    else
      let byP := k == 0 && v.has 0x52
      let off := v.pos k (if byP then e.j.ctx.count else i)
      if active then
        match e.j.forwarded k ((segOf e.j.segs o.sel).base + off).toNat with
        | some x =>
          if inSeg (segOf e.j.segs o.sel) off n then
            (({ e with j := { e.j with fwdUsed := true } }).put k x).sourcesOf v fr i active t
          else .stop e.s (.fault 7 (o.sel + k * 65536 + wideOf off) (faddrOf off))
        | none =>
          e.read v k k o.sel fr off n false (fun e1 b => (e1.put k (leVal b)).sourcesOf v fr i active t)
      else if byP = true ∨ inSeg (segOf e.j.segs o.sel) off n = true then e.sourcesOf v fr i active t
      else .stop e.s (.fault 7 (o.sel + k * 65536 + wideOf off) (faddrOf off))

/-- The code of the first fault of a stage's flags (R114): its arithmetic traps in order, then VF_DECIMAL. -/
def stageFault (traps fl : Nat) : Option Nat :=
  match (List.range 5).find? (fun b => fl.testBit b && traps.testBit b) with
  | some b => some (1 + b)
  | none => if fl.testBit 7 then some 12 else none

/-- The fault that the flags of the stages raise (R114): VF_DEN before every trap. -/
def flagsFault (traps : Nat) (fls : List Nat) : Option Nat :=
  if fls.any (fun f => f.testBit 6) then some 6 else fls.findSome? (stageFault traps)

/-- A result for W with the new partial state: position's value (and index), whether it is written, flags. -/
structure Reduced where
  ctx : VCtx
  fl : Nat := 0
  value : Nat := 0
  idx : Nat := 2 ^ 64 - 1
  write : Bool := false

/-- The value a tree result writes (R123, R130, R132): empty gives the all-empty value, a NaN gives dN. -/
def treeResult (op ty : Nat) (t : TreeEntry) : Nat × Nat × Nat :=
  if t.empty then (emptyVal op ty, 2 ^ 64 - 1, 0)
  else if tyF ty && (fmtOf ty).isNaN t.val.toNat then
    ((fmtOf ty).dN, t.idx.toNat, (fmtOf ty).snanFlags [t.val.toNat])
  else (t.val.toNat, t.idx.toNat, 0)

/-- The reduction, scan or matrix stage at element i (R129-R136, R144): the leaf enters the partial state, and at a
writing element the result leaves it. `ends` says that element i's commit ends the job, segment or row. -/
def reduceStep (r : Rnd) (v : VJob) (c : VCtx) (i : Nat) (active : Bool) (a b : Nat) (ends : Bool) : Reduced :=
  let op := v.last.op
  let wt := v.last.wt
  let f := fmtOf wt
  let mode := fun x => if tyF wt then f.input r.flush x else (x, 0)
  if v.ctxForm = 1 then
    let (a1, f1) := mode a
    let (b1, f2) := if op = 0x70 then mode b else (0, 0)
    let (leaf, f3) := if op = 0x70 then f.roundV r ((f.unpack a1).mul (f.unpack b1)) else (a1, 0)
    let f4 := if opRed op ∧ 0x33 ≤ op ∧ op ≤ 0x36 ∧ tyF wt = true then f.snanFlags [leaf] else 0
    let x : TreeEntry := if active then { val := BitVec.ofNat 64 leaf, idx := BitVec.ofNat 64 i, empty := false } else noEntry 0
    let (lv, f5) := treeStep r op wt 33 0 c.levels x
    let fl := if active then f1 ||| f2 ||| f3 ||| f4 ||| f5 else f5
    if op = 0x38 then
      let (t, f6) := treeFold r op wt lv
      let (y, k, f7) := treeResult op wt t
      { ctx := { c with levels := lv }, fl := if active then fl ||| f6 ||| f7 else fl, value := y, idx := k, write := active }
    else if ends then
      let (t, f6) := treeFold r op wt lv
      let (y, k, f7) := treeResult op wt t
      { ctx := { c with levels := [] }, fl := fl ||| f6 ||| f7, value := y, idx := k, write := true }
    else { ctx := { c with levels := lv }, fl := fl }
  else
    let isInt := op == 0x39 || tySU wt
    let one : Int := ((2 ^ 2148 : Nat) : Int)
    let (acc, st, fl) :=
      if active = false then (c.accum, c.stBits, 0)
      else if op = 0x39 then
        let (n, g) := cntTerm r wt a
        (c.accum + (n : Int) * one, c.stBits, g)
      else if tySU wt then (c.accum + ival wt a * one, c.stBits, 0)
      else
        let (a1, f1) := mode a
        let (b1, f2) := if op = 0x31 then (0, 0) else mode b
        let term := if op = 0x31 then f.unpack a1 else (f.unpack a1).mul (f.unpack b1)
        let (x, y, g) := exactTerm c.accum c.stBits term
        (x, y, f1 ||| f2 ||| g)
    let out := if op = 0x39 then exactInt 8 acc else if isInt then exactInt wt acc else exactResult r f acc st
    if op = 0x38 then
      { ctx := { c with accum := acc, stBits := st }, fl := if active then fl ||| out.2 else fl, value := out.1,
        write := active }
    else if ends then { ctx := { c with accum := 0, stBits := 0 }, fl := fl ||| out.2, value := out.1, write := true }
    else { ctx := { c with accum := acc, stBits := st }, fl := fl }

/-- The W offset of a commit: linear and structure by position, indexed by its index (R89). -/
def Elem.wOff (e : Elem) (v : VJob) (p : Nat) : Int := if (opnd v.words 4).form = 2 then e.idxOff v 4 else v.pos 4 p

/-- The bytes a commit writes at W, from the value, the old byte for a mask bit, and the record's index (R128, R134). -/
def wBytes (v : VJob) (i value idx old : Nat) : List Byte :=
  if v.opTy 4 = 12 then [BitVec.ofNat 8 (putBit old (i % 8) (value == 1))]
  else if opIdx v.last.op then leBytes 8 value ++ leBytes 8 idx
  else leBytes (v.width 4) value

/-- Bytes that a write changes in a list that stands from an address on. -/
def overlay (a : Nat) (b : List Byte) (base : Nat) (l : List Byte) : List Byte :=
  (List.range l.length).map (fun i => if a ≤ base + i ∧ base + i < a + b.length then b.getD (base + i - a) 0 else l.getD i 0)

/-- A job's own write meets what its buffers hold: remote lines read before take the new bytes (R101), and a forwarded value that
it overwrites is forwarded no more (R97). -/
def Job.wrote (j : Job) (a width : Nat) (b : List Byte) : Job :=
  { j with
    rdata := j.rdata.map (fun e => (e.1, overlay a b (64 * e.1) e.2))
    fwdVals := j.fwdVals.filter (fun e => !(decide (e.1 < a + b.length) && decide (a < e.1 + width))) }

/-- The byte that a commit of a mask bit changes (R128): as it stands in memory, or out of a remote line, which is read first. -/
def Elem.oldByte (e : Elem) (v : VJob) (fr fsel a faddr : Nat) (k : State → Nat → EStep) : EStep :=
  match (e.s.route { master := fr } a).2.1 with
  | .remote _ _ =>
    if v.opTy 4 ≠ 12 then k e.s 0
    else match e.s.frdPiece e.j (fun _ => { master := fr }) a 1 with
      | (s1, .ok b) => k s1 (leVal b)
      | (s1, .bus) => .stop s1 (.fault 9 fsel faddr)
      | (s1, .need l) => .stop s1 (.need l)
      | (s1, .wait) => .stop s1 .wait
  | _ => k e.s (leVal (e.s.peek e.j a 1))

/-- The address lies in the window of another device. -/
def State.isFar (s : State) (a : Nat) : Bool :=
  match s.locate a with
  | .remote d _ => s.ownId != some d
  | _ => false

/-- A Frond's write of W, piece by piece on the path of each. What goes to another device is gathered until the strip's end. -/
def State.postW (s : State) (v : VJob) (fr a : Nat) (b : List Byte) (j : Job) : State × Job :=
  let who := s.streamWho v j 4 fr ((opnd v.words 4).form == 2)
  (pieces a b.length).foldl (fun (x : State × Job) p =>
    let d := (b.drop (p.1 - a)).take p.2
    if x.1.isFar p.1 then (x.1, { x.2 with wbuf := sputMany (fun _ => 256) x.2.wbuf p.1 (d.map (fun y => y.toNat)) })
    else ((x.1.postPieces (.jobWrite j.vjd fr) (who p.1) [p] d).1, x.2)) (s, j)

/-- A Frond's writes of W to other devices would pass the 32 line requests of R74, those gathered with those outstanding. -/
def State.farFull (s : State) (j : Job) (fr a n : Nat) : Bool :=
  let out := ((s.fabric.outstanding.filter (fun o => match o.user with | .jobWrite _ m => m == fr | _ => false)).map (fun o => o.lines)).sum
  let lines : List Nat := j.wbuf.map (fun e => e.1 / 64) ++ (pieces a n).map (fun p => p.1 / 64)
  s.isFar a && decide (32 < out + lines.eraseDups.length)

/-- The ranges of adjacent addresses of gathered bytes, rising. -/
def gathered : SMap Nat → List (Nat × List Byte)
  | [] => []
  | (a, y) :: t =>
    let b := BitVec.ofNat 8 y
    match gathered t with
    | (a1, l) :: r => if a1 = a + 1 then (a, b :: l) :: r else (a, [b]) :: (a1, l) :: r
    | [] => [(a, [b])]

/-- The gathered bytes leave, as WRITEs of up to 2,048 bytes each (R307); a late response to one is the job's (R78). -/
def State.postGathered (s : State) (j : Job) (fr : Nat) : State × Job :=
  (s.each (gathered j.wbuf) (fun s r =>
    (s.postPieces (.jobWrite j.vjd fr) { master := fr } (blocks r.1 r.2.length) r.2).1), { j with wbuf := [] })

/-- The write of W at a commit: segment check, the refusal decided from the address, then the write (R105, R114). At the limit of R74
it waits for a response. -/
def Elem.write (e : Elem) (v : VJob) (fr p value idx : Nat) (k : Elem → EStep) : EStep :=
  let o := opnd v.words 4
  let off := e.wOff v p
  let d := segOf e.j.segs o.sel
  let n := v.width 4
  let fsel := o.sel + 4 * 65536
  if inSeg d off n = false then .stop e.s (.fault 7 (fsel + wideOf off) (faddrOf off))
  else
    let a := d.base + off.toNat
    match e.s.checkMem { master := fr } a n true with
    | some (x, c) =>
      let l := (e.s.route { master := fr } x).2.1
      .stop (e.s.refuse { master := fr } l true c x) (.fault 9 fsel (faddrOf off))
    | none =>
      e.oldByte v fr fsel a (faddrOf off) (fun s0 old =>
        let b := wBytes v p value idx old
        let (j1, u) := s0.touch v e.j 4 fr a n (o.form == 2)
        if (pieces a n).any (fun x => s0.mustWait (s0.route { master := fr } x.1).2.1) || s0.farFull e.j fr a n then .stop s0 .wait
        else
          let (s1, j2) := s0.postW v fr a b j1
          let s2 := s1.onFrd e.j.base (fun f => { f with lastVals := sput (fun _ => 2 ^ 64) f.lastVals a value })
          k { e with s := s2, j := j2.wrote a (v.width 4) b, uses := e.uses ++ u })

/-- FSEL and FADDR of an arithmetic fault whose element commits W position p (R85): W's offset and selector, or zeros. An element of
an operation with fewer results than elements is given the position its result goes to: 0, or its row (log 68). -/
def Elem.arithAt (e : Elem) (v : VJob) (p : Nat) : Nat × Nat :=
  if v.hasW = false then (0, 0)
  else
    let off := e.wOff v p
    ((opnd v.words 4).sel + 4 * 65536 + wideOf off, faddrOf off)

/-- The uses drawn before an element's effects count; a failed top-up undoes the element (R32). -/
def Elem.draw (e : Elem) (s0 : State) (v : VJob) (fr i start : Nat) : EStep :=
  let frond := if (i - start) % v.lam = 0 then [(80 + fr, v.rate)] else []
  match e.s.useAll e.j (frond ++ e.uses) with
  | (s1, j1, none) => .go { e with s := s1, j := j1, uses := [] }
  | (_, _, some r) => .stop s0 (.stall r)

/-- Element i of a job on Frond fr; `start` is its strip's first element. The committed state has RI i + 1. -/
def State.element (s : State) (j : Job) (v : VJob) (fr i start : Nat) : EStep :=
  let e0 : Elem := { s := s, j := j }
  let r := vRnd v.words
  let traps := vTraps v.words
  let op := v.last.op
  let stream := opRed op || opMat op
  (e0.indexes v fr i v.indexed).bind fun e1 =>
  (e1.nextIndex v fr i).bind fun e2 =>
  e2.mask v fr i fun e3 active =>
  (e3.sourcesOf v fr i active v.sources).bind fun e5 =>
  let (res, fls, _) := if active then stageRun r e5 v v.stages [] [] [] else ([], [], [])
  let newSeg := op == 0x37 && (i == 0 || (sget (fun _ => 0) e5.idx 4 != e5.j.ctx.prev.toNat && decide (0 < i)))
  let ctx0 := if newSeg then { e5.j.ctx with levels := [], accum := 0, stBits := 0, flags := 0 } else e5.j.ctx
  let ends :=
    if opOneOut op then i + 1 == v.n
    else if op = 0x37 then i + 1 == v.n || sget (fun _ => 0) e5.idx 20 != sget (fun _ => 0) e5.idx 4
    else opMat op && (i + 1) % v.kOf == 0
  let a := res.getLastD 0
  let b := if opMat op then sget (fun _ => 0) e5.vals 1
    else match v.last.ins.getD 1 (.res 0) with | x => inVal e5 v res x
  let red := if stream then reduceStep r v ctx0 i active a b ends
    else { ctx := ctx0, value := a, write := active }
  let fls1 := if stream then (if active then fls.dropLast else []) ++ [red.fl] else fls
  let p := if opOneOut op then 0 else if opMat op then i / v.kOf else if v.has 0x51 then e5.j.ctx.count else i
  let other := (opnd v.words 4).form == 2 && p != i && op != 0x37
  let settle := fun (k : Elem → EStep) =>
    if other && (red.write || (flagsFault traps fls1).isSome) then e5.indexAt v fr 4 p k else k e5
  settle fun e5 =>
  match flagsFault traps fls1 with
  | some code =>
    let (fsel, fa) := e5.arithAt v p
    .stop e5.s (.fault code fsel fa)
  | none =>
    let fl := fls1.foldl (· ||| ·) 0 % 64
    let count := e5.j.ctx.count + b2n (active && (v.has 0x51 || v.has 0x52))
    let cfl := if stream then (if ends then 0 else red.ctx.flags ||| fl) else red.ctx.flags
    let ctx1 := { red.ctx with count := count, flags := cfl, prev := BitVec.ofNat 64 (sget (fun _ => 0) e5.idx 4) }
    let finish := fun (e : Elem) =>
      (e.draw s v fr i start).bind fun e9 =>
        .go { e9 with s := e9.s.event 0x02 fr 1, j := { e9.j with ri := i + 1, flags := e9.j.flags ||| fl, ctx := ctx1 } }
    if v.hasW = false then finish e5
    else if red.write = true then
      e5.write v fr p red.value red.idx finish
    else
      let o := opnd v.words 4
      let whole := (o.form == 1 || o.form == 3) && !opOneOut op && !opMat op && !v.has 0x51
      let off := v.pos 4 i
      if whole && !inSeg (segOf e5.j.segs o.sel) off (v.width 4) then
        .stop e5.s (.fault 7 (o.sel + 4 * 65536 + wideOf off) (faddrOf off))
      else finish e5

/-! ### The end of a job (R82, R112, R116-R119) -/

/-- A thread that waits in VWAIT for a job goes on (R202): it issues VWAIT again. -/
def State.wakeVwait (s : State) (vjd : Nat) : State :=
  s.each (List.range 8) (fun s t =>
    if (s.thr t).st = .waiting ∧ (s.thr t).waitFor = .job vjd then
      s.onThr t (fun h => { h with st := .active, waitFor := .nothing })
    else s)

/-- FRDn_EVT bit b on every member. -/
def State.frondEvents (s : State) (j : Job) (b : Nat) : State := s.each j.members (fun s k => s.setB (R.FRD_EVT k) b true)

/-- A fault at the issuing thread, when it asks for it (R236). -/
def State.faultQueue (s : State) (owner : Option Nat) (vjd code : Nat) : State :=
  match owner with
  | none => s
  | some t =>
    if s.b (R.TRP_VJCTL t) 0 = false then s
    else if 16 ≤ (s.thr t).vjq.length then s.setB (R.TRP_VJCTL t) 1 true
    else s.onThr t (fun h => { h with vjq := h.vjq ++ [(vjd, code)] })

/-- A job enters its members' queues (R38, R109): running jobs of a higher class number there yield at their next strip
boundary. -/
def State.enterQueue (s : State) (j : Job) : State :=
  let j1 := { j with st := .queued, roomWait := false }
  let s1 := s.putJob j1
  let s2 := s1.each (s1.jobs.filter (fun k => decide (k.st = .running) && decide (j1.cls < k.cls) &&
    k.members.any (fun f => j1.onFrond f))) (fun s k => s.putJob { k with preempt := true })
  s2.writeStat j1 2

/-- Started plan entries that wait for queue room enter in start order (R111). -/
def State.enterWaiting (s : State) : State :=
  s.each (s.jobs.filter (fun j => j.roomWait)) (fun s j => if s.hasRoom j.base j.gang then s.enterQueue j else s)

/-- A job leaves (R37, R109): its unused charge is refunded, its entries free, and whoever waited for it goes on. -/
def State.endJob (s : State) (j : Job) : State := (((s.refund j).dropJob j.vjd).wakeVwait j.vjd).enterWaiting

/-- The context area written at a stop with RI < N (R116); whether the save was accepted (R472). -/
def State.saveCtx (s : State) (j : Job) : State × Bool :=
  match parseVjd j.words with
  | none => (s, true)
  | some v =>
    if v.ctxForm = 0 ∨ v.n ≤ j.ri then (s, true)
    else
      let d := segOf j.segs j.sg1
      s.post { master := j.base } (d.base + vw j.words 7) (ctxBytes v j.vjd j.ri j.ctx)

/-- A job ends FAULTED (R112): words 3 to 6, the Frond's log, the events, the spores and the fault queue. -/
def State.faultJob (s : State) (j : Job) (code fsel faddr frond : Nat) : State :=
  let s1 := s.writeStop j 6 code frond j.ri faddr fsel
  let s2 := (s1.logFrond frond code (fsel / 65536 % 8) j.vjd j.ri).frondEvents j 1
  let s3 := s2.each j.members (fun s k => s.produce 3 k)
  ((s3.completionSpore j.words j.pl).faultQueue j.owner j.vjd code).endJob j

/-- A context save that was refused ends the job FAULTED with VF_BUS (R472). -/
def State.ctxRefused (s : State) (j : Job) : State := s.faultJob j 9 (j.sg1 + 7 * 65536) (vw j.words 7) j.base

/-- A fault of an element with its context saved (R112, R116). -/
def State.stopFault (s : State) (j : Job) (code fsel faddr frond : Nat) : State :=
  match s.saveCtx j with
  | (s1, true) => s1.faultJob j code fsel faddr frond
  | (s1, false) => (s1.logFrond j.base 9 7 j.vjd j.ri).ctxRefused j

/-- A job commits its last element and is DONE (R82). -/
def State.completeJob (s : State) (j : Job) : State :=
  let s1 := s.writeStop j 5 0 j.base j.ri 0 0
  let s2 := (s1.frondEvents j 0).each j.members (fun s k =>
    (((s.count (R.FRD_JOBCNT k) 32 1).produce 2 k).event 0x04 k 1))
  (s2.completionSpore j.words j.pl).endJob j

/-- All elements of a running job have committed: with a cancellation in the same clk it completes (R115). -/
def Job.finished (j : Job) : Bool :=
  decide (j.st = .running) && (match parseVjd j.words with | some v => decide (v.n ≤ j.ri) | none => false)

/-- A job is cancelled (R117), its context saved if it stood in a queue (R116); one that has committed its last element completes
(R115). -/
def State.cancelJob (s : State) (j : Job) : State :=
  if j.finished then s.completeJob j
  else
    let (s0, saved) := if j.queued then s.saveCtx j else (s, true)
    if saved = false then (s0.logFrond j.base 9 7 j.vjd j.ri).ctxRefused j
    else
      let s1 := s0.writeStop j 6 13 j.base j.ri 0 0
      let s2 := if j.queued then s1.frondEvents j 2 else s1
      (s2.completionSpore j.words j.pl).endJob j

/-- A job is carried (R39, R118): context saved, written CARRIED, its unused charge refunded, and the overrun spore unless step 6
of R41 has emitted it. -/
def State.carryJob (s : State) (j : Job) : State :=
  match s.saveCtx j with
  | (s0, false) => (s0.logFrond j.base 9 7 j.vjd j.ri).ctxRefused j
  | (s0, true) =>
    let s1 := (s0.writeStop j 4 14 j.base j.ri 0 0).frondEvents j 3
    let s2 := (s1.refund j).putJob
      { j.settled with
        st := .carried, overrun := false, preempt := false, inStrip := false, tail := none, told := false, ri0 := j.ri }
    if j.told then s2 else s2.overrunSpore

/-! ### Strips (R94-R96) -/

/-- Elements from the job's RI to an end, until one stops: the state, the job, and why. -/
def State.runElems (s : State) (v : VJob) (fr start : Nat) : Nat → Job → State × Job × Option Stop
  | 0, j => (s, j, none)
  | fuel + 1, j =>
    match s.element j v fr j.ri start with
    | .go e => e.s.runElems v fr start fuel e.j
    | .stop s1 w => (s1, j, some w)

/-- The strip that holds the job's next element (R94): its first element, the one after its last, and the Frond that runs it; of a
strip that crossed a tick as it began (R41). -/
def Job.strip (j : Job) (v : VJob) : Nat × Nat × Nat :=
  match j.tail with
  | some t => (t.first, t.stop, t.frond)
  | none =>
    let first := j.ri0 + (j.ri - j.ri0) / v.sl * v.sl
    (first, min v.n (first + v.sl), memberOf v j.base j.gang j.ri0 j.ri)

/-- The job stands at a strip boundary. -/
def Job.atBoundary (j : Job) (v : VJob) : Bool := j.tail.isNone && ((j.ri - j.ri0) % v.sl == 0 || j.ri == v.n)

/-- A strip of the job has ended where its elements reached the strip's bound. -/
def Job.endStrip (j : Job) : Job := { j with rdata := [], rfail := [], inStrip := false, tail := none }

/-- The first use of forwarding by a job, recorded on every member (R119). -/
def State.noteForward (s : State) (before after : Job) : State :=
  if after.fwdUsed && !before.fwdUsed then
    (s.frondEvents after 5).each after.members (fun s k => s.count (R.FRD_FWDCNT k) 32 1) else s

/-- A member of a gang is halted by the debugger, or the Fronds are stopped in Safe (R404, R440). -/
def State.frondsStopped (s : State) (j : Job) : Bool :=
  s.mode == 5 || !s.running || j.members.any (fun k => (s.fronds.get k).halted || (s.fronds.get k).haltReq)

/-- A linear stream of the strip up to an element needs a line of a remote window. -/
def VJob.needsLine (v : VJob) (j : Job) (bound line : Nat) : Bool :=
  v.sources.any (fun k =>
    let o := opnd v.words k
    (o.form == 1 || o.form == 3) && v.tableSlot != some k && !opMat v.last.op && !v.has 0x52 && decide (0 ≤ v.step k) &&
      decide (v.step k ≤ 64) && decide (j.ri < bound) &&
      (let (lo, hi) := v.extent k j.ri (bound - j.ri)
        let base : Int := (segOf j.segs o.sel).base
        decide ((base + lo) / 64 ≤ (line : Int)) && decide ((line : Int) ≤ (base + hi) / 64)))

/-- The lines from a missing one on that one READ fetches: those that the strip's linear streams still need, ascending in one
2,048-byte block (R307). -/
def VJob.linesAhead (v : VJob) (j : Job) (bound line : Nat) : List Nat :=
  line :: (((List.range (31 - line % 32)).map (fun i => line + 1 + i)).takeWhile (fun l =>
    v.needsLine j bound l && !(j.rdata.any (fun e => e.1 == l)) && sget (fun _ => 0) j.rfail l == 0))

/-- Missing remote lines are asked for by one READ (R307). -/
def State.askLines (s : State) (j : Job) (l : List Nat) : State :=
  let line := l.headD 0
  match s.locate (line * 64) with
  | .remote d x =>
    let s1 := (s.request (.job j.vjd) 0 d (64 * l.length) (x / 64 * 64) [] false false 0).1
    s1.putJob { j with rwait := j.rwait ++ l }
  | _ => s.putJob j

/-- One strip of the job that runs on Frond k (R94, R104). -/
def State.stripStart (s : State) (k : Nat) : State :=
  match s.runningOn k with
  | none => s
  | some j =>
    match parseVjd j.words with
    | none => s
    | some v =>
      if s.frondsStopped j ∨ v.n ≤ j.ri ∨ j.stall ≠ none ∨ j.rwait ≠ [] then s
      else if j.atBoundary v = true ∧ (j.preempt = true ∨ j.overrun = true) then s
      else
        let (first, bound, fr) := j.strip v
        let (s0, j0, why) := s.runElems v fr first (bound - j.ri) { j with inStrip := true }
        let (s2, j1) := s0.postGathered j0 fr
        let s1 := s2.noteForward j j1
        match why with
        | none => s1.putJob j1.endStrip
        | some (.fault code fsel fa) => s1.stopFault j1 code fsel fa fr
        | some (.stall r) => (s1.guard 4).putJob { j1 with stall := some r }
        | some (.need l) => s1.askLines j1 (v.linesAhead j1 bound l)
        | some .wait => s1.putJob j1

/-- STRIP_START (R104). -/
def execStripStart (frond : Fin 8) (s : State) : Res := .next (s.stripStart frond.val)

/-! ### Start, completion, preemption, carry (R38, R39, R95) -/

/-- The descriptor identity of a W or source operand for R99: its words and the resolved base. -/
def fwdKey (v : VJob) (segs : List (Nat × SegDesc)) (k base gang : Nat) : List Word × Nat × Nat × Nat × Nat :=
  let o := opnd v.words k
  ((List.range 3).map (fun i => v.words.getD ((if k = 4 then 24 else 8 + 4 * k) + i) 0 &&& (if i = 0 then 0xF0FFFFFF else 0xFFFFFFFF)),
    (segOf segs o.sel).base, v.opTy k, base, gang)

/-- The source slots that the job before may forward (R99). -/
def State.forwards (s : State) (j : Job) (v : VJob) : List Nat :=
  if vFwd j.words && j.members.all (fun k => s.b (R.FRD_CTL k) 0) then
    v.sources.filter (fun k => ((opnd v.words k).form == 1 || (opnd v.words k).form == 3) &&
      j.members.all (fun f => (s.fronds.get f).lastW == some (fwdKey v j.segs k j.base j.gang)))
  else []

/-- The job that Frond k would start: first in its order, first on every member, and no member runs one (R38, R95). -/
def State.startable (s : State) (k : Nat) : Option Job :=
  match firstJob (s.jobs.filter (fun j => decide (j.st = .queued) && j.onFrond k)) with
  | none => none
  | some j =>
    let free := j.members.all (fun f => (s.runningOn f).isNone &&
      (match firstJob (s.jobs.filter (fun x => decide (x.st = .queued) && x.onFrond f)) with
        | some x => x.vjd == j.vjd
        | none => false))
    if free && !s.frondsStopped j then some j else none

/-- JOB_START (R95): the job runs on every member together. -/
def State.jobStart (s : State) (k : Nat) : State :=
  match s.startable k with
  | none => s
  | some j =>
    match parseVjd j.words with
    | none => s
    | some v =>
      let slots := s.forwards j v
      let vals := if slots = [] then [] else (s.fronds.get j.base).lastVals
      let wkey := if v.hasW && ((opnd v.words 4).form == 1 || (opnd v.words 4).form == 3) then
          some (fwdKey v j.segs 4 j.base j.gang) else none
      let lat := (Config.startLatency s.free).val
      let j1 := { j with st := .running, started := true, preempt := false, fwdSlots := slots, fwdVals := vals }
      let (s1, j2, _) := if j.started then (s, j1, none)
        else ({ s with free := s.free + 1 }).useAll j1 (j.members.map (fun f => (80 + f, lat)))
      let s2 := s1.each j.members (fun s f => s.onFrd f (fun x => { x with lastW := wkey, lastVals := [] }))
      (s2.putJob j2).writeStat j2 3

/-- JOB_START. -/
def execJobStart (frond : Fin 8) (s : State) : Res := .next (s.jobStart frond.val)

/-- The running job of a Frond, with its checked descriptor. -/
def State.runningJob (s : State) (k : Nat) : Option (Job × VJob) :=
  match s.runningOn k with
  | none => none
  | some j => (parseVjd j.words).map (fun v => (j, v))

/-- JOB_COMPLETE (R82): the job that has committed its last element. -/
def State.jobComplete (s : State) (k : Nat) : State :=
  match s.runningJob k with
  | some (j, v) => if v.n ≤ j.ri then s.completeJob j else s
  | none => s

/-- JOB_COMPLETE. -/
def execJobComplete (frond : Fin 8) (s : State) : Res := .next (s.jobComplete frond.val)

/-- PREEMPT (R38): at a strip boundary the running job yields and keeps its admission and charge. -/
def State.preempt (s : State) (k : Nat) : State :=
  match s.runningJob k with
  | some (j, v) =>
    if j.preempt = true ∧ j.atBoundary v = true ∧ j.ri < v.n then
      let j1 := { j with st := .queued, preempt := false }
      ((s.frondEvents j 4).putJob j1).writeStat j1 2
    else s
  | none => s

/-- PREEMPT. -/
def execPreempt (frond : Fin 8) (s : State) : Res := .next (s.preempt frond.val)

/-- JOB_CARRY (R39, R118): an overrunning job stops at its strip boundary, or where a failed top-up stalled it. -/
def State.jobCarry (s : State) (k : Nat) : State :=
  match s.runningJob k with
  | some (j, v) =>
    if j.overrun = true ∧ j.ri < v.n ∧ (j.atBoundary v = true ∨ j.stall ≠ none) then s.carryJob j else s
  | none => s

/-- JOB_CARRY. -/
def execJobCarry (frond : Fin 8) (s : State) : Res := .next (s.jobCarry frond.val)

/-- TOPUP_RESUME (R32): the top-up that failed passes now. -/
def State.topupResume (s : State) (k : Nat) : State :=
  match s.runningOn k with
  | some j =>
    (match j.stall with
      | some r => if (s.useOne j r 1).isSome then s.putJob { j with stall := none } else s
      | none => s)
  | none => s

/-- TOPUP_RESUME. -/
def execTopupResume (frond : Fin 8) (s : State) : Res := .next (s.topupResume frond.val)

/-- FRDn_CTL.FLUSHQ (R117): every job in the Frond's queue is cancelled. -/
def State.flushQueue (s : State) (k : Nat) : State := s.each (s.jobs.filter (fun j => j.onFrond k)) (fun s j => s.cancelJob j)

end Sys2Proof.Machine
end

