-- ==== Sys2Proof/Machine/LedgerTick.lean ====
section
/-! DEFINITION. The steps of the ledger at a tick (R41), the frame plan's entries (R44, R45, R110, R111), and the ledger's part
of the cutoff and the deadline (R35, R39). -/

namespace Sys2Proof.Machine

/-! ### Plan entries (R45, R111) -/

/-- The entries of a plan slot. -/
def State.slot (s : State) (k : Nat) : List PlanEntry := if k = 0 then s.ledger.slot0 else s.ledger.slot1

/-- A plan slot replaced. -/
def State.setSlot (s : State) (k : Nat) (l : List PlanEntry) : State :=
  s.onLdg (fun x => if k = 0 then { x with slot0 := l } else { x with slot1 := l })

/-- The start input of place i of a slot: its entry, or what the entries before have left of its counts (R250). -/
def State.startInput (s : State) (k i : Nat) : PlanEntry :=
  ((s.slot k)[i]?).getD (sget (fun _ => ({} : PlanEntry)) s.spores.planKept (1024 * k + i))

/-- The counts of a start input whose entry is replaced: what it held counts as lost (R249, R250). -/
def PlanEntry.replaced (old new_ : PlanEntry) : PlanEntry :=
  { new_ with pend := 0, arrived := old.arrived, taken := old.taken, satcnt := old.satcnt + old.pend, ovf := old.ovf }

/-- A slot takes new entries (R250): the counts that its old ones held go to SPC_PLANDISC and to their SATCNT. -/
def State.replacePlan (s : State) (k : Nat) (l : List PlanEntry) : State :=
  let held := ((s.slot k).map (fun e => e.pend)).sum
  let n := max l.length (s.slot k).length
  let kept := (List.range n).foldl (fun m i =>
    let e := if i < l.length then ({} : PlanEntry) else (s.startInput k i).replaced {}
    sput (fun _ => ({} : PlanEntry)) m (1024 * k + i) e) s.spores.planKept
  let fresh := (List.range l.length).map (fun i => (s.startInput k i).replaced (l.getD i {}))
  ((s.count R.SPC_PLANDISC 32 held).onSpo (fun p => { p with planKept := kept })).setSlot k fresh

/-- Entry i of a slot changed. -/
def State.onEntry (s : State) (k i : Nat) (g : PlanEntry → PlanEntry) : State :=
  s.setSlot k ((List.range (s.slot k).length).map (fun m => let e := (s.slot k).getD m {}; if m = i then g e else e))

/-- The charges of a plan entry's job. -/
def State.entryCharges (s : State) (e : PlanEntry) : SMap Nat := s.chargesOf e.job.words e.job.segs e.job.base e.job.gang

/-- The plan check of R45: the lowest resource whose summed charges exceed cap_r(LSO_max). -/
def State.planFails (s : State) (l : List PlanEntry) : Option Nat :=
  let lso := l.foldl (fun m e => max m e.lso) 0
  let sums := l.foldl (fun m e => (s.entryCharges e).foldl (fun m c => addCharge m c.1 c.2) m) ([] : SMap Nat)
  (sums.find? (fun c => decide (s.workIn c.1 (s.tdlClk - lso * 16) < c.2))).map (fun c => c.1)

/-- An instance dropped (R111): its charge is refunded and its VJD's STAT written IDLE with CODE 0. -/
def State.dropInstance (s : State) (j : Job) : State :=
  ((((s.refund j).dropJob j.vjd).writeStat j 0).wakeVwait j.vjd).enterWaiting

/-- The ARMED instances. -/
def State.armed (s : State) : List Job := s.jobs.filter (fun j => decide (j.st = .armed))

/-- LDG_GUARD.PLANSKIP, counted once a frame for PLAN_QUERY (R41, R351). -/
def State.planSkip (s : State) : State :=
  (s.guard 7).onLdg (fun l => if l.skipSeen then l else { l with skipSeen := true, skipFrames := l.skipFrames + 1 })

/-- LDG_GUARD.LATE, counted once a frame (R38, R351). -/
def State.planLate (s : State) : State :=
  (s.guard 6).onLdg (fun l => if l.lateSeen then l else { l with lateSeen := true, lateFrames := l.lateFrames + 1 })

/-- The instance of an entry starts (R38, R111): its spore is taken; too late, it is refused; without queue room it waits
in start order. -/
def State.startEntry (s : State) (k i : Nat) : State :=
  let e := (s.slot k).getD i {}
  match s.jobs.find? (fun j => decide (j.st = .armed) && j.plan == some (k, i)) with
  | none => s
  | some j =>
    if j.roomWait then (if s.hasRoom j.base j.gang then s.enterQueue j else s)
    else if e.pend = 0 then s
    else
      let s1 := s.onEntry k i (fun e => { e with pend := e.pend - 1, taken := e.taken + 1 })
      if e.lso * 16 < s.phase then ((s1.dropInstance j).planLate).overrunSpore
      else if s1.hasRoom j.base j.gang then s1.enterQueue j
      else { s1 with jobs := (s1.jobs.filter (fun x => x.vjd != j.vjd)) ++ [{ j with roomWait := true }] }

/-- PLAN_ENTRY_START (R111): nothing is taken outside Run and Hold. -/
def State.planEntryStart (s : State) (i : Nat) : State :=
  if s.inFrame && s.ledger.planActive && s.ledger.open_ then s.startEntry s.ledger.actSlot i else s

/-- PLAN_ENTRY_START. -/
def execPlanEntryStart (entry : Fin 1024) (s : State) : Res := .next (s.planEntryStart entry.val)

/-! ### Steps 1 to 3 (R41, R42) -/

/-- The jobs that hold an admission of the ending frame: queued, running, and ARMED instances. -/
def Job.admitted (j : Job) : Bool := decide (j.st = .queued) || decide (j.st = .running) || decide (j.st = .armed)

/-- Step 1: unused charges are refunded; the ARMED instances of the ending frame are dropped. -/
def State.tickRefund (s : State) : State :=
  let s1 := s.each s.armed (fun s j => s.dropInstance j)
  s1.each (s1.jobs.filter (fun j => j.admitted && j.charged)) (fun s j => s.refund j)

/-- Step 2: every pool expires. -/
def State.tickExpire (s : State) : State :=
  s.each acctIndices (fun s r => s.onAcct r (fun a => { a with pool := 0, expired := a.expired + a.pool }))

/-- The audit identity of R42. -/
def Acct.balanced (a : Acct) : Bool := decide ((a.granted : Int) = a.consumed + a.refunded + a.expired)

/-- Step 3: the identity is checked and the audit registers take the closed frame's sums. -/
def State.tickAudit (s : State) : State :=
  let s1 : State := match acctIndices.find? (fun r => !(s.acct r).balanced) with
    | none => s
    | some r => (((s.setB R.LDG_AUDSTAT 0 true).putF R.LDG_AUDSTAT 15 8 r)).raiseMachine 0
  s1.each acctIndices (fun s r => s.onAcct r (fun a =>
    { a with
      audGranted := a.granted, audConsumed := a.consumed, audRefunded := a.refunded, audExpired := a.expired
      granted := 0, consumed := 0, refunded := 0, expired := 0 }))

/-! ### Steps 4 to 9 -/

/-- Step 4: every pool is set to its grant. -/
def State.tickGrant (s : State) : State :=
  s.each acctIndices (fun s r =>
    let g := s.grantOf r
    s.onAcct r (fun a => { a with grant := g, pool := g, granted := g }))

/-- The element from which a readmission charges a job: after the strip in flight, or its RI (R41). -/
def Job.resumesAt (j : Job) : Nat := match j.tail with
  | some t => t.stop
  | none => j.ri

/-- A job's words with its present RI, or the element after its strip in flight. -/
def Job.wordsNow (j : Job) : List Word := j.words.set 3 (BitVec.ofNat 32 j.resumesAt)

/-- The charges of a job from there on; no element, no charge. -/
def State.chargesFrom (s : State) (j : Job) : SMap Nat :=
  if j.tail.isSome ∧ vw j.words 1 ≤ j.resumesAt then [] else s.chargesOf j.wordsNow j.segs j.base j.gang

/-- Strips of a job from an RI on. -/
def Job.strips (v : VJob) (ri : Nat) : Nat := ceilDiv (v.n - ri) v.sl

/-- A strip of the job is in flight from the ending frame. -/
def Job.inFlight (j : Job) : Bool := decide (j.st = .running) && j.inStrip

/-- Step 5: a strip in flight is charged without the test of R34; the credits count as consumed, and the strip's further uses draw
on them. `j` is the job as it stood before step 1. -/
def State.chargeStrip (s : State) (j : Job) : State :=
  match parseVjd j.words with
  | none => s
  | some v =>
    let (ch, strips) := if j.charged then (j.charges, Job.strips v j.ri0) else (s.chargesFrom j, Job.strips v j.ri)
    let (first, stop, fr) := j.strip v
    let credits := (ch.filter (fun c => c.2 != 0)).foldl (fun m c =>
      sput (fun _ => 0) m c.1 (if c.1 = 80 + fr then 128 * v.rate else ceilDiv c.2 strips)) ([] : SMap Nat)
    let s1 := s.each credits (fun s c => s.onAcct c.1 (fun k => { k with pool := k.pool - c.2, consumed := k.consumed + c.2 }))
    s1.putJob { (s1.jobAt j.vjd).getD j with tail := some { first := first, stop := stop, frond := fr, credits := credits } }

/-- Step 6 for one job: admitted under R34, or carried on (R39, R41, R118). A job whose strip is in flight stops at the end of that
strip if it fails; its overrun spore is emitted here. -/
def State.readmit (s : State) (j : Job) : State :=
  let ch := s.chargesFrom j
  let j0 := { j with charged := true, ri0 := j.resumesAt }
  if s.admissible ch then
    let s1 := s.deduct ch
    let j1 := { j0 with words := j.wordsNow, charges := ch, used := [], stall := none, overrun := false, lines := [] }
    if j.st = .running then s1.putJob j1
    else
      let s2 := (s1.putJob { j1 with started := false }).event 0x29 0 1
      s2.enterQueue { j1 with started := false }
  else if j.tail.isSome then (s.putJob { j0.settled with overrun := true, told := true }).overrunSpore
  else if j.st = .carried then s.overrunSpore
  else s.carryJob j0.settled

/-- Steps 5 and 6: strips in flight, then the carried jobs and those treated as carried, in class and admission order. -/
def State.tickCarried (s : State) (before : List Job) : State :=
  let s1 := s.each (before.filter (fun j => j.inFlight)) (fun s j => s.chargeStrip j)
  let again := sortBy Job.before (s1.jobs.filter (fun j =>
    decide (j.st = .carried) || decide (j.st = .running) || decide (j.st = .queued)))
  let s2 := s1.each again (fun s j => s.putJob j.settled)
  s2.each again (fun s j => s.readmit j.settled)

/-- A pending swap takes effect (R45). -/
def State.swapPlan (s : State) : State :=
  if s.ledger.swapPending then
    s.onLdg (fun l => { l with actSlot := 1 - l.actSlot, swapPending := false, planActive := true, lastSwap := l.frame })
  else s

/-- Step 7 for one entry: ARMED with its charge, or skipped (R41, R111). -/
def State.armEntry (s : State) (k i : Nat) : State :=
  let e := (s.slot k).getD i {}
  let ch := s.entryCharges e
  if (s.jobAt e.job.vjd).isSome || !s.admissible ch then s.planSkip
  else
    let j : Job :=
      { e.job with
        st := .armed, plan := some (k, i), charges := ch, used := [], charged := true, seq := s.ledger.seq
        ri0 := vw e.job.words 3, ri := vw e.job.words 3, flags := statFlags e.job.words }
    let s1 := (s.deduct ch).onLdg (fun l => { l with seq := l.seq + 1 })
    let s2 := (({ s1 with jobs := s1.jobs ++ [j] } : State).event 0x29 0 1).writeStat j 7
    if e.atTick then
      (if s2.hasRoom j.base j.gang then s2.enterQueue j else s2.putJob { j with roomWait := true })
    else s2.startEntry k i

/-- Step 7: the entries of the active plan in plan order, after a pending swap. -/
def State.tickPlan (s : State) : State :=
  let s1 := s.swapPlan
  if s1.ledger.planActive then
    let k := s1.ledger.actSlot
    s1.each (List.range (s1.slot k).length) (fun s i => s.armEntry k i)
  else s1

/-- Step 8: held jobs in class order, then issue order (R109). -/
def State.tickHeld (s : State) : State :=
  s.each (sortBy Job.before s.heldJobs) (fun s j =>
    let ch := s.chargesFrom j
    if s.hasRoom j.base j.gang && s.admissible ch then s.enrol j ch true else s)

/-- Steps 1 to 3 of R41. -/
def State.tickClose (s : State) : State := ((s.tickRefund).tickExpire).tickAudit

/-- The values captured at a tick (R21, R66). -/
def State.tickCapture (s : State) : State :=
  let s1 : State := if s.mem.refNext = 0 then s else s.putF R.LDG_DERATE 9 0 s.mem.refNext
  s1.onLdg (fun l =>
    { l with
      capRef := s1.f R.LDG_DERATE 9 0, capScrub := s1.f R.LDG_DERATE 25 16, capVc := s1.rd R.LDG_VCSHARE
      winNow := s1.f R.LDG_TICKWIN 15 0
      tickOutEn := s1.b R.LDG_TICKOUT 8, tickOutWidth := s1.f R.LDG_TICKOUT 7 0 })

/-- Steps 4 to 9 of R41. -/
def State.tickOpen (s : State) (before : List Job) : State := (((s.tickGrant).tickCarried before).tickPlan).tickHeld

/-! ### Cutoff and deadline (R22, R39) -/

/-- The ledger's part of T_DL (R39): running jobs overrun, jobs that have not started are carried. -/
def State.deadlineJobs (s : State) : State :=
  let run := s.jobs.filter (fun j => decide (j.st = .running) && (match parseVjd j.words with
    | some v => decide (j.ri < v.n)
    | none => false))
  let s1 := s.each run (fun s j => if s.frondsStopped j then s.carryJob j else s.putJob { j with overrun := true })
  s1.each (s1.jobs.filter (fun j => decide (j.st = .queued))) (fun s j => s.carryJob j)

end Sys2Proof.Machine
end

