-- ==== Sys2Proof/Machine/Threads.lean ====
section
/-! DEFINITION. What other blocks need of the Stem's threads: their store buffers (R192, R194), segment loads that the
engine makes itself (R186, R225, R226), START and STOP (R209), debug halt requests (R403), and the interrupt sources
(R237). -/

namespace Sys2Proof.Machine

/-! ### Store buffers (R192, R194) -/

/-- The requests of a thread: master 8, with Machine origin at level 3. -/
def State.who (s : State) (t : Nat) : Who := { master := 8, machine := (s.thr t).pl == 3, thread := some t }

/-- The access uses B16's port A: every form of a B16 address but the own remote window (R181). -/
def State.onPortA (s : State) (a : Nat) : Bool :=
  match s.locate a with
  | .bank 16 _ => true
  | _ => false

/-- The doubleword halves of a store as buffer entries. -/
def storeHalves : Nat → Nat → List Byte → List StoreEntry
  | 0, _, _ => []
  | fuel + 1, a, d =>
    if d.length ≤ 8 - a % 8 then (if d = [] then [] else [{ addr := a, bytes := d, paired := false }])
    else { addr := a, bytes := d.take (8 - a % 8), paired := true } :: storeHalves fuel (a + (8 - a % 8)) (d.drop (8 - a % 8))

/-- One buffered store leaves (R192): to B16 through port A, after an older request to its line through the own-ID window (R77), or
into the matrix as requests of the Stem. None: a B16 clear holds it. -/
def State.drainEntry (s : State) (t : Nat) (e : StoreEntry) : Option State :=
  if s.onPortA e.addr then
    match s.enter (s.who t) e.addr e.bytes.length true with
    | none => none
    | some s0 => match s0.writeMem (s.who t) e.addr e.bytes with
      | (_, .wait) => none
      | (s1, _) => some s1
  else some (s.each (s.lineWrites (s.who t) (pieces e.addr e.bytes.length) e.bytes) (fun s q => s.enqueue q))

/-- The oldest store of a buffer with the halves that drain with it. -/
def oldestStore : List StoreEntry → List StoreEntry × List StoreEntry
  | [] => ([], [])
  | e :: t => if e.paired then (e :: (oldestStore t).1, (oldestStore t).2) else ([e], t)

/-- Entries of a thread drained in order. -/
def State.drainList (s : State) (t : Nat) : List StoreEntry → Option State
  | [] => some s
  | e :: l =>
    match s.drainEntry t e with
    | none => none
    | some s1 => s1.drainList t l

/-- STORE_DRAIN (R192): the oldest entry of a thread drains, when the Stem is below its limit of R74. -/
def State.storeDrain (s : State) (t : Nat) : State :=
  let (now, later) := oldestStore (s.thr t).sbuf
  if now = [] then s
  else if 8 ≤ s.outstandingOf 8 ∧ s.onPortA ((now.headD {addr := 0, bytes := []}).addr) = false then s
  else match (s.onThr t (fun h => { h with sbuf := later })).drainList t now with
    | none => s
    | some s1 => s1

/-- The whole buffer of a thread drains (R194). At the Stem's limit its older requests complete first. -/
def State.drainAll (s : State) (t : Nat) : Option State :=
  let l := (s.thr t).sbuf
  let s0 := s.onThr t (fun h => { h with sbuf := [] })
  if 8 < s.outstandingOf 8 + 2 * l.length then (match s0.flushMaster 8 with
    | none => none
    | some s1 => s1.drainList t l)
  else s0.drainList t l

/-! ### Segment loads of the engine (R186, R225, R226) -/

/-- A descriptor read by the engine itself, for START, the vector tables and the trap stacks: the checks of R186 for a
level. The read waits for a clear or a retraining (R59, R69); `ans` holds the answers of a remote device that the writing
instruction has waited for. None: a check or the read failed. -/
def State.engineSeg (s : State) (ans : List RemoteAnswer) (sel pl : Nat) (code : Bool) : State × Option SegDesc :=
  if s.selOk sel = false then (s, none)
  else match (s.settleAll (s.descAddr sel) 16).readAns { master := 8, machine := true } ans (s.descAddr sel) 16 with
    | (s1, .ok b) =>
      let d := parseDesc b
      (s1, if d.usable pl false false && (!code || d.x) then some d else none)
    | (s1, _) => (s1, none)

/-! ### START and STOP (R209) -/

/-- The code of a thread state in STMn_STAT (R209). -/
def TState.code : TState → Nat
  | .stopped => 0
  | .active => 1
  | .waiting => 2
  | .halted => 3
  | .locked => 4

/-- STMn_STAT as it reads (R209). -/
def State.stmStat (s : State) (t : Nat) : Word :=
  let h := s.thr t
  BitVec.ofNat 32 (h.st.code + h.pl * 16 + fld h.psw 15 15 * 64 + fld h.psw 8 8 * 128 + h.sbuf.length % 8 * 256 +
    b2n h.resv.isSome * 2048 + s.f (R.STM_STAT t) 12 12 * 4096)

/-- TASK_STOP publishes when its thread is STOPPED (R357). -/
def State.taskStopped (s : State) (t : Nat) : State :=
  s.each (s.waiting (fun w => match w with | .taskStop k => k == t | _ => false)) (fun s n =>
    s.endWait n 0 [(s.thr t).pc.toNat, (s.stmStat t).toNat])

/-- A thread stops (R209): its buffer drains, its reservation goes, and with no thread LOCKED any more LOCKUP_N is released (R242).
While a clear of B16 holds its buffer, the stop waits. -/
def State.stopThread (s : State) (t : Nat) : State :=
  match s.drainAll t with
  | none => s.onThr t (fun h => { h with stopReq := true })
  | some s1 =>
    let s2 := s1.onThr t (fun h =>
      { h with
        st := .stopped, resv := none, waitFor := .nothing, fbuf := [], remote := none, haltReq := false, step := none
        stepDone := false, stopReq := false })
    let s3 := if (List.range 8).any (fun k => (s2.thr k).st == .locked) then s2 else s2.onPwr (fun p => { p with lockupN := false })
    (if (s.thr t).st = .halted then s3.showHalted else s3).taskStopped t

/-- STORE_DRAIN: a stop that waited for the buffer goes on when it is empty. -/
def execStoreDrain (t : Tid) (s : State) : Res :=
  .next (if s.running then
    (let s1 := s.storeDrain t.val
      let h := s1.thr t.val
      if h.stopReq = true ∧ h.remote.isNone = true ∧ h.sbuf = [] then s1.stopThread t.val else s1)
  else s)

/-- START of a STOPPED thread (R209, R183, R186): every register 0, SG0 from STMn_CSEL at the level of STMn_CTL.PL; a
failed load leaves it STOPPED and sets STARTERR. -/
def State.startThread (s : State) (ans : List RemoteAnswer) (t : Nat) : State :=
  if (s.thr t).st ≠ .stopped then s
  else
    let pl := s.f (R.STM_CTL t) 5 4
    let sel := s.f (R.STM_CSEL t) 15 0
    let fresh : Thread := { psw := setFld 0 13 12 pl, pc := s.rd (R.STM_ENTRY t), st := .active, vjq := (s.thr t).vjq, mpend := (s.thr t).mpend }
    let s1 := s.setB (R.TRP_LK t) 31 false
    match s1.engineSeg ans sel pl true with
    | (s2, some d) => s2.setThr t { fresh with sg := fresh.sg.set 0 { sel := BitVec.ofNat 16 sel, desc := d } }
    | (s2, _) => s2.setB (R.STM_STAT t) 12 true

/-- STOP (R209): after the instruction in progress; a LOCKED thread becomes STOPPED too (R243). -/
def State.stopRequest (s : State) (t : Nat) : State :=
  let h := s.thr t
  if h.st = .stopped then s
  else if h.remote.isSome then s.onThr t (fun h => { h with stopReq := true })
  else
    s.stopThread t

/-- The effect of a write of STMn_CTL (R209): START and STOP together act as STOP. -/
def State.writeStmCtl (s : State) (ans : List RemoteAnswer) (t : Nat) (v : Word) : State :=
  let s1 := s.putF (R.STM_CTL t) 5 4 (fld v 5 4)
  if v.getLsbD 1 then s1.stopRequest t else if v.getLsbD 0 then s1.startThread ans t else s1

/-! ### Special registers (R183, R184) -/

/-- Special register r of thread t as RDSR reads it; none for a number not listed. -/
def Thread.special (h : Thread) (t r : Nat) : Option Word :=
  match r with
  | 0 => some h.psw
  | 1 => some h.acx
  | 2 => some h.lc
  | 3 => some h.ls
  | 4 => some h.le
  | 5 => some h.tspS
  | 6 => some h.tspM
  | 7 => some (BitVec.ofNat 32 t)
  | _ => if r < 16 then some ((h.sg.get (r - 8)).sel.zeroExtend 32) else none

/-- The PSW bits that a level may change (R184); PL is handled apart. -/
def pswMask (pl : Nat) : Nat := if pl = 0 then 0xE1F else 0xF1F

/-- PSW as a write at a level leaves it: LA keeps its value; none, a Privilege violation (R184). -/
def pswWrite (pl : Nat) (old v : Word) : Option Word :=
  let v1 := setFld v 15 15 (fld old 15 15)
  if pl = 3 then some v1
  else
    let newPl := fld v 13 12
    if (newPl ≠ fld old 13 12 ∧ ¬ (pl = 1 ∧ newPl = 0)) ∨
        ((v1 ^^^ old) &&& BitVec.ofNat 32 (0xF1F - pswMask pl)) ≠ 0 then none
    else some v1

/-- The value is not a PSW at any level: a reserved bit is 1, or PL = 2 (R184). -/
def pswIllegal (v : Word) : Bool := fld v 7 5 != 0 || v.getLsbD 14 || fld v 31 16 != 0 || fld v 13 12 == 2

/-! ### Debug halts (R403, R404) -/

/-- The debug level may halt thread t (R403). -/
def State.mayHalt (s : State) (t : Nat) : Bool := s.dbgLevel == 2 || (s.dbgLevel == 1 && decide (2 ≤ t))

/-- A list of unit numbers as a mask. -/
def maskOf (l : List Nat) : Nat := l.foldl (fun m i => m + 2 ^ i) 0

/-- A halt request for threads and Fronds (R403): the units stop issuing, a DBG_RESUME of the same clk does not release them (R406),
and the request's event is emitted. -/
def State.requestHalt (s : State) (threads fronds : List Nat) : State :=
  let s1 := s.each threads (fun s t =>
    if (s.thr t).st = .active ∨ (s.thr t).st = .waiting then s.onThr t (fun h => { h with haltReq := true }) else s)
  let s2 := s1.each fronds (fun s k => s.onFrd k (fun f => if f.halted then f else { f with haltReq := true }))
  let units := BitVec.ofNat 32 (maskOf threads + maskOf fronds * 256)
  ((s2.bring R.DBG_RESUME (s2.rd R.DBG_RESUME) (s2.fresh R.DBG_RESUME ||| units)).onDbg (fun d => { d with halting := true })).produce 0x29 0

/-! ### Sources (R237) -/

/-- Some bit of a register is 1 together with the same bit of its enable. -/
def State.anyEnabled (s : State) (reg en : Nat) : Bool := (s.rd reg &&& s.rd en) != 0

/-- The cause condition of source n (R237). -/
def State.sourcePending (s : State) (n : Nat) : Bool :=
  if n < 64 then decide (0 < s.f (R.SPC_TI_STAT (8 + n)) 7 0)
  else if n < 72 then s.rd (R.FRD_EVT (n - 64)) != 0
  else if n = 72 then s.b R.LDG_STAT 3 || s.b R.LDG_STAT 4 || s.b R.LDG_STAT 5 || s.b R.LDG_AUDSTAT 0 ||
    s.rd R.LDG_GUARD != 0
  else if n = 73 then s.b R.MTX_ERR 31
  else if n = 74 then (List.range 18).any (fun b => s.f (R.BANK_STAT b) 2 0 != 0)
  else if n = 75 then (List.range 12).any (fun c => s.f (R.DDR_STAT c) 4 3 != 0) || s.b R.DDRC_STAT 1
  else if n ≤ 77 then s.anyEnabled (R.ETH_INT (n - 76)) (R.ETH_INTEN (n - 76))
  else if n = 78 then s.anyEnabled R.IOB_INT R.IOB_INTEN
  else if n ≤ 82 then s.anyEnabled (R.LNK_INT (n - 79)) (R.LNK_INTEN (n - 79))
  else if n = 83 then s.anyEnabled R.FAB_INT R.FAB_INTEN
  else if n ≤ 99 then s.b R.HIF_DBPEND (n - 84)
  else if n = 100 then s.anyEnabled R.UPD_INT R.UPD_INTEN
  else if n = 101 then s.anyEnabled R.BST_INT R.BST_INTEN
  else if n = 102 then s.anyEnabled R.DBG_INT R.DBG_INTEN
  else if n = 103 then pmcIndices.any (fun c => s.b (R.PMC_HI c) 31)
  else if n ≤ 107 then s.b (R.TMR_STAT (n - 104)) 0 && s.b (R.TMR_CTL (n - 104)) 2
  else if n = 108 then s.anyEnabled R.PWR_THINT R.PWR_THINTEN
  else if n = 109 then s.anyEnabled R.GLB_GPIO_INT R.GLB_GPIO_INTEN
  else if n = 110 then (List.range 8).any (fun t => s.b (R.STM_STAT t) 12)
  else false

end Sys2Proof.Machine
end

