-- ==== Sys2Proof/Machine/Trace.lean ====
section
/-! DEFINITION. Trace packets and the trace buffer (R413, R414). -/

namespace Sys2Proof.Machine

/-- Size of the trace buffer. -/
def traceSize : Nat := 8192

/-- Bytes put into the trace buffer if they fit, and lost otherwise (R414). -/
def State.tracePush (s : State) (b : List Byte) : State :=
  if s.dbg.trace.length + b.length ≤ traceSize then
    s.onDbg (fun d => { d with trace := d.trace ++ b, sinceSync := d.sinceSync + 1 })
  else (s.onDbg (fun d => { d with lostPackets := d.lostPackets + 1 })).setB R.DBG_INT 2 true

/-- A SYNC packet: the full timebase (R413). -/
def State.traceSync (s : State) : State :=
  (s.tracePush (0x0F :: leBytes 8 s.ns)).onDbg (fun d => { d with sinceSync := 0 })

/-- The OVF packet, followed by a SYNC, once room returns (R413, R414). -/
def State.traceOvf (s : State) : State :=
  if s.dbg.lostPackets = 0 ∨ traceSize < s.dbg.trace.length + 3 then s
  else
    ((s.tracePush (0x50 :: leBytes 2 (min s.dbg.lostPackets 65535))).onDbg (fun d => { d with lostPackets := 0 })).traceSync

/-- One packet: header byte and payload; a SYNC after every 1,024 packets (R413). -/
def State.tracePacket (s : State) (type sub : Nat) (payload : List Byte) : State :=
  if s.b R.DBG_TRCCTL 0 = false then s
  else
    let s1 := s.traceOvf.tracePush (BitVec.ofNat 8 (type * 16 + sub) :: payload)
    if 1024 ≤ s1.dbg.sinceSync then s1.traceSync else s1

/-- TS: timebase bits [31:0]. -/
def State.traceTs (s : State) : List Byte := leBytes 4 s.ns

/-- A TICK packet when DBG_TRCCTL.TICK is set. -/
def State.traceTick (s : State) : State :=
  if s.b R.DBG_TRCCTL 2 then s.tracePacket 2 0 (leBytes 4 s.ledger.frame.toNat ++ s.traceTs) else s

/-- A MODE packet when DBG_TRCCTL.MODEP is set. -/
def State.traceMode (s : State) (mode : Nat) : State := if s.b R.DBG_TRCCTL 3 then s.tracePacket 4 mode s.traceTs else s

/-- A HALT packet when DBG_TRCCTL.MODEP is set: `sub` 0 halt, 1 resume. -/
def State.traceHalt (s : State) (sub threads fronds : Nat) : State :=
  if s.b R.DBG_TRCCTL 3 then
    s.tracePacket 3 sub (BitVec.ofNat 8 threads :: BitVec.ofNat 8 fronds :: s.traceTs) else s

end Sys2Proof.Machine
end

