-- ==== Sys2Proof/Machine/Modes.lean ====
section
/-! DEFINITION. The modes (R12, R437-R440): requests and their checks, the entry to each mode, Safe, and the mailbox
commands that wait for a mode or a tick (R348, R351). -/

namespace Sys2Proof.Machine

/-! ### ALERT_N and the throttle level (R429, R445) -/

/-- PWR_STAT.ALERT follows VINLOW, the throttle level and the DIMMs' HOT bits (R429). -/
def State.showAlert (s : State) : State :=
  s.setB R.PWR_STAT 3 (s.b R.PWR_STAT 2 || decide (1 ≤ s.power.level) || (List.range 12).any (fun c => s.b (R.DDR_STAT c) 5))

/-! ### Commands that wait (R348, R351) -/

/-- A 64-bit value as two result words. -/
def twoWords (v : Nat) : List Nat := [v % 2 ^ 32, v / 2 ^ 32 % 2 ^ 32]

/-- SET_MODE publishes OK with the mode reached and LDG_FRAME (R348). -/
def State.modeReached (s : State) : State :=
  s.each (s.waiting (fun w => match w with | .setMode m => m == s.mode | _ => false)) (fun s n =>
    s.endWait n 0 ([s.mode] ++ twoWords s.ledger.frame.toNat))

/-- SET_MODE publishes a refusal: DENIED with its reason, or WRONG_MODE (R348). -/
def State.modeRefused (s : State) (reason : Nat) : State :=
  s.each (s.waiting (fun w => match w with | .setMode _ => true | _ => false)) (fun s n =>
    if 1 ≤ reason ∧ reason ≤ 3 then s.endWait n 5 [0, 0, 0, reason] else s.endWait n (if reason = 5 then 6 else 5) [])

/-- PLAN_ACTIVATE publishes (R351): at its swap, with LDG_FRAME, or at a change to Config. -/
def State.activatePublished (s : State) (res : List Nat) : State :=
  s.each (s.waiting (fun w => match w with | .planActivate => true | _ => false)) (fun s n => s.endWait n 0 res)

/-! ### Entering a mode -/

/-- PWR_MODE shows a new mode, the mode before it and the cause in the GET_MODE encoding; LDG_FRAME is noted, the host
hears of it (R333), trace records it (R413), the partners see it (R295), and the request is no longer pending. Config is left with a divider of 1 (R431). -/
def State.enterMode (s : State) (m cause : Nat) : State :=
  let old := s.mode
  let s0 := if m = 1 ∨ m = 3 ∨ m = 4 then s.wr R.PWR_CLKDIV 0 else s
  let s1 := s0.wr R.PWR_MODE (BitVec.ofNat 32 (m + old * 8 + cause * 64))
  let s2 := ((s1.setB R.PWR_MODEREQ 3 false).onPwr (fun p => { p with request := none })).onFw (fun f =>
    { f with transFrame := s.ledger.frame })
  let s3 := if m = 3 then s2.onUpd (fun u => { u with minuteAt := s.now }) else s2
  ((s3.signalHost 1).traceMode m).sendAdverts.modeReached

/-- SAFE_N driven: asserted or not (R435, R440). -/
def State.driveSafe (s : State) (asserted : Bool) : State :=
  (s.setB R.PWR_STAT 4 asserted).onPwr (fun p => { p with safeN := asserted })

/-- Safe entry (R440) with its cause. Commands that wait for another mode are refused (log 15). -/
def State.safeEntry (s : State) (cause : Nat) : State :=
  if s.mode = 5 then s.onPwr (fun p => { p with safePending := none })
  else
    let s1 := (s.dropQueued.driveSafe true).enterMode 5 3
    let s2 := (s1.putF R.PWR_MODE 12 9 cause).onPwr (fun p => { p with safePending := none })
    let s3 := s2.each (List.range 6) (fun s i => s.stopRequest (i + 2))
    s3.modeRefused 5

/-- SAFE_ENTRY: the entry that a request or a lockup has made pending. -/
def execSafeEntry (s : State) : Res :=
  .next (match s.power.safePending with
    | some c =>
      if s.mode = 2 ∨ s.inFrame = true ∨ s.mode = 5 then (if c = 9 then s.wr R.PWR_CLKDIV 0 else s).safeEntry c else s
    | none => s)

/-- The jobs of Run or Hold on the change to Config (R43, R439): ARMED instances are dropped, queued, carried and held jobs
go on uncharged. -/
def State.jobsToConfig (s : State) : State :=
  let s1 := s.each s.armed (fun s j => s.dropInstance j)
  let s2 := s1.each s1.jobs (fun s j =>
    let j1 := { j.settled with charged := false, overrun := false, tail := none, told := false }
    if j.st = .carried then (s.putJob { j1 with st := .queued }).writeStat j1 2 else s.putJob j1)
  s2.each (sortBy Job.before s2.heldJobs) (fun s j => if s.hasRoom j.base j.gang then s.enrol j [] false else s)

/-- Run, Hold or Safe gives way to Config (R439): steps 1 to 3 of R41 run, no frame is open, the plan's waiting swap stays
and its command publishes. -/
def State.toConfig (s : State) (cause : Nat) : State :=
  let s1 := s.tickClose.jobsToConfig
  let s2 := s1.onLdg (fun l => { l with open_ := false, tickDue := false })
  let s3 := ((s2.dropQueued.setB R.SIM_STAT 2 false).driveSafe false).enterMode 2 cause
  s3.activatePublished [0, 0, 1]

/-! ### Requests (R437, R438) -/

/-- The plan check on leaving Config (R45): a plan that fails is discarded with a pending swap to it. -/
def State.planCheck (s : State) : State × Bool :=
  (List.range 2).foldl (fun acc k =>
    if (acc.1.slot k).isEmpty ∨ (acc.1.planFails (acc.1.slot k)).isNone then acc
    else
      let s1 := (acc.1.replacePlan k []).onLdg (fun l =>
        { l with
          swapPending := l.swapPending && k == l.actSlot
          planActive := l.planActive && k != l.actSlot })
      (s1.setB R.LDG_STAT 5 true, false)) (s, true)

/-- Check 1 of R438: phase limits and plans. -/
def State.check1 (s : State) : State × Bool :=
  let (s1, ok) := s.planCheck
  if s.phasesOk then (s1, ok) else (s1.setB R.LDG_STAT 5 true, false)

/-- Check 2: DDR5 is mapped. -/
def State.check2 (s : State) : Bool := s.b R.DDRC_CFG 3

/-- Check 3: quorate, or quorum does not apply (R315). -/
def State.check3 (s : State) : Bool := !(s.fabEn && s.f R.FAB_VOTE 15 6 != 0 && !s.b R.FAB_STAT 15)

/-- Check 4: T2-T7 STOPPED and no job queued or held. -/
def State.check4 (s : State) : Bool :=
  (List.range 6).all (fun i => decide ((s.thr (i + 2)).st = .stopped)) && s.jobs.isEmpty

/-- The checks of a transition that the table lists: the first that fails, as its REASON. -/
def State.transitionChecks (s : State) (target : Nat) : State × Nat :=
  if s.mode = 2 ∧ (target = 3 ∨ target = 4) then
    let (s1, ok) := s.check1
    (s1, if ok = false then 1 else if s.check2 = false then 2 else if target = 3 ∧ s.check3 = false then 3 else 0)
  else if s.mode = 2 ∧ target = 1 then (s, if s.check4 then 0 else 4)
  else if s.mode = 4 ∧ target = 3 then (s, if s.check3 then 0 else 3)
  else (s, 0)

/-- The table of R437 lists the requested transition. Safe is left for Config only after a thermal trip once the hottest
sensor is low enough, or after SET_MODE. -/
def State.transitionListed (s : State) (target : Nat) : Bool :=
  match s.mode with
  | 2 => target == 1 || target == 3 || target == 4 || target == 5
  | 3 => target == 2 || target == 4 || target == 5
  | 4 => target == 2 || target == 3 || target == 5
  | 5 =>
    let c := s.f R.PWR_MODE 12 9
    target == 2 && (c == 9 || (c == 8 && decide (s.power.tj + 5 ≤ (s.f R.PWR_THERM 7 0 : Int))))
  | _ => false

/-- A request of a mode (R437): at once for the present mode, refused with a REASON, or pending. -/
def State.requestMode (s : State) (target : Nat) : State :=
  let s0 := s.putF R.PWR_MODEREQ 6 4 0
  if target = s.mode then s0.modeReached
  else if s.transitionListed target = false then (s0.putF R.PWR_MODEREQ 6 4 5).modeRefused 5
  else
    let s1 := if s.mode = 2 then s0.wr R.PWR_CLKDIV 0 else s0
    match s1.transitionChecks target with
    | (s2, 0) =>
      if target = 5 then (s2.onPwr (fun p => { p with safePending := some 9 })).setB R.PWR_MODEREQ 3 true
      else if s.mode = 5 then s2.toConfig 0
      else (s2.onPwr (fun p => { p with request := some (target, 0) })).setB R.PWR_MODEREQ 3 true
    | (s2, r) => (s2.putF R.PWR_MODEREQ 6 4 r).modeRefused r

/-- A write of PWR_MODEREQ by a writer with the right to it: the CAUSE of its bus error, if it is one. -/
def State.writeModeReq (s : State) (v : Word) : State × Option Nat :=
  let t := fld v 2 0
  if t = 0 ∨ t = 6 ∨ t = 7 ∨ s.b R.PWR_MODEREQ 3 = true then (s, some 7) else (s.requestMode t, none)

/-! ### Transitions at a tick (R437-R439) -/

/-- The pending request as the tick finds it: checks made again; a refusal, or the target. -/
def State.dueRequest (s : State) : State × Option Nat :=
  match s.power.request with
  | none => (s, none)
  | some (t, _) =>
    match s.transitionChecks t with
    | (s1, 0) => (s1, some t)
    | (s1, r) =>
      ((((s1.onPwr (fun p => { p with request := none })).setB R.PWR_MODEREQ 3 false).putF R.PWR_MODEREQ 6 4 r).modeRefused r, none)

/-! ### Thermal (R444-R447) -/

/-- PWR_TEMP shows the hottest sensor. -/
def State.showTemp (s : State) (tj : Int) (sensor : Nat) : State :=
  (s.onPwr (fun p => { p with tj := tj })).wr R.PWR_TEMP (BitVec.ofNat 32 (ofSigned 8 tj + sensor * 256))

/-- The level that a temperature reaches, with a margin below each threshold. The thresholds are degrees without a sign: those of
an X part lie above 127 (DEDUCED, log 26). -/
def State.levelAt (s : State) (tj : Int) (margin : Int) : Nat :=
  if (s.f R.PWR_THERM 15 8 : Int) ≤ tj + margin then 2 else if (s.f R.PWR_THERM 7 0 : Int) ≤ tj + margin then 1 else 0

/-- A throttle level in force (R445, R446). -/
def State.setLevel (s : State) (l : Nat) : State := ((s.onPwr (fun p => { p with level := l })).putF R.PWR_THSTAT 1 0 l).showAlert

/-- THERMAL_RISE (R445): the level rises in the modes in which Fronds run. -/
def State.thermalRise (s : State) (tj : Int) (sensor : Nat) : State :=
  if s.running = false then s
  else
    let s1 := s.showTemp tj sensor
    let l := s1.levelAt tj 0
    if s.power.level < l ∧ (s.inConfig || s.inFrame) = true then (((s1.setLevel l).setB R.PWR_THINT 0 true).guard 1) else s1

/-- THERMAL_RISE. -/
def execThermalRise (tj : Int) (sensor : Fin 24) (s : State) : Res := .next (s.thermalRise tj sensor.val)

/-- The fall of the level at a tick (R445). -/
def State.thermalFall (s : State) : State :=
  let l := s.levelAt s.power.tj 5
  if l < s.power.level then (s.setLevel l).setB R.PWR_THINT 1 true else s

/-- THERMAL_TRIP (R447): Safe with cause 8. -/
def State.thermalTrip (s : State) (tj : Int) (sensor : Nat) : State :=
  if s.running = false ∨ tj < (s.f R.PWR_THERM 23 16 : Int) then s
  else (s.thermalRise tj sensor).safeEntry 8

/-- THERMAL_TRIP. -/
def execThermalTrip (tj : Int) (sensor : Fin 24) (s : State) : Res := .next (s.thermalTrip tj sensor.val)

end Sys2Proof.Machine
end

