-- ==== Sys2Proof/Machine/Bist.lean ====
section
/-! DEFINITION. Built-in self-test (15_self_test.md): the periodic slices, their failures, and the coverage cycle. A slice is
one step; an abort is its other outcome. -/

namespace Sys2Proof.Machine

/-! ### When a slice may run (R387, R388) -/

/-- The earliest clk since the tick at which the next tick can fall (R273). -/
def State.earliestTick (s : State) : Nat :=
  let margin := match s.f R.LDG_CTL 1 0 with
    | 0 => 0
    | 1 => s.ledger.winNow * 16
    | _ => 64
  s.periodClk - margin

/-- A slice of a length can end 2 µs before the next tick (R388). -/
def State.sliceFits (s : State) (clks : Nat) : Bool :=
  s.inFrame && s.idleWindow && !s.held && decide (s.phase + clks + 3200 ≤ s.earliestTick)

/-! ### Items -/

/-- Regions of B0-B17: 64 KiB each, bank by bank (R389). -/
def regionCount : Nat := 1088
/-- The bank of a region, and the region's number in it. -/
def regionPlace (i : Nat) : Nat × Nat := if i < 1024 then (i / 64, i % 64) else (16 + (i - 1024) / 32, (i - 1024) % 32)
/-- Home address of a region. -/
def regionHome (i : Nat) : Nat := bankHome (regionPlace i).1 + (regionPlace i).2 * 0x10000

/-- Analogue items (R393) as unit and lane: regulators, bandgap, PLLs, port lanes, DDR5 byte lanes, thermal sensors. -/
def anaItems : List (Nat × Nat) :=
  [(0x40, 0), (0x41, 0), (0x42, 0), (0x43, 0), (0x44, 0), (0x45, 0), (0x48, 0), (0x49, 0), (0x68, 0), (0x54, 0), (0x55, 0),
    (0x56, 0), (0x56, 1)] ++ (List.range 16).map (fun i => (0x50 + i / 4, i % 4)) ++
  (List.range 120).map (fun i => (0x58 + i / 10, i % 10))

/-- A Frond may be tested (R391, R392). -/
def State.testFrond (s : State) (k : Nat) : Bool := s.b R.LDG_TESTRES k

/-- An item has passed in this cycle. -/
def State.passed (s : State) (kind unit item : Nat) : Bool := s.bist.covered.contains (kind, unit, item)

/-- Unit code of a region's bank. -/
def regionUnit (i : Nat) : Nat := 1 + (regionPlace i).1

/-- A region is part of the cycle: its bank is On, and it is not skipped (R389, R390). -/
def State.regionCounts (s : State) (i : Nat) : Bool :=
  decide ((s.bank (regionPlace i).1).actual = .on) && !s.bist.skippedRegions.contains i

/-- A region can be taken now: in B17 only the frozen half (R389). -/
def State.regionReady (s : State) (i : Nat) : Bool :=
  let (b, r) := regionPlace i
  s.regionCounts i && !(s.bank b).clearing && (b != 17 || r / 16 == s.f R.SIM_STAT 0 0)

/-! ### Coverage cycle (R394) -/

/-- Everything enabled and not excluded has passed. -/
def State.covered (s : State) : Bool :=
  let bank := !s.b R.BST_CTL 0 || (List.range regionCount).all (fun i => !s.regionCounts i || s.passed 1 (regionUnit i) i)
  let frond := !s.b R.BST_CTL 1 || (List.range 8).all (fun k => !s.testFrond k || (List.range 32).all (fun g => s.passed 2 (0x20 + k) g))
  let ana := !s.b R.BST_CTL 2 || anaItems.all (fun a => s.passed 3 a.1 a.2)
  s.f R.BST_CTL 2 0 != 0 && bank && frond && ana

/-- A unit gets a coverage warning (R390, R392). -/
def State.warn (s : State) (unit : Nat) : State :=
  (s.onBist (fun b => { b with warned := if b.warned.contains unit then b.warned else unit :: b.warned })).setB R.BST_INT 1 true

/-- The end of a coverage cycle (R392, R394). -/
def State.cycleEnd (s : State) : State :=
  if s.covered = false then s
  else
    let s1 := s.each (List.range 8) (fun s k => if s.testFrond k then s else s.warn (0x20 + k))
    let s2 := ((s1.countW R.BST_CYCLES 1).setB R.BST_INT 2 true).wr R.BST_WARNCNT (BitVec.ofNat 32 (s1.bist.warned.length % 256))
    s2.onBist (fun b => { b with covered := [], aborts := [], skippedRegions := [], warned := [], cycleFrames := 0 })

/-- The cycle's part of a tick: a new idle window lies ahead; a cycle beyond 600,000 frames is slow. -/
def State.bistTick (s : State) : State :=
  let n := s.bist.cycleFrames + 1
  let s1 := s.onBist (fun b => { b with cycleFrames := n, doneBank := false, doneFrond := false, doneAna := false })
  if n = 600000 then s1.setB R.BST_INT 3 true else s1

/-! ### Outcomes (R395, R396) -/

/-- Failure codes whose retry decides between correctable and fatal. -/
def severe (code : Nat) : Bool := code == 2 || code == 3 || code == 5 || code == 6 || code == 0x0B

/-- BST_LAST. -/
def State.bistLast (s : State) (unit code item : Nat) (fatal : Bool) : State :=
  s.wr R.BST_LAST (BitVec.ofNat 32 (unit % 256 + code % 256 * 256 + item % 2048 * 65536 + b2n fatal * 2 ^ 27))

/-- A correctable failure (R396). -/
def State.bistCorrectable (s : State) (unit code item : Nat) : State :=
  (((s.count R.BST_CORRCNT 32 1).bistLast unit code item false).setB R.BST_INT 0 true).produce 0x28 1

/-- A fatal failure (R396): Safe at the next tick. -/
def State.bistFatal (s : State) (unit code item : Nat) : State :=
  (((s.count R.BST_FATALCNT 32 1).bistLast unit code item true).raiseMachine 2).onBist (fun b => { b with fatal := true })

/-- An item passed. -/
def State.bistPass (s : State) (kind unit item : Nat) : State :=
  s.onBist (fun b => { b with covered := if b.covered.contains (kind, unit, item) then b.covered else (kind, unit, item) :: b.covered })

/-- The result of a check (R395): its first failure is retried, and the retry decides. -/
def State.bistResult (s : State) (kind unit item : Nat) (r : SliceResult) : State :=
  match s.bist.retry.find? (fun e => e.1 == kind && e.2.1 == unit && e.2.2.1 == item) with
  | none =>
    (match r with
      | .pass => s.bistPass kind unit item
      | .fail c => s.onBist (fun b => { b with retry := b.retry ++ [(kind, unit, item, c.toNat)] }))
  | some e =>
    let code := e.2.2.2
    let s1 := s.onBist (fun b => { b with retry := b.retry.filter (fun x => x != e) })
    match r with
    | .pass => (s1.bistPass kind unit item).bistCorrectable unit code item
    | .fail _ =>
      if severe code then s1.bistFatal unit code item
      else
        let s2 := if kind = 1 then s1.count R.BST_WEAKCNT 32 1 else s1
        s2.bistCorrectable unit code item

/-- The end of a slice (R388). -/
def State.sliceEnd (s : State) : State := (s.produce 0x28 0).cycleEnd

/-! ### Bank slices (R389, R390) -/

/-- An item is part of the coverage cycle (R389, R392). -/
def State.itemCounts (s : State) (kind unit item : Nat) : Bool :=
  match kind with
  | 1 => s.regionCounts item
  | 2 => s.testFrond (unit - 0x20)
  | _ => true

/-- The next item of a kind: what is to be retried first; a bank off or a Frond taken out of the test waits (R389, R392). -/
def State.retryOf (s : State) (kind : Nat) : Option (Nat × Nat × Nat × Nat) :=
  s.bist.retry.find? (fun e => e.1 == kind && s.itemCounts e.1 e.2.1 e.2.2.1)

/-- The region that the next bank slice takes. -/
def State.nextRegion (s : State) : Option Nat :=
  match s.retryOf 1 with
  | some e => if s.regionReady e.2.2.1 then some e.2.2.1 else none
  | none =>
    ((List.range regionCount).map (fun i => (s.bist.nextRegion + i) % regionCount)).find? (fun i =>
      s.regionReady i && !s.passed 1 (regionUnit i) i)

/-- A bank slice may start now. -/
def State.bankSliceFits (s : State) : Bool :=
  s.sliceFits 16000 && s.b R.BST_CTL 0 && !s.bist.doneBank && !s.bist.doneFrond && !s.bist.doneAna && !s.bist.fatal

/-- The region is saved and written back: correctable doublewords return corrected, uncorrectable ones poisoned and
reported under R56 (R389). -/
def State.saveRegion (s : State) (i : Nat) : State :=
  let b := (regionPlace i).1
  let a := regionHome i
  s.each (s.mem.ecc.filter (fun e => decide (a ≤ e.1 * 8) && decide (e.1 * 8 < a + 0x10000))) (fun s e =>
    match e.2 with
    | .single _ => (s.bankCorrected b (e.1 * 8)).setEcc (e.1 * 8) none
    | _ => (s.bankUncorrectable b (e.1 * 8)).setEcc (e.1 * 8) (some .poison))

/-- BANK_SLICE (R389). -/
def State.bankSlice (s : State) (r : SliceResult) : State :=
  if s.bankSliceFits = false then s
  else match s.nextRegion with
    | none => s
    | some i =>
      let s1 := (s.saveRegion i).onBist (fun b =>
        { b with doneBank := true, nextRegion := (i + 1) % regionCount, aborts := b.aborts.filter (fun e => e.1 != i) })
      (s1.bistResult 1 (regionUnit i) i r).sliceEnd

/-- BANK_SLICE. -/
def execBankSlice (result : SliceResult) (s : State) : Res := .next (s.bankSlice result)

/-- The storage address of a physical address, if it lies in a bank. -/
def State.storageOf (s : State) (a : Nat) : Option Nat :=
  match s.locate (s.home a) with
  | .bank b off => some (s.bankAddr b off)
  | _ => none

/-- SLICE_ABORT (R390): an access to the borrowed region ends the slice that was to take it; eight in succession skip the
region for the cycle and warn its bank. The access itself is a command of its own. -/
def State.sliceAbort (s : State) (addr : Nat) : State :=
  match s.nextRegion, s.storageOf addr with
  | some i, some a =>
    if s.bankSliceFits = false ∨ a / 0x10000 ≠ regionHome i / 0x10000 then s
    else
      let n := sget (fun _ => 0) s.bist.aborts i + 1
      let s1 := ((s.saveRegion i).count R.BST_ABORTCNT 32 1).onBist (fun b =>
        { b with doneBank := true, nextRegion := i, aborts := sput (fun _ => 0) b.aborts i n })
      let s2 := if n < 8 then s1 else
        (s1.onBist (fun b => { b with skippedRegions := i :: b.skippedRegions, retry := b.retry.filter (fun e => e.2.2.1 != i || e.1 != 1) })).warn
          (regionUnit i)
      s2.sliceEnd
  | _, _ => s

/-- SLICE_ABORT. -/
def execSliceAbort (addr : Nat) (s : State) : Res := .next (s.sliceAbort addr)

/-! ### Frond and analogue slices (R391, R393) -/

/-- FROND_SLICE (R391): one segment of an idle Frond set in LDG_TESTRES; its stream buffers keep nothing for R99. -/
def State.frondSlice (s : State) (k : Nat) (r : SliceResult) : State :=
  let mine := match s.retryOf 2 with
    | some e => e.2.1 == 0x20 + k
    | none => true
  if s.sliceFits 19200 && s.b R.BST_CTL 1 && s.testFrond k && s.depth k == 0 && mine && !s.bist.doneFrond && !s.bist.doneAna && !s.bist.fatal then
    let n := sget (fun _ => 0) s.bist.nextSegment k
    let seg := match s.retryOf 2 with
      | some e => e.2.2.1
      | none => n
    let s1 := (s.onFrd k (fun f => { f with lastW := none, lastVals := [] })).onBist (fun b =>
      { b with doneFrond := true, nextSegment := sput (fun _ => 0) b.nextSegment k ((seg + 1) % 32) })
    (s1.bistResult 2 (0x20 + k) seg r).sliceEnd
  else s

/-- FROND_SLICE. -/
def execFrondSlice (frond : Fin 8) (result : SliceResult) (s : State) : Res := .next (s.frondSlice frond.val result)

/-- ANALOGUE_SLICE (R393). -/
def State.analogueSlice (s : State) (unit item : Nat) (r : SliceResult) : State :=
  let mine := match s.retryOf 3 with
    | some e => e.2.1 == unit && e.2.2.1 == item
    | none => true
  if s.sliceFits 32000 && s.b R.BST_CTL 2 && anaItems.contains (unit, item) && mine && !s.bist.doneAna && !s.bist.fatal then
    ((s.onBist (fun b => { b with doneAna := true })).bistResult 3 unit item r).sliceEnd
  else s

/-- ANALOGUE_SLICE. -/
def execAnalogueSlice (unit : BitVec 8) (item : Nat) (result : SliceResult) (s : State) : Res :=
  .next (s.analogueSlice unit.toNat item result)

/-! ### Power-up (R385, R386) -/

/-- Power-up BIST: its duration, and the first failing unit and code, which is fatal. -/
def State.powerUpBist (s : State) (fail : Option (Nat × Nat)) (us : Nat) : State :=
  let s1 := s.wr R.BST_PUTIME (BitVec.ofNat 32 (us % 2 ^ 18))
  match fail with
  | none => s1
  | some (u, c) => ((s1.wr R.BST_PU (BitVec.ofNat 32 (u % 256 + c % 256 * 256))).count R.BST_FATALCNT 32 1).bistLast u c 0 true

end Sys2Proof.Machine
end

