-- ==== Sys2Proof/Machine/Memctl.lean ====
section
/-! DEFINITION. The memory controllers' own work (R57-R62, R66-R69): bank power, clearing and scrub; DDR5 population,
training, refresh, retraining and patrol. -/

namespace Sys2Proof.Machine

/-! ### Banks (R57-R59) -/

/-- The state a power code names: 0 On, 1 Retain, 2 Off. -/
def powerOf (c : Nat) : BankPower := if c = 0 then .on else if c = 1 then .retain else .off

/-- A bank takes a power state (R58, R59, R441): contents lost in Off, and cleared on the way back. -/
def State.setBankPower (s : State) (b : Nat) (p : BankPower) : State :=
  let was := (s.bank b).actual
  if was = p then s
  else
    let s1 := if p = .off then s.finishClear b else s
    let s2 := s1.onBank b (fun k =>
      { k with actual := p, clearing := k.clearing || decide (was = .off), repair := if p = .off then [] else k.repair })
    let c := (s2.bank b).clearing && decide (p = .on)
    ((s2.setB (R.BANK_PWR b) 4 c).setB (R.BANK_PWR b) 5 (decide (p = .on) && !c)).putF (R.BANK_STAT b) 4 3
      (min 3 (s2.bank b).repair.length)

/-- BANK_POWER_CHANGE (R58): the bank's pending accesses complete, then it takes BANKn_PWR.STATE. -/
def State.bankPowerChange (s : State) (b : Nat) : State :=
  let p := powerOf (s.f (R.BANK_PWR b) 1 0)
  if s.running = false ∨ (s.bank b).actual = p then s
  else
    let mine := fun (q : MatrixReq) => q.target == b
    let s1 := s.onMtx (fun x =>
      { x with waiting := x.waiting.filter (fun q => !mine q), held := x.held.filter (fun q => !mine q) })
    match s1.performAll (s.matrix.waiting.filter mine ++ s.matrix.held.filter mine) with
    | none => s
    | some s2 => s2.setBankPower b p

/-- BANK_POWER_CHANGE. -/
def execBankPowerChange (bank : Fin 18) (s : State) : Res := .next (s.bankPowerChange bank.val)

/-- BANK_CLEAR (R59). -/
def State.bankClear (s : State) (b : Nat) : State :=
  if (s.bank b).clearing ∧ (s.bank b).actual = .on ∧ s.running = true then s.finishClear b else s

/-- BANK_CLEAR. -/
def execBankClear (bank : Fin 18) (s : State) : Res := .next (s.bankClear bank.val)

/-- Write-back of one doubleword: a correctable error is gone. -/
def State.writeBack (s : State) (a : Nat) : State :=
  match s.eccAt a with
  | some (.single _) => s.setEcc a none
  | _ => s

/-- A line position lies among n lines from a position on, wrapping at the end of the bank. -/
def scrubbed (lines pos n l : Nat) : Bool := decide ((l + lines - pos) % lines < n)

/-- The idle window in which a bank scrubs, by the frame it closes; Config is one with no end (R57). -/
def State.scrubWindow (s : State) : Option Nat := if s.inConfig then none else some s.ledger.frame.toNat

/-- The idle window's scrub of a bank (R57), in clk in which no request waits at its port B: queued repairs, but for doublewords
written since, then LINES lines from SCRUBPOS, once in a window. An uncorrectable doubleword that scrub reads is counted, logged
and sets LDG_GUARD.UE as one read by a master does (DESIGN CHOICE, log 67). -/
def State.bankScrub (s : State) (b : Nat) : State :=
  let done := !s.inConfig && (s.bank b).scrubbed == s.scrubWindow
  if s.idleWindow = false ∨ (s.bank b).actual ≠ .on ∨ (s.bank b).clearing = true ∨ 0 < s.waitingAt b ∨ done = true then s
  else
    let home := bankHome b
    let k := s.bank b
    let s1 := s.each (k.repair.filter (fun dw => !k.rewritten.contains dw)) (fun s dw => s.writeBack (home + 8 * dw))
    let s2 := (s1.onBank b (fun k => { k with repair := [], rewritten := [], scrubbed := s.scrubWindow })).putF (R.BANK_STAT b) 4 3 0
    if s2.b (R.BANK_SCRUB b) 16 = false then s2
    else
      let lines := bankSize b / 64
      let pos := s2.f (R.BANK_SCRUBPOS b) 15 0
      let n := s2.f (R.BANK_SCRUB b) 15 0
      let hit := s2.mem.ecc.filter (fun e =>
        decide (home ≤ e.1 * 8) && decide (e.1 * 8 < home + bankSize b) && scrubbed lines pos n ((e.1 * 8 - home) / 64))
      let s3 := s2.each hit (fun s e => match e.2 with
        | .single _ =>
          (((s.count (R.BANK_CECNT b) 16 1).setB (R.BANK_STAT b) 0 true).wr (R.BANK_ERRADDR b)
            (BitVec.ofNat 32 ((e.1 * 8 - home) / 8 + 2 ^ 31))).writeBack (e.1 * 8)
        | _ => s.bankUncorrectable b (e.1 * 8))
      s3.putF (R.BANK_SCRUBPOS b) 15 0 ((pos + n) % lines)

/-- BANK_SCRUB (R57). -/
def execBankScrub (bank : Fin 18) (s : State) : Res := .next (s.bankScrub bank.val)

/-! ### DDR5 population and training (R60-R62, R66, R69) -/

/-- A module that R60 supports. -/
def dimmOk (d : Dimm) : Bool :=
  d.registered && d.fastEnough && (d.width == 4 || d.width == 8) && (d.density == 16 || d.density == 24 || d.density == 32) &&
    (d.ranks == 1 || d.ranks == 2) && decide (16 ≤ d.capGiB) && decide (d.capGiB ≤ 128)

/-- The DIMMs of a channel. -/
def dimmsOf (l : List Dimm) (c : Nat) : List Dimm := l.filter (fun d => d.chan.val == c)

/-- The population of R60: every channel alike with one or two DIMMs, slot 0 first. -/
def populationOk (l : List Dimm) : Bool :=
  let n := (dimmsOf l 0).length
  l.all dimmOk && (n == 1 || n == 2) && (List.range 12).all (fun c => (dimmsOf l c).length == n) &&
    decide ((l.map (fun d => (d.chan, d.slot))).Nodup) &&
    l.all (fun d => match l.head? with
      | some e => d.capGiB == e.capGiB && d.ranks == e.ranks && d.width == e.width && d.density == e.density
      | none => true)

/-- DENSITY code of DDRn_MODULE. -/
def densityCode (d : Nat) : Nat := if d = 16 then 0 else if d = 24 then 1 else if d = 32 then 2 else 3

/-- tRFC1 in tenths of a ns by device density (R66). -/
def tRfc (d : Nat) : Nat := if d = 16 then 2950 else 4100

/-- REF of R66: ceil(1024 x tRFC1 / tREFI) + 2. -/
def refOf (density : Nat) (hot : Bool) : Nat := ceilDiv (1024 * tRfc density) (if hot then 19500 else 39000) + 2

/-- The density of the installed devices as DDRn_MODULE shows it. -/
def State.density (s : State) : Nat :=
  let c := s.f (R.DDR_MODULE 0) 3 2
  if c = 0 then 16 else if c = 1 then 24 else 32

/-- What a channel detects of its modules. -/
def State.detect (s : State) (l : List Dimm) (c : Nat) (trained : Bool) : State :=
  let m := dimmsOf l c
  let present := (m.map (fun d => 2 ^ d.slot.val)).sum
  let s1 := (s.putF (R.DDR_STAT c) 1 0 present).setB (R.DDR_STAT c) 2 trained
  match m.head? with
  | none => s1.wr (R.DDR_MODULE c) 0
  | some d => s1.wr (R.DDR_MODULE c)
      (BitVec.ofNat 32 ((d.ranks - 1) % 2 + b2n (d.width == 8) * 2 + densityCode d.density * 4 + d.capGiB % 256 * 16))

/-- Training of every channel (R69), before DDR5 is mapped: the population is checked, and M set (R60-R62, R66). -/
def State.trainAll (s : State) (l : List Dimm) (trained : Bool) : State :=
  let ok := populationOk l
  let s1 := s.each (List.range 12) (fun s c => s.detect l c (ok && trained))
  let s2 := (s1.setB R.DDRC_STAT 0 (!ok)).setB R.DDRC_STAT 1 (ok && !trained)
  if ok && trained then
    let two := (dimmsOf l 0).length == 2
    let cap := (l.head?.map (fun d => d.capGiB)).getD 0
    let lines := cap * (dimmsOf l 0).length * 2 ^ 23
    let s3 := (s2.wr R.DDRC_SUBLINES (BitVec.ofNat 32 (min lines 715827882))).putF R.DDRC_CFG 3 0
      ((if two then 1 else 2) + b2n two * 4 + 8)
    let s4 := s3.onMem (fun m =>
      { m with
        selfRefresh := false, retraining := [], retrainReq := [], refNext := 0
        trainTemp := (List.range 12).foldl (fun t c => sput (fun _ => 0) t c (toSigned 8 (s.f (R.DDR_TEMP c) 7 0))) [] })
    s4.putF R.LDG_DERATE 9 0 (refOf s4.density s4.mem.hot)
  else (s2.wr R.DDRC_SUBLINES 0).putF R.DDRC_CFG 3 0 0

/-- DDR_TRAINING (R69): while DDR5 is not mapped. -/
def execDdrTraining (dimms : List Dimm) (trained : Bool) (s : State) : Res :=
  .next (if s.running ∧ s.b R.DDRC_CFG 3 = false then s.trainAll dimms trained else s)

/-- DDR_REFRESH (R66). -/
def execDdrRefresh (chan : Fin 12) (s : State) : Res :=
  .next (if s.running ∧ s.b R.DDRC_CFG 3 = true then
    s.onMem (fun m => { m with refreshes := sput (fun _ => 0) m.refreshes chan.val (sget (fun _ => 0) m.refreshes chan.val + 1) })
  else s)

/-- DIMM_TEMP_CHANGE (R66, R429). -/
def State.dimmTemp (s : State) (c : Nat) (t : BitVec 8) : State :=
  if s.running = false ∨ s.f (R.DDR_STAT c) 1 0 = 0 then s
  else
    let s1 := s.wr (R.DDR_TEMP c) (BitVec.ofNat 32 t.toNat)
    let temps := (List.range 12).map (fun k => toSigned 8 (s1.f (R.DDR_TEMP k) 7 0))
    let hot := if s.mem.hot then !temps.all (fun x => decide (x < 80)) else temps.any (fun x => decide (85 < x))
    if hot = s.mem.hot then s1
    else
      let s2 := s1.onMem (fun m => { m with hot := hot, refNext := refOf s1.density hot })
      let s3 := (s2.each (List.range 12) (fun s k => s.setB (R.DDR_STAT k) 5 hot)).showAlert
      if hot then s3.guard 1 else s3

/-- DIMM_TEMP_CHANGE. -/
def execDimmTempChange (chan : Fin 12) (temp : BitVec 8) (s : State) : Res := .next (s.dimmTemp chan.val temp)

/-- A channel is due for retraining: on request, or automatically by temperature or by its rate of corrected errors. -/
def State.retrainDue (s : State) (c : Nat) : Bool :=
  let moved := (toSigned 8 (s.f (R.DDR_TEMP c) 7 0) - sget (fun _ => 0) s.mem.trainTemp c).natAbs
  s.mem.retrainReq.contains c || (s.b R.DDRC_CFG 5 && (decide (20 ≤ moved) || s.mem.ceTrig.contains c))

/-- DDR_RETRAIN (R69): a channel that is due begins at the start of the idle window of Run or Hold, one at a time; on a channel in
retraining, the retraining ends. -/
def State.ddrRetrain (s : State) (c : Nat) : State :=
  if s.mem.retraining.any (fun e => e.1 == c) then s.endRetrain c
  else if s.inFrame && s.idleWindow && decide (s.phase = s.toutClk) && s.b R.DDRC_CFG 3 && s.mem.retraining.isEmpty && s.retrainDue c then
    ((s.onMem (fun m => { m with retraining := [(c, s.clk)], retrainReq := m.retrainReq.filter (fun x => x != c) })).setB
      (R.DDR_STAT c) 6 true).guard 3
  else s

/-- DDR_RETRAIN. -/
def execDdrRetrain (chan : Fin 12) (s : State) : Res := .next (s.ddrRetrain chan.val)

/-- A read that waits for its targets where it must. -/
def State.readNow (s : State) (w : Who) (a n : Nat) : State × AccRes :=
  (s.settleAll a n).readAns w [] a n

/-- A write that waits for its targets where it must. -/
def State.writeNow (s : State) (w : Who) (a : Nat) (d : List Byte) : State × AccRes :=
  (s.settleAll a d.length).writeAns w [] a d

/-- A write of DDRn_CTL (R69). -/
def State.writeDdrCtl (s : State) (c : Nat) (v : Word) : State :=
  if v.getLsbD 0 ∧ s.mem.retrainReq.contains c = false then
    s.onMem (fun m => { m with retrainReq := m.retrainReq ++ [c] }) else s

/-- The DDR5 offset of line j of subchannel s (R64). -/
def ddrLine (sub j : Nat) : Nat :=
  let f := (j ^^^ (j / 8) ^^^ (j / 64) ^^^ (j / 512)) % 8
  (3 * (8 * j + ((sub % 8) ^^^ f)) + sub / 8) * 64

/-- A patrol pass ends when every subchannel has been read whole (R68). -/
def State.patrolPass (s : State) : State :=
  let n := (s.rd R.DDRC_SUBLINES).toNat
  if (List.range 24).all (fun k => decide (n ≤ sget (fun _ => 0) s.mem.patrol k)) then
    (s.onMem (fun m => { m with patrol := (List.range 24).foldl (fun t k => sput (fun _ => 0) t k (sget (fun _ => 0) m.patrol k - n)) [] })).countW
      R.DDRC_PATROL 1
  else s

/-- What the code makes of the wrong nibbles of a burst (R67): corrected if one nibble is wrong, which lies in one x4 device or in
half of an x8 one; detected if two are. The device is named where one holds them all, 15 otherwise. -/
def State.burstError (s : State) (x8 : Bool) (wrong : List (Fin 10)) : Option (Bool × Nat) :=
  let device := fun (n : Fin 10) => if x8 then n.val / 2 else n.val
  match wrong.eraseDups with
  | [] => none
  | [n] => some (false, device n)
  | [n, m] => some (true, if device n = device m then device n else 15)
  | l => (Config.eccBeyond s.free l).map (fun e => (e.1, e.2.val))

/-- A transfer of patrol scrub at a subchannel (R68, R420, R424). -/
def State.patrolMove (s : State) (sub : Nat) : State :=
  ((s.event 0x20 (18 + sub / 2) 1).event 0x10 sub 1).moved 1 (18 + sub / 2) 64

/-- The write-back of the line that patrol scrub has corrected last in a subchannel, unless a demand write to it came since (R68). -/
def State.patrolBack (s : State) (sub : Nat) : State :=
  match sget (fun _ => 0) s.mem.patrolFix sub with
  | 0 => s
  | l + 1 => (((dwords (ddrBase + 64 * l) 64).foldl (fun s x => s.writeBack x) s).onMem (fun m =>
      { m with patrolFix := sput (fun _ => 0) m.patrolFix sub 0 })).patrolMove sub

/-- PATROL_SCRUB (R68): on its share, and while the channel is not in retraining, which requests wait for (R69), the subchannel's
corrected line is written back and its next mapped line read. A correctable error found stands until its write-back; an
uncorrectable one is only logged. `wrong` are the nibbles of the burst that have gone wrong since the line was last read. -/
def State.patrol (s : State) (sub : Nat) (wrong : List (Fin 10)) : State :=
  if s.running = false ∨ s.b R.DDRC_CFG 3 = false ∨ s.b R.DDRC_CFG 4 = false ∨ s.mem.selfRefresh = true ∨ s.scrubShare = 0 ∨
      s.mem.retraining.any (fun e => e.1 == sub / 2) = true then s
  else
    let s0 := (s.patrolBack sub).patrolMove sub
    let k := sget (fun _ => 0) s.mem.patrol sub
    let p := ddrLine sub (k % (s.rd R.DDRC_SUBLINES).toNat)
    let a := ddrBase + p
    let found := s0.burstError (s.b (R.DDR_MODULE (sub / 2)) 1) wrong
    let s1 := { s0.onMem (fun m => { m with patrol := sput (fun _ => 0) m.patrol sub (k + 1) }) with
      free := if 2 < wrong.eraseDups.length then s.free + 1 else s.free }
    let fix := fun (s : State) => s.onMem (fun m => { m with patrolFix := sput (fun _ => 0) m.patrolFix sub (p / 64 + 1) })
    let s2 := match s0.lineError a, found with
      | some (.double d), _ => s1.ddrLog p true true d
      | some .poison, _ => s1.ddrLog p true true 15
      | _, some (true, d) => (s1.ddrLog p true true d).setEcc a (some (.double d))
      | some (.single d), _ => fix (s1.ddrLog p false true d)
      | none, some (false, d) => fix ((s1.ddrLog p false true d).setEcc a (some (.single d)))
      | none, none => s1
    s2.patrolPass

/-- PATROL_SCRUB. -/
def execPatrolScrub (sub : Fin 24) (wrong : List (Fin 10)) (s : State) : Res := .next (s.patrol sub.val wrong)

end Sys2Proof.Machine
end

