-- ==== Sys2Proof/Machine/Debug.lean ====
section
/-! DEFINITION. Debug, trace, watchdog and timers (16_debug.md), the performance counters' own commands
(17_performance_counters.md), and the GPIO pins and the management target (19_package_and_electrical.md). A register write
of these blocks answers the state and, where it is a bus error, its CAUSE. -/

namespace Sys2Proof.Machine

/-- Machine origin, or an authorised debug port (R418, R425). -/
def State.debugRights (s : State) (o : Origin) : Bool := s.machineOrigin o || (o == .debug && decide (1 ≤ s.dbgLevel))

/-! ### Authorisation (R401, R402) -/

/-- A NEW write: a nonce is drawn, unless a delay runs. -/
def State.authNew (s : State) : State :=
  if s.b R.DBG_STAT 4 then s
  else
    let b := (List.range 32).map (fun i => Config.nonceByte (32 * s.free + i))
    let s1 : State := { s with free := s.free + 1 }
    (s1.each (List.range 8) (fun s m => s.wr (R.DBG_NONCE m) (BitVec.ofNat 32 (leVal ((b.drop (4 * m)).take 4))))).onDbg
      (fun d => { d with fresh := true })

/-- DBG_STAT shows the kept failure count and LOCKOUT. -/
def State.showFails (s : State) : State := (s.putF R.DBG_STAT 3 2 s.power.fails).setB R.DBG_STAT 5 s.power.lockout

/-- A failed submission: 1 s of delay after the first, 2 s after the second, LOCKOUT after the third. -/
def State.authFails (s : State) : State :=
  let n := min 3 (s.power.fails + 1)
  let s1 := ((s.onPwr (fun p => { p with fails := n, lockout := p.lockout || decide (3 ≤ n) })).showFails).setB R.DBG_INT 0 true
  if n < 3 then (s1.setB R.DBG_STAT 4 true).onDbg (fun d => { d with waitUntil := s.now + usTime (n * 1000000) }) else s1

/-- The response that grants a level: HMAC-SHA-256 over nonce, level and UID. -/
def State.authWants (s : State) (level : Nat) : List Byte :=
  let nonce := (List.range 8).flatMap (fun m => leBytes 4 (s.rd (R.DBG_NONCE m)).toNat)
  hmac256 (beBytes 32 Config.otpDebugSeed.toNat) (nonce ++ leBytes 1 level ++ leBytes 8 Config.otpUid.toNat)

/-- The response written to DBG_RESP0-7. -/
def State.authGiven (s : State) : List Byte :=
  (List.range 8).flatMap (fun m => leBytes 4 (sget (fun _ => 0) s.dbg.resp m).toNat)

/-- A SUBMIT: the level is granted, or the failure counts; under LOCKOUT a right response grants nothing. -/
def State.authSubmit (s : State) (level : Nat) : State :=
  let ok := s.dbg.fresh && (level == 1 || level == 2) && s.authGiven == s.authWants level
  let s1 := s.onDbg (fun d => { d with fresh := false })
  if ok then (if s.power.lockout then s1 else s1.putF R.DBG_STAT 1 0 level) else s1.authFails

/-- The authorisation ends. -/
def State.authEnd (s : State) : State := s.putF R.DBG_STAT 1 0 0

/-- A write of DBG_AUTH: REVOKE, then SUBMIT, then NEW. -/
def State.writeAuth (s : State) (o : Origin) (v : Word) : State × Option Nat :=
  if o ≠ .debug ∧ s.machineOrigin o = false then (s, some 5)
  else
    let s1 := if v.getLsbD 4 then s.authEnd else s
    let s2 := if v.getLsbD 1 then s1.authSubmit (fld v 3 2) else s1
    (if v.getLsbD 0 then s2.authNew else s2, none)

/-- AUTH_DELAY_EXPIRE (R402). -/
def execAuthDelayExpire (s : State) : Res :=
  .next (if s.b R.DBG_STAT 4 then
    (if s.running then s.untilTime s.dbg.waitUntil else s.passTb (s.dbg.waitUntil - s.now)).setB R.DBG_STAT 4 false else s)

/-- TRST_N (R402): the TAP is reset and the authorisation ends. -/
def execTrstN (s : State) : Res := .next (s.authEnd.onDbg (fun d => { d with status := 0, data := 0, waitRead := none }))

/-! ### Halt, resume, step (R403-R407) -/

/-- An origin may name thread t: every thread with Machine origin, T2-T7 with Task debug. -/
def State.mayName (s : State) (o : Origin) (t : Nat) : Bool := s.machineOrigin o || (s.debugRights o && decide (2 ≤ t))

/-- The threads and Fronds that a word names and its origin may name. -/
def State.named (s : State) (o : Origin) (v : Word) : List Nat × List Nat :=
  ((List.range 8).filter (fun t => v.getLsbD t && s.mayName o t), (List.range 8).filter (fun k => v.getLsbD (8 + k) && s.machineOrigin o))

/-- A write of DBG_HALT. -/
def State.writeHalt (s : State) (o : Origin) (v : Word) : State × Option Nat :=
  if s.debugRights o = false then (s, some 5)
  else
    let (ts, fs) := s.named o v
    (s.requestHalt ts fs, none)

/-- A unit is halted between the tick and T_DL (R408). -/
def State.noteHalt (s : State) : State := if s.computeWindow && s.held then s.onLdg (fun l => { l with debugSeen := true }) else s

/-- A thread becomes HALTED (R404, R406). -/
def Thread.halt (h : Thread) : Thread :=
  { h with st := .halted, haltFrom := h.st, haltReq := false, step := none, stepDone := false, resv := none }

/-- What the end of a halt shows: HALTED, its event, its trace packet. -/
def State.haltDone (s : State) (threads fronds : List Nat) : State :=
  let s1 := ((s.setB R.DBG_STAT 6 true).setB R.DBG_INT 1 true).produce 0x29 1
  ((s1.traceHalt 0 (maskOf threads) (maskOf fronds)).wdgCheck).noteHalt

/-- HALT_COMPLETE (R404): every named unit has stopped; a thread that waits for a remote response has not. -/
def State.haltComplete (s : State) : State :=
  let ts := (List.range 8).filter (fun t => (s.thr t).haltReq)
  let fs := (List.range 8).filter (fun k => (s.fronds.get k).haltReq)
  if s.dbg.halting = false ∨ ts.any (fun t => (s.thr t).remote.isSome) then s
  else
    let s1 := s.each ts (fun s t => s.onThr t Thread.halt)
    let s2 := s1.each fs (fun s k => s.onFrd k (fun f => { f with halted := true, haltReq := false }))
    (s2.onDbg (fun d => { d with halting := false })).haltDone ts fs

/-- HALT_COMPLETE. -/
def execHaltComplete (s : State) : Res := .next (if s.running then s.haltComplete else s)

/-- A halted thread goes on in the state it had; a VWAIT whose job has ended meanwhile issues again. -/
def State.release (s : State) (t : Nat) (step : Option Bool) : State :=
  s.onThr t (fun h =>
    let done : Bool := match h.waitFor with
      | .job v => h.haltFrom == .waiting && (s.jobAt v).isNone
      | _ => false
    if done then { h with st := .active, waitFor := .nothing, step := step } else { h with st := h.haltFrom, step := step })

/-- A write of DBG_RESUME; a unit that a halt request of the same clk names stays halted (R406). -/
def State.writeResume (s : State) (o : Origin) (v : Word) : State × Option Nat :=
  if s.debugRights o = false then (s, some 5)
  else
    let (ts0, fs0) := s.named o (v &&& ~~~ s.fresh R.DBG_RESUME)
    let ts := ts0.filter (fun t => (s.thr t).st == .halted)
    let fs := fs0.filter (fun k => (s.fronds.get k).halted)
    let s1 := s.each ts (fun s t => s.release t none)
    let s2 := s1.each fs (fun s k => s.onFrd k (fun f => { f with halted := false }))
    ((s2.showHalted).traceHalt 1 (maskOf ts) (maskOf fs), none)

/-- A write of DBG_STEP (R406). -/
def State.writeStep (s : State) (o : Origin) (v : Word) : State × Option Nat :=
  let t := fld v 2 0
  if s.debugRights o = false ∨ s.mayName o t = false then (s, some 5)
  else if (s.thr t).st ≠ .halted then (s, some 7)
  else ((s.release t (some (v.getLsbD 3))).showHalted, none)

/-- STEP_COMPLETE (R406): the completion is a halt request of its own, and the thread has stopped. -/
def State.stepComplete (s : State) (t : Nat) : State :=
  if (s.thr t).stepDone ∧ (s.thr t).remote = none then
    ((s.produce 0x29 0).onThr t Thread.halt).haltDone [t] []
  else s

/-- STEP_COMPLETE. -/
def execStepComplete (t : Tid) (s : State) : Res := .next (if s.running then s.stepComplete t.val else s)

/-- A count taken by the HALT input halts what DBG_XMASK names (R403, R250). -/
def State.takeHalt (s : State) : State :=
  if 0 < s.pend 184 then
    (s.take 184 (s.pend 184)).requestHalt ((List.range 8).filter (fun t => s.b R.DBG_XMASK t))
      ((List.range 8).filter (fun k => s.b R.DBG_XMASK (8 + k)))
  else s

/-- SPORE_ARRIVE (R247): the spores on a channel reach their inputs; the HALT input acts at once. -/
def execSporeArrive (chan : Fin 256) (s : State) : Res := .next (if s.running then (s.deliver chan.val).takeHalt else s)

/-- The level at which an origin writes a thread's PSW (R407). -/
def State.tregLevel (s : State) (o : Origin) : Nat := if s.machineOrigin o then 3 else 0

/-- The register that DBG_TSEL selects in a halted thread (R407). -/
def State.tregRead (s : State) (o : Origin) : Option Word :=
  let t := s.f R.DBG_TSEL 2 0
  let h := s.thr t
  if h.st ≠ .halted ∨ s.mayName o t = false then none
  else match s.f R.DBG_TSEL 7 3 with
    | 16 => some h.acc
    | 17 => some h.x
    | 18 => some h.y
    | 19 => some h.pc
    | r => h.special t r

/-- A write of DBG_TREG (R407). A segment register takes the selector with its descriptor as LSEG would (log 21). -/
def State.tregWrite (s : State) (ans : List RemoteAnswer) (o : Origin) (v : Word) : State × Option Nat :=
  let t := s.f R.DBG_TSEL 2 0
  let r := s.f R.DBG_TSEL 7 3
  let h := s.thr t
  if s.debugRights o = false ∨ s.mayName o t = false then (s, some 5)
  else if h.st ≠ .halted then (s, some 7)
  else
    let put := fun (g : Thread → Thread) => (s.onThr t g, (none : Option Nat))
    match r with
    | 0 =>
      if pswIllegal v then (s, some 7)
      else match pswWrite (s.tregLevel o) h.psw v with
        | none => (s, some 7)
        | some p => ((s.onThr t (fun h => { h with psw := setFld p 15 15 (fld v 15 15) })).wdgCheck, none)
    | 1 => put (fun h => { h with acx := v })
    | 2 => put (fun h => { h with lc := v })
    | 3 => put (fun h => { h with ls := v })
    | 4 => put (fun h => { h with le := v })
    | 5 => put (fun h => { h with tspS := v })
    | 6 => put (fun h => { h with tspM := v })
    | 7 => (s, none)
    | 16 => put (fun h => { h with acc := v })
    | 17 => put (fun h => { h with x := v })
    | 18 => put (fun h => { h with y := v })
    | 19 => put (fun h => { h with pc := v, fbuf := [] })
    | n =>
      if n < 16 then
        let k := n - 8
        if v = 0 ∧ k ≠ 0 then put (fun h => { h with sg := h.sg.set k {} })
        else if 65535 < v.toNat then (s, some 7)
        else match s.engineSeg ans v.toNat h.pl (k == 0) with
          | (s1, some d) =>
            (s1.onThr t (fun h => { h with sg := h.sg.set k { sel := BitVec.ofNat 16 v.toNat, desc := d }, fbuf := if k = 0 then [] else h.fbuf }), none)
          | (s1, none) => (s1, some 7)
      else (s, some 7)

/-! ### Trace (R413-R415) -/

/-- A write of DBG_SPn (R415). -/
def State.writeStim (s : State) (o : Origin) (n : Nat) (v : Word) : State × Option Nat :=
  if 16 ≤ n ∧ s.machineOrigin o = false then (s, some 5)
  else (s.tracePacket 1 0 (BitVec.ofNat 8 n :: leBytes 4 v.toNat ++ s.traceTs), none)

/-- A write of DBG_TRCCTL: enabling trace sends a SYNC (R413). -/
def State.writeTrcCtl (s : State) (v : Word) : State × Option Nat :=
  if fld v 7 4 < 3 then (s, some 7)
  else
    let s1 := s.wr R.DBG_TRCCTL v
    (if v.getLsbD 0 ∧ s.b R.DBG_TRCCTL 0 = false then s1.traceSync else s1, none)

/-- Bytes written into the ring from an offset on, which wraps (R414). -/
def State.ringWrite (s : State) (base size : Nat) : Nat → Nat → List Byte → State
  | 0, _, _ => s
  | fuel + 1, ptr, d =>
    if d = [] then s.wr R.DBG_TRCPTR (BitVec.ofNat 32 ptr)
    else
      let k := min d.length (size - ptr)
      ((s.post { master := 15, machine := true } (base + ptr) (d.take k)).1).ringWrite base size fuel ((ptr + k) % size) (d.drop k)

/-- TRACE_DRAIN (R414): the buffer goes to the trace balls, or to the ring in memory. -/
def State.traceDrain (s : State) : State :=
  if s.running = false ∨ s.dbg.trace = [] then s
  else
    let d := s.dbg.trace
    let s1 := s.onDbg (fun x => { x with trace := [] })
    if s.b R.DBG_TRCCTL 1 = false then (s1.emit (.trace d)).traceOvf
    else
      let size := (s.rd R.DBG_TRCSIZE).toNat
      let base := (s.rd R.DBG_TRCBASE_LO).toNat / 64 * 64 + s.f R.DBG_TRCBASE_HI 15 0 * 2 ^ 32
      if size = 0 then s else (s1.ringWrite base size (d.length + 2) ((s.rd R.DBG_TRCPTR).toNat % size) d).traceOvf

/-- TRACE_DRAIN. -/
def execTraceDrain (s : State) : Res := .next s.traceDrain

/-! ### Debug accesses (R399, R400, R411) -/

/-- The debug port can be reached: the clocks run, or Dormant is emulated. -/
def State.portAlive (s : State) : Bool := s.running || s.b R.DBG_STAT 7

/-- A register that is reached without authorisation (R400). -/
def openReg (off : Nat) : Bool :=
  off == R.DBG_STAT || off == R.DBG_AUTH || (decide (R.DBG_NONCE 0 ≤ off) && decide (off ≤ R.DBG_RESP 7))

/-- The level held allows an access (R400, R401). -/
def State.debugAllows (s : State) (a : Nat) : Bool :=
  match s.dbgLevel with
  | 0 => (match s.locate a with
    | .control off => openReg off
    | _ => false)
  | 1 => (match s.locate a with
    | .control off => decide (R.CH_CFG 0 ≤ off ∧ off < R.CH_CFG 0 + 0x10000) || decide (R.DBG_CTL ≤ off ∧ off < R.DBG_CTL + 0x10000)
    | .ddr _ => true
    | .bank 16 off => decide (s.fw.fwArea ≤ off)
    | .bank _ _ => true
    | _ => false)
  | _ => true

/-- The answer of a debug access. -/
def State.dbgDone (s : State) (status : Nat) (data : Word) : State := s.onDbg (fun d => { d with status := status, data := data })

/-- DBGACC_CAPTURE (R399). -/
def execDbgaccCapture (s : State) : Res := .next (if s.portAlive then s.emit (.jtag s.dbg.status s.dbg.data) else s)

/-! ### Watchdog (R409, R410) -/

/-- The first write of WDG_CTL after reset sets EN (R4, R409); WDHALT follows every write. -/
def State.writeWdgCtl (s : State) (v : Word) : State :=
  let s1 := (s.setB R.WDG_CTL 1 (v.getLsbD 1))
  if s.locked.contains R.WDG_CTL then s1.wdgCheck
  else
    let s2 : State := { s1.setB R.WDG_CTL 0 (v.getLsbD 0) with locked := R.WDG_CTL :: s.locked }
    (if v.getLsbD 0 then s2.wdgReload else s2).wdgCheck

/-- A write of WDG_SVC (R409): in the clk in which the count reaches 0 a service is too late. -/
def State.writeWdgSvc (s : State) (o : Origin) (v : Word) : State × Option Nat :=
  if v = 0xA5C3 ∧ s.machineOrigin o = true then (if s.b R.WDG_CTL 0 ∧ s.wdg.left ≠ 0 then s.wdgReload else s, none)
  else (s.setB R.WDG_STAT 1 true, some (if s.machineOrigin o then 7 else 5))

/-- Clk until the watchdog's count reaches a value, in 1/16 ns. -/
def State.wdgClk (s : State) (left : Nat) : Nat := ceilDiv (s.wdg.left - left) s.clkSixteenths

/-- WATCHDOG_PREBITE (R409): a quarter of the period is left. -/
def State.watchdogPrebite (s : State) : State :=
  if s.wdgRuns && !s.wdg.prebitten then
    let s1 := s.advance (s.wdgClk (s.f R.WDG_PERIOD 23 0 * 4000))
    (({ s1 with wdg := { s1.wdg with prebitten := true } } : State).setB R.WDG_STAT 0 true).raiseMachine 1
  else s

/-- WATCHDOG_PREBITE. -/
def execWatchdogPrebite (s : State) : Res := .next s.watchdogPrebite

/-- WATCHDOG_BITE (R409): the count reaches 0, past the pre-bite; Safe with cause 3. -/
def execWatchdogBite (s : State) : Res :=
  .next (if s.wdgRuns then
    let s1 := s.watchdogPrebite
    (s1.advance (s1.wdgClk 0)).safeEntry 3
  else s)

/-! ### Timers (R417) -/

/-- Timer n. -/
def State.tmr (s : State) (n : Nat) : Timer := s.timers.get n

/-- Timer n replaced; STAT.RUN shows whether it counts. -/
def State.setTmr (s : State) (n : Nat) (t : Timer) : State :=
  ({ s with timers := s.timers.set n t } : State).setB (R.TMR_STAT n) 1 t.run

/-- A write of TMRn_CTL (R417): STOP with START stops (log 22). -/
def State.writeTmrCtl (s : State) (n : Nat) (v : Word) : State × Option Nat :=
  let load := (s.rd (R.TMR_LOAD n)).toNat
  if v.getLsbD 0 ∧ v.getLsbD 3 = false ∧ load = 0 then (s, some 7)
  else
    let s1 := s.wr (R.TMR_CTL n) (v &&& 6)
    if v.getLsbD 3 then (s1.setTmr n { s.tmr n with run := false }, none)
    else if v.getLsbD 0 then (s1.setTmr n { run := true, left := load * 160 }, none)
    else (s1, none)

/-- TIMER_EXPIRE (R417). -/
def State.timerExpire (s : State) (n : Nat) : State :=
  if (s.tmr n).run ∧ s.running = true then
    let s1 := s.advance (ceilDiv (s.tmr n).left s.clkSixteenths)
    let s2 := (s1.setB (R.TMR_STAT n) 0 true).produce 0x20 n
    let load := (s.rd (R.TMR_LOAD n)).toNat
    if s.b (R.TMR_CTL n) 1 ∧ load ≠ 0 then s2.setTmr n { run := true, left := load * 160 } else s2.setTmr n { run := false, left := 0 }
  else s

/-- TIMER_EXPIRE. -/
def execTimerExpire (n : Fin 4) (s : State) : Res := .next (s.timerExpire n.val)

/-! ### Performance counters (R419-R424) -/

/-- PMC_FREEZE (R422): the FREEZE input takes its counts. -/
def execPmcFreeze (s : State) : Res :=
  .next (if s.running && decide (0 < s.pend 185) then (s.take 185 (s.pend 185)).setB R.PMC_STAT 0 true else s)

/-- A write of PMC_CTL (R422): THAW leaves FROZEN set where a take of the same clk set it. -/
def State.writePmcCtl (s : State) (v : Word) : State :=
  let s1 := s.wr R.PMC_CTL (v &&& 3)
  if v.getLsbD 2 then s1.clears R.PMC_STAT 1 else s1

/-- What the events of the present clk have added to counter n. -/
def State.pmcGained (s : State) (n : Nat) : Nat :=
  (s.pmcValue n + 2 ^ 48 - ((s.before (R.PMC_LO n)).toNat + fld (s.before (R.PMC_HI n)) 15 0 * 2 ^ 32)) % 2 ^ 48

/-- A write of a counter's word in a clk in which it also counts: the events of the clk so far, and an amount more (R6, R421). -/
def State.writePmcCount (s : State) (n : Nat) (high : Bool) (v : Word) (amount : Nat) : State × Option Nat :=
  let add := (if s.pmcCounts n then amount else 0) + s.pmcGained n
  if high then
    if fld v 30 16 ≠ 0 then (s, some 7)
    else
      let s1 := if v.getLsbD 31 then s.clears (R.PMC_HI n) 0x80000000 else s
      ((s1.putF (R.PMC_HI n) 15 0 (fld v 15 0)).pmcAdd n add, none)
  else ((s.wr (R.PMC_LO n) v).pmcAdd n add, none)

/-- A write of PMC_BWCTL (R424). -/
def State.writeBwCtl (s : State) (v : Word) : State × Option Nat :=
  if fld v 19 0 = 0 ∨ 1000000 < fld v 19 0 then (s, some 7)
  else
    let s1 := s.wr R.PMC_BWCTL v
    (if v.getLsbD 20 ∧ s.b R.PMC_BWCTL 20 = false then s1.openWindow else s1, none)

/-- BW_WINDOW_END (R424). -/
def execBwWindowEnd (s : State) : Res :=
  .next (if s.running && s.b R.PMC_BWCTL 20 then
    let due := s.pmc.winAt + usTime (s.f R.PMC_BWCTL 19 0)
    ((s.untilTime due).closeWindow).onPmc (fun p => { p with winAt := due })
  else s)

/-- A counter whose condition holds in every clk of an idle engine: CORE_CLK cycles, or an occupancy beyond its threshold. -/
def State.pmcSteady (s : State) (n : Nat) : Bool :=
  let u := s.f (R.PMC_CFG n) 15 8
  let level := match s.f (R.PMC_CFG n) 7 0 with
    | 0x11 => some (s.waitingAt (18 + u))
    | 0x21 => some (s.waitingAt u)
    | 0x28 => some (s.backlogOf u)
    | 0x05 => some 0
    | _ => none
  match level, s.f (R.PMC_CFG n) 17 16 with
  | none, m => s.f (R.PMC_CFG n) 7 0 == 1 && m == 0
  | some x, 1 => decide ((s.rd (R.PMC_THR n)).toNat < x)
  | some x, 2 => decide ((s.rd (R.PMC_THR n)).toNat ≤ x)
  | some _, _ => false

/-- PMC_COUNTER_WRAP (R419). -/
def execPmcCounterWrap (n : Fin 64) (s : State) : Res :=
  .next (if s.pmcCounts n.val && s.pmcSteady n.val then s.advance (2 ^ 48 - s.pmcValue n.val) else s)

/-! ### GPIO (R467, R471) -/

/-- A ball's level reaches the block: GLB_GPIO_IN, the selected edge, and the producers of kind 0x21. -/
def State.gpioLevel (s : State) (pin : Nat) (level : Bool) : State :=
  if s.pins.gpio.testBit pin = level then s
  else
    let s1 : State := { s with pins := { s.pins with gpio := putBit s.pins.gpio pin level } }
    let s2 := s1.setB R.GLB_GPIO_IN pin level
    let edge := s.f R.GLB_GPIO_EDGE (2 * pin + 1) (2 * pin)
    let hit := if level then edge % 2 == 1 else decide (2 ≤ edge)
    (if hit then s2.setB R.GLB_GPIO_INT pin true else s2).produce 0x21 (pin + (if level then 16 else 32))

/-- GPIO_EDGE (R467): an input pin's level; GPIO is not sampled in Dormant. An output pin's level is the engine's own. -/
def execGpioEdge (pin : Fin 16) (level : Bool) (s : State) : Res :=
  .next (if s.running && !s.b R.GLB_GPIO_DIR pin.val then s.gpioLevel pin.val level else s)

/-- Output pins take their levels. -/
def State.driveGpio (s : State) : State :=
  s.each (List.range 16) (fun s p => if s.b R.GLB_GPIO_DIR p then s.gpioLevel p (s.b R.GLB_GPIO_OUT p) else s)

/-! ### Management target (R466) -/

/-- The values that pointers 0x00 to 0x07 show. -/
def State.mgtValues (s : State) : List Byte :=
  let vin := s.f R.PWR_VIN 12 0
  [0x72, 0, BitVec.ofNat 8 s.mode,
    BitVec.ofNat 8 (b2n s.power.safeN + b2n s.power.lockupN * 2 + b2n (s.b R.PWR_STAT 3) * 4 + b2n (s.b R.PWR_STAT 2) * 8 +
      s.f R.PWR_THSTAT 1 0 * 16),
    BitVec.ofNat 8 (s.f R.PWR_TEMP 7 0), BitVec.ofNat 8 vin, BitVec.ofNat 8 (vin / 256), Config.otpRev]

/-- MGT_REFRESH (R466). -/
def execMgtRefresh (s : State) : Res :=
  .next (if s.power.up then { s with pins := { s.pins with mgt := s.mgtValues } } else s)

/-- I2C_WRITE (R466): the first data byte sets the pointer. -/
def execI2cWrite (bytes : List Byte) (s : State) : Res :=
  .next (match s.power.up, bytes with
    | true, b :: _ => { s with pins := { s.pins with ptr := b.toNat } }
    | _, _ => s)

/-- I2C_READ (R466). -/
def execI2cRead (s : State) : Res :=
  .next (if s.power.up then
    let p := s.pins.ptr
    let live := s.pins.mgt.getD p 0
    let b := if p = 6 then s.pins.latch06.getD live else live
    ({ s with pins := { s.pins with
        ptr := (p + 1) % 256
        latch06 := if p = 5 then some (s.pins.mgt.getD 6 0) else if p = 6 then none else s.pins.latch06 } } : State).emit (.i2c b)
  else s)

end Sys2Proof.Machine
end

