-- ==== Sys2Proof/Machine/Update.lean ====
section
/-! DEFINITION. Firmware update (14_firmware_update.md): boot control, images, staging, the fabric relay, the key store's
fuses, the start of an image and its settings. -/

namespace Sys2Proof.Machine

/-! ### Flash layout and boot control (R361-R363) -/

/-- Slot A, slot B. -/
def slotBase (k : Nat) : Nat := if k = 0 then 0x40000 else 0x240000
/-- Slot S, staging. -/
def stagingBase : Nat := 0x440000
/-- Size of a slot. -/
def slotSize : Nat := 0x200000
/-- Payload bytes that a slot holds (R362). -/
def maxPayload : Nat := 2093056
/-- Settings copy c. -/
def settingsBase (c : Nat) : Nat := if c = 0 then 0x640000 else 0x740000
/-- Size of a settings copy. -/
def settingsSize : Nat := 0x100000

/-- The boot-control record (R363): slot states 0 EMPTY, 1 GOOD, 2 TRIAL, 3 BAD, 4 SUPERSEDED. -/
structure BootCtl where
  gen : Nat := 0
  active : Nat := 0
  stateA : Nat := 0
  stateB : Nat := 0
  boots : Nat := 0
  runmin : Nat := 0
  migrated : Nat := 0
  lastEvent : Nat := 0
  stage : Nat := 0
  plen : Nat := 0
  digest : List Byte := List.replicate 48 0
  deriving DecidableEq, Repr

/-- State of slot k. -/
def slotState (r : BootCtl) (k : Nat) : Nat := if k = 0 then r.stateA else r.stateB

/-- State of slot k set. -/
def setSlotState (r : BootCtl) (k v : Nat) : BootCtl := if k = 0 then { r with stateA := v } else { r with stateB := v }

/-- The bytes of a record before its CRC. -/
def bootBytes (r : BootCtl) : List Byte :=
  leBytes 4 0x4C544342 ++ leBytes 4 r.gen ++ leBytes 1 r.active ++ leBytes 1 r.stateA ++ leBytes 1 r.stateB ++
    leBytes 1 r.boots ++ leBytes 2 r.runmin ++ leBytes 1 r.migrated ++ leBytes 1 r.lastEvent ++ leBytes 1 r.stage ++
    leBytes 3 0 ++ leBytes 4 r.plen ++ (r.digest.take 48)

/-- A record read from its 76 bytes, if MAGIC and CRC are good. -/
def parseBoot (b : List Byte) : Option BootCtl :=
  if leField b 0 4 = 0x4C544342 ∧ leField b 0x48 4 = crc32 (b.take 0x48) then
    some
      { gen := leField b 4 4, active := leField b 8 1 % 2, stateA := leField b 9 1, stateB := leField b 10 1
        boots := leField b 11 1, runmin := leField b 12 2, migrated := leField b 14 1, lastEvent := leField b 15 1
        stage := leField b 16 1, plen := leField b 0x14 4, digest := (b.drop 0x18).take 48 }
  else none

/-- Boot-control copy c. -/
def State.bootCopy (s : State) (c : Nat) : Option BootCtl := parseBoot (s.flashAt (c * 0x10000) 76)

/-- The copy in use, and its record: the valid one with the higher GEN; with none valid an empty record stands for it
(log 19). -/
def State.bootNow (s : State) : Nat × BootCtl :=
  match s.bootCopy 0, s.bootCopy 1 with
  | some a, some b => if a.gen < b.gen then (1, b) else (0, a)
  | some a, none => (0, a)
  | none, some b => (1, b)
  | none, none => (1, {})

/-- The current boot-control record. -/
def State.boot (s : State) : BootCtl := s.bootNow.2

/-- Every change goes to the other copy with GEN + 1 (R363). -/
def State.setBoot (s : State) (g : BootCtl → BootCtl) : State :=
  let (c, r) := s.bootNow
  let n := { g r with gen := wrapAdd 32 r.gen 1 }
  let b := bootBytes n
  (s.eraseFlash ((1 - c) * 0x10000) 0x10000).setFlash ((1 - c) * 0x10000) (b ++ leBytes 4 (crc32 b))

/-- A slot is on trial. -/
def State.trialSlot (s : State) : Option Nat :=
  if s.boot.stateA = 2 then some 0 else if s.boot.stateB = 2 then some 1 else none

/-! ### Images (R364-R366) -/

/-- Bytes of a range are all zero. -/
def zeros (b : List Byte) (o n : Nat) : Bool := ((b.drop o).take n).all (fun x => x == 0)

/-- PLEN of a header. -/
def imgPlen (h : List Byte) : Nat := leField h 0x18 4
/-- FWAREA of a header. -/
def imgArea (h : List Byte) : Nat := leField h 0x1C 4
/-- ARB of a header. -/
def imgArb (h : List Byte) : Nat := leField h 0x0C 1

/-- A header is well formed (R366). -/
def imgWellFormed (h : List Byte) : Bool :=
  let entry := leField h 0x20 4
  leField h 0 4 == 0x46564750 && leField h 4 2 == 1 && zeros h 0x0E 2 && zeros h 0x16 2 && zeros h 0x24 4 && zeros h 0x34 4 &&
    zeros h 0x48 24 && zeros h 0xC0 224 &&
    decide (1 ≤ imgPlen h) && decide (imgPlen h ≤ imgArea h) && decide (imgArea h ≤ 0x200000) && imgArea h % 0x10000 == 0 &&
    decide (entry < imgPlen h) && entry % 4 == 0 &&
    decide (leField h 0x10 2 ≤ leField h 0x14 2) && decide (leField h 0x14 2 ≤ leField h 0x12 2)

/-- A header is authentic (R365, R366). -/
def imgAuthentic (h : List Byte) : Bool :=
  let key := (h.drop 0x60).take 96
  let sig := (h.drop 0x1A0).take 96
  imgWellFormed h && leField h 6 2 == 0x7200 && leField h 0x0D 1 == Config.otpKeyId.toNat &&
    sha384 key == beBytes 48 Config.otpRootHash.toNat &&
    ecdsaOk (beVal (key.take 48)) (beVal (key.drop 48)) (beVal (sha384 (h.take 0x1A0))) (beVal (sig.take 48)) (beVal (sig.drop 48))

/-- Fuses blown (UPD_ARB.COUNT, R367, R368). -/
def State.arbCount (s : State) : Nat := min 64 (Config.otpArb.val + s.upd.fusesBlown)

/-- A header is admissible (R366). -/
def State.imgAdmissible (s : State) (h : List Byte) : Bool := imgAuthentic h && decide (s.arbCount ≤ imgArb h)

/-- The header in a slot. -/
def State.slotHeader (s : State) (base : Nat) : List Byte := s.flashAt base 512

/-- The plaintext of a slot's payload, if its TAG verifies (R365). No decryption once the image key is locked (R367). -/
def State.openSlot (s : State) (base : Nat) : Option (List Byte) :=
  let h := s.slotHeader base
  if s.b R.UPD_KEYLOCK 0 then none
  else
    let (plain, tag) := gcmOpen (beBytes 32 Config.otpImageKey.toNat) ((h.drop 0x28).take 12) (h.take 0x38)
      (s.flashAt (base + 0x1000) (imgPlen h))
    if tag = (h.drop 0x38).take 16 then some plain else none

/-! ### Status -/

/-- The state of UPDATE_STATUS RES0 (R355). -/
def State.updState (s : State) : Nat :=
  match s.upd.holder with
  | some .host => 1
  | some .fabric => 2
  | none => if s.boot.stage = 2 then 3 else if s.b R.UPD_STAT 7 then 4 else 0

/-- UPD_STAT, UPD_RECV and UPD_PLEN show the staging; a change of state reaches the host (R333). -/
def State.showUpd (s : State) : State :=
  let n := s.updState
  let u := s.upd
  let s1 := (s.putF R.UPD_STAT 2 0 n).setB R.UPD_STAT 3 (u.holder == some .host)
  let s2 := ((s1.setB R.UPD_STAT 4 (u.holder == some .fabric)).setB R.UPD_STAT 5 u.coSource.isSome).putF R.UPD_STAT 9 8 s.boot.boots
  let s3 := (s2.setB R.UPD_STAT 11 (s.boot.lastEvent == 1)).wr R.UPD_PLEN (BitVec.ofNat 32 u.plen)
  let got := (u.units.map (fun i => min 256 (u.plen - 256 * i))).sum
  let s4 := s3.wr R.UPD_RECV (BitVec.ofNat 32 got)
  if s.f R.UPD_STAT 2 0 = n then s4 else s4.signalHost 2

/-! ### Staging (R369-R373) -/

/-- The source is attached: holder or co-source. -/
def State.attached (s : State) (x : UpdSource) : Bool := s.upd.holder == some x || s.upd.coSource == some x

/-- A source that failed: its blocks are refused. -/
def Update.failed (u : Update) (x : UpdSource) : Bool := match x with
  | .host => u.failedHost
  | .fabric => u.failedFab

/-- The lock is taken: STAGE := 0, slot S erased, the header written (R370). -/
def State.takeStaging (s : State) (x : UpdSource) (h : List Byte) : State :=
  let s1 := (if s.boot.stage = 0 then s else s.setBoot (fun r => { r with stage := 0 })).eraseFlash stagingBase slotSize
  let s2 := s1.setFlash stagingBase h
  (s2.onUpd (fun u =>
    { u with
      holder := some x, coSource := none, failedHost := false, failedFab := false, header := h, plen := imgPlen h
      units := [], lastBlock := s.now })).showUpd

/-- Step 5 of R369 for a source: the lock is taken, joined or already held; none: it is held with another digest. -/
def State.lockFor (s : State) (x : UpdSource) (h : List Byte) : Option State :=
  match s.upd.holder with
  | none => some (s.takeStaging x h)
  | some y =>
    if sha384 h ≠ sha384 s.upd.header then none
    else if y = x then some s
    else some (s.onUpd (fun u => { u with coSource := some x })).showUpd

/-- The lock goes and the staging with it; `bit` of UPD_INT says why, if a bit does (R373). -/
def State.dropStaging (s : State) (bit : Option Nat) : State :=
  let s1 := s.onUpd (fun u => { u with holder := none, coSource := none, header := [], plen := 0, units := [] })
  (match bit with
    | some b => s1.setB R.UPD_INT b true
    | none => s1).showUpd

/-- A source's attachment ends: its co-source takes over, or the staging is discarded. -/
def State.detach (s : State) (x : UpdSource) (bit : Option Nat) : State :=
  if s.upd.holder = some x then
    match s.upd.coSource with
    | some y => (s.onUpd (fun u => { u with holder := some y, coSource := none })).showUpd
    | none => s.dropStaging bit
  else (s.onUpd (fun u => { u with coSource := none })).showUpd

/-- A source fails (R371). -/
def State.failSource (s : State) (x : UpdSource) : State :=
  let s1 := s.onUpd (fun u => match x with
    | .host => { u with failedHost := true }
    | .fabric => { u with failedFab := true })
  (s1.setB R.UPD_INT 4 true).detach x (some 4)

/-- What became of a block. -/
inductive BlockRes where
  | ok
  | badArg
  | denied
  | failed
  deriving DecidableEq, Repr

/-- Units of a block in order: new ones programmed, equal ones ignored; the first that differs fails the source. -/
def State.storeUnits (s : State) : Nat → Nat → List Byte → State × Bool
  | 0, _, _ => (s, true)
  | n + 1, i, d =>
    let x := d.take 256
    let at_ := stagingBase + 0x1000 + 256 * i
    if s.upd.units.contains i then
      (if s.flashAt at_ x.length = x then s.storeUnits n (i + 1) (d.drop 256) else (s, false))
    else ((s.setFlash at_ x).onUpd (fun u => { u with units := u.units ++ [i] })).storeUnits n (i + 1) (d.drop 256)

/-- A block of a source (R371). -/
def State.stageBlock (s : State) (x : UpdSource) (o : Nat) (d : List Byte) : State × BlockRes :=
  let n := d.length
  if s.attached x = false ∨ s.upd.failed x = true then (s, .denied)
  else if o % 256 ≠ 0 ∨ n = 0 ∨ (n % 256 ≠ 0 ∧ o + n ≠ s.upd.plen) ∨ s.upd.plen < o + n ∨ maxPayload < o + n then (s, .badArg)
  else
    match s.storeUnits ((n + 255) / 256) (o / 256) d with
    | (s1, true) => ((s1.onUpd (fun u => { u with lastBlock := s.now })).showUpd, .ok)
    | (s1, false) => (s1.failSource x, .failed)

/-- The first unit of the payload not received. -/
def State.missingUnit (s : State) : Option Nat :=
  (List.range ((s.upd.plen + 255) / 256)).find? (fun i => !s.upd.units.contains i)

/-- Every child on the tree gets a relay packet (R375). -/
def State.relayDown (s : State) (sub w session : Nat) (payload : List Byte) : State :=
  s.each s.downPorts (fun s p =>
    s.queuePacket p
      { op := 8, vc := 3, dst := BitVec.ofNat 6 (s.f (R.LNK_STAT p) 9 4), src := s.srcId, late := false, morg := false, sub := 0
        hi := false, len := BitVec.ofNat 12 payload.length, tag := BitVec.ofNat 12 session, addr := BitVec.ofNat 41 (sub + w)
        payload := payload })

/-- The keystone relays its committed image (R375). -/
def State.relayOut (s : State) : State :=
  if s.b R.UPD_CTL 0 && s.fabEn && s.isKeystone then
    let n := (s.upd.session + 1) % 4096
    let len := s.upd.plen
    let s1 := (s.onUpd (fun u => { u with session := n, results := [] })).relayDown 1 0 n s.upd.header
    let s2 := s1.each (List.range ((len + 2047) / 2048)) (fun s i =>
      s.relayDown 2 (i * 2048 * 256) n (s.flashAt (stagingBase + 0x1000 + i * 2048) (min 2048 (len - i * 2048))))
    s2.relayDown 3 0 n []
  else s

/-- A commit of an attached source (R372): STAGE := 2; or the first missing offset. -/
def State.commitStaging (s : State) : State × Option Nat :=
  match s.missingUnit with
  | some i => (s, some (256 * i))
  | none =>
    let h := s.upd.header
    let s1 := s.setBoot (fun r => { r with stage := 2, plen := imgPlen h, digest := sha384 h })
    let s2 := (s1.onUpd (fun u => { u with holder := none, coSource := none })).setB R.UPD_INT 2 true
    (s2.showUpd.relayOut, none)

/-- The lock is released by timeout or on entry to Dormant (R373). -/
def State.releaseLock (s : State) : State := if s.upd.holder.isNone then s else s.dropStaging (some 0)

/-- UPDATE_LOCK_TIMEOUT (R373): 10 s without an accepted block. -/
def execUpdateLockTimeout (s : State) : Res :=
  .next (if s.running && s.upd.holder.isSome then (s.untilTime (s.upd.lastBlock + usTime 10000000)).releaseLock else s)

/-! ### Relay (R374, R375) -/

/-- RESULT to the keystone, routed. -/
def State.relayAnswer (s : State) (p : Nat) (session status : Nat) : State :=
  s.passOn p
    { op := 8, vc := 3, dst := BitVec.ofNat 6 (s.f R.FAB_STAT 13 8), src := s.srcId, late := false, morg := false, sub := 0
      hi := false, len := 0, tag := BitVec.ofNat 12 session, addr := BitVec.ofNat 41 (4 + status * 256), payload := [] }

/-- SUB of a relay packet. -/
def relaySub (k : Packet) : Nat := k.addr.toNat % 16

/-- A relay packet down the tree goes on to this device's children. -/
def State.relayForward (s : State) (k : Packet) : State :=
  s.relayDown (k.addr.toNat % 256) (k.addr.toNat / 256 % 2 ^ 24 * 256) k.tag.toNat k.payload

/-- Fabric recovery accepts relays as RELAYIN = 1 does (R436). -/
def State.relayIn (s : State) : Bool := s.b R.UPD_CTL 1

/-- A RELAY packet reaches a device that takes part in a domain; another discards it (R302). -/
def State.relayTaken (s : State) (p : Nat) (k : Packet) (take : State → State) : State :=
  if s.running = false then s else if s.fabEn = false then (s.takeRx p k).dropPacket p 1 else take s

/-- RELAY_BEGIN (R375). -/
def State.relayBegin (s : State) (p : Nat) (k : Packet) : State :=
  let s0 := s.takeRx p k
  if relaySub k ≠ 1 ∨ k.addr.toNat / 16 % 16 ≠ 0 then s0.dropPacket p 1
  else if s.relayIn = false then (s0.relayForward k).relayAnswer p k.tag.toNat 4
  else
    let s1 := s0.setB R.UPD_INT 1 true
    match s1.lockFor .fabric (k.payload.take 512) with
    | some s2 => (s2.relayForward k).relayAnswer p k.tag.toNat 0
    | none => (s1.relayForward k).relayAnswer p k.tag.toNat 2

/-- RELAY_BEGIN. -/
def execRelayBegin (port : Fin 4) (pkt : Packet) (s : State) : Res := .next (s.relayTaken port.val pkt (fun s => s.relayBegin port.val pkt))

/-- RELAY_BLOCK (R375): a source that fails is told so. -/
def State.relayBlock (s : State) (p : Nat) (k : Packet) : State :=
  if relaySub k ≠ 2 ∨ k.addr.toNat / 16 % 16 ≠ 0 then (s.takeRx p k).dropPacket p 1
  else if s.relayIn = false then (s.takeRx p k).relayForward k
  else
    match s.stageBlock .fabric (k.addr.toNat / 256 % 2 ^ 24) k.payload with
    | (s1, .failed) => ((s1.takeRx p k).relayForward k).relayAnswer p k.tag.toNat 5
    | (s1, _) => (s1.takeRx p k).relayForward k

/-- RELAY_BLOCK. -/
def execRelayBlock (port : Fin 4) (pkt : Packet) (s : State) : Res := .next (s.relayTaken port.val pkt (fun s => s.relayBlock port.val pkt))

/-- What a relayed COMMIT is answered: the status of RESULT. -/
def State.relayCommit (s : State) (p : Nat) (k : Packet) : State × Bool :=
  let s0 := s.takeRx p k
  if relaySub k ≠ 3 ∨ k.addr.toNat / 16 % 16 ≠ 0 then (s0.dropPacket p 1, false)
  else if s.relayIn = false then ((s0.relayForward k).relayAnswer p k.tag.toNat 4, false)
  else if s.upd.failedFab then ((s0.relayForward k).relayAnswer p k.tag.toNat 5, false)
  else if s.attached .fabric = false then ((s0.relayForward k).relayAnswer p k.tag.toNat 2, false)
  else match s0.commitStaging with
    | (s1, none) => ((s1.relayForward k).relayAnswer p k.tag.toNat 1, true)
    | (s1, some _) => ((s1.relayForward k).relayAnswer p k.tag.toNat 3, false)

/-- RELAY_RESULT (R374): taken by the keystone, routed on by others. -/
def execRelayResult (port : Fin 4) (pkt : Packet) (s : State) : Res :=
  .next (s.relayTaken port.val pkt (fun s =>
    let s0 := s.takeRx port.val pkt
    if s.isMine pkt then
      s0.onUpd (fun u => { u with results := u.results ++ [(pkt.src.toNat, pkt.addr.toNat / 256 % 256)] })
    else s0.passOn port.val pkt))

/-! ### Fuses (R367, R368) -/

/-- Fuses blown up to a count. -/
def State.blow (s : State) (n : Nat) : State :=
  if n ≤ s.arbCount then s
  else (s.onUpd (fun u => { u with fusesBlown := n - Config.otpArb.val })).setB R.UPD_INT 3 true

/-- A write of UPD_FUSE: the CAUSE of its bus error, or programming begins (R368, R383). -/
def State.writeFuse (s : State) (v : Word) : State × Option Nat :=
  let t := fld v 6 0
  if 64 < t ∨ s.b R.UPD_FUSE 7 = true then (s, some 7)
  else if t ≤ s.arbCount then (s, none)
  else ((s.setB R.UPD_FUSE 7 true).onUpd (fun u => { u with fuseTarget := t }), none)

/-- FUSE_DONE (R368). -/
def execFuseDone (s : State) : Res :=
  .next (if s.running && s.b R.UPD_FUSE 7 then (s.setB R.UPD_FUSE 7 false).blow s.upd.fuseTarget else s)

/-- Fuses that a reset leaves blown while programming is in progress (R368; log 18). -/
def State.fusesAtReset (s : State) : Nat :=
  if s.b R.UPD_FUSE 7 then
    s.upd.fusesBlown + (Config.fusesDone s.free).val % (s.upd.fuseTarget - s.arbCount + 1)
  else s.upd.fusesBlown

/-! ### Settings (R378, R379) -/

/-- Length of a record in a store, with its header and padding. -/
def recordSize (n : Nat) : Nat := 8 + (n + 7) / 8 * 8

/-- The records of a store. -/
def parseRecords : Nat → List Byte → List SettingsRec
  | 0, _ => []
  | fuel + 1, b =>
    if b.length < 8 then []
    else
      let n := leField b 4 4
      { key := leField b 0 2, schema := leField b 2 2, data := (b.drop 8).take n } :: parseRecords fuel (b.drop (recordSize n))

/-- A record as it is stored. -/
def recordBytes (r : SettingsRec) : List Byte :=
  let n := r.data.length
  leBytes 2 r.key ++ leBytes 2 r.schema ++ leBytes 4 n ++ r.data ++ List.replicate (recordSize n - 8 - n) 0

/-- A settings copy: schema, slot tag, generation, records. -/
structure SettingsCopy where
  schema : Nat
  slot : Nat
  gen : Nat
  recs : List SettingsRec
  deriving DecidableEq, Repr

/-- Settings copy c of the flash, if it is valid (R378). -/
def State.settingsCopy (s : State) (c : Nat) : Option SettingsCopy :=
  let h := s.flashAt (settingsBase c) 64
  let len := leField h 0x0C 4
  if leField h 0 4 = 0x53544553 ∧ len ≤ 1048512 then
    let b := s.flashAt (settingsBase c + 0x40) len
    if leField h 0x10 4 = crc32 (h.take 16 ++ b) then
      some { schema := leField h 4 2, slot := leField h 6 1, gen := leField h 8 4, recs := parseRecords (len / 8 + 1) b }
    else none
  else none

/-- A store written to a copy (R378, R381). -/
def State.writeSettings (s : State) (c : Nat) (x : SettingsCopy) : State :=
  let b := x.recs.flatMap recordBytes
  let h := leBytes 4 0x53544553 ++ leBytes 2 x.schema ++ leBytes 1 x.slot ++ leBytes 1 0 ++ leBytes 4 x.gen ++ leBytes 4 b.length
  (s.eraseFlash (settingsBase c) settingsSize).setFlash (settingsBase c)
    (h ++ leBytes 4 (crc32 (h ++ b)) ++ List.replicate 44 0 ++ b)

/-- The valid copy with the higher GEN among those tagged with a slot: its number and contents. -/
def State.settingsOf (s : State) (slot : Nat) : Option (Nat × SettingsCopy) :=
  let tagged := fun (c : Nat) => (s.settingsCopy c).filter (fun x => x.slot == slot)
  match tagged 0, tagged 1 with
  | some a, some b => if a.gen < b.gen then some (1, b) else some (0, a)
  | some a, none => some (0, a)
  | none, some b => some (1, b)
  | none, none => none

/-- A record converted to a schema; its data is the converter's (log 17). -/
def convertRec (schema : Nat) (r : SettingsRec) : SettingsRec :=
  if r.schema = schema then r
  else { r with schema := schema, data := (Config.convertRecord r.schema schema r.data).take 4096 }

/-- The store in use, as firmware keeps it. -/
def State.useSettings (s : State) (c : Nat) (x : SettingsCopy) : State :=
  let s1 := s.onFw (fun f => { f with setCopy := c, setGen := x.gen, setSchema := x.schema, settings := x.recs })
  let v := match x.recs.find? (fun r => r.key == 1) with
    | some r => (r.data.headD 0).toNat % 4
    | none => 2
  s1.putF R.UPD_CTL 1 0 v

/-- The firmware of slot x chooses its settings (R379). None: they are incompatible. -/
def State.chooseSettings (s : State) (x : Nat) (convertOk : Bool) : Option State :=
  let r := s.boot
  if slotState r x = 2 ∧ r.migrated = 0 then
    match s.settingsOf (1 - x) with
    | none => none
    | some (c, y) =>
      if s.fw.schMin ≤ y.schema ∧ y.schema ≤ s.fw.schMax ∧ convertOk = true then
        let z : SettingsCopy := { schema := s.fw.schOut, slot := x, gen := wrapAdd 32 y.gen 1, recs := y.recs.map (convertRec s.fw.schOut) }
        some (((s.writeSettings (1 - c) z).setBoot (fun r => { r with migrated := 1 })).useSettings (1 - c) z)
      else none
  else
    match s.settingsOf x with
    | some (c, y) => some (s.useSettings c y)
    | none => some (s.useSettings 1 { schema := s.fw.schOut, slot := x, gen := 0, recs := [] })

/-! ### The start (R377, R380) -/

/-- Step 1: a committed image is promoted to TRIAL, or recorded as failed. -/
def State.promote (s : State) : State :=
  let r := s.boot
  if r.stage ≠ 2 then s
  else
    let h := s.slotHeader stagingBase
    let ok := s.imgAdmissible h && sha384 h == r.digest && decide (imgPlen h ≤ maxPayload) && (s.openSlot stagingBase).isSome
    if ok then
      let x := 1 - r.active
      let payload := s.flashAt (stagingBase + 0x1000) (imgPlen h)
      let s1 := ((s.eraseFlash (slotBase x) slotSize).setFlash (slotBase x) h).setFlash (slotBase x + 0x1000) payload
      s1.setBoot (fun r => setSlotState (setSlotState { r with stage := 0, boots := 0, runmin := 0, migrated := 0, active := x } x 2) (1 - x) 1)
    else s.setBoot (fun r => { r with stage := 0, lastEvent := 3 })

/-- A fallback (R380): the slot is BAD, the other ACTIVE. -/
def State.fallBack (s : State) (x event : Nat) : State :=
  s.setBoot (fun r => setSlotState { r with active := 1 - x, lastEvent := event } x 3)

/-- The image of a slot loaded into the firmware area of B16 (R377 step 3). -/
def State.loadImage (s : State) (h plain : List Byte) : State :=
  let s1 := (s.clearBytes (bankHome 16) (imgArea h)).setBytes (bankHome 16) plain
  s1.onFw (fun _ =>
    { loaded := true, imgVer := BitVec.ofNat 32 (leField h 8 4), schMin := leField h 0x10 2, schMax := leField h 0x12 2
      schOut := leField h 0x14 2, fwArea := imgArea h })

/-- T0 at ENTRY, through a segment over the firmware area (R377 step 5; log 20). -/
def State.startT0 (s : State) (h : List Byte) : State :=
  let d : SegDesc := { base := bankHome 16, limit := imgArea h - 1, r := true, x := true, minpl := 3, present := true }
  s.onThr 0 (fun t => { t with pc := BitVec.ofNat 32 (leField h 0x20 4), sg := t.sg.set 0 { sel := 0, desc := d }, fbuf := [] })

/-- Steps 2 to 5: the slot that starts, if one does. A SUPERSEDED, BAD or EMPTY slot is never booted. The flag says that
the settings of a TRIAL image sent the engine back. -/
def State.bootSlots (s : State) (convertOk : Bool) : Nat → State × Option Nat
  | 0 => (s, none)
  | fuel + 1 =>
    let r := s.boot
    let x := r.active
    if slotState r x = 2 ∧ r.boots = 3 then (s.fallBack x 2).bootSlots convertOk fuel
    else
      let h := s.slotHeader (slotBase x)
      let plain := if (slotState r x = 1 ∨ slotState r x = 2) ∧ s.imgAdmissible h = true then s.openSlot (slotBase x) else none
      match plain with
      | none =>
        let s1 := s.setBoot (fun r => setSlotState { r with lastEvent := 4 } x 3)
        if slotState r (1 - x) = 1 then (s1.setBoot (fun r => { r with active := 1 - x })).bootSlots convertOk fuel else (s1, none)
      | some p =>
        let s1 := if slotState r x = 2 then s.setBoot (fun r => { r with boots := r.boots + 1 }) else s
        match (s1.loadImage h p).chooseSettings x convertOk with
        | none => (s1.fallBack x 1).bootSlots convertOk fuel
        | some s2 =>
          let s3 := if slotState r x = 1 then s2.blow (min 64 (imgArb h)) else s2
          ((s3.setB R.UPD_KEYLOCK 0 true).startT0 h, some x)

/-- UPD_STAT shows the slot that runs, and whether the last start fell back (R380). -/
def State.showSlot (s : State) (x : Nat) : State :=
  let r := s.boot
  let back := (r.lastEvent == 1 || r.lastEvent == 2 || r.lastEvent == 4) && slotState r (1 - x) == 3
  (((s.setB R.UPD_STAT 6 (x == 1)).setB R.UPD_STAT 7 (slotState r x == 2)).setB R.UPD_STAT 10 back).showUpd

/-- Fiddlehead's start from flash (R377): the image that runs, or none. -/
def State.fiddlehead (s : State) (convertOk : Bool) : State × Bool :=
  match s.promote.bootSlots convertOk 6 with
  | (s1, some x) => (s1.showSlot x, true)
  | (s1, none) => ((s1.onFw (fun _ => {})).showUpd, false)

/-- UPDATE_CONFIRM (R382): the TRIAL slot is GOOD, fuses blown, the other slot SUPERSEDED. -/
def State.confirm (s : State) (x : Nat) : State :=
  let arb := min 64 (imgArb (s.slotHeader (slotBase x)))
  let s1 := s.setBoot (fun r => setSlotState (setSlotState { r with boots := 0, runmin := 0 } x 1) (1 - x) 4)
  ((s1.blow arb).setB R.UPD_STAT 7 (s.f R.UPD_STAT 6 6 != x && s.b R.UPD_STAT 7)).showUpd

end Sys2Proof.Machine
end

