-- ==== Sys2Proof/Machine/Power.lean ====
section
/-! DEFINITION. Power, clocks and reset (18_power_reset_modes.md): the resets, power-up, Dormant and the wake from it. -/

namespace Sys2Proof.Machine

/-! ### Reset (R428, R432, R464) -/

/-- What a reset leaves (R432): the reset state, with flash, fuses, VIN and PWR_RSTCAUSE; the debug failure count and LOCKOUT
unless `clear`; and the model's own queue, record and count of free values. -/
def State.resetBy (s : State) (cause : Nat) (clear : Bool) (vin : Nat) : State :=
  let p : Power := { vin := vin, fails := if clear then 0 else s.power.fails, lockout := !clear && s.power.lockout }
  let r : State :=
    { State.reset with
      mem := { State.reset.mem with flash := s.mem.flash }, upd := { fusesBlown := s.fusesAtReset }, power := p
      free := s.free + 1, out := s.out, pending := s.pending }
  r.wr R.PWR_RSTCAUSE (BitVec.ofNat 32 cause)

/-- VIN_LOSS (R428). -/
def execVinLoss (s : State) : Res := .next (s.resetBy 1 true 0)

/-- POR_N_RESET (R432); an engine held by TEST_EN stays so until VIN is removed (R458). -/
def execPorNReset (s : State) : Res := .next (if s.power.testHold then s else s.resetBy 2 true s.power.vin)

/-- RAIL_FAULT (R428): in a mode in which the rail is on; VSD and VPLL are off in Dormant (R427). -/
def execRailFault (rail : Fin 5) (s : State) : Res :=
  .next (if s.running || (s.mode == 1 && decide (rail.val < 3)) then s.resetBy 4 false s.power.vin else s)

/-- REFCLK_LOSS (R464): in any mode but Off, recorded as a rail fault. -/
def execRefclkLoss (s : State) : Res := .next (if s.power.up then s.resetBy 4 false s.power.vin else s)

/-- The reset by firmware's write (R432). -/
def State.fwReset (s : State) : State := s.resetBy 8 false s.power.vin

/-- A write of PWR_RST (R432). -/
def State.writeRst (s : State) (v : Word) : State × Option Nat := if v = 0x5A3C then (s.fwReset, none) else (s, some 7)

/-- VIN_LOW (R428): the monitor's level, with its hysteresis. -/
def execVinLow (mv : Nat) (s : State) : Res :=
  .next (if s.power.up then
    let s1 := (s.onPwr (fun p => { p with vin := mv })).wr R.PWR_VIN (BitVec.ofNat 32 (mv % 8192))
    (if mv < 1700 then s1.setB R.PWR_STAT 2 true else if 1720 < mv then s1.setB R.PWR_STAT 2 false else s1).showAlert
  else s)

/-! ### Power-up (R433-R436, R458) -/

/-- The throttle thresholds of the order code (R444). -/
def thermDefault : Word := if Config.otpGradeX then 0x8C827D else 0x786E69

/-- The flash as the update engine uses it (R361): the largest supported size within the device. -/
def State.findFlash (s : State) (mib : Nat) : State :=
  let code := if 256 ≤ mib then some 3 else if 128 ≤ mib then some 2 else if 64 ≤ mib then some 1 else if 32 ≤ mib then some 0 else none
  match code with
  | none => (s.wr R.UPD_FLASH 0).onMem (fun m => { m with flashSize := 0 })
  | some c => (s.wr R.UPD_FLASH (BitVec.ofNat 32 (c + 4))).onMem (fun m => { m with flashSize := 2 ^ (25 + c) })

/-- Rails, PLLs, OTP and pins (R434 steps 1 and 2); a power-up that no other reset preceded is a power-on. -/
def State.railsUp (s : State) (env : PowerEnv) : State :=
  let s1 := s.onPwr (fun p => { p with up := true, vin := env.vinMv })
  let s2 := ((s1.wr R.PWR_VIN (BitVec.ofNat 32 (env.vinMv % 8192))).wr R.PWR_STAT 3).wr R.PWR_RAIL 0x1F
  let s3 := (s2.wr R.PWR_BOOT (env.bootSel.zeroExtend 32)).wr R.PWR_THERM thermDefault
  let s4 := if s3.rd R.PWR_RSTCAUSE = 0 then s3.wr R.PWR_RSTCAUSE 1 else s3
  ((s4.driveSafe true).showFails).findFlash env.flashMiB

/-- Fiddlehead serves the mailboxes in Safe (R342). -/
def State.fiddleSafe (s : State) (cause : Nat) : State := (s.onFw (fun f => { f with fiddlehead := true })).safeEntry cause

/-- Fabric recovery (R436): every Lichen port at 25.78125 Gbit/s, and the domain joined with PRIO 0xFF and RELAYIN = 1. -/
def State.fabricRecovery (s : State) : State :=
  let s1 := s.each (List.range 4) (fun s p => s.putF (R.LNK_CTL p) 1 0 1)
  ((s1.putF R.FAB_PRIO 7 0 0xFF).setB R.UPD_CTL 1 true).writeFabCtl ((s1.rd R.FAB_CTL) ||| 1)

/-- The start that BOOT_SEL selects (R433), after a power-up BIST that passed. -/
def State.bootStart (s : State) (env : PowerEnv) : State :=
  let s0 := s.trainAll env.dimms env.trained
  match env.bootSel.toNat with
  | 0 =>
    if s0.mem.flashSize = 0 then s0.fiddleSafe 5
    else match s0.fiddlehead env.convertOk with
      | (s1, true) => (s1.driveSafe false).enterMode 2 5
      | (s1, false) => s1.fiddleSafe 5
  | 1 => s0.fiddleSafe 6
  | 2 => s0.fabricRecovery.fiddleSafe 6
  | _ => s0.fiddleSafe 7

/-- POWER_UP (R434): from Off, once VIN is valid; held with TEST_EN high (R458). A step past its bound is a failure of code
0x0B, charged to its unit. -/
def State.powerUp (s : State) (env : PowerEnv) : State :=
  if s.power.up ∨ s.power.testHold ∨ env.vinMv < 1710 then s
  else if env.testEn then s.onPwr (fun p => { p with testHold := true, safeN := true, vin := env.vinMv })
  else
    let s1 := s.railsUp env
    let fail := match env.lateUnit with
      | some u => some (u.toNat, 0x0B)
      | none => env.bistFail.map (fun f => (f.1.toNat, f.2.toNat))
    let s2 := s1.powerUpBist fail env.bistUs
    if fail.isSome then s2.fiddleSafe 1 else s2.bootStart env

/-- POWER_UP. -/
def execPowerUp (env : PowerEnv) (s : State) : Res := .next (s.powerUp env)

/-- A write of PWR_CLKDIV in Config (R431). -/
def State.writeClkDiv (s : State) (v : Word) : State × Option Nat :=
  if s.inConfig then (s.wr R.PWR_CLKDIV (v &&& 3), none) else (s, some 7)

/-! ### Dormant (R441-R443, R411) -/

/-- The PCIe tunnel is lost, or the function is reset (R334): apertures disabled, MSI-X off, reads not yet sent dropped. -/
def State.functionReset (s : State) : State :=
  let s1 := s.each (List.range 16) (fun s a => s.setB (R.HIF_AP a) 31 false)
  s1.onHost (fun h => { h with msixEn := false, reads := [] })

/-- HIF_LINK shows the USB4 link; any change sets LINKCHG; a tunnel that goes down resets the function. -/
def State.setUsb4 (s : State) (up : Bool) (gen : Nat) (pcie : Bool) : State :=
  let was := s.f R.HIF_LINK 4 0
  let s1 := ((s.setB R.HIF_LINK 0 up).putF R.HIF_LINK 2 1 gen).setB R.HIF_LINK 3 pcie
  let s2 := if s1.f R.HIF_LINK 4 0 = was then s1 else s1.setB R.HIF_LINK 5 true
  if was.testBit 3 && !pcie then s2.functionReset else s2

/-- Every queued request of the matrix completes. -/
def State.flushMatrix (s : State) : State :=
  s.each (List.range 16) (fun s m => match s.flushMaster m with
    | some s1 => s1
    | none => s)

/-- The DIMMs go into or out of self-refresh; a wake retrains every channel (R442, R443, R69). -/
def State.selfRefresh (s : State) (on trained : Bool) : State :=
  if on then s.onMem (fun m => { m with selfRefresh := true, retraining := [], retrainReq := [] })
  else
    let s1 := s.onMem (fun m =>
      { m with
        selfRefresh := false
        trainTemp := (List.range 12).foldl (fun t c => sput (fun _ => 0) t c (toSigned 8 (s.f (R.DDR_TEMP c) 7 0))) [] })
    if s.b R.DDRC_CFG 3 = false ∨ trained = true then s1
    else
      let s2 := s1.each (List.range 12) (fun s c => s.setB (R.DDR_STAT c) 2 false)
      ((s2.setB R.DDRC_STAT 1 true).wr R.DDRC_SUBLINES 0).setB R.DDRC_CFG 3 false

/-- DORMANT_ENTRY (R442): the request passes check 4 again, and the engine enters Dormant; with a debugger attached and
DORMEMU set, the emulation of R411. -/
def State.dormantEntry (s : State) : State :=
  match s.power.request with
  | some (1, c) =>
    if s.mode ≠ 2 then s
    else if s.check4 = false then
      ((((s.onPwr (fun p => { p with request := none })).setB R.PWR_MODEREQ 3 false).putF R.PWR_MODEREQ 6 4 4).modeRefused 4)
    else
      let s1 := s.releaseLock
      let s2 := (s1.each [0, 1] (fun s t => (s.drainAll t).getD s)).flushMatrix
      let s3 := s2.enterMode 1 c
      let s4 := s3.each (List.range 4) (fun s p => s.linkDown p)
      let s5 := s4.each (List.range 2) (fun s e =>
        ((s.setB (R.ETH_STAT e) 0 false).setB (R.ETH_STAT e) 4 false).onEth e (fun p =>
          { p with sending := none, goodSyncs := 0, lastSync := none }))
      let s6 := ((s5.onIo (fun i => { i with synced := false })).setUsb4 false 0 false).selfRefresh true true
      let s7 := s6.each (List.range 18) (fun s b => s.setBankPower b (powerOf (s.f (R.BANK_PWR b) 3 2)))
      let emul := decide (1 ≤ s.dbgLevel) && s.b R.DBG_CTL 2
      (((s7.setB R.PWR_STAT 1 emul).setB R.DBG_STAT 7 emul).wdgCheck).onPwr (fun p => { p with dormantTb := s.tb })
  | _ => s

/-- DORMANT_ENTRY. -/
def execDormantEntry (s : State) : Res := .next s.dormantEntry

/-- The wake sequence (R443): MSI-X vector 17 goes once the PCIe tunnel is up. -/
def State.wakeUp (s : State) (bit : Nat) (trained : Bool) : State :=
  let s1 := ((s.setB R.PWR_WAKESRC bit true).setB R.PWR_STAT 5 true).setB R.PWR_STAT 1 true
  let s2 := s1.each (List.range 18) (fun s b => s.setBankPower b (powerOf (s.f (R.BANK_PWR b) 1 0)))
  let s3 := (s2.selfRefresh false trained).setB R.DBG_STAT 7 false
  ((s3.onHost (fun h => { h with msixPending := putBit h.msixPending 17 true })).enterMode 2 4).wdgCheck

/-- A wake source is effective: its PWR_WAKEEN bit, and what else R443 asks. -/
def State.wakes (s : State) (src : WakeSource) : Bool :=
  match src with
  | .wakeBall => s.b R.PWR_WAKEEN 0
  | .usb4 => s.b R.PWR_WAKEEN 1
  | .fabric p => s.b R.PWR_WAKEEN 2 && s.b (R.LNK_CTL p.val) 4
  | .timer => s.b R.PWR_WAKEEN 3 && s.f R.PWR_WAKETMR 23 0 != 0

/-- PWR_WAKESRC bit of a source. -/
def wakeBit : WakeSource → Nat
  | .wakeBall => 0
  | .usb4 => 1
  | .fabric _ => 2
  | .timer => 3

/-- The timebase at the expiry of PWR_WAKETMR. -/
def State.passWakeTimer (s : State) : State :=
  s.passTb (s.power.dormantTb + s.f R.PWR_WAKETMR 23 0 * 16000000 - s.tb)

/-- WAKE (R443). -/
def execWake (src : WakeSource) (trained : Bool) (s : State) : Res :=
  .next (if s.mode = 1 ∧ s.wakes src = true then
    (if src = .timer then s.passWakeTimer else s).wakeUp (wakeBit src) trained else s)

/-- WAKE_TIMER_EXPIRE (R443). -/
def execWakeTimerExpire (s : State) : Res :=
  .next (if s.mode = 1 ∧ s.wakes .timer = true then s.passWakeTimer.wakeUp 3 true else s)

/-! ### Updates that end in a reset (R380, R436) -/

/-- TRIAL_MINUTE (R380): a whole minute of Run under a TRIAL slot; at 30 without confirmation, a fallback and a reset. -/
def State.trialMinute (s : State) : State :=
  match s.trialSlot with
  | none => s
  | some x =>
    if s.mode ≠ 3 ∨ s.b R.UPD_STAT 7 = false then s
    else
      let s1 := s.untilTime (s.upd.minuteAt + usTime 60000000)
      let s2 := ((s1.onUpd (fun u => { u with minuteAt := s1.now })).setBoot (fun r => { r with runmin := r.runmin + 1 }))
      if 30 ≤ s2.boot.runmin then (s2.fallBack x 2).fwReset else s2.showUpd

/-- TRIAL_MINUTE. -/
def execTrialMinute (s : State) : Res := .next s.trialMinute

/-- Fiddlehead serves an update in recovery (R436). -/
def State.recovering (s : State) : Bool := s.fw.fiddlehead && s.f R.PWR_MODE 12 9 == 6

/-- After a commit in recovery the image is promoted and the engine reset (R436). -/
def State.recovered (s : State) : State := if s.recovering then s.promote.fwReset else s

/-- RELAY_COMMIT (R375). -/
def execRelayCommit (port : Fin 4) (pkt : Packet) (s : State) : Res :=
  .next (s.relayTaken port.val pkt (fun s => match s.relayCommit port.val pkt with
    | (s1, true) => s1.recovered
    | (s1, false) => s1))

end Sys2Proof.Machine
end

