-- ==== Sys2Proof/Machine/Tick.lean ====
section
/-! DEFINITION. The tick and the phases of a frame (R14-R22, R39, R41, R273, R408, R437-R440): the instants that the tick
sources give, and what happens at the tick, the commit hold, T_CUT, T_DL and T_OUT. -/

namespace Sys2Proof.Machine

/-! ### Tick sources (R14-R18, R312, R313) -/

/-- LDG_CTL.SRC. -/
def State.src (s : State) : Nat := s.f R.LDG_CTL 1 0

/-- The generator supplies the ticks of a lost source (R18). -/
def State.holdover (s : State) : Bool := s.ledger.lost && s.b R.LDG_CTL 2

/-- A tick instant is given. -/
def State.giveTick (s : State) : State := s.onLdg (fun l => { l with tickDue := true })

/-- This device is a keystone whose domain tick comes from a source (R312). -/
def State.keystoneOf (s : State) (k : Nat) : Bool := s.fabEn && s.isKeystone && s.f R.FAB_CTL 2 1 == k

/-- The next gPTP instant of R14, in ns. -/
def State.gptpDue (s : State) : Nat :=
  let p := s.f R.LDG_PERIOD 23 0 * 10
  let a := s.f R.LDG_ASPHASE 23 0 * 10 % max 1 p
  if s.ns < a then a else a + ((s.ns - a) / max 1 p + 1) * p

/-- LDG_PERIOD on the generator's counter, in 1/16 ns (R15). -/
def State.genPeriod (s : State) : Nat := max 1 (s.f R.LDG_PERIOD 23 0 * 160)

/-- An instant of the source that has returned while the generator supplies its ticks, as a count of the generator (R18): of TICK_IN
and the fabric as it arrived, of 802.1AS time the next one. -/
def State.sourceInstant (s : State) : Option Nat :=
  if s.holdover = false then none
  else if s.src = 3 then (if s.io.synced then some (s.gen + (s.gptpDue * 16 - s.tb)) else none)
  else s.ledger.back

/-- How far the nearest instant of the returning source lies after a count of the generator, in 1/16 ns (R18). -/
def State.sourceAhead (s : State) (at_ : Nat) : Int :=
  match s.sourceInstant with
  | none => 0
  | some b =>
    let p : Int := s.genPeriod
    ((b : Int) - at_ + p / 2) % p - p / 2

/-- The generator's next instant on its counter: the first whole period that lies ahead, or is reached now (R15). Toward a source
that has returned the period is lengthened or shortened by at most 0.1% (R18). -/
def State.genDue (s : State) : Nat :=
  let p := s.genPeriod
  let due := s.ledger.genBase + max 1 (ceilDiv (s.gen - s.ledger.genBase) p) * p
  let most : Int := p / 1000
  (due + max (-most) (min most (s.sourceAhead due))).toNat

/-- Time moves on until the generator's counter reaches a count. -/
def State.untilGen (s : State) (g : Nat) : State := if s.gen < g then s.advance (s.clkFor (g - s.gen)) else s

/-- The internal generator's instant (R15, R18, R312, R313): the source instant of a keystone that uses it; a tick when it is
selected or supplies holdover; and a domain tick that has not come by then is lost. -/
def State.generatorTick (s : State) : State :=
  if s.running = false then s
  else
    let due := s.genDue
    let s1 := ((s.untilGen due).onLdg (fun l => { l with genBase := due })).keystoneSend 0
    if s1.src = 0 ∨ s1.holdover = true then s1.giveTick
    else if s1.src = 2 ∧ s1.ledger.lost = false ∧ s1.ledger.tickDue = false then
      let s2 := s1.loseSource
      if s2.holdover then s2.giveTick else s2
    else s1

/-- GENERATOR_TICK. -/
def execGeneratorTick (s : State) : Res := .next s.generatorTick

/-- The instant around which an edge of TICK_IN is accepted: one period after the previous source instant (R16). -/
def State.edgeDue (s : State) : Nat :=
  s.ledger.tickClk - (if s.src = 1 then 0 else s.f R.FAB_TICKLAT 15 0 * 16) + s.periodClk

/-- The half-window in clk (R16, R21). -/
def State.edgeWin (s : State) : Nat := s.ledger.winNow * 16

/-- An edge of TICK_IN lies inside its window; before the first tick there is none to fall outside of. -/
def State.edgeInWindow (s : State) : Bool :=
  s.ledger.open_ == false || (decide (s.edgeDue ≤ s.clk + s.edgeWin) && decide (s.clk ≤ s.edgeDue + s.edgeWin))

/-- TICK_IN_EDGE (R16): while the generator supplies the ticks, the edge's instant is kept for the return (R18). -/
def State.tickInEdge (s : State) (falling : Bool) : State :=
  if s.running = false ∨ falling ≠ s.b R.LDG_CTL 3 then s
  else if s.src = 1 ∨ s.keystoneOf 1 = true then
    let s0 := if s.src = 1 ∧ s.holdover = true then s.onLdg (fun l => { l with back := some s.gen }) else s
    if s.edgeInWindow = false then (if s.src = 1 then s0.setB R.LDG_STAT 4 true else s0)
    else
      let s1 := s0.keystoneSend 1
      if s.src = 1 ∧ s.ledger.lost = false then s1.giveTick else s1
  else s

/-- TICK_IN_EDGE. -/
def execTickInEdge (falling : Bool) (s : State) : Res := .next (s.tickInEdge falling)

/-- The end of the TICK_IN window without an edge (R16, R18, R273): the source is lost; the generator gives the tick, or the
commit hold ends. -/
def State.windowExpire (s : State) : State :=
  if s.src ≠ 1 ∨ s.running = false ∨ s.ledger.open_ = false ∨ s.ledger.tickDue = true ∨ s.ledger.lost = true then s
  else
    let s1 := (s.until (s.edgeDue + s.edgeWin)).loseSource
    if s1.holdover then
      (s1.onLdg (fun l => { l with genBase := s1.gen - (s1.clk - s.edgeDue) * s1.clkSixteenths, back := none })).giveTick
    else (s1.setB R.SIM_STAT 2 false).onIo (fun i => { i with holdEnded := true })

/-- TICK_WINDOW_EXPIRE. -/
def execTickWindowExpire (s : State) : Res := .next s.windowExpire

/-- SOURCE_RETURN (R18): the source has returned and takes over. After holdover it does so once its tick lies within 20 ns of the
generated one; without holdover an edge that ends the loss of TICK_IN is itself a tick. -/
def State.sourceReturn (s : State) : State :=
  if s.ledger.lost = false ∨ s.running = false ∨ (s.src = 3 ∧ s.io.synced = false) ∨
      320 < (s.sourceAhead s.ledger.genBase).natAbs then s
  else
    let s1 := ((s.onLdg (fun l => { l with lost := false, back := none })).setB R.LDG_STAT 2 false).putF R.LDG_STAT 1 0 s.src
    if s.src = 1 ∧ s.b R.LDG_CTL 2 = false then s1.giveTick else s1

/-- SOURCE_RETURN. -/
def execSourceReturn (s : State) : Res := .next s.sourceReturn

/-- A write of LDG_CTL in Config: the selected source supplies the ticks; 802.1AS time without synchronisation is lost from
the start (R14, R17). -/
def State.writeLdgCtl (s : State) (v : Word) : State :=
  let s1 := (((s.wr R.LDG_CTL (v &&& 0xF)).setB R.LDG_STAT 2 false).putF R.LDG_STAT 1 0 (fld v 1 0)).onLdg (fun l =>
    { l with lost := false, back := none })
  if fld v 1 0 = 3 ∧ s.io.synced = false then s1.loseSource else s1

/-- 802.1AS time gives the instant of the next tick, at this device or as the source of its domain. -/
def State.gptpSource (s : State) : Bool :=
  s.io.synced && !s.ledger.tickDue && ((s.src == 3 && !s.ledger.lost) || s.keystoneOf 3)

/-- Time moves on to the tick instant: the next gPTP instant, or the instant that a TICK packet named (R312). -/
def State.toTick (s : State) : State :=
  let s1 : State := if s.gptpSource then
      let s2 := (s.advance (s.clkTo s.gptpDue)).keystoneSend 3
      if s.src = 3 then s2.giveTick else s2
    else s
  if s1.src = 2 ∧ s1.ledger.tickDue = true ∧ s1.holdover = false then
    match s1.fabric.tickAt with
    | some (t, _) => s1.advance (s1.clkFor (t - s1.tb))
    | none => s1
  else s1

/-! ### Phases of the frame (R20, R22, R39, R273) -/

/-- The earliest instant of the next tick (R273). -/
def State.earliestNext (s : State) : Nat :=
  let due := s.ledger.tickClk + s.periodClk
  if s.src = 0 ∨ s.holdover then due else if s.src = 1 then due - s.edgeWin else due - 64

/-- COMMIT_HOLD (R273): 256 clk before the earliest next tick the Sorter stops beginning commits. -/
def State.commitHold (s : State) : State :=
  if s.inFrame = true ∧ s.ledger.open_ = true ∧ s.b R.SIM_STAT 2 = false ∧ s.io.holdEnded = false ∧
      !(s.ledger.lost && !s.b R.LDG_CTL 2) then
    (s.until (s.earliestNext - 256)).setB R.SIM_STAT 2 true
  else s

/-- COMMIT_HOLD. -/
def execCommitHold (s : State) : Res := .next s.commitHold

/-- T_CUT (R22). -/
def State.cutoff (s : State) : State :=
  if s.inFrame = true ∧ s.ledger.open_ = true ∧ s.ledger.cutDone = false then
    ((s.until (s.ledger.tickClk + s.tcutClk)).onLdg (fun l => { l with cutDone := true })).produce 0x09 0
  else s

/-- CUTOFF. -/
def execCutoff (s : State) : Res := .next s.cutoff

/-- The frame is DEBUG_SKIPPED: a unit was halted at some instant from its tick to its T_DL (R408). -/
def State.judgeSkip (s : State) : State :=
  if s.ledger.debugSeen || s.held then
    ((s.onLdg (fun l => { l with skipped := true })).guard 2).count R.DBG_SKIPCNT 32 1
  else s

/-- T_DL (R22, R39, R284, R319, R408). -/
def State.deadline (s : State) : State :=
  if s.inFrame = true ∧ s.ledger.open_ = true ∧ s.ledger.dlDone = false then
    let s1 := ((s.cutoff.until (s.ledger.tickClk + s.tdlClk)).onLdg (fun l => { l with dlDone := true })).produce 0x0A 0
    s1.judgeSkip.deadlineJobs.compose.twinDigest
  else s

/-- DEADLINE. -/
def execDeadline (s : State) : Res := .next s.deadline

/-- T_OUT (R11, R319): the idle window begins, and a twin digest that has not arrived is absent. -/
def State.outputTime (s : State) : State :=
  if s.inFrame = true ∧ s.ledger.open_ = true ∧ s.ledger.outDone = false then
    ((s.deadline.until (s.ledger.tickClk + s.toutClk)).onLdg (fun l => { l with outDone := true })).twinAbsent
  else s

/-- OUTPUT_TIME. -/
def execOutputTime (s : State) : Res := .next s.outputTime

/-- TEMPLATE_RELEASE (R285): T_DL with its composition and T_OUT come first (R11), and the templates that leave before it or with a
lower index at its instant go ahead of it. -/
def State.templateRelease (s : State) (t : Nat) : State :=
  if (s.tmpl t).waits && s.b R.EGR_CTL 0 && s.inFrame && s.ledger.open_ then
    let s1 := s.outputTime
    s1.each (s1.releasesUpTo t) (fun s k => s.releaseOne k)
  else s

/-- TEMPLATE_RELEASE (R285). -/
def execTemplateRelease (template : Fin 512) (s : State) : Res := .next (s.templateRelease template.val)

/-! ### The tick (R15, R19, R22, R41) -/

/-- A tick is counted: LDG_FRAME, TICK_OUT, the copies of the counters, and a bandwidth window that restarts (R15, R19,
R423, R424). -/
def State.countTick (s : State) : State :=
  let frame := s.ledger.frame + 1
  let s1 := s.tickCapture.onLdg (fun l =>
    { l with
      frame := frame, tickClk := s.clk, open_ := true, tickDue := false
      genBase := if s.src = 0 ∨ s.holdover ∨ s.keystoneOf 0 then l.genBase else s.gen
      skipSeen := false, lateSeen := false, skipped := false, cutDone := false, dlDone := false, outDone := false
      debugSeen := s.held })
  let s2 := s1.snapshot.traceTick
  let s3 : State := if s2.b R.PMC_BWCTL 20 && s2.b R.PMC_BWCTL 21 then s2.openWindow else s2
  if s3.ledger.tickOutEn then
    s3.emit (.tickOut s3.ledger.tickOutWidth)
  else s3

/-- The plan's swap publishes PLAN_ACTIVATE at its tick (R351). -/
def State.publishSwap (s : State) (was : Bool) : State :=
  if was && !s.ledger.swapPending then s.activatePublished (twoWords s.ledger.frame.toNat ++ [0]) else s

/-- The mode that the fabric asks for at a tick, with its cause in the GET_MODE encoding (R315, R317, R319). -/
def State.fabricMode (s : State) : State :=
  let policy := s.fabric.twinHold
  match s.fabricTick with
  | (s1, some m) => s1.enterMode m (if m = 4 ∧ policy = true ∧ s1.fabric.quorumHold = false then 2 else 1)
  | (s1, none) => s1

/-- A tick in Run or Hold, or the one that enters it. The tick counts before the mode changes (R348). -/
def State.frameTick (s : State) (enter : Option Nat) : State :=
  let before := s.jobs
  let swap := s.ledger.swapPending
  let s1 := s.tickClose.countTick
  let s2 : State := match enter with
    | some m => s1.enterMode m 0
    | none => s1
  let s3 := s2.fabricMode.flipImage
  let s4 : State := if s3.mem.retraining.isEmpty then s3 else s3.guard 3
  let s5 := (s4.onIo (fun i => { i with templates := i.templates.map (fun e => (e.1, { e.2 with released := false })) })).produce 0x08 0
  ((s5.tickOpen before).publishSwap swap).thermalFall.bistTick

/-- A tick in Safe (R440): counted, with TICK_OUT; the ledger, the Signal Image and the phases do not act. -/
def State.safeTick (s : State) : State := s.countTick.fabricMode.thermalFall

/-- The tick instant (R437, R439, R396): a fatal self-test failure enters Safe; a pending transition is checked again and
made; in Config with none pending no tick occurs. -/
def State.atTick (s : State) : State :=
  let s0 : State := if s.bist.fatal then (s.onBist (fun b => { b with fatal := false })).safeEntry 2 else s
  if s0.mode = 5 then s0.safeTick
  else if s0.inFrame then
    match s0.dueRequest with
    | (s1, some 2) => s1.toConfig 0
    | (s1, m) => s1.frameTick m
  else
    let clear := s0.onLdg (fun l => { l with tickDue := false, genBase := if s0.src = 0 ∨ s0.keystoneOf 0 then l.genBase else s0.gen })
    match s0.power.request with
    | none => clear
    | some (1, _) => clear
    | some _ =>
      match s0.dueRequest with
      | (s1, some m) => s1.frameTick (some m)
      | (s1, none) => s1.onLdg (fun l => { l with tickDue := false })

/-- TICK: the phases of the frame that ends come before it (R11). -/
def State.tick (s : State) : State :=
  if s.running = false then s
  else
    let s1 := (if s.ledger.tickDue || s.gptpSource then s.outputTime else s).toTick
    if s1.ledger.tickDue then s1.atTick else s1

/-- TICK. -/
def execTick (s : State) : Res := .next s.tick

end Sys2Proof.Machine
end

