-- ==== Sys2Proof/Machine/Atomics.lean ====
section
/-! DEFINITION. Atomics of the fabric (R308, R310): the operation at its target, as an inbound request of the Lichen engine, and
the request that a FAB_ATOMn set starts. -/

namespace Sys2Proof.Machine

/-- The STATUS of R294 that a refused inbound access is answered with. -/
def statusOf (cause : Nat) : Nat := if cause = 5 then 2 else 1

/-- The value an atomic stores over an old one, if it stores (R308): ADD, FADD, CAS. -/
def atomNew (op z old : Nat) (data : List Byte) : Option Nat :=
  let a := leVal (data.take z)
  if op = 2 then (if old = a then some (leVal ((data.drop z).take z)) else none) else some (wrapAdd (8 * z) old a)

/-- An inbound ATOMIC at a physical address (R308): one read-modify-write of a bank or DDR5; STATUS and returned bytes. -/
def State.atomicAt (s : State) (machine : Bool) (a op : Nat) (size8 : Bool) (data : List Byte) : State × Nat × List Byte :=
  let w : Who := { master := 11, machine := machine }
  let z := if size8 then 8 else 4
  let there : Bool := match s.locate (s.home a) with
    | .bank _ _ => true
    | .ddr _ => true
    | _ => false
  if there = false then (s, 1, [])
  else match s.addrCause w (s.locate (s.home a)) true with
    | some c => (s.busError 11 (s.locate (s.home a)).target true c a, statusOf c, [])
    | none => match s.readNow w a z with
      | (s1, .ok b) =>
        let ret := if op = 0 then [] else b
        (match atomNew op z (leVal b) data with
          | none => (s1, 0, ret)
          | some x => match s1.writeNow w a (leBytes z x) with
            | (s2, .ok _) => (s2, 0, ret)
            | (s2, _) => (s2, 1, []))
      | (s1, _) => (s1, 1, [])

/-- The atomic of set n leaves for device d, or is served here when d is this device (R50, R310). -/
def State.atomSend (s : State) (n d x op : Nat) (size8 : Bool) (data : List Byte) (machine : Bool) : State :=
  if s.ownId = some d then
    match s.atomicAt machine x op size8 data with
    | (s1, st, ret) =>
      let s2 := (s1.setB (R.FAB_ATOM_CTL n) 4 false).putF (R.FAB_ATOM_CTL n) 7 5 st
      if st = 0 ∧ ret ≠ [] then
        (s2.wr (R.FAB_ATOM_RES_LO n) (BitVec.ofNat 32 (leVal ret))).wr (R.FAB_ATOM_RES_HI n) (BitVec.ofNat 32 (leVal ret / 2 ^ 32))
      else s2
  else (s.request (.atom n) 2 d data.length x data machine size8 op).1

end Sys2Proof.Machine
end

