-- ==== Sys2Proof/Machine/CtlSpace.lean ====
section
/-! DEFINITION. Control space (R4-R7, R51, R79) and its host port BAR0 (R329, R360): what a read of each register shows and
removes, who may write it, what it refuses, and what a write does. A refused access answers the CAUSE of its bus error. -/

namespace Sys2Proof.Machine

/-- What a control-space access answers. -/
inductive CtlRes where
  | ok (v : Word)
  | err (cause : Nat)
  | wait
  deriving DecidableEq, Repr

/-- The number of a register in a row of equal ones. -/
def idx (off base stride : Nat) : Nat := (off - base) / stride

/-- A number as a register shows it. -/
def word (n : Nat) : Word := BitVec.ofNat 32 n

/-- A signed sum as a register shows it. -/
def wordI (i : Int) : Word := BitVec.ofNat 32 (ofSigned 32 i)

/-- The low or high word of a 64-bit value. -/
def half (hi : Bool) (v : Nat) : Word := word (if hi then v / 2 ^ 32 else v)

/-! ### Registers that show live state -/

/-- The ledger's registers (R46). -/
def State.liveLdg (s : State) (off : Nat) : Word :=
  let a := s.acct (s.f R.LDG_RESSEL 7 0)
  if off = R.LDG_STAT then setFld (s.rd off) 7 6 s.phaseNow
  else if off = R.LDG_FRAME_LO then half false s.ledger.frame.toNat
  else if off = R.LDG_FRAME_HI then half true s.ledger.frame.toNat
  else if off = R.LDG_GRANT then word a.grant
  else if off = R.LDG_BAL then wordI a.pool
  else if off = R.LDG_BACKLOG then word (s.backlogOf (s.f R.LDG_RESSEL 7 0))
  else if off = R.LDG_AUD_GRANTED then word a.audGranted
  else if off = R.LDG_AUD_CONSUMED then word a.audConsumed
  else if off = R.LDG_AUD_REFUNDED then word a.audRefunded
  else if off = R.LDG_AUD_EXPIRED then wordI a.audExpired
  else if off = R.LDG_HOLDQ then word s.heldJobs.length
  else if off = R.LDG_PLANSTAT then word (s.ledger.actSlot + b2n s.ledger.swapPending * 2 + (if s.ledger.planActive then (s.slot s.ledger.actSlot).length else 0) * 4 +
      (s.slot (1 - s.ledger.actSlot)).length * 8192)
  else s.rd off

/-- A Frond waits for the other members of the gang of its first job (R95). -/
def State.waitGang (s : State) (k : Nat) : Bool :=
  (s.runningOn k).isNone && (match firstJob (s.jobs.filter (fun j => decide (j.st = .queued) && j.onFrond k)) with
    | some j => decide (1 < j.gang) && (s.startable k).isNone
    | none => false)

/-- FRDn_QSTAT, FRDn_CUR and FRDn_PROG (R119). -/
def State.liveFrd (s : State) (off : Nat) : Word :=
  let k := idx off 0x40000 0x1000
  let base := word (s.depth k + b2n (s.waitGang k) * 64 +
    (s.jobs.filter (fun j => decide (j.st = .carried) && j.onFrond k)).length * 65536)
  match off - k * 0x1000 - 0x40000, s.runningOn k with
  | 0x00, some j => base + word (32 + j.cls * 256 + j.base * 2048 + bits (vw j.words 2) 25 24 * 16384)
  | 0x00, none => base
  | 0x04, some j => half false j.vjd
  | 0x08, some j => word (j.vjd / 2 ^ 32 % 65536 + 2 ^ 31)
  | 0x0C, some j => word j.ri
  | _, _ => s.rd off

/-- STMn_STAT and STMn_PC (R209). -/
def State.liveStm (s : State) (off : Nat) : Word :=
  let t := idx off 0x100000 0x100
  let h := s.thr t
  match off - t * 0x100 - 0x100000 with
  | 0x0C => s.stmStat t
  | 0x10 => h.pc
  | _ => s.rd off

/-- The trap and interrupt controller's registers (R236, R237, R244). -/
def State.liveTrp (s : State) (off : Nat) : Word :=
  let r := off - 0x140000
  if r < 0x200 then setFld (s.rd off) 16 16 (b2n (s.sourcePending (r / 4)))
  else if 0x220 ≤ r ∧ r < 0x240 then setFld (s.rd off) 6 2 (s.thr ((r - 0x220) / 4)).vjq.length
  else if 0x240 ≤ r ∧ r < 0x280 then
    match (s.thr ((r - 0x240) / 8)).vjq with
    | [] => 0
    | (a, c) :: _ => if r % 8 = 0 then half false a else word (a / 2 ^ 32 % 65536 + c % 256 * 65536 + 2 ^ 31)
  else if off = R.TRP_STAT then
    setFld (setFld (s.rd off) 7 0 ((List.range 8).foldl (fun m t => m + b2n (decide ((s.thr t).st = .locked)) * 2 ^ t) 0)) 8 8
      (b2n s.power.lockupN)
  else if 0x2C0 ≤ r then
    word ((List.range 32).foldl (fun m i => m + b2n (s.sourcePending ((r - 0x2C0) / 4 * 32 + i)) * 2 ^ i) 0)
  else s.rd off

/-- The plan entry that SPC_PLANSEL names (R258). -/
def State.planEntrySel (s : State) : PlanEntry := (s.slot (s.f R.SPC_PLANSEL 16 16)).getD (s.f R.SPC_PLANSEL 9 0) {}

/-- SPC_PLANPEND and SPC_TIi_STAT.NOROUTE (R252, R258). -/
def State.liveSpc (s : State) (off : Nat) : Word :=
  if off = R.SPC_PLANPEND then word (s.planEntrySel.pend + b2n s.planEntrySel.ovf * 256)
  else if R.SPC_TI_STAT 152 ≤ off ∧ off ≤ R.SPC_TI_STAT 183 ∧ (off - R.SPC_TI_STAT 0) % 0x20 = 0 then
    let i := idx off (R.SPC_TI_STAT 0) 0x20
    setFld (s.rd off) 9 9 (b2n (decide (0 < s.pend i) && !s.remoteReady i))
  else s.rd off

/-- The account registers of a Lichen port (R300, R321), and the UID. -/
def State.liveLichen (s : State) (off : Nat) : Word :=
  if off < R.FAB_CTL then
    let p := idx off (R.LNK_CTL 0) 0x1000
    let a := (s.lnk p).vc.get (s.f (R.LNK_VCSEL p) 1 0)
    match off - R.LNK_CTL p with
    | 0x20 => word a.cr
    | 0x24 => word a.tx
    | 0x28 => word a.rxc
    | 0x2C => word a.rx
    | 0x30 => word a.ret
    | 0x34 => word (a.occ % 65536 + a.pend % 65536 * 65536)
    | _ => s.rd off
  else if off = R.FAB_UID_LO then half false Config.otpUid.toNat
  else if off = R.FAB_UID_HI then half true Config.otpUid.toNat
  else s.rd off

/-- ETHe_STAT.SLAVE: the slave port changes as Syncs lapse (R261). -/
def State.liveEth (s : State) (off : Nat) : Word :=
  let e := (off - R.ETH_CTL 0) / 0x10000
  if off = R.ETH_STAT e then setFld (s.rd off) 5 5 (b2n (s.ptpOn e && s.slavePort == e)) else s.rd off

/-- Registers that OTP and the update engine show (R367, R383). -/
def State.liveUpd (s : State) (off : Nat) : Word :=
  if off = R.UPD_ARB then word s.arbCount
  else if off = R.UPD_KEYID then word Config.otpKeyId.toNat
  else if R.UPD_ROOTHASH 0 ≤ off ∧ off ≤ R.UPD_ROOTHASH 11 then word (Config.otpRootHash.toNat / 2 ^ (8 * (off - R.UPD_ROOTHASH 0)))
  else s.rd off

/-- What a register shows now, beside its stored value. -/
def State.live (s : State) (off : Nat) : Word :=
  match off / 0x10000 with
  | 0 =>
    if off = R.GLB_ID then word (0x7200 + Config.otpRev.toNat * 65536 + b2n Config.otpGradeX * 2 ^ 24)
    else if off = R.GLB_GPIO_OUTSET ∨ off = R.GLB_GPIO_OUTCLR then s.rd R.GLB_GPIO_OUT
    else s.rd off
  | 2 => s.liveLdg off
  | 4 => s.liveFrd off
  | 16 => s.liveStm off
  | 20 => s.liveTrp off
  | 24 => s.liveSpc off
  | 32 => s.liveEth off
  | 33 => s.liveEth off
  | 36 => if off = R.FIU_RSTATE then (let r := s.rule (s.f R.FIU_RSEL 13 0); word (b2n r.asserted + r.acts % 65536 * 65536)) else s.rd off
  | 40 => s.liveLichen off
  | 52 => s.liveUpd off
  | 68 => if off = R.TB_LO then half false s.ns else if off = R.TB_HI then half true s.ns else s.rd off
  | _ => s.rd off

/-! ### Reads (R4, R7, R412) -/

/-- The low words of 64-bit quantities (R7); the high word follows each. -/
def pairLow (off : Nat) : Bool :=
  let strided := fun (base stride n : Nat) => decide (base ≤ off) && (off - base) % stride == 0 && decide ((off - base) / stride < n)
  off == R.LDG_FRAME_LO || strided (R.DDR_ERRLOG_LO 0) 0x1000 12 || off == R.MTX_ERRADDR_LO || strided (R.FRD_CUR_LO 0) 0x1000 8 ||
  strided (R.FRD_FLTVJD_LO 0) 0x1000 8 || off == R.STM_DTBASE_LO || strided (R.TRP_VJF_LO 0) 8 8 ||
  strided (R.ETH_MAC_LO 0) 0x10000 2 || strided (R.ETH_GCLBASE_LO 0) 0x10000 2 || strided (R.LNK_PEERUID_LO 0) 0x1000 4 ||
  off == R.FAB_UID_LO || off == R.FAB_DFRAME_LO || off == R.FAB_DIG_LO || off == R.FAB_PEERDIG_LO ||
  (decide (R.FAB_ATOM_ADDR_LO 0 ≤ off) && decide (off < R.FAB_ATOM_ADDR_LO 8) &&
    ((off - R.FAB_ATOM_ADDR_LO 0) % 0x40 == 0 || (off - R.FAB_ATOM_ADDR_LO 0) % 0x40 == 8 || (off - R.FAB_ATOM_ADDR_LO 0) % 0x40 == 0x10 ||
      (off - R.FAB_ATOM_ADDR_LO 0) % 0x40 == 0x1C)) ||
  off == R.HIF_WINADDR_LO || off == R.DBG_TRCBASE_LO || off == R.TB_LO || strided (R.PMC_LO 0) 0x20 64 ||
  strided (R.PMC_SNAP_LO 0) 0x20 64 || strided (R.PMC_BW_LO 0) 8 48

/-- The value latched for a requester's next read of a high word. -/
def State.latched (s : State) (who off : Nat) : Option Word :=
  (s.latches.find? (fun l => l.1 == who && l.2.1 == off)).map (fun l => l.2.2)

/-- A requester's latch of a high word set, or taken. -/
def State.setLatch (s : State) (who off : Nat) (v : Option Word) : State :=
  let rest := s.latches.filter (fun l => !(l.1 == who && l.2.1 == off))
  { s with latches := match v with
    | some x => (who, off, x) :: rest
    | none => rest }

/-- A read clears the RC bits of a register but for what the events of the same clk brought (R6); a read of TRP_VJFn_LO removes
the oldest entry (R4, R244). -/
def State.readSide (s : State) (r : RegRow) (off : Nat) : State :=
  if R.TRP_VJF_LO 0 ≤ off ∧ off < R.TRP_VJF_LO 8 then
    (if off % 8 = 0 then s.onThr (idx off (R.TRP_VJF_LO 0) 8) (fun h => { h with vjq := h.vjq.drop 1 }) else s)
  else if r.rc = 0 then s
  else s.setReg off ((s.rd off &&& ~~~ BitVec.ofNat 32 r.rc) ||| (s.fresh off &&& BitVec.ofNat 32 r.rc))

/-- What a read of a register returns of a value: its RC bits as they stood before the events of this clk (R6). -/
def State.readOut (s : State) (r : RegRow) (off : Nat) (v : Word) : Word :=
  if r.rc = 0 ∨ (R.TRP_VJF_LO 0 ≤ off ∧ off < R.TRP_VJF_LO 8) then v
  else (v &&& ~~~ BitVec.ofNat 32 r.rc) ||| (s.before off &&& BitVec.ofNat 32 r.rc)

/-- The bits of a row that a read returns: all but the write-only ones. -/
def RegRow.readable (r : RegRow) : Nat := r.rw ||| r.w1c ||| r.w1s ||| r.rc ||| r.wl ||| r.ro

/-- A read of a described register by a requester (R4, R7): `quiet` leaves its side effects out (R412). -/
def State.readReg (s : State) (r : RegRow) (who off : Nat) (quiet : Bool) (v : Word) : State × Word :=
  match s.latched who off with
  | some x => (s.setLatch who off none, x)
  | none =>
    let s1 : State := if pairLow off then s.setLatch who (off + 4) (some (s.live (off + 4))) else s
    (if quiet then s1 else s1.readSide r off, s.readOut r off v &&& BitVec.ofNat 32 r.readable)

/-- An inbound fabric request reaches control space only with Machine origin (R50). -/
def State.ctlOpen (s : State) (o : Origin) : Bool :=
  match o with
  | .lichen m => m
  | .debug => decide (1 ≤ s.dbgLevel)
  | .thread _ => true

/-- A read in control space (R51): an aligned word of a described register. Without authorisation the debug port reads only
the registers of R400; the nonce and response words are for it alone; FAB_ATOMn RES_LO waits while BUSY. -/
def State.csRead (s : State) (o : Origin) (off size : Nat) : State × CtlRes :=
  if s.ctlOpen o = false ∧ !(o == .debug && openReg off) then (s, .err 5)
  else if size ≠ 4 ∨ off % 4 ≠ 0 then (s, .err 2)
  else match regRow off with
    | none => (s, .err 0)
    | some r =>
      let secret := decide (R.DBG_NONCE 0 ≤ off) && decide (off ≤ R.DBG_RESP 7)
      let busy := decide (R.FAB_ATOM_RES_LO 0 ≤ off) && (off - R.FAB_ATOM_RES_LO 0) % 0x40 == 0 && decide (off < R.FAB_ATOM_RES_LO 8) &&
        s.b (R.FAB_ATOM_CTL (idx off (R.FAB_ATOM_RES_LO 0) 0x40)) 4
      if secret ∧ o ≠ .debug then (s, .err 5)
      else if busy then (s, .wait)
      else if off = R.DBG_TREG then
        (match s.tregRead o with
          | some v => (s, .ok v)
          | none => (s, .err (if s.mayName o (s.f R.DBG_TSEL 2 0) then 7 else 5)))
      else
        let v := if R.MBX_RES 0 0 ≤ off ∧ off < R.HIF_AP 0 ∧ 0x88 ≤ off % 0x100 then
            s.stagingWord (idx off (R.MBX_CMD 0 0) 0x100) ((off % 0x100 - 0x88) / 4)
          else s.live off
        let (s1, x) := s.readReg r (originRequester o) off (o == .debug && s.b R.DBG_CTL 0) v
        (s1, .ok x)

/-! ### Writes: the access codes (R4, R5) -/

/-- Every bit that a row describes. -/
def RegRow.known (r : RegRow) : Nat := r.readable ||| r.wo

/-- A write under the access codes: RW bits take the value, W1C ones clear, W1S ones set; the first write of a WL field sets and
locks it (R4). The events of the same clk prevail (R6). -/
def State.plain (s : State) (r : RegRow) (off : Nat) (v : Word) : State :=
  let rw : Word := BitVec.ofNat 32 r.rw
  let w1c : Word := v &&& BitVec.ofNat 32 r.w1c &&& ~~~ s.fresh off
  let s1 := s.soft off ((((s.rd off &&& ~~~ rw) ||| (v &&& rw)) &&& ~~~ w1c) ||| (v &&& BitVec.ofNat 32 r.w1s))
  if r.wl = 0 ∨ s1.locked.contains off = true then s1
  else
    let wl : Word := BitVec.ofNat 32 r.wl
    { s1.setReg off ((s1.rd off &&& ~~~ wl) ||| (v &&& wl)) with locked := off :: s1.locked }

/-- A write refused with a CAUSE when a condition holds. -/
def refuseIf (c : Bool) (cause : Nat) (s : State) (k : State × Option Nat) : State × Option Nat := if c then (s, some cause) else k

/-! ### Writes: block by block -/

/-- Ledger (R21, R46). -/
def State.writeLdg (s : State) (r : RegRow) (off : Nat) (v : Word) : State × Option Nat :=
  let cfg := off == R.LDG_CTL || off == R.LDG_PERIOD || off == R.LDG_TCUT || off == R.LDG_TDL || off == R.LDG_TOUT || off == R.LDG_ASPHASE
  refuseIf (cfg && !s.inConfig) 7 s
  (refuseIf (off == R.LDG_RESSEL && !acctAssigned (fld v 7 0)) 7 s
  (refuseIf (off == R.LDG_VCSHARE && decide (15 < fld v 3 0 + fld v 7 4 + fld v 11 8)) 7 s
  (if off = R.LDG_CTL then (s.writeLdgCtl v, none) else (s.plain r off v, none))))

/-- Fronds (R117, R119). -/
def State.writeFrd (s : State) (r : RegRow) (off : Nat) (v : Word) : State × Option Nat :=
  let k := idx off 0x40000 0x1000
  let s1 := s.plain r off v
  (if off = R.FRD_CTL k ∧ v.getLsbD 1 = true then s1.flushQueue k else s1, none)

/-- Banks (R58, R80, R441). -/
def State.writeBank (s : State) (r : RegRow) (off : Nat) (v : Word) : State × Option Nat :=
  let b := idx off (R.BANK_PWR 0) 0x100
  let st := fld v 1 0
  let change := st != s.f (R.BANK_PWR b) 1 0
  let bad := st == 3 || fld v 3 2 == 3 || (change && !s.inConfig) || (b == 16 && (st != 0 || fld v 3 2 == 2)) ||
    (b == 17 && change && st != 0 && s.io.streams.any (fun e => e.2.kind != 0))
  refuseIf (off == R.BANK_PWR b && bad) 7 s (s.plain r off v, none)

/-- DDR5 (R69, R80). -/
def State.writeDdr (s : State) (r : RegRow) (off : Nat) (v : Word) : State × Option Nat :=
  if off < R.DDRC_CFG ∧ off % 0x1000 = 0 then (s.writeDdrCtl (idx off (R.DDR_CTL 0) 0x1000) v, none) else (s.plain r off v, none)

/-- Matrix (R73, R80). -/
def State.writeMtx (s : State) (r : RegRow) (off : Nat) (v : Word) : State × Option Nat :=
  refuseIf (off == R.MTX_AGE && decide (fld v 15 0 < 64)) 7 s (s.plain r off v, none)

/-- The answers received by what waits for one: an instruction, a mailbox command, or a register write. -/
def State.ctlAns (s : State) : List RemoteAnswer :=
  (List.range 8).flatMap (fun t => match (s.thr t).remote with | some r => r.answers | none => []) ++
    s.host.answers.flatMap (fun e => e.2) ++ s.ctlWaits.flatMap (fun w => w.answers)

/-- Stem (R209). -/
def State.writeStm (s : State) (o : Origin) (r : RegRow) (off : Nat) (v : Word) : State × Option Nat :=
  let t := idx off 0x100000 0x100
  let mo := off == R.STM_CTL 0 || off == R.STM_CTL 1 || off == R.STM_DTBASE_LO || off == R.STM_DTBASE_HI || off == R.STM_DTCOUNT
  let pl := fld v 5 4
  refuseIf (mo && !s.machineOrigin o) 5 s
  (if 8 ≤ t then refuseIf (off == R.STM_DTCOUNT && decide (8192 < fld v 13 0)) 7 s (s.plain r off v, none)
  else if off = R.STM_CTL t then
    refuseIf (pl == 2 || (pl == 3 && decide (2 ≤ t))) 7 s (s.writeStmCtl s.ctlAns t v, none)
  else refuseIf (off == R.STM_ENTRY t && fld v 1 0 != 0) 7 s (s.plain r off v, none))

/-- A trap segment register (R225, R226): a non-null selector reads and checks its descriptor, which is cached. -/
def State.writeTrapSeg (s : State) (off : Nat) (v : Word) (pl : Nat) (code : Bool) (g : State → SegDesc → State) : State × Option Nat :=
  let sel := fld v 15 0
  if sel = 0 then ((g s {}).setReg off 0, none)
  else match s.engineSeg s.ctlAns sel pl code with
    | (s1, some d) => if code || (d.r && d.w) then ((g s1 d).setReg off v, none) else (s1, some 7)
    | (s1, none) => (s1, some 7)

/-- Trap and interrupt controller (R221, R244). -/
def State.writeTrp (s : State) (o : Origin) (r : RegRow) (off : Nat) (v : Word) : State × Option Nat :=
  if s.machineOrigin o = false then (s, some 5)
  else if off = R.TRP_MTVS then s.writeTrapSeg off v 3 true (fun s d => { s with mtvs := d })
  else if off = R.TRP_STVS then s.writeTrapSeg off v 1 true (fun s d => { s with stvs := d })
  else if off = R.TRP_MSTK then s.writeTrapSeg off v 3 false (fun s d => { s with mstk := d })
  else if off = R.TRP_SSTK then s.writeTrapSeg off v 1 false (fun s d => { s with sstk := d })
  else (s.plain r off v, none)

/-- The FLAG or LOOP bits of 32 channels that a writer may clear (R255). -/
def State.clearable (s : State) (o : Origin) (m : Nat) (v : Word) : Word :=
  BitVec.ofNat 32 ((List.range 32).foldl (fun a i => if v.getLsbD i && s.chanRights o (32 * m + i) then a + 2 ^ i else a) 0)

/-- Spore channels (R246, R250, R255, R256). -/
def State.writeSpc (s : State) (o : Origin) (r : RegRow) (off : Nat) (v : Word) : State × Option Nat :=
  let mo := s.machineOrigin o
  if off < R.SPC_CTL then
    let n := idx off (R.CH_CFG 0) 0x40
    if off = R.CH_CFG n then refuseIf (!mo) 5 s (refuseIf (fld v 1 0 == 3) 7 s (s.produceNow.plain r off v, none))
    else if off < R.CH_CNT n then
      refuseIf (!s.chanRights o n) 5 s (refuseIf (!spcKinds.contains (fld v 7 0)) 7 s (s.produceNow.plain r off v, none))
    else (s, none)
  else if off = R.SPC_CTL then refuseIf (!mo) 5 s (refuseIf (fld v 3 0 == 0) 7 s (s.plain r off v, none))
  else if off = R.SPC_TRIG then refuseIf (!s.chanRights o (fld v 7 0)) 5 s (s.softTrigger (fld v 7 0), none)
  else if off = R.SPC_STAT then (if mo then s.plain r off v else s, none)
  else if R.SPC_FLAG 0 ≤ off ∧ off < R.SPC_FLAG 8 then (s.plain r off (s.clearable o (idx off (R.SPC_FLAG 0) 4) v), none)
  else if R.SPC_LOOP 0 ≤ off ∧ off < R.SPC_LOOP 8 then (s.plain r off (s.clearable o (idx off (R.SPC_LOOP 0) 4) v), none)
  else if off = R.SPC_PLANSEL then refuseIf (!mo) 5 s (s.plain r off v, none)
  else if off = R.SPC_PLANPEND then
    (if mo && v.getLsbD 8 then s.onEntry (s.f R.SPC_PLANSEL 16 16) (s.f R.SPC_PLANSEL 9 0) (fun e => { e with ovf := false }) else s, none)
  else if R.SPC_TI_CFG 0 ≤ off then
    let i := idx off (R.SPC_TI_CFG 0) 0x20
    if 186 ≤ i then (s, some 7)
    else if off = R.SPC_TI_CFG i then
      refuseIf (!s.inputRights o i (fld v 7 0) || (v.getLsbD 9 && !mo)) 5 s (s.plain r off v, none)
    else if off = R.SPC_TI_STAT i then (if s.inputRights o i (s.f (R.SPC_TI_CFG i) 7 0) then s.plain r off v else s, none)
    else (s, none)
  else (s.plain r off v, none)

/-- Ethernet ports (R260, R261, R262, R289). -/
def State.writeEth (s : State) (r : RegRow) (off : Nat) (v : Word) : State × Option Nat :=
  let e := (off - R.ETH_CTL 0) / 0x10000
  let x := off - R.ETH_CTL e
  let fec := fld v 3 2
  let admin := (decide (0x24 ≤ x) && decide (x ≤ 0x2C)) || decide (0x400 ≤ x)
  refuseIf ((x == 0x00 || x == 0x18) && !s.inConfig) 7 s
  (refuseIf (x == 0x00 && (fec == 3 || (fec == 2 && fld v 1 0 == 3))) 7 s
  (refuseIf (x == 0x1C && fld v 4 1 == 0) 7 s
  (refuseIf (admin && s.b (R.ETH_GCLCTL e) 10) 7 s
  (refuseIf (decide (0x400 ≤ x) && fld v 31 8 == 0) 7 s
  (refuseIf (x == 0x30 && decide (256 < fld v 8 0)) 7 s
  (if x = 0x00 then (s.writeEthCtl e v, none)
  else if x = 0x1C then ((s.plain r off v).showSync, none)
  else if x = 0x30 then (s.writeGclCtl e v, none)
  else (s.plain r off v, none)))))))

/-- Sorter, Signal Image, FIU and Composer (R275, R289). -/
def State.writeIob (s : State) (r : RegRow) (off : Nat) (v : Word) : State × Option Nat :=
  let cfg := off == R.ING_CTL || off == R.FIU_CTL || off == R.EGR_CTL || (off == R.SIM_CTL && v.getLsbD 0)
  refuseIf (cfg && !s.inConfig) 7 s
  (if off = R.SIM_CTL then (if v.getLsbD 0 then s.flipImage else s, none) else (s.plain r off v, none))

/-- A GO of FAB_ATOMn (R310): the CAUSE of its bus error, or the request leaves; an own-window atomic is an inbound request,
which the server performs. -/
def State.atomGo (s : State) (o : Origin) (n : Nat) (v : Word) : State × Option Nat :=
  let a := (s.rd (R.FAB_ATOM_ADDR_LO n)).toNat + s.f (R.FAB_ATOM_ADDR_HI n) 15 0 * 2 ^ 32
  let size8 := v.getLsbD 2
  let z := if size8 then 8 else 4
  match s.locate a with
  | .remote d x =>
    if a % z ≠ 0 then (s, some 7)
    else if s.remoteOk d = false then (s, some 1)
    else
      let opnd := leBytes 4 (s.rd (R.FAB_ATOM_OPND_LO n)).toNat ++ leBytes 4 (s.rd (R.FAB_ATOM_OPND_HI n)).toNat
      let cmp := leBytes 4 (s.rd (R.FAB_ATOM_CMP_LO n)).toNat ++ leBytes 4 (s.rd (R.FAB_ATOM_CMP_HI n)).toNat
      let op := fld v 1 0
      let data := if op = 2 then cmp.take z ++ opnd.take z else opnd.take z
      let s1 := s.setB (R.FAB_ATOM_CTL n) 4 true
      (s1.atomSend n d x op size8 data (s.machineOrigin o), none)
  | _ => (s, some 7)

/-- Lichen ports, domain and remote atomics (R291, R302, R310, R321). -/
def State.writeLichen (s : State) (o : Origin) (r : RegRow) (off : Nat) (v : Word) : State × Option Nat :=
  let mo := s.machineOrigin o
  if R.FAB_ATOM_ADDR_LO 0 ≤ off ∧ off < R.FAB_ATOM_ADDR_LO 8 then
    let n := idx off (R.FAB_ATOM_ADDR_LO 0) 0x40
    refuseIf (!(mo || (match o with | .thread t => t.val == n | _ => false))) 5 s
    (if off = R.FAB_ATOM_CTL n then
      refuseIf (fld v 1 0 == 3 || (v.getLsbD 3 && s.b off 4)) 7 s
      (if v.getLsbD 3 then
        (match (s.plain r off v).atomGo o n v with
          | (s1, none) => (s1, none)
          | (_, some c) => (s, some c))
      else (s.plain r off v, none))
    else (s.plain r off v, none))
  else if mo = false then (s, some 5)
  else if off < R.FAB_CTL then
    let p := idx off (R.LNK_CTL 0) 0x1000
    if off = R.LNK_CTL p then
      refuseIf (fld v 1 0 == 3 || fld v 15 8 == 0 || (fld v 1 0 != s.f off 1 0 && !s.inConfig)) 7 s (s.writeLnkCtl p v, none)
    else (s.plain r off v, none)
  else if off = R.FAB_CTL then refuseIf (!s.inConfig || fld v 2 1 == 2) 7 s (s.writeFabCtl v, none)
  else if off = R.FAB_WITNESS then refuseIf (fld v 1 0 == 3) 7 s (s.plain r off v, none)
  else if off = R.FAB_TICKLAT then refuseIf (decide (fld v 15 0 < 100)) 7 s (s.plain r off v, none)
  else if off = R.FAB_RSPTO then refuseIf (fld v 15 0 == 0) 7 s (s.plain r off v, none)
  else if off = R.FAB_TWIN then refuseIf (!s.inConfig) 7 s (s.writeTwin v, none)
  else (s.plain r off v, none)

/-- Host interface from control space (R338, R360). -/
def State.writeHif (s : State) (o : Origin) (r : RegRow) (off : Nat) (v : Word) : State × Option Nat :=
  if s.machineOrigin o = false then (s, some 5)
  else if off < R.HIF_AP 0 then
    let n := idx off (R.MBX_CMD 0 0) 0x100
    if off = R.MBX_PUB n then (if s.inProgress n then (s.publish n (fld v 7 0), none) else (s, some 7))
    else if R.MBX_RES n 0 ≤ off then (s.setStaging n ((off - R.MBX_RES n 0) / 4) v, none)
    else if off = R.MBX_DBSTAT n then (s.plain r off v, none)
    else (s, none)
  else if off = R.HIF_MSIREQ then (s.msiRequest (fld v 3 0), none)
  else (s.plain r off v, none)

/-- Update engine (R367, R368, R383). -/
def State.writeUpd (s : State) (o : Origin) (r : RegRow) (off : Nat) (v : Word) : State × Option Nat :=
  if s.machineOrigin o = false then (s, some 5)
  else if off = R.UPD_FUSE then s.writeFuse v
  else (s.plain r off v, none)

/-- Self-test (R397). -/
def State.writeBst (s : State) (o : Origin) (r : RegRow) (off : Nat) (v : Word) : State × Option Nat :=
  if s.machineOrigin o = false then (s, some 5)
  else refuseIf (off == R.BST_CTL && !s.inConfig) 7 s (s.plain r off v, none)

/-- Debug (R400-R407, R413-R415, R418). -/
def State.writeDbg (s : State) (o : Origin) (r : RegRow) (off : Nat) (v : Word) : State × Option Nat :=
  if R.DBG_SP 0 ≤ off then s.writeStim o (idx off (R.DBG_SP 0) 4) v
  else if off = R.DBG_AUTH then s.writeAuth o v
  else if R.DBG_RESP 0 ≤ off ∧ off ≤ R.DBG_RESP 7 then
    refuseIf (o != .debug) 5 s (s.onDbg (fun d => { d with resp := sput (fun _ => 0) d.resp (idx off (R.DBG_RESP 0) 4) v }), none)
  else if R.DBG_NONCE 0 ≤ off ∧ off ≤ R.DBG_NONCE 7 then refuseIf (o != .debug) 5 s (s, none)
  else if s.debugRights o = false then (s, some 5)
  else if off = R.DBG_HALT then s.writeHalt o v
  else if off = R.DBG_RESUME then s.writeResume o v
  else if off = R.DBG_STEP then s.writeStep o v
  else if off = R.DBG_TREG then s.tregWrite s.ctlAns o v
  else if off = R.DBG_XMASK then (s.setReg off (v &&& (if s.machineOrigin o then 0xFFFF else 0xFC)), none)
  else if off = R.DBG_TSEL then refuseIf (decide (19 < fld v 7 3)) 7 s (s.plain r off v, none)
  else if off = R.DBG_TRCCTL then s.writeTrcCtl v
  else if off = R.DBG_TRCSIZE then refuseIf (fld v 5 0 != 0 || decide (v.toNat < 4096)) 7 s (s.plain r off v, none)
  else (s.plain r off v, none)

/-- Performance counters (R419, R421, R422, R424, R425). -/
def State.writePmc (s : State) (o : Origin) (r : RegRow) (off : Nat) (v : Word) : State × Option Nat :=
  let n := idx off (R.PMC_CFG 0) 0x20
  if s.debugRights o = false then (s, some 5)
  else if off = R.PMC_CTL then (s.writePmcCtl v, none)
  else if off = R.PMC_BWCTL then s.writeBwCtl v
  else if R.PMC_CTL ≤ off then (s.plain r off v, none)
  else if off = R.PMC_CFG n then refuseIf (!pmcCfgOk v) 7 s (s.plain r off v, none)
  else if off = R.PMC_LO n then s.writePmcCount n false v 0
  else if off = R.PMC_HI n then s.writePmcCount n true v 0
  else (s.plain r off v, none)

/-- Watchdog, timebase and timers (R409, R417, R418). -/
def State.writeWdg (s : State) (o : Origin) (r : RegRow) (off : Nat) (v : Word) : State × Option Nat :=
  if off = R.WDG_SVC then s.writeWdgSvc o v
  else if R.TMR_CTL 0 ≤ off then
    let n := idx off (R.TMR_CTL 0) 0x10
    refuseIf (!(s.supervisorOrigin o || s.debugRights o)) 5 s
    (if off = R.TMR_CTL n then s.writeTmrCtl n v else (s.plain r off v, none))
  else if s.debugRights o = false then (s, some 5)
  else if off = R.WDG_CTL then (s.writeWdgCtl v, none)
  else if off = R.WDG_PERIOD then
    refuseIf (s.b R.WDG_CTL 0 || decide (fld v 23 0 < 1000) || decide (10000000 < fld v 23 0)) 7 s (s.plain r off v, none)
  else (s.plain r off v, none)

/-- Power (R431, R432, R437, R444, R448). -/
def State.writePwr (s : State) (o : Origin) (r : RegRow) (off : Nat) (v : Word) : State × Option Nat :=
  let limits := s.inConfig && decide (fld v 7 0 ≤ fld v 15 8) && decide (fld v 7 0 ≤ fld thermDefault 7 0) &&
    decide (fld v 15 8 ≤ fld thermDefault 15 8)
  if s.machineOrigin o = false then (s, some 5)
  else if off = R.PWR_MODEREQ then s.writeModeReq v
  else if off = R.PWR_RST then s.writeRst v
  else if off = R.PWR_CLKDIV then s.writeClkDiv v
  else refuseIf (off == R.PWR_THERM && !limits) 7 s (s.plain r off v, none)

/-- Global registers (R49, R471): OUT, OUTSET and OUTCLR write one field. -/
def State.writeGlb (s : State) (o : Origin) (r : RegRow) (off : Nat) (v : Word) : State × Option Nat :=
  let out := s.rd R.GLB_GPIO_OUT
  refuseIf (decide (R.GLB_GPIO_DIR ≤ off) && !s.supervisorOrigin o) 5 s
  (if off = R.GLB_GPIO_OUTSET then ((s.soft R.GLB_GPIO_OUT (out ||| v)).driveGpio, none)
  else if off = R.GLB_GPIO_OUTCLR then ((s.soft R.GLB_GPIO_OUT (out &&& ~~~ v)).driveGpio, none)
  else if off = R.GLB_GPIO_OUT ∨ off = R.GLB_GPIO_DIR then ((s.plain r off v).driveGpio, none)
  else (s.plain r off v, none))

/-- A write of a described register by its block. -/
def State.writeBlock (s : State) (o : Origin) (r : RegRow) (off : Nat) (v : Word) : State × Option Nat :=
  match off / 0x10000 with
  | 0 => s.writeGlb o r off v
  | 1 => s.writePwr o r off v
  | 2 => s.writeLdg r off v
  | 4 => s.writeFrd r off v
  | 8 => s.writeBank r off v
  | 9 => s.writeDdr r off v
  | 12 => s.writeMtx r off v
  | 16 => s.writeStm o r off v
  | 20 => s.writeTrp o r off v
  | 24 => s.writeSpc o r off v
  | 32 => s.writeEth r off v
  | 33 => s.writeEth r off v
  | 36 => s.writeIob r off v
  | 40 => s.writeLichen o r off v
  | 48 => s.writeHif o r off v
  | 52 => s.writeUpd o r off v
  | 56 => s.writeBst o r off v
  | 60 => s.writeDbg o r off v
  | 64 => s.writePmc o r off v
  | _ => s.writeWdg o r off v

/-- The bits that a write may carry as 1: those described (R5). Writes under the rights of R255 and R409 come to their own
rules first; OUTSET and OUTCLR take the field's bits. -/
def RegRow.accepts (r : RegRow) (v : Word) : Bool := (v &&& ~~~ BitVec.ofNat 32 r.known) == 0

/-- The writer has the rights that a whole block asks of it (R50, R244, R321, R360, R383, R397, R448). -/
def State.blockRights (s : State) (o : Origin) (off : Nat) : Bool :=
  let b := off / 0x10000
  if b = 1 ∨ b = 20 ∨ b = 48 ∨ b = 52 ∨ b = 56 then s.machineOrigin o else true

/-- A write in control space (R51, R79): the CAUSE of its bus error, or none. -/
def State.csWrite (s : State) (o : Origin) (off size : Nat) (v : Word) : State × Option Nat :=
  if s.ctlOpen o = false ∧ !(o == .debug && openReg off) then (s, some 5)
  else if size ≠ 4 ∨ off % 4 ≠ 0 then (s, some 2)
  else match regRow off with
    | none => (s, some 0)
    | some r =>
      if s.blockRights o off = false then (s, some 5)
      else if r.accepts v = false then (s, some 7)
      else s.writeBlock o r off v

/-- The selector whose descriptor a write reads before it completes (R209, R225, R226, R407). -/
def State.descOf (s : State) (o : Origin) (off : Nat) (v : Word) : Option Nat :=
  let t := idx off (R.STM_CTL 0) 0x100
  if off = R.TRP_MTVS ∨ off = R.TRP_STVS ∨ off = R.TRP_MSTK ∨ off = R.TRP_SSTK then
    (if s.machineOrigin o ∧ fld v 31 16 = 0 then some (fld v 15 0) else none)
  else if off = R.DBG_TREG then
    (let n := s.f R.DBG_TSEL 7 3
      let k := s.f R.DBG_TSEL 2 0
      if s.mayName o k ∧ (s.thr k).st = .halted ∧ 8 ≤ n ∧ n < 16 ∧ v.toNat ≤ 65535 then some v.toNat else none)
  else if t < 8 ∧ off = R.STM_CTL t then
    (let pl := fld v 5 4
      let ok := (s.machineOrigin o || decide (2 ≤ t)) && pl != 2 && (pl != 3 || decide (t < 2)) &&
        (match regRow off with | some r => (v &&& ~~~ BitVec.ofNat 32 (r.rw ||| r.w1s ||| r.wo ||| r.ro)) == 0 | none => false)
      if ok ∧ v.getLsbD 0 ∧ v.getLsbD 1 = false ∧ (s.thr t).st = .stopped then some (s.f (R.STM_CSEL t) 15 0) else none)
  else none

/-- The remote read for which a write waits first: device, offset and address of the descriptor. -/
def State.descAsk (s : State) (o : Origin) (off : Nat) (v : Word) : Option (Nat × Nat × Nat) :=
  match s.descOf o off v with
  | none => none
  | some sel =>
    if s.selOk sel = false then none
    else match s.locate (s.descAddr sel) with
      | .remote d x =>
        if s.remoteOk d = true ∧ s.ownId ≠ some d ∧ answerOf s.ctlAns (s.descAddr sel) 16 false = none then
          some (d, x, s.descAddr sel)
        else none
      | _ => none

/-! ### The host's BAR0 (R329, R360) -/

/-- A word of a mailbox or host register as the host reads it: the published results, and 0 where the host's code is
write-only or the register is control space's. -/
def State.bar0Word (s : State) (x : Nat) : Word :=
  let off := 0x300000 + x
  if x < 0x1000 then
    let m := x % 0x100
    if m = 0x40 ∨ m = 0x48 then 0 else if (regRow off).isSome then s.rd off else 0
  else if x < 0x1060 then (if off = R.HIF_DBPEND ∨ off = R.HIF_MSIREQ then 0 else if (regRow off).isSome then s.live off else 0)
  else if 0x8000 ≤ x ∧ x < 0x8200 then s.msixWord ((x - 0x8000) / 4)
  else if x = 0x9000 then word s.host.msixPending
  else 0

/-- A host read of an aligned word of BAR0; the host is one requester of R7. -/
def State.bar0Read (s : State) (x : Nat) : State × Word :=
  match regRow (0x300000 + x) with
  | some r => if x < 0x1060 then s.readReg r 12 (0x300000 + x) true (s.bar0Word x) else (s, s.bar0Word x)
  | none => (s, s.bar0Word x)

/-- A host write of a command word (R337): discarded while the mailbox is in progress. -/
def State.commandWrite (s : State) (n w : Nat) (v : Word) : State :=
  if s.inProgress n then s.setB (R.MBX_DBSTAT n) 8 true else s.soft (R.MBX_CMD n w) v

/-- The effect of a host write of an aligned word of BAR0 (R329, R336, R337, R360). -/
def State.bar0Effect (s : State) (x : Nat) (v : Word) : State :=
  let off := 0x300000 + x
  if x < 0x1000 then
    let n := x / 0x100
    let m := x % 0x100
    if m < 0x40 then s.commandWrite n (m / 4) v
    else if m = 0x40 then s.ring n v
    else if m = 0x44 then s.clears off (v &&& 0x100)
    else s
  else if x < 0x1040 then (if s.b R.HIF_WINCTL 0 then s else s.soft off v)
  else if off = R.HIF_WINERR then s.clears off (v &&& 0x80000000)
  else if off = R.HIF_LINK then s.clears off (v &&& 0x20)
  else if 0x8000 ≤ x ∧ x < 0x8200 then s.writeMsix ((x - 0x8000) / 4) v
  else s

/-- A host write of an aligned word of BAR0. One with a 1 in a reserved bit of a register is a bus error and changes nothing
(R5, R79); at an offset with no register it is discarded (R329). -/
def State.bar0Write (s : State) (x : Nat) (v : Word) : State :=
  let off := 0x300000 + x
  match (if x < 0x1060 then regRow off else none) with
  | some r => if r.accepts v then s.bar0Effect x v else s.busError 12 30 true 7 (csBase + off)
  | none => s.bar0Effect x v

/-! ### One access -/

/-- A read by a path; accesses after it are of a later clk (R6). A BAR0 access is an aligned word; any other reads 0 (log 23). -/
def State.ctlRead (s : State) (p : Path) (off size : Nat) : State × CtlRes :=
  let (s1, r) := match p with
    | .control o => s.csRead o off size
    | .bar0 => if size = 4 ∧ off % 4 = 0 then (let (s1, v) := s.bar0Read off; (s1, .ok v)) else (s, .ok 0)
  (s1.accessDone, r)

/-- A write by a path; accesses after it are of a later clk (R6). A BAR0 write that is no aligned word is discarded (log 23). -/
def State.ctlWrite (s : State) (p : Path) (off size : Nat) (v : Word) : State × Option Nat :=
  let (s1, r) := match p with
    | .control o => s.csWrite o off size v
    | .bar0 => (if size = 4 ∧ off % 4 = 0 then s.bar0Write off v else s, none)
  (s1.accessDone, r)

end Sys2Proof.Machine
end

