-- ==== Sys2Proof/Machine/Flags.lean ====
section
/-! DEFINITION. The status bits of PSW (R183) and every flag computation of the Stem (R148, R149, R190, R205, R206). -/

namespace Sys2Proof.Machine

/-! ### PSW -/

/-- Bit C. -/
def pswC : Nat := 0
/-- Bit Z. -/
def pswZ : Nat := 1
/-- Bit N. -/
def pswN : Nat := 2
/-- Bit V. -/
def pswV : Nat := 3
/-- Bit DV. -/
def pswDV : Nat := 4
/-- Bit IE. -/
def pswIE : Nat := 8
/-- Bit DZE. -/
def pswDZE : Nat := 9
/-- Bit VTE. -/
def pswVTE : Nat := 10
/-- Bit DTE. -/
def pswDTE : Nat := 11
/-- Bit LA. -/
def pswLA : Nat := 15

/-- Bit i of a thread's PSW. -/
def Thread.flag (h : Thread) (i : Nat) : Bool := h.psw.getLsbD i

/-- Bit i of a thread's PSW set or cleared. -/
def Thread.setFlag (h : Thread) (i : Nat) (b : Bool) : Thread := { h with psw := setFld h.psw i i (b2n b) }

/-- The flags an instruction sets; none leaves a flag as it was. -/
structure Flags where
  c : Option Bool := none
  v : Option Bool := none
  z : Option Bool := none
  n : Option Bool := none
  dv : Option Bool := none
  deriving DecidableEq, Repr

/-- One optional flag put into PSW. -/
def putFlag (psw : Word) (i : Nat) (b : Option Bool) : Word :=
  match b with
  | none => psw
  | some x => setFld psw i i (b2n x)

/-- Flags put into PSW; the other bits keep their values. -/
def Flags.into (f : Flags) (psw : Word) : Word :=
  putFlag (putFlag (putFlag (putFlag (putFlag psw pswC f.c) pswV f.v) pswZ f.z) pswN f.n) pswDV f.dv

/-- Flags put into a thread's PSW. -/
def Thread.putFlags (h : Thread) (f : Flags) : Thread := { h with psw := f.into h.psw }

/-- Z and N of a 32-bit result. -/
def znOf (r : Word) : Flags := { z := some (r == 0), n := some (r.getLsbD 31) }

/-! ### Results with their flags -/

/-- a + b + carry (R205): V is signed overflow, C the carry out. -/
def addFlags (a b : Word) (carry : Bool) : Word × Flags :=
  let n := a.toNat + b.toNat + b2n carry
  let r : Word := BitVec.ofNat 32 n
  let i := a.toInt + b.toInt + b2n carry
  (r, { znOf r with c := some (decide (2 ^ 32 ≤ n)), v := some (decide (i ≠ r.toInt)) })

/-- a - b - borrow (R205): C is the borrow. -/
def subFlags (a b : Word) (borrow : Bool) : Word × Flags :=
  let r : Word := BitVec.ofNat 32 (a.toNat + 2 ^ 33 - b.toNat - b2n borrow)
  let i := a.toInt - b.toInt - b2n borrow
  (r, { znOf r with c := some (decide (a.toNat < b.toNat + b2n borrow)), v := some (decide (i ≠ r.toInt)) })

/-- The 64-bit product (R205): low and high word, V := 0, Z and N of the 64 bits. -/
def mulFlags (signed : Bool) (a b : Word) : Word × Word × Flags :=
  let p : DWord := if signed then BitVec.ofInt 64 (a.toInt * b.toInt) else BitVec.ofNat 64 (a.toNat * b.toNat)
  (p.truncate 32, BitVec.ofNat 32 (p.toNat / 2 ^ 32),
    { v := some false, z := some (p == 0), n := some (p.getLsbD 63) })

/-- The low word of the signed product; V says that the product lies outside int32 (R205). -/
def mullFlags (a b : Word) : Word × Flags :=
  let i := a.toInt * b.toInt
  let r : Word := BitVec.ofInt 32 i
  (r, { znOf r with v := some (decide (i ≠ r.toInt)) })

/-- DIV and DIVU (R148): quotient, remainder, V. The quotient truncates; a signed remainder has the dividend's sign. -/
def divFlags (signed : Bool) (a b : Word) : Word × Word × Flags :=
  let r : Word × Word × Bool :=
    if b = 0 then
      (if signed then (if a.getLsbD 31 then 0x80000000 else 0x7FFFFFFF) else 0xFFFFFFFF, a, true)
    else if signed then
      (if a = 0x80000000 ∧ b = 0xFFFFFFFF then (0x80000000, 0, true)
       else (BitVec.ofInt 32 (Int.tdiv a.toInt b.toInt), BitVec.ofInt 32 (Int.tmod a.toInt b.toInt), false))
    else (BitVec.ofNat 32 (a.toNat / b.toNat), BitVec.ofNat 32 (a.toNat % b.toNat), false)
  (r.1, r.2.1, { znOf r.1 with v := some r.2.2 })

/-- NEG (R148). -/
def negFlags (a : Word) : Word × Flags :=
  let r : Word := BitVec.ofNat 32 (2 ^ 32 - a.toNat)
  (r, { znOf r with v := some (a == 0x80000000) })

/-- ABS (R148). -/
def absFlags (a : Word) : Word × Flags :=
  let r : Word := if a.getLsbD 31 then BitVec.ofNat 32 (2 ^ 32 - a.toNat) else a
  (r, { znOf r with v := some (a == 0x80000000) })

/-- The shifts and rotates of R149. -/
inductive ShiftOp where
  | shl
  | shr
  | sar
  | rol
  | ror
  deriving DecidableEq, Repr

/-- Result and carry of a shift by c, 0 to 63 (R149). -/
def shiftParts (op : ShiftOp) (a : Word) (c : Nat) : Word × Option Bool :=
  let x := a.toNat
  match op with
  | .shl => if c = 0 then (a, none) else (BitVec.ofNat 32 (x * 2 ^ c), some (decide (c ≤ 32) && x.testBit (32 - c)))
  | .shr => if c = 0 then (a, none) else (BitVec.ofNat 32 (x / 2 ^ c), some (decide (c ≤ 32) && x.testBit (c - 1)))
  | .sar => if c = 0 then (a, none) else (BitVec.ofInt 32 (a.toInt / (2 ^ c : Nat)), some (x.testBit (min c 32 - 1)))
  | .rol =>
    let k := c % 32
    let r : Word := BitVec.ofNat 32 (x * 2 ^ k + x / 2 ^ (32 - k))
    (r, if k = 0 then none else some (r.getLsbD 0))
  | .ror =>
    let k := c % 32
    let r : Word := BitVec.ofNat 32 (x / 2 ^ k + x * 2 ^ (32 - k))
    (r, if k = 0 then none else some (r.getLsbD 31))

/-- A shift with its flags: Z and N follow the result, V is unchanged (R149). -/
def shiftFlags (op : ShiftOp) (a count : Word) : Word × Flags :=
  let (r, c) := shiftParts op a (count.toNat % 64)
  (r, { znOf r with c := c })

/-- Leading zero bits of a word (R206). -/
def leadingZeros (a : Word) : Nat := if a = 0 then 32 else 31 - Nat.log2 a.toNat

/-- A word with its bytes reversed (R206). -/
def swapBytes (a : Word) : Word := BitVec.ofNat 32 (beVal (leBytes 4 a.toNat))

/-- A 31-digit decimal sum or difference (R176): the bytes written, V, Z and N. -/
def decimalResult (i : Int) : List Byte × Flags :=
  let m := i.natAbs % 10 ^ 31
  let neg := decide (i < 0)
  (leBytes 16 (decPack 31 m neg),
    { dv := some false, v := some (decide (10 ^ 31 ≤ i.natAbs)), z := some (m == 0), n := some neg })

end Sys2Proof.Machine
end

