-- ==== Sys2Proof/Machine/Operands.lean ====
section
/-! DEFINITION. The operands of the Stem (R185-R194): segment checks, effective offsets, loads and stores through the store
buffer, and the ways an instruction can end. -/

namespace Sys2Proof.Machine

/-! ### How an access and an instruction end -/

/-- What an access of an instruction answers: a value; a trap with number, FADDR and DETAIL (R228); nothing now, because
the target accepts no access; or the remote request it needs first (R194, R307). -/
inductive Got (α : Type) where
  | ok (a : α)
  | trap (num faddr detail : Nat)
  | stay
  | need (dev w len addr : Nat) (data : List Byte)
  deriving DecidableEq, Repr

/-- How an instruction ends: in sequence, with a taken transfer to an offset, between two steps of a long instruction, at
a debug halt, or as an access ends. -/
inductive Fate where
  | next
  | jump (pc : Nat)
  | step
  | halt
  | trap (num faddr detail : Nat)
  | stay
  | need (dev w len addr : Nat) (data : List Byte)
  deriving DecidableEq, Repr

/-- The next access of an instruction, if this one answered a value. -/
def gotBind {α β : Type} (r : State × Got α) (k : State → α → State × Got β) : State × Got β :=
  match r with
  | (s, .ok a) => k s a
  | (s, .trap n f d) => (s, .trap n f d)
  | (s, .stay) => (s, .stay)
  | (s, .need dv w n a d) => (s, .need dv w n a d)

/-- The rest of an instruction, if its access answered a value. -/
def gotThen {α : Type} (r : State × Got α) (k : State → α → State × Fate) : State × Fate :=
  match r with
  | (s, .ok a) => k s a
  | (s, .trap n f d) => (s, .trap n f d)
  | (s, .stay) => (s, .stay)
  | (s, .need dv w n a d) => (s, .need dv w n a d)

/-! ### Effective offsets and immediates (R189, R212) -/

/-- sext(disp16) as a number modulo 2^32. -/
def sext16 (d : Half) : Nat := (d.signExtend 32).toNat

/-- Bytes of size z. -/
def opBytes (f : Operand) : Nat := if f.size = 0 then 1 else if f.size = 1 then 2 else 4

/-- The effective offset of modes 1 to 6 (R189). -/
def Thread.ea (h : Thread) (f : Operand) : Nat :=
  match f.mode.toNat with
  | 1 => f.disp.toNat
  | 2 => (h.x.toNat + sext16 f.disp) % 2 ^ 32
  | 3 => (h.y.toNat + sext16 f.disp) % 2 ^ 32
  | 4 => h.x.toNat
  | 5 => h.y.toNat
  | _ => f.long.toNat

/-- The immediate of mode 0 or mode 6 (R189). -/
def opImm (f : Operand) : Word := if f.mode = 0 then f.disp.signExtend 32 else f.long

/-- The operand is an immediate: class R in mode 0 or 6. -/
def opIsImm (f : Operand) : Bool := f.mode == 0 || f.mode == 6

/-- The post-increment of modes 4 and 5, applied when the instruction completes (R189). -/
def Thread.bump (h : Thread) (f : Operand) : Thread :=
  if f.mode = 4 then { h with x := h.x + BitVec.ofNat 32 (opBytes f) }
  else if f.mode = 5 then { h with y := h.y + BitVec.ofNat 32 (opBytes f) } else h

/-! ### Segment checks (R188) -/

/-- The checks of R188 on a segment register for z bytes at an offset. -/
def SegReg.allows (g : SegReg) (pl ea z : Nat) (needR needW : Bool) : Bool :=
  g.sel != 0 && decide (ea + z - 1 ≤ g.desc.limit) && (!needR || g.desc.r) && (!needW || g.desc.w) &&
    decide (g.desc.minpl ≤ pl) && decide (g.desc.base + ea < 2 ^ 48)

/-- DETAIL of a data access (R228): the low bits and the write bit. -/
def detailOf (low : Nat) (write : Bool) : Nat := low + b2n write * 8

/-! ### Accesses of a thread to physical addresses -/

/-- The origin of a thread's control-space access: its own, or an inbound Lichen request through the own-ID window. -/
def State.ctlOrigin (s : State) (t a : Nat) : Origin :=
  if s.isOwnWindow a then .lichen ((s.thr t).pl == 3) else .thread (Fin.ofNat 8 t)

/-- The answers received for the instruction in progress. -/
def Thread.answers (h : Thread) : List RemoteAnswer :=
  match h.remote with
  | some r => r.answers
  | none => []

/-- A read of a thread at a physical address. An access through the matrix completes after the older requests of the
Stem (R51, R76). -/
def State.busRead (s : State) (t a n : Nat) : State × AccRes :=
  match s.enter (s.who t) a n (s.onPortA a) with
  | none => (s, .wait)
  | some s0 =>
    match s0.readAns (s.who t) (s.thr t).answers a n with
    | (s1, .control off) =>
      let o := s.ctlOrigin t a
      (match s1.ctlRead (.control o) off n with
        | (s2, .ok v) => (s2, .ok (leBytes 4 v.toNat))
        | (s2, .err c) => (s2.busError (originMaster o) 30 false c a, .err c)
        | (s2, .wait) => (s2, .wait))
    | r => r

/-- A write of a thread at a physical address, unbuffered. -/
def State.busWrite (s : State) (t a : Nat) (d : List Byte) : State × AccRes :=
  match s.enter (s.who t) a d.length (s.onPortA a) with
  | none => (s, .wait)
  | some s0 =>
    match s0.writeAns (s.who t) (s.thr t).answers a d with
    | (s1, .control off) =>
      let o := s.ctlOrigin t a
      let v : Word := BitVec.ofNat 32 (leVal d)
      (match (if d.length = 4 then s1.descAsk o off v else none) with
        | some (dev, x, da) => (s1, .need dev x 16 da [])
        | none => match s1.ctlWrite (.control o) off d.length v with
          | (s2, none) => (s2, .ok [])
          | (s2, some c) => (s2.busError (originMaster o) 30 true c a, .err c))
    | r => r

/-- The outcome of an access as an instruction meets it: a bus error is trap 0x05 with its CAUSE (R228). -/
def accGot (r : State × AccRes) (faddr high : Nat) (write : Bool) : State × Got (List Byte) :=
  match r with
  | (s, .ok d) => (s, .ok d)
  | (s, .err c) => (s, .trap 5 faddr (detailOf c write + high))
  | (s, .wait) => (s, .stay)
  | (s, .control _) => (s, .stay)
  | (s, .need dv w n a d) => (s, .need dv w n a d)

/-- The bus errors that R48 decides from the address of a split access, found before either half (R191). -/
def State.splitCheck (s : State) (t a n : Nat) (write : Bool) : Option (State × Nat) :=
  if (dwords a n).length ≤ 1 then none
  else match s.checkMem (s.who t) a n write with
    | none => none
    | some (at_, c) =>
      let (w1, l, _) := s.route (s.who t) at_
      some (s.refuse w1 l write c at_, c)

/-! ### Store buffers (R192-R194) -/

/-- The buffered stores: the halves of a split store are one (R191, R193). -/
def wholeStores : List StoreEntry → List StoreEntry
  | [] => []
  | e :: t =>
    match e.paired, wholeStores t with
    | true, x :: r => { addr := e.addr, bytes := e.bytes ++ x.bytes } :: r
    | _, l => e :: l

/-- Forwarding of R193: the bytes of the youngest overlapping store when the load lies within it; `false` when that store
covers only a part. -/
def State.forward (s : State) (l : List StoreEntry) (a n : Nat) : Option (Option (List Byte)) :=
  let x := s.home a
  let hit := fun (e : StoreEntry) => decide (s.home e.addr < x + n) && decide (x < s.home e.addr + e.bytes.length)
  match ((wholeStores l).filter hit).getLast? with
  | none => none
  | some e =>
    let b := s.home e.addr
    if b ≤ x ∧ x + n ≤ b + e.bytes.length then some (some ((e.bytes.drop (x - b)).take n)) else some none

/-- A load of n bytes at an offset of a segment register (R188, R191, R193). -/
def State.stemLoad (s : State) (t seg ea n : Nat) : State × Got (List Byte) :=
  let h := s.thr t
  let g := h.sg.get seg
  if g.allows h.pl ea n true false = false then (s, .trap 3 ea (detailOf seg false))
  else
    let a := g.desc.base + ea
    match s.splitCheck t a n false with
    | some (s1, c) => (s1, .trap 5 ea (detailOf c false))
    | none =>
      match (if s.isOwnWindow a then some none else s.forward h.sbuf a n) with
      | some (some d) => (s, .ok d)
      | some none =>
        (match s.drainAll t with
          | none => (s, .stay)
          | some s1 => accGot (s1.busRead t a n) ea 0 false)
      | none =>
        match s.locate a with
        | .control _ =>
          (match s.drainAll t with
            | none => (s, .stay)
            | some s1 => accGot (s1.busRead t a n) ea 0 false)
        | _ => accGot (s.busRead t a n) ea 0 false

/-- The store is unbuffered (R194): control space and remote windows. -/
def State.unbuffered (s : State) (a : Nat) : Bool :=
  match s.locate a with
  | .control _ => true
  | .remote _ _ => true
  | _ => false

/-- A store of bytes at an offset of a segment register, whose segment check has passed. -/
def State.storeAt (s : State) (t a ea : Nat) (d : List Byte) : State × Got Unit :=
  if s.unbuffered a then
    match s.splitCheck t a d.length true with
    | some (s1, c) => (s1, .trap 5 ea (detailOf c true))
    | none => match s.drainAll t with
      | none => (s, .stay)
      | some s1 => gotBind (accGot (s1.busWrite t a d) ea 0 true) (fun s2 _ => (s2, .ok ()))
  else
    match s.checkMem (s.who t) a d.length true with
    | some (at_, c) =>
      let (w1, l, _) := s.route (s.who t) at_
      (s.refuse w1 l true c at_, .trap 5 ea (detailOf c true))
    | none =>
      let es := storeHalves (d.length + 1) a d
      if (s.thr t).sbuf.length + es.length ≤ 4 then
        (s.onThr t (fun h => { h with sbuf := h.sbuf ++ es }), .ok ())
      else match s.drainAll t with
        | none => (s, .stay)
        | some s1 => (s1.onThr t (fun h => { h with sbuf := h.sbuf ++ es }), .ok ())

/-- A store of bytes at an offset of a segment register (R188, R191, R192, R194). -/
def State.stemStore (s : State) (t seg ea : Nat) (d : List Byte) : State × Got Unit :=
  let h := s.thr t
  let g := h.sg.get seg
  if g.allows h.pl ea d.length false true = false then (s, .trap 3 ea (detailOf seg true))
  else s.storeAt t (g.desc.base + ea) ea d

/-! ### The read operand of class R (R189, R190) -/

/-- The operand of class R: an immediate, or memory of size z zero-extended, or sign-extended for LDS. -/
def State.operandR (s : State) (t : Nat) (f : Operand) (sign : Bool) : State × Got Word :=
  if opIsImm f then (s, .ok (opImm f))
  else gotBind (s.stemLoad t f.seg.toNat ((s.thr t).ea f) (opBytes f)) (fun s1 d =>
    let v := leVal d
    (s1, .ok (if sign then BitVec.ofInt 32 (toSigned (8 * (opBytes f)) v) else BitVec.ofNat 32 v)))

/-- The operand address of classes W, L and V: segment and offset. In mode 6 they carry an offset (R213). -/
def Thread.target (h : Thread) (f : Operand) : Nat × Nat := (f.seg.toNat, h.ea f)

/-- The target of a transfer at offset pc (R207). -/
def Thread.jumpTarget (h : Thread) (f : Operand) : Nat :=
  if f.mode = 0 then (h.pc.toNat + 4 * sext16 f.disp) % 2 ^ 32 else h.ea f

end Sys2Proof.Machine
end

