-- ==== Sys2Proof/Machine/Trap.lean ====
section
/-! DEFINITION. Taking a trap and returning from one (09_traps_and_privilege.md): one shared entry (R229), lockup (R242), the
pending sources (R237) and the order in which pending events are taken (R234), and TRET (R231, R232). -/

namespace Sys2Proof.Machine

/-! ### Segments (R185, R186, R225, R226) -/

/-- The checks of R186 on a selector and its descriptor for a level; `code` adds X and forbids null. -/
def State.segLoad (s : State) (t : Nat) (sel pl faddr detail : Nat) (code : Bool) : State × Got SegDesc :=
  if sel = 0 ∧ code = false then (s, .ok {})
  else if s.selOk sel = false then (s, .trap 3 faddr detail)
  else gotBind (accGot (s.busRead t (s.descAddr sel) 16) faddr 32 false) (fun s1 b =>
    let d := parseDesc b
    if d.usable pl false false && (!code || d.x) then (s1, .ok d) else (s1, .trap 3 faddr detail))

/-- The trap stack segment of level L as a segment register (R226). -/
def State.stackSeg (s : State) (l : Nat) : SegReg :=
  if l = 3 then { sel := BitVec.ofNat 16 (s.rd R.TRP_MSTK).toNat, desc := s.mstk }
  else { sel := BitVec.ofNat 16 (s.rd R.TRP_SSTK).toNat, desc := s.sstk }

/-- The code segment of level L's handlers (R225); TRP_MTVS = 0 selects the reset descriptor (R224). -/
def State.codeSeg (s : State) (l : Nat) : SegReg :=
  if l = 3 then
    if s.rd R.TRP_MTVS = 0 then { sel := 0, desc := resetDesc }
    else { sel := BitVec.ofNat 16 (s.rd R.TRP_MTVS).toNat, desc := s.mtvs }
  else { sel := BitVec.ofNat 16 (s.rd R.TRP_STVS).toNat, desc := s.stvs }

/-- The trap stack pointer of level L. -/
def Thread.tsp (h : Thread) (l : Nat) : Word := if l = 3 then h.tspM else h.tspS

/-- The trap stack pointer of level L set. -/
def Thread.setTsp (h : Thread) (l : Nat) (v : Word) : Thread := if l = 3 then { h with tspM := v } else { h with tspS := v }

/-! ### Entry (R222, R227-R230) -/

/-- The nominal level of a trap below 0x20 for a thread (R222). -/
def State.nominal (s : State) (num pl : Nat) : Nat :=
  if num = 0x0A then 1
  else if 0x0C ≤ num then 3
  else if pl < 3 ∧ s.b R.TRP_DELEG num = true then 1 else 3

/-- The words of a trap frame (R227, R228). -/
def Thread.frame (h : Thread) (pc : Word) (faddr num detail : Nat) : List Nat :=
  [pc.toNat, h.psw.toNat, h.acc.toNat, h.acx.toNat, h.x.toNat, h.y.toNat, h.lc.toNat, h.ls.toNat, h.le.toNat,
    faddr % 2 ^ 32, num + detail % 256 * 256 + (h.sg.get 0).sel.toNat * 65536, 0]

/-- A thread locks up at a step of its entry (R242, R243). -/
def State.lockUp (s : State) (t num step l : Nat) : State :=
  let pl := (s.thr t).pl
  let s1 := s.onThr t (fun h => { h with st := .locked, waitFor := .nothing, remote := none })
  let s2 := (s1.wr (R.TRP_LK t) (BitVec.ofNat 32 (num + step * 256 + l * 4096 + 2 ^ 31))).onPwr
    (fun p => { p with lockupN := true, lockedBy := p.lockedBy.or (some (t, num)) })
  let s3 := s2.raiseMachine 3
  if s.mode ≠ 5 ∧ (pl = 3 ∨ l = 3 ∨ s.b R.TRP_LKCTL 0 = true) then
    s3.onPwr (fun p => { p with safePending := (match p.safePending with | none => some 4 | some c => some c) })
  else s3

/-- The frame's doublewords written in ascending order (R229 step 3); the flag says that one failed. -/
def State.pushFrame (s : State) (t l off : Nat) : List (List Nat) → State × Got Bool
  | [] => (s, .ok true)
  | d :: rest =>
    let g := s.stackSeg l
    if g.allows l off 8 false true = false then (s, .ok false)
    else
      match s.busWrite t (g.desc.base + off) (d.flatMap (leBytes 4)) with
      | (s1, .ok _) => s1.pushFrame t l (off + 8) rest
      | (s1, .err _) => (s1, .ok false)
      | (s1, .need dv w n a b) => (s1, .need dv w n a b)
      | (s1, _) => (s1, .stay)

/-- Words in pairs. -/
def pairUp : List Nat → List (List Nat)
  | a :: b :: t => [a, b] :: pairUp t
  | _ => []

/-- The vector word of a trap number at level L (R225, R229 step 4): none, the read failed. -/
def State.vector (s : State) (t l num : Nat) : State × Got (Option Nat) :=
  let g := s.codeSeg l
  let off := 4 * num
  if (g.desc.present && decide (off + 3 ≤ g.desc.limit) && g.desc.r && decide (g.desc.minpl ≤ l) &&
      decide (g.desc.base + off < 2 ^ 48)) = false then (s, .ok none)
  else
    match s.busRead t (g.desc.base + off) 4 with
    | (s1, .ok d) => (s1, .ok (some (leVal d)))
    | (s1, .err _) => (s1, .ok none)
    | (s1, .need dv w n a b) => (s1, .need dv w n a b)
    | (s1, _) => (s1, .stay)

/-- A thread that is at the handler's first instruction (R229 steps 5 and 6). -/
def State.enterHandler (s : State) (t l : Nat) (pc : Word) : State :=
  s.onThr t (fun h =>
    let p1 := setFld (setFld (setFld h.psw 13 12 l) pswIE pswIE 0) pswLA pswLA 0
    let h1 := h.setTsp l (BitVec.ofNat 32 ((h.tsp l).toNat + 2 ^ 32 - 48))
    { h1 with
      psw := p1, pc := pc, sg := h.sg.set 0 (s.codeSeg l), fbuf := [], st := .active, waitFor := .nothing
      remote := none, stepDone := h.step.isSome })

/-- Trap entry (R229): the buffer drains and the reservation goes, the frame is written, the vector read, the level and
the code segment switch; or the thread locks up (R242). -/
def State.enterTrap (s : State) (t num faddr detail : Nat) (nominal : Nat) (pc : Word) : State × Fate :=
  let h := s.thr t
  let l := max nominal h.pl
  match s.drainAll t with
  | none => (s, .stay)
  | some s0 =>
    let s1 := s0.onThr t (fun h => { h with resv := none })
    let tsp := (h.tsp l).toNat
    let locked := fun (s : State) (step : Nat) => (s.lockUp t num step l, Fate.step)
    if (s1.stackSeg l).sel = 0 then locked s1 1
    else if tsp % 16 ≠ 0 then locked s1 0
    else
      gotThen (s1.pushFrame t l ((tsp + 2 ^ 32 - 48) % 2 ^ 32) (pairUp (h.frame pc faddr num detail))) fun s2 good =>
      if good = false then locked s2 0
      else if l = 1 ∧ s2.rd R.TRP_STVS = 0 then locked s2 1
      else gotThen (s2.vector t l num) fun s3 v =>
        match v with
        | none => locked s3 2
        | some a => if a % 4 ≠ 0 then locked s3 3 else (s3.enterHandler t l (BitVec.ofNat 32 a), .step)

/-! ### The source taken (R234) -/

/-- The source that thread t would take (R234): highest priority above its threshold, lowest number among equals. -/
def State.topSource (s : State) (t : Nat) : Option Nat :=
  (List.range 111).foldl (fun best n =>
    let p := s.f (R.TRP_SRC n) 3 0
    if p ≠ 0 ∧ s.f (R.TRP_SRC n) 6 4 = t ∧ s.f (R.TRP_THR t) 3 0 < p ∧ s.sourcePending n = true then
      match best with
      | none => some n
      | some m => if s.f (R.TRP_SRC m) 3 0 < p then some n else best
    else best) none

/-! ### Pending events (R233-R238) -/

/-- The lowest machine trap pending at a thread, as its offset from 0x0C. -/
def Thread.lowestMachine (h : Thread) : Option Nat := (List.range 5).find? (fun m => h.mpend.testBit m)

/-- FADDR and DETAIL of a machine trap (R228). -/
def State.machineDetail (s : State) (m : Nat) : Nat × Nat :=
  if m = 0 then (s.f R.LDG_AUDSTAT 15 8, 0)
  else if m = 3 then s.power.lockedBy.getD (0, 0)
  else (0, 0)

/-- A machine trap that had no thread to take it goes to one that can now (R235). -/
def State.redeliver (s : State) : State :=
  (List.range 5).foldl (fun s m =>
    if s.undelivered.testBit m then
      let first := b2n (s.b R.TRP_MROUTE m)
      let dest := if (s.thr first).takesTraps then some first else if (s.thr (1 - first)).takesTraps then some (1 - first) else none
      match dest with
      | some t => { s with undelivered := putBit s.undelivered m false }.onThr t (fun h => { h with mpend := putBit h.mpend m true })
      | none => s
    else s) s

/-- An asynchronous entry: a thread that waits in WAIT or SLEEP ends it with Z := 0 (R203). -/
def State.takeEvent (s : State) (t num faddr detail nominal : Nat) : State × Fate :=
  let h := s.thr t
  let s1 : State := match h.waitFor with
    | .wake => s.setThr t (h.setFlag pswZ false)
    | .sleep _ => s.setThr t (h.setFlag pswZ false)
    | _ => s
  s1.enterTrap t num faddr detail nominal h.pc

/-- The state after an entry, if it took place. -/
def State.ended (s : State) (r : State × Fate) (t : Nat) (i : Instr) : State :=
  match r with
  | (s1, .step) => s1
  | (_, .need dv w n _ d) =>
    let h := s.thr t
    let op := if d = [] then 0 else 1
    let (s1, tag) := s.request (.thread t) op dv n w d (h.pl == 3) false 0
    s1.onThr t (fun k => { k with remote := some { instr := i, tag := some tag, answers := h.answers } })
  | _ => s

/-- The event that a thread takes at a boundary (R234), and the entry: machine traps first, then with IE a vector job
fault, then the interrupt source of highest priority. -/
def State.nextEvent (s : State) (t : Nat) : State × Fate :=
  let h := s.thr t
  match h.lowestMachine with
  | some m =>
    let (fa, d) := s.machineDetail m
    let s0 := s.onThr t (fun k => { k with mpend := putBit k.mpend m false })
    let s1 := if m = 3 then s0.onPwr (fun p => { p with lockedBy := none }) else s0
    (match s1.takeEvent t (0x0C + m) fa d 3 with
      | (s2, .step) => (if t < 2 then s2.logEvent (0x8C + m) else s2, .step)
      | r => r)
  | none =>
    if h.flag pswIE = false then (s, .stay)
    else match h.vjq with
      | (v, c) :: rest => (s.onThr t (fun k => { k with vjq := rest })).takeEvent t 0x0B (v % 2 ^ 32) c (s.nominal 0x0B h.pl)
      | [] =>
        if h.step.isSome && !s.b R.DBG_CTL 3 then (s, .stay)
        else match s.topSource t with
          | none => (s, .stay)
          | some n =>
            let reg := R.TRP_SRC n
            let s1 : State := if n < 64 then s.take (8 + n) 1 else s
            (match s1.takeEvent t (0x20 + s.f reg 12 8) n (s.f reg 3 0) (if s.b reg 7 then 3 else 1) with
              | (s2, .step) => (if t < 2 then s2.logEvent n else s2, .step)
              | r => r)

/-- An event is pending that a thread takes at its next boundary (R234). -/
def State.eventPending (s : State) (t : Nat) : Bool :=
  let s0 := s.redeliver
  let h := s0.thr t
  h.lowestMachine.isSome ||
    (h.flag pswIE && (!h.vjq.isEmpty || (!(h.step.isSome && !s0.b R.DBG_CTL 3) && (s0.topSource t).isSome)))

/-- A thread stands at an instruction boundary at which it takes events (R233). -/
def Thread.atEventBoundary (h : Thread) (i : Instr) : Bool :=
  (h.st == .active || h.st == .waiting) && !h.haltReq && !h.stepDone &&
    (match h.remote with
      | none => true
      | some r => r.instr == i && r.tag.isNone)

/-- TRAP_ENTRY (R229, R234): the first pending event of a thread is taken. -/
def State.trapEntry (s : State) (t : Tid) : State :=
  let s0 := s.redeliver
  if s.running && (s0.thr t.val).atEventBoundary (.trapEntry t) then
    s0.ended (s0.nextEvent t.val) t.val (.trapEntry t)
  else s0

/-- TRAP_ENTRY. -/
def execTrapEntry (t : Tid) (s : State) : Res := .next (s.trapEntry t)

end Sys2Proof.Machine
end

