-- ==== Sys2Proof/Machine/StemIssue.lean ====
section
/-! DEFINITION. How a Stem instruction issues and ends (R179, R182, R196, R197, R204, R212, R216): the checks before it, the
advance of PC with the hardware loop, traps, halts and remote waits; and the threads' other events: fetch, start, stop and
wake-ups. -/

namespace Sys2Proof.Machine

/-! ### Fetch (R181, R182, R186) -/

/-- A fetch at an offset of SG0 passes R188 with X rights. -/
def Thread.fetchOk (h : Thread) (pc : Nat) : Bool :=
  let d := (h.sg.get 0).desc
  d.present && decide (pc + 3 ≤ d.limit) && d.x && decide (d.minpl ≤ h.pl) && decide (d.base + pc < 2 ^ 48)

/-- The failure of a fetch at an offset, as trap number and DETAIL: a segment violation, or a bus error with CAUSE 1 for
every place but B16 and the Boot ROM (R182, R228). -/
def State.fetchFailure (s : State) (t pc : Nat) : Option (Nat × Nat) :=
  let h := s.thr t
  if h.fetchOk pc = false then some (3, 16)
  else match s.locate ((h.sg.get 0).desc.base + pc) with
    | .bank 16 _ => none
    | .bootRom _ => none
    | _ => some (5, 17)

/-- What the fetch unit has brought for an offset. -/
inductive Fetched where
  | absent
  | word (w : Word)
  | failed (num detail : Nat)
  deriving DecidableEq, Repr

/-- The fetch buffer's slot for an offset (R182): its word, or the trap of its fetch. -/
def Thread.fetched (h : Thread) (pc : Nat) : Fetched :=
  match h.fbuf.find? (fun e => match e with | .word o _ => o == pc | .fault o _ _ => o == pc) with
  | some (.word _ w) => .word w
  | some (.fault _ n d) => .failed n d
  | none => .absent

/-- A failed fetch at the moment its instruction would issue: a bus error is logged then (R79, R182). -/
def State.logFetch (s : State) (t pc : Nat) (f : Nat × Nat) : State :=
  if f.1 = 5 ∧ f.2 % 8 = 1 then
    let a := ((s.thr t).sg.get 0).desc.base + pc
    s.busError 8 (s.portOf a).1 false 1 a
  else s

/-- The offset of the next word to fetch. -/
def Thread.fetchNext (h : Thread) : Nat :=
  match h.fbuf.getLast? with
  | some (.word o _) => o + 4
  | some (.fault o _ _) => o
  | none => h.pc.toNat

/-- The last slot of a buffer is a failure: nothing is fetched past it. -/
def Thread.fetchStuck (h : Thread) : Bool :=
  match h.fbuf.getLast? with
  | some (.fault _ _ _) => true
  | _ => false

/-- One slot fetched at an offset; none while the access waits (R59). -/
def State.fetchSlot (s : State) (t pc : Nat) : State × Option FetchSlot :=
  match s.fetchFailure t pc with
  | some (n, d) => (s, some (.fault pc n d))
  | none =>
    match s.readMem (s.who t) (((s.thr t).sg.get 0).desc.base + pc) 4 with
    | (s1, .ok d) => (s1, some (.word pc (BitVec.ofNat 32 (leVal d))))
    | (s1, .wait) => (s1, none)
    | (s1, _) => (s1, some (.fault pc 5 20))

/-- The thread that the fetch unit serves: fewest buffered, lowest number among equals (R182). -/
def State.fetchThread (s : State) : Option Nat :=
  (List.range 8).foldl (fun best t =>
    let h := s.thr t
    if (h.st = .active ∨ h.st = .waiting) ∧ h.fbuf.length < 4 ∧ h.fetchStuck = false then
      match best with
      | none => some t
      | some b => if h.fbuf.length < (s.thr b).fbuf.length then some t else best
    else best) none

/-- FETCH (R182): one aligned doubleword into the buffer; its words from the next one needed on. -/
def State.fetch (s : State) : State :=
  match s.fetchThread with
  | none => s
  | some t =>
    let pc := (s.thr t).fetchNext
    let (s1, a) := s.fetchSlot t pc
    let s2 := s1.onThr t (fun h => { h with fbuf := h.fbuf ++ a.toList })
    if a.isSome ∧ pc % 8 = 0 ∧ (s2.thr t).fbuf.length < 4 ∧ (s2.thr t).fetchStuck = false then
      let (s3, b) := s2.fetchSlot t (pc + 4)
      s3.onThr t (fun h => { h with fbuf := h.fbuf ++ b.toList })
    else s2

/-- FETCH. -/
def execFetch (s : State) : Res := .next (if s.running then s.fetch else s)

/-! ### The end of an instruction -/

/-- The buffered words from an offset on. -/
def dropTo (pc : Nat) (l : List FetchSlot) : List FetchSlot :=
  l.dropWhile (fun e => match e with | .word o _ => decide (o ≠ pc) | .fault o _ _ => decide (o ≠ pc))

/-- PC after an instruction in sequence, with the end of a hardware-loop iteration (R197). -/
def Thread.advance (h : Thread) (next : Nat) : Thread :=
  if h.flag pswLA = true ∧ next = h.le.toNat then
    let c : Word := h.lc - 1
    if c = 0 then { (h.setFlag pswLA false) with lc := c, pc := h.le, fbuf := dropTo h.le.toNat h.fbuf }
    else { h with lc := c, pc := h.ls, fbuf := [] }
  else { h with pc := BitVec.ofNat 32 next, fbuf := dropTo next h.fbuf }

/-- The end of a debug step is reached (R406): one instruction or step in MODE 0, PC = DBG_STEPTO in MODE 1. -/
def State.stepEnd (s : State) (t : Nat) (instrEnd : Bool) : State :=
  s.onThr t (fun h => if h.st ≠ .active then h else match h.step with
    | some false => { h with stepDone := true }
    | some true => if instrEnd = true ∧ h.pc = s.rd R.DBG_STEPTO then { h with stepDone := true } else h
    | none => h)

/-- What every instruction that ended leaves: no remote wait, the count of event 0x30, a requested stop. -/
def State.retired (s : State) (t : Nat) (instrEnd : Bool) : State :=
  let s1 := ((s.onThr t (fun h => { h with remote := none })).stepEnd t instrEnd).event 0x30 t 1
  if (s1.thr t).stopReq then s1.stopThread t else s1

/-! ### Issue (R179, R204, R216) -/

/-- A thread can issue an instruction now: it is ACTIVE, not halting, waits for no remote response, and has no event to take first
(R179, R234); an instruction whose response has come goes on. -/
def State.canIssue (s : State) (t : Nat) (i : Instr) : Bool :=
  let h := s.thr t
  s.running && h.st == .active && !h.stepDone && (match h.remote with
    | none => !h.haltReq && !s.eventPending t
    | some r => r.instr == i && r.tag.isNone)

/-- A trap of the instruction at PC (R204, R222). -/
def State.instrTrap (s : State) (t num faddr detail : Nat) : State × Fate :=
  let h := s.thr t
  s.enterTrap t num faddr detail (s.nominal num h.pl) h.pc

/-- The state after an instruction's end; `s` is the state before it, to which a wait returns. -/
def State.finish (s : State) (t : Nat) (i : Instr) (next : Nat) (r : State × Fate) : State :=
  match r with
  | (s1, .next) => (s1.onThr t (fun h => h.advance next)).retired t true
  | (s1, .jump pc) => (s1.onThr t (fun h => { h with pc := BitVec.ofNat 32 pc, fbuf := [] })).retired t true
  | (s1, .step) => s1.retired t false
  | (s1, .halt) => (s1.requestHalt [t] []).retired t false
  | (s1, .trap num fa d) => s.ended (match s1.instrTrap t num fa d with
      | (s2, .step) => (s2.retired t false, .step)
      | r => r) t i
  | (_, .stay) => s
  | (_, .need dv w n a d) => s.ended (s, .need dv w n a d) t i

/-- The trap of an instruction whose word at an offset could not be fetched (R182, R216). -/
def State.fetchTrap (s : State) (t : Nat) (i : Instr) (at_ : Nat) (f : Nat × Nat) : Res :=
  let s1 := s.logFetch t at_ f
  .next (s1.finish t i (s.thr t).pc.toNat (s1, .trap f.1 at_ f.2))

/-- The issue of an instruction (R216): its first word out of the fetch buffer, R215, for a long one its second word, then the
instruction. It does not issue while a word of it is not in the buffer (R179, R182), nor where the buffer holds other words: what
the buffer holds decides (R218; log 41). -/
def State.issue (s : State) (t : Tid) (op : Nat) (f : Operand) (i : Instr) (body : State → State × Fate) : Res :=
  let k := t.val
  let pc := (s.thr k).pc.toNat
  let run := fun (n : Nat) => Host.Outcome.next (s.finish k i ((pc + n) % 2 ^ 32) (body s))
  if s.canIssue k i = false then .next s
  else match (s.thr k).fetched pc with
    | .absent => .next s
    | .failed n d => s.fetchTrap k i pc (n, d)
    | .word w =>
      if w ≠ encodeWord op f then .next s
      else if operandOk op f = false then .next (s.finish k i pc (s, .trap 1 0 0))
      else if f.mode ≠ 6 then run 4
      else match (s.thr k).fetched (pc + 4) with
        | .absent => .next s
        | .failed n d => s.fetchTrap k i (pc + 4) (n, d)
        | .word v => if v = f.long then run 8 else .next s

/-- Registers and flags set at completion, after the post-increment of R189. -/
def State.done (s : State) (t : Nat) (f : Operand) (g : Thread → Thread) : State × Fate :=
  (s.onThr t (fun h => g (h.bump f)), .next)

/-- A taken transfer: a target that is not a multiple of 4 is an Alignment fault (R207). -/
def State.transfer (s : State) (target : Nat) : State × Fate :=
  if target % 4 = 0 then (s, .jump target) else (s, .trap 4 target 0)

/-- ILLEGAL (R215): an illegal word at PC raises trap 0x01. -/
def execIllegal (t : Tid) (w : Word) (s : State) : Res :=
  let k := t.val
  let i := Instr.illegal t w
  let pc := (s.thr k).pc.toNat
  if s.canIssue k i = false then .next s
  else match (s.thr k).fetched pc with
    | .absent => .next s
    | .failed n d => s.fetchTrap k i pc (n, d)
    | .word v => if v = w ∧ operandOk (opcodeOf w) (fieldsOf w) = false then .next (s.finish k i pc (s, .trap 1 0 0)) else .next s

/-! ### Waiting threads (R203) -/

/-- WAIT_WAKE (R203): a count at the wake input ends WAIT with Z := 1. -/
def State.waitWake (s : State) (t : Nat) : State :=
  let h := s.thr t
  if s.running = true ∧ h.st = .waiting ∧ h.waitFor = .wake ∧ h.haltReq = false ∧ 0 < s.pend t then
    ((s.take t 1).onThr t (fun h => { (h.setFlag pswZ true) with st := .active, waitFor := .nothing })).stepEnd t true
  else s

/-- WAIT_WAKE. -/
def execWaitWake (t : Tid) (s : State) : Res := .next (s.waitWake t.val)

/-- SLEEP_EXPIRE (R203): the delay is over; the thread goes on with Z := 1. -/
def State.sleepExpire (s : State) (t : Nat) : State :=
  match (s.thr t).waitFor with
  | .sleep due =>
    if s.running = true ∧ (s.thr t).st = .waiting ∧ (s.thr t).haltReq = false then
      ((s.until due).onThr t (fun h => { (h.setFlag pswZ true) with st := .active, waitFor := .nothing })).stepEnd t true
    else s
  | _ => s

/-- SLEEP_EXPIRE. -/
def execSleepExpire (t : Tid) (s : State) : Res := .next (s.sleepExpire t.val)

end Sys2Proof.Machine
end

