-- ==== Sys2Proof/Machine/StemAlu.lean ====
section
/-! DEFINITION. The Stem's arithmetic, logic, multiply, divide, shifts and single-register operations (R148, R149, R205, R206). -/

namespace Sys2Proof.Machine

/-! ### Shared operations -/

/-- A result in ACC with flags; an overflow traps when VTE = 1 and then has no effect (R205). -/
def State.putAcc (s : State) (t : Tid) (f : Operand) (r : Word × Flags) (canTrap : Bool) : State × Fate :=
  if canTrap = true ∧ r.2.v = some true ∧ (s.thr t.val).flag pswVTE = true then (s, .trap 7 0 0)
  else s.done t.val f (fun h => { h with acc := r.1 }.putFlags r.2)

/-- An operation of ACC and the operand into ACC. -/
def State.alu (s : State) (t : Tid) (f : Operand) (canTrap : Bool) (g : Thread → Word → Word × Flags) : State × Fate :=
  gotThen (s.operandR t.val f false) fun s1 v => s1.putAcc t f (g (s.thr t.val) v) canTrap

/-- A comparison: flags only. -/
def State.compare (s : State) (t : Tid) (f : Operand) (g : Thread → Word → Flags) : State × Fate :=
  gotThen (s.operandR t.val f false) fun s1 v => s1.done t.val f (fun h => h.putFlags (g (s.thr t.val) v))

/-- A bitwise operation into ACC with Z and N. -/
def State.logic (s : State) (t : Tid) (f : Operand) (g : Word → Word → Word) : State × Fate :=
  s.alu t f false (fun h v => (g h.acc v, znOf (g h.acc v)))

/-- The product into ACX:ACC (R205). -/
def State.multiply (s : State) (t : Tid) (f : Operand) (signed : Bool) : State × Fate :=
  gotThen (s.operandR t.val f false) fun s1 v =>
  let (lo, hi, fl) := mulFlags signed (s.thr t.val).acc v
  s1.done t.val f (fun h => { h with acc := lo, acx := hi }.putFlags fl)

/-- The quotient into ACC and the remainder into ACX; the edges of R148 trap when enabled. -/
def State.divide (s : State) (t : Tid) (f : Operand) (signed : Bool) : State × Fate :=
  gotThen (s.operandR t.val f false) fun s1 v =>
  let h := s.thr t.val
  let (q, r, fl) := divFlags signed h.acc v
  if v = 0 ∧ h.flag pswDZE = true then (s1, .trap 6 0 0)
  else if v ≠ 0 ∧ fl.v = some true ∧ h.flag pswVTE = true then (s1, .trap 7 0 0)
  else s1.done t.val f (fun h => { h with acc := q, acx := r }.putFlags fl)

/-- A shift or rotate of ACC by the operand (R149). -/
def State.shift (s : State) (t : Tid) (f : Operand) (op : ShiftOp) : State × Fate :=
  s.alu t f false (fun h v => shiftFlags op h.acc v)

/-- A register changed by the operand, no flags. -/
def State.addReg (s : State) (t : Tid) (f : Operand) (g : Thread → Word → Thread) : State × Fate :=
  gotThen (s.operandR t.val f false) fun s1 v => s1.done t.val f (fun h => g h v)

/-! ### Instructions -/

/-- ADD (R205): Adds the operand to ACC. -/
def execAdd (t : Tid) (f : Operand) (s : State) : Res := s.issue t 0x10 f (.add t f) (fun s => s.alu t f true (fun h v => addFlags h.acc v false))

/-- ADC (R205): Adds the operand and C to ACC. -/
def execAdc (t : Tid) (f : Operand) (s : State) : Res := s.issue t 0x11 f (.adc t f) (fun s => s.alu t f true (fun h v => addFlags h.acc v (h.flag pswC)))

/-- SUB (R205): Subtracts the operand from ACC. -/
def execSub (t : Tid) (f : Operand) (s : State) : Res := s.issue t 0x12 f (.sub t f) (fun s => s.alu t f true (fun h v => subFlags h.acc v false))

/-- SBC (R205): Subtracts the operand and C from ACC. -/
def execSbc (t : Tid) (f : Operand) (s : State) : Res := s.issue t 0x13 f (.sbc t f) (fun s => s.alu t f true (fun h v => subFlags h.acc v (h.flag pswC)))

/-- AND (R205): Bitwise AND into ACC. -/
def execAnd (t : Tid) (f : Operand) (s : State) : Res := s.issue t 0x14 f (.and t f) (fun s => s.logic t f (fun a b => a &&& b))

/-- OR (R205): Bitwise OR into ACC. -/
def execOr (t : Tid) (f : Operand) (s : State) : Res := s.issue t 0x15 f (.or t f) (fun s => s.logic t f (fun a b => a ||| b))

/-- XOR (R205): Bitwise XOR into ACC. -/
def execXor (t : Tid) (f : Operand) (s : State) : Res := s.issue t 0x16 f (.xor t f) (fun s => s.logic t f (fun a b => a ^^^ b))

/-- CMP (R205): Sets the flags of SUB and leaves ACC unchanged. -/
def execCmp (t : Tid) (f : Operand) (s : State) : Res := s.issue t 0x17 f (.cmp t f) (fun s => s.compare t f (fun h v => (subFlags h.acc v false).2))

/-- TST (R205): Sets Z and N from ACC and the operand. -/
def execTst (t : Tid) (f : Operand) (s : State) : Res := s.issue t 0x18 f (.tst t f) (fun s => s.compare t f (fun h v => znOf (h.acc &&& v)))

/-- ADDX (R205): Adds the operand to X. -/
def execAddx (t : Tid) (f : Operand) (s : State) : Res := s.issue t 0x19 f (.addx t f) (fun s => s.addReg t f (fun h v => { h with x := h.x + v }))

/-- ADDY (R205): Adds the operand to Y. -/
def execAddy (t : Tid) (f : Operand) (s : State) : Res := s.issue t 0x1A f (.addy t f) (fun s => s.addReg t f (fun h v => { h with y := h.y + v }))

/-- CMPX (R205): Sets the flags of X minus the operand. -/
def execCmpx (t : Tid) (f : Operand) (s : State) : Res := s.issue t 0x1B f (.cmpx t f) (fun s => s.compare t f (fun h v => (subFlags h.x v false).2))

/-- CMPY (R205): Sets the flags of Y minus the operand. -/
def execCmpy (t : Tid) (f : Operand) (s : State) : Res := s.issue t 0x1C f (.cmpy t f) (fun s => s.compare t f (fun h v => (subFlags h.y v false).2))

/-- MUL (R205): Signed 64-bit product into ACX:ACC. -/
def execMul (t : Tid) (f : Operand) (s : State) : Res := s.issue t 0x20 f (.mul t f) (fun s => s.multiply t f true)

/-- MULU (R205): Unsigned 64-bit product into ACX:ACC. -/
def execMulu (t : Tid) (f : Operand) (s : State) : Res := s.issue t 0x21 f (.mulu t f) (fun s => s.multiply t f false)

/-- DIV (R148): Signed division of ACC, quotient to ACC and remainder to ACX, with the stated edge results. -/
def execDiv (t : Tid) (f : Operand) (s : State) : Res := s.issue t 0x22 f (.div t f) (fun s => s.divide t f true)

/-- DIVU (R148): Unsigned division of ACC, with the stated edge results. -/
def execDivu (t : Tid) (f : Operand) (s : State) : Res := s.issue t 0x23 f (.divu t f) (fun s => s.divide t f false)

/-- MULL (R205): Low 32 bits of the signed product into ACC. -/
def execMull (t : Tid) (f : Operand) (s : State) : Res := s.issue t 0x24 f (.mull t f) (fun s => s.alu t f true (fun h v => mullFlags h.acc v))

/-- SHL (R149): Shifts ACC left. -/
def execShl (t : Tid) (f : Operand) (s : State) : Res := s.issue t 0x30 f (.shl t f) (fun s => s.shift t f .shl)

/-- SHR (R149): Shifts ACC right with zero fill. -/
def execShr (t : Tid) (f : Operand) (s : State) : Res := s.issue t 0x31 f (.shr t f) (fun s => s.shift t f .shr)

/-- SAR (R149): Shifts ACC right with sign fill. -/
def execSar (t : Tid) (f : Operand) (s : State) : Res := s.issue t 0x32 f (.sar t f) (fun s => s.shift t f .sar)

/-- ROL (R149): Rotates ACC left. -/
def execRol (t : Tid) (f : Operand) (s : State) : Res := s.issue t 0x33 f (.rol t f) (fun s => s.shift t f .rol)

/-- ROR (R149): Rotates ACC right. -/
def execRor (t : Tid) (f : Operand) (s : State) : Res := s.issue t 0x34 f (.ror t f) (fun s => s.shift t f .ror)

/-- NEG (R148): Negates ACC. -/
def execNeg (t : Tid) (f : Operand) (s : State) : Res := s.issue t 0x35 f (.neg t f) (fun s => s.putAcc t f (negFlags (s.thr t.val).acc) true)

/-- NOT (R206): Complements ACC. -/
def execNot (t : Tid) (f : Operand) (s : State) : Res := s.issue t 0x36 f (.not t f) (fun s => s.putAcc t f (~~~(s.thr t.val).acc, znOf (~~~(s.thr t.val).acc)) false)

/-- ABS (R148): Replaces ACC by its absolute value. -/
def execAbs (t : Tid) (f : Operand) (s : State) : Res := s.issue t 0x37 f (.abs t f) (fun s => s.putAcc t f (absFlags (s.thr t.val).acc) true)

/-- SWAPB (R206): Reverses the bytes of ACC. -/
def execSwapb (t : Tid) (f : Operand) (s : State) : Res := s.issue t 0x3D f (.swapb t f) (fun s => s.putAcc t f (swapBytes (s.thr t.val).acc, znOf (swapBytes (s.thr t.val).acc)) false)

/-- CLZ (R206): Counts the leading zero bits of ACC. -/
def execClz (t : Tid) (f : Operand) (s : State) : Res := s.issue t 0x3E f (.clz t f) (fun s => s.putAcc t f (BitVec.ofNat 32 (leadingZeros (s.thr t.val).acc), znOf (BitVec.ofNat 32 (leadingZeros (s.thr t.val).acc))) false)

end Sys2Proof.Machine
end

