-- ==== Sys2Proof/Machine/StemJump.lean ====
section
/-! DEFINITION. The Stem's control transfers and hardware loop (R196, R197, R207). -/

namespace Sys2Proof.Machine

/-! ### Shared operations -/

/-- A jump that is taken under a condition (R207); a jump not taken does not check its target. -/
def State.jumpIf (s : State) (t : Tid) (f : Operand) (c : Thread → Bool) : State × Fate :=
  let h := s.thr t.val
  if c h then s.transfer (h.jumpTarget f) else (s, .next)

/-- The offset of the next instruction in sequence. -/
def Thread.nextPc (h : Thread) (f : Operand) : Nat := (h.pc.toNat + (if f.mode == 6 then 8 else 4)) % 2 ^ 32

/-- CALL (R207): the return offset goes to the SG7 stack; a fault in the store leaves Y and PC unchanged. -/
def State.call (s : State) (t : Tid) (f : Operand) : State × Fate :=
  let h := s.thr t.val
  let target := h.jumpTarget f
  if target % 4 ≠ 0 then (s, .trap 4 target 0)
  else
    let y : Word := h.y - 4
    gotThen (s.stemStore t.val 7 y.toNat (leBytes 4 (h.nextPc f))) fun s1 _ =>
    (s1.onThr t.val (fun h => { h with y := y }), .jump target)

/-- RET (R207). -/
def State.ret (s : State) (t : Tid) : State × Fate :=
  let h := s.thr t.val
  gotThen (s.stemLoad t.val 7 h.y.toNat 4) fun s1 d =>
  let target := leVal d
  if target % 4 ≠ 0 then (s1, .trap 4 target 0)
  else (s1.onThr t.val (fun h => { h with y := h.y + 4 }), .jump target)

/-- JXNZ (R207): X := X - 1, taken when the new X is not 0. -/
def State.jumpX (s : State) (t : Tid) (f : Operand) : State × Fate :=
  let h := s.thr t.val
  let x : Word := h.x - 1
  let target := h.jumpTarget f
  if x ≠ 0 ∧ target % 4 ≠ 0 then (s, .trap 4 target 0)
  else (s.onThr t.val (fun h => { h with x := x }), if x ≠ 0 then .jump target else .next)

/-- LOOP (R196). -/
def State.loopStart (s : State) (t : Tid) (f : Operand) : State × Fate :=
  let h := s.thr t.val
  let next := (h.pc.toNat + 4) % 2 ^ 32
  let e := (next + 4 * f.disp.toNat) % 2 ^ 32
  if h.flag pswLA then (s, .trap 1 0 0)
  else if h.acc = 0 then (s, .jump e)
  else (s.onThr t.val (fun h =>
    { (h.setFlag pswLA true) with lc := h.acc, ls := BitVec.ofNat 32 next, le := BitVec.ofNat 32 e }), .next)

/-- LEXIT (R197). -/
def State.loopExit (s : State) (t : Tid) : State × Fate :=
  let h := s.thr t.val
  if h.le.toNat % 4 ≠ 0 then (s, .trap 4 h.le.toNat 0)
  else (s.onThr t.val (fun h => { (h.setFlag pswLA false) with lc := 0 }), .jump h.le.toNat)

/-! ### Instructions -/

/-- JMP (R207): Jumps to target T. -/
def execJmp (t : Tid) (f : Operand) (s : State) : Res := s.issue t 0x40 f (.jmp t f) (fun s => s.jumpIf t f (fun _ => true))

/-- JEQ (R207): Jumps when Z = 1. -/
def execJeq (t : Tid) (f : Operand) (s : State) : Res := s.issue t 0x41 f (.jeq t f) (fun s => s.jumpIf t f (fun h => h.flag pswZ))

/-- JNE (R207): Jumps when Z = 0. -/
def execJne (t : Tid) (f : Operand) (s : State) : Res := s.issue t 0x42 f (.jne t f) (fun s => s.jumpIf t f (fun h => !h.flag pswZ))

/-- JLT (R207): Jumps when N differs from V. -/
def execJlt (t : Tid) (f : Operand) (s : State) : Res := s.issue t 0x43 f (.jlt t f) (fun s => s.jumpIf t f (fun h => h.flag pswN != h.flag pswV))

/-- JGE (R207): Jumps when N equals V. -/
def execJge (t : Tid) (f : Operand) (s : State) : Res := s.issue t 0x44 f (.jge t f) (fun s => s.jumpIf t f (fun h => h.flag pswN == h.flag pswV))

/-- JLTU (R207): Jumps when C = 1. -/
def execJltu (t : Tid) (f : Operand) (s : State) : Res := s.issue t 0x45 f (.jltu t f) (fun s => s.jumpIf t f (fun h => h.flag pswC))

/-- JGEU (R207): Jumps when C = 0. -/
def execJgeu (t : Tid) (f : Operand) (s : State) : Res := s.issue t 0x46 f (.jgeu t f) (fun s => s.jumpIf t f (fun h => !h.flag pswC))

/-- JVS (R207): Jumps when V = 1. -/
def execJvs (t : Tid) (f : Operand) (s : State) : Res := s.issue t 0x47 f (.jvs t f) (fun s => s.jumpIf t f (fun h => h.flag pswV))

/-- JVC (R207): Jumps when V = 0. -/
def execJvc (t : Tid) (f : Operand) (s : State) : Res := s.issue t 0x48 f (.jvc t f) (fun s => s.jumpIf t f (fun h => !h.flag pswV))

/-- JMI (R207): Jumps when N = 1. -/
def execJmi (t : Tid) (f : Operand) (s : State) : Res := s.issue t 0x49 f (.jmi t f) (fun s => s.jumpIf t f (fun h => h.flag pswN))

/-- JPL (R207): Jumps when N = 0. -/
def execJpl (t : Tid) (f : Operand) (s : State) : Res := s.issue t 0x4A f (.jpl t f) (fun s => s.jumpIf t f (fun h => !h.flag pswN))

/-- CALL (R207): Pushes the return offset on the SG7 stack and jumps. -/
def execCall (t : Tid) (f : Operand) (s : State) : Res := s.issue t 0x4B f (.call t f) (fun s => s.call t f)

/-- RET (R207): Pops the return offset and jumps to it. -/
def execRet (t : Tid) (f : Operand) (s : State) : Res := s.issue t 0x4C f (.ret t f) (fun s => s.ret t)

/-- JXNZ (R207): Decrements X and jumps when X is not zero. -/
def execJxnz (t : Tid) (f : Operand) (s : State) : Res := s.issue t 0x4D f (.jxnz t f) (fun s => s.jumpX t f)

/-- LOOP (R196): Starts a hardware loop of ACC iterations over the next B words. -/
def execLoop (t : Tid) (f : Operand) (s : State) : Res := s.issue t 0x50 f (.loop t f) (fun s => s.loopStart t f)

/-- LEXIT (R197): Leaves the loop and jumps to LE. -/
def execLexit (t : Tid) (f : Operand) (s : State) : Res := s.issue t 0x51 f (.lexit t f) (fun s => s.loopExit t)

end Sys2Proof.Machine
end

