-- ==== Sys2Proof/Machine/StemMove.lean ====
section
/-! DEFINITION. The Stem's loads, stores, exchanges and transfers between registers (R198, R199, R205, R206). -/

namespace Sys2Proof.Machine

/-! ### Shared operations -/

/-- A load into ACC with Z and N (R205). -/
def State.loadAcc (s : State) (t : Tid) (f : Operand) (sign : Bool) : State × Fate :=
  gotThen (s.operandR t.val f sign) fun s1 v => s1.done t.val f (fun h => { h with acc := v }.putFlags (znOf v))

/-- A load into another register, no flags. -/
def State.loadReg (s : State) (t : Tid) (f : Operand) (g : Thread → Word → Thread) : State × Fate :=
  gotThen (s.operandR t.val f false) fun s1 v => s1.done t.val f (fun h => g h v)

/-- A store of the low bytes of a register (R190). -/
def State.storeReg (s : State) (t : Tid) (f : Operand) (v : Word) : State × Fate :=
  let (seg, ea) := (s.thr t.val).target f
  gotThen (s.stemStore t.val seg ea (leBytes (opBytes f) v.toNat)) fun s1 _ => s1.done t.val f id

/-- The checks of a locked word access (R191, R188): alignment first, then the segment. -/
def State.lockedCheck (s : State) (t : Tid) (f : Operand) (w : Bool) (r : Bool) : Option Fate :=
  let h := s.thr t.val
  let (seg, ea) := h.target f
  if ea % 4 ≠ 0 then some (.trap 4 ea (detailOf 0 w))
  else if (h.sg.get seg).allows h.pl ea 4 r false = false then some (.trap 3 ea (detailOf seg w))
  else if w = true ∧ (h.sg.get seg).allows h.pl ea 4 false true = false then some (.trap 3 ea (detailOf seg true))
  else none

/-- The physical address of a class W, L or V operand. -/
def State.physOf (s : State) (t : Tid) (f : Operand) : Nat :=
  let h := s.thr t.val
  let (seg, ea) := h.target f
  (h.sg.get seg).desc.base + ea

/-- XCH (R205, R307): the word is read and replaced by ACC in one access; a remote window is a bus error with CAUSE 1. -/
def State.exchange (s : State) (t : Tid) (f : Operand) : State × Fate :=
  let ea := ((s.thr t.val).target f).2
  match s.lockedCheck t f true true with
  | some e => (s, e)
  | none =>
    let a := s.physOf t f
    match s.locate a with
    | .remote _ _ => (s.busError 8 33 true 1 a, .trap 5 ea (detailOf 1 true))
    | _ =>
      match s.checkMem (s.who t.val) a 4 true with
      | some (_, c) =>
        let (w1, l, _) := s.route (s.who t.val) a
        (s.refuse w1 l true c a, .trap 5 ea (detailOf c true))
      | none =>
        match s.drainAll t.val with
        | none => (s, .stay)
        | some s0 =>
          gotThen (accGot (s0.busRead t.val a 4) ea 0 false) fun s1 d =>
          gotThen (accGot (s1.busWrite t.val a (leBytes 4 (s.thr t.val).acc.toNat)) ea 0 true) fun s2 _ =>
          s2.done t.val f (fun h => { h with acc := BitVec.ofNat 32 (leVal d) })

/-- The address lies in B0-B17, not through a remote window (R198). -/
def State.inBanks (s : State) (a : Nat) : Bool :=
  match s.locate a with
  | .bank _ _ => true
  | _ => false

/-- LDL and STC to any other target: CAUSE 1 (R198). -/
def State.noLock (s : State) (t : Tid) (f : Operand) (w : Bool) : State × Fate :=
  let a := s.physOf t f
  (s.busError 8 (s.portOf a).1 w 1 a, .trap 5 ((s.thr t.val).target f).2 (detailOf 1 w))

/-- LDL (R198): loads a word and reserves its 64-byte granule. -/
def State.loadLocked (s : State) (t : Tid) (f : Operand) : State × Fate :=
  let ea := ((s.thr t.val).target f).2
  match s.lockedCheck t f false true with
  | some e => (s, e)
  | none =>
    let a := s.physOf t f
    if s.inBanks a = false then s.noLock t f false
    else match s.drainAll t.val with
      | none => (s, .stay)
      | some s0 =>
        gotThen (accGot (s0.busRead t.val a 4) ea 0 false) fun s1 d =>
        let v : Word := BitVec.ofNat 32 (leVal d)
        s1.done t.val f (fun h => { h with acc := v, resv := some (s.storage a / 64 * 64) }.putFlags (znOf v))

/-- STC (R199): after the thread's buffered stores and the older requests of the Stem, whose writes may clear the reservation,
stores ACC when the thread still holds one on the granule; Z says so. The reservation goes either way (R198). -/
def State.storeConditional (s : State) (t : Tid) (f : Operand) : State × Fate :=
  let ea := ((s.thr t.val).target f).2
  match s.lockedCheck t f true true with
  | some e => (s, e)
  | none =>
    let a := s.physOf t f
    if s.inBanks a = false then s.noLock t f true
    else match s.checkMem (s.who t.val) a 4 true with
      | some (_, c) =>
        let (w1, l, _) := s.route (s.who t.val) a
        (s.refuse w1 l true c a, .trap 5 ea (detailOf c true))
      | none =>
        match s.drainAll t.val with
        | none => (s, .stay)
        | some s1 => match s1.enter (s.who t.val) a 4 (s1.onPortA a) with
          | none => (s, .stay)
          | some s0 =>
          if (s0.thr t.val).resv = some (s0.storage a / 64 * 64) then
            gotThen (accGot (s0.busWrite t.val a (leBytes 4 (s.thr t.val).acc.toNat)) ea 0 true) fun s1 _ =>
            s1.done t.val f (fun h => { (h.setFlag pswZ true) with resv := none })
          else s0.done t.val f (fun h => { (h.setFlag pswZ false) with resv := none })

/-- A transfer into ACC with Z and N (R206). -/
def State.toAcc (s : State) (t : Tid) (f : Operand) (v : Word) : State × Fate :=
  s.done t.val f (fun h => { h with acc := v }.putFlags (znOf v))

/-! ### Instructions -/

/-- LD (R205): Loads the operand into ACC, zero-extended. -/
def execLd (t : Tid) (f : Operand) (s : State) : Res := s.issue t 0x01 f (.ld t f) (fun s => s.loadAcc t f false)

/-- LDS (R205): Loads the operand into ACC, sign-extended. -/
def execLds (t : Tid) (f : Operand) (s : State) : Res := s.issue t 0x02 f (.lds t f) (fun s => s.loadAcc t f true)

/-- ST (R205): Stores ACC to the operand. -/
def execSt (t : Tid) (f : Operand) (s : State) : Res := s.issue t 0x03 f (.st t f) (fun s => s.storeReg t f (s.thr t.val).acc)

/-- LDX (R205): Loads X from the operand. -/
def execLdx (t : Tid) (f : Operand) (s : State) : Res := s.issue t 0x04 f (.ldx t f) (fun s => s.loadReg t f (fun h v => { h with x := v }))

/-- LDY (R205): Loads Y from the operand. -/
def execLdy (t : Tid) (f : Operand) (s : State) : Res := s.issue t 0x05 f (.ldy t f) (fun s => s.loadReg t f (fun h v => { h with y := v }))

/-- STX (R205): Stores X. -/
def execStx (t : Tid) (f : Operand) (s : State) : Res := s.issue t 0x06 f (.stx t f) (fun s => s.storeReg t f (s.thr t.val).x)

/-- STY (R205): Stores Y. -/
def execSty (t : Tid) (f : Operand) (s : State) : Res := s.issue t 0x07 f (.sty t f) (fun s => s.storeReg t f (s.thr t.val).y)

/-- LEAX (R205): Sets X to the effective offset. -/
def execLeax (t : Tid) (f : Operand) (s : State) : Res := s.issue t 0x08 f (.leax t f) (fun s => s.done t.val f (fun h => { h with x := BitVec.ofNat 32 ((s.thr t.val).ea f) }))

/-- LEAY (R205): Sets Y to the effective offset. -/
def execLeay (t : Tid) (f : Operand) (s : State) : Res := s.issue t 0x09 f (.leay t f) (fun s => s.done t.val f (fun h => { h with y := BitVec.ofNat 32 ((s.thr t.val).ea f) }))

/-- XCH (R205): Exchanges ACC with a word in one indivisible access. -/
def execXch (t : Tid) (f : Operand) (s : State) : Res := s.issue t 0x0A f (.xch t f) (fun s => s.exchange t f)

/-- TAX (R206): Copies ACC to X. -/
def execTax (t : Tid) (f : Operand) (s : State) : Res := s.issue t 0x38 f (.tax t f) (fun s => s.done t.val f (fun h => { h with x := (s.thr t.val).acc }))

/-- TXA (R206): Copies X to ACC. -/
def execTxa (t : Tid) (f : Operand) (s : State) : Res := s.issue t 0x39 f (.txa t f) (fun s => s.toAcc t f (s.thr t.val).x)

/-- TAY (R206): Copies ACC to Y. -/
def execTay (t : Tid) (f : Operand) (s : State) : Res := s.issue t 0x3A f (.tay t f) (fun s => s.done t.val f (fun h => { h with y := (s.thr t.val).acc }))

/-- TYA (R206): Copies Y to ACC. -/
def execTya (t : Tid) (f : Operand) (s : State) : Res := s.issue t 0x3B f (.tya t f) (fun s => s.toAcc t f (s.thr t.val).y)

/-- TXY (R206): Copies X to Y. -/
def execTxy (t : Tid) (f : Operand) (s : State) : Res := s.issue t 0x3C f (.txy t f) (fun s => s.done t.val f (fun h => { h with y := (s.thr t.val).x }))

/-- LDL (R198): Loads a word and reserves its 64-byte granule. -/
def execLdl (t : Tid) (f : Operand) (s : State) : Res := s.issue t 0x70 f (.ldl t f) (fun s => s.loadLocked t f)

/-- STC (R199): Stores ACC only if the reservation is held, and reports the result in Z. -/
def execStc (t : Tid) (f : Operand) (s : State) : Res := s.issue t 0x71 f (.stc t f) (fun s => s.storeConditional t f)

end Sys2Proof.Machine
end

