-- ==== Sys2Proof/Machine/StemString.lean ====
section
/-! DEFINITION. The Stem's decimal and byte-string instructions (R176, R200, R201). -/

namespace Sys2Proof.Machine

/-- The operand of a decimal instruction at an offset of a segment: 16 bytes in two 8-byte reads (R201). -/
def State.readDecimal (s : State) (t seg ea : Nat) : State × Got Nat :=
  let h := s.thr t
  if (h.sg.get seg).allows h.pl ea 16 true false = false then (s, .trap 3 ea (detailOf seg false))
  else gotBind (s.stemLoad t seg ea 8) (fun s1 a =>
    gotBind (s1.stemLoad t seg ((ea + 8) % 2 ^ 32) 8) (fun s2 b => (s2, .ok (leVal (a ++ b)))))

/-- DADD, DSUB and DCMP (R176, R201): `op` 0 adds, 1 subtracts, 2 compares. The operand that takes the result is checked for both
rights first (R188). -/
def State.decimal (s : State) (t : Tid) (f : Operand) (op : Nat) : State × Fate :=
  let k := t.val
  let h := s.thr k
  let sa := f.seg.toNat
  let sb := f.disp.toNat % 8
  if (h.sg.get sa).allows h.pl h.x.toNat 16 true false = true ∧ op ≠ 2 ∧
      (h.sg.get sa).allows h.pl h.x.toNat 16 true true = false then (s, .trap 3 h.x.toNat (detailOf sa true))
  else
  gotThen (s.readDecimal k sa h.x.toNat) fun s1 a =>
  gotThen (s1.readDecimal k sb h.y.toNat) fun s2 b =>
  match decVal 31 a, decVal 31 b with
  | some i, some j =>
    if op = 2 then
      s2.done k f (fun h => h.putFlags { dv := some false, v := some false, z := some (i == j), n := some (decide (i < j)) })
    else
      let (d, fl) := decimalResult (if op = 0 then i + j else i - j)
      if fl.v = some true ∧ h.flag pswVTE = true then (s2, .trap 7 0 0)
      else gotThen (s2.stemStore k sa h.x.toNat d) fun s3 _ => s3.done k f (fun h => h.putFlags fl)
  | _, _ =>
    if h.flag pswDTE then (s2, .trap 8 0 0) else s2.done k f (fun h => h.setFlag pswDV true)

/-- A step of MOVB or FILL is done: the instruction ends when ACC = 0 (R200). -/
def State.stringStep (s : State) (t : Tid) (g : Thread → Thread) : State × Fate :=
  let s1 := s.onThr t.val g
  (s1, if (s1.thr t.val).acc = 0 then .next else .step)

/-- The bytes that a copy in ascending order writes: one that begins `gap` bytes inside its source repeats the first `gap`
(R200). -/
def repeated (gap : Nat) (d : List Byte) : List Byte :=
  if gap = 0 then d else (List.range d.length).map (fun i => d.getD (i % gap) 0)

/-- One step of MOVB (R200): up to 8 bytes, all read and checked before one is written. -/
def State.movb (s : State) (t : Tid) (f : Operand) : State × Fate :=
  let k := t.val
  let h := s.thr k
  let n := min h.acc.toNat 8
  let sd := f.disp.toNat % 8
  if n = 0 then (s, .next)
  else if (h.sg.get f.seg.toNat).allows h.pl h.x.toNat n true false = false then (s, .trap 3 h.x.toNat (detailOf f.seg.toNat false))
  else if (h.sg.get sd).allows h.pl h.y.toNat n false true = false then (s, .trap 3 h.y.toNat (detailOf sd true))
  else match s.checkMem (s.who k) ((h.sg.get sd).desc.base + h.y.toNat) n true with
    | some (a, c) =>
      let (w1, l, _) := s.route (s.who k) a
      (s.refuse w1 l true c a, .trap 5 h.y.toNat (detailOf c true))
    | none =>
      let rep := BitVec.ofNat 32 n
      let src := s.home ((h.sg.get f.seg.toNat).desc.base + h.x.toNat)
      let dst := s.home ((h.sg.get sd).desc.base + h.y.toNat)
      gotThen (gotBind (s.stemLoad k f.seg.toNat h.x.toNat n) (fun s1 d =>
        s1.stemStore k sd h.y.toNat (repeated (if src < dst ∧ dst < src + n then dst - src else 0) d))) fun s1 _ =>
      s1.stringStep t (fun h => { h with x := h.x + rep, y := h.y + rep, acc := h.acc - rep })

/-- FILL (R200). -/
def State.fill (s : State) (t : Tid) (f : Operand) : State × Fate :=
  let k := t.val
  let h := s.thr k
  let n := min h.acc.toNat 8
  if n = 0 then (s, .next)
  else gotThen (s.stemStore k f.seg.toNat h.y.toNat (List.replicate n (h.x.truncate 8))) fun s1 _ =>
    s1.stringStep t (fun h => { h with y := h.y + BitVec.ofNat 32 n, acc := h.acc - BitVec.ofNat 32 n })

/-- DADD (R176): Adds two 16-byte packed-decimal operands. -/
def execDadd (t : Tid) (f : Operand) (s : State) : Res := s.issue t 0x90 f (.dadd t f) (fun s => s.decimal t f 0)

/-- DSUB (R176): Subtracts two 16-byte packed-decimal operands. -/
def execDsub (t : Tid) (f : Operand) (s : State) : Res := s.issue t 0x91 f (.dsub t f) (fun s => s.decimal t f 1)

/-- DCMP (R176): Compares two packed-decimal operands into the flags. -/
def execDcmp (t : Tid) (f : Operand) (s : State) : Res := s.issue t 0x92 f (.dcmp t f) (fun s => s.decimal t f 2)

/-- MOVB (R200): Copies ACC bytes in interruptible steps of up to 8 bytes. -/
def execMovb (t : Tid) (f : Operand) (s : State) : Res := s.issue t 0x93 f (.movb t f) (fun s => s.movb t f)

/-- FILL (R200): Fills ACC bytes with a byte pattern in interruptible steps. -/
def execFill (t : Tid) (f : Operand) (s : State) : Res := s.issue t 0x94 f (.fill t f) (fun s => s.fill t f)

end Sys2Proof.Machine
end

