-- ==== Sys2Proof/Machine/StemSystem.lean ====
section
/-! DEFINITION. The Stem's system instructions: SYSCALL, TRET, WAIT, SLEEP, FENCE, special registers, LSEG and BKPT (R184, R186, R194, R203, R223, R231, R232). -/

namespace Sys2Proof.Machine

/-! ### SYSCALL and TRET -/

/-- SYSCALL (R223): completes, then enters the target level with trap 0x0A; the saved PC is the next instruction, after
the end of a loop iteration. -/
def State.syscall (s : State) (t : Tid) (f : Operand) : State × Fate :=
  let k := t.val
  let s1 := s.onThr k (fun h => h.advance ((h.pc.toNat + 4) % 2 ^ 32))
  s1.enterTrap k 0x0A f.disp.toNat 0 1 (s1.thr k).pc

/-- The doublewords of a frame read in ascending order; a bus error carries its offset (R228). -/
def State.readFrame (s : State) (t base : Nat) : List Nat → List Byte → State × Got (List Byte)
  | [], acc => (s, .ok acc)
  | off :: rest, acc =>
    gotBind (accGot (s.busRead t (base + off) 8) off 0 false) (fun s1 d => s1.readFrame t base rest (acc ++ d))

/-- TRET (R231, R232): the frame at TSP_L is checked and restored in one step. -/
def State.tret (s : State) (t : Tid) : State × Fate :=
  let k := t.val
  let h := s.thr k
  let l := h.pl
  if l = 0 then (s, .trap 2 0 0)
  else
    let tsp := (h.tsp l).toNat
    let g := s.stackSeg l
    if g.allows l tsp 48 true false = false then (s, .trap 3 tsp 0)
    else match s.drainAll k with
      | none => (s, .stay)
      | some s0 =>
      gotThen (s0.readFrame k g.desc.base [tsp, tsp + 8, tsp + 16, tsp + 24, tsp + 32, tsp + 40] []) fun s1 b =>
      let ws := bytesWords b
      let w := fun i => ws.getD i 0
      let psw := w 1
      let fpl := fld psw 13 12
      let sel := fld (w 10) 31 16
      if fpl = 2 ∨ l < fpl ∨ fld psw 7 5 ≠ 0 ∨ psw.getLsbD 14 = true ∨ fld psw 31 16 ≠ 0 then (s1, .trap 2 0 0)
      else if (w 0).toNat % 4 ≠ 0 then (s1, .trap 4 (w 0).toNat 0)
      else gotThen (s1.segLoad k sel fpl sel 32 true) fun s2 d =>
        (s2.onThr k (fun h =>
          let h1 := h.setTsp l (h.tsp l + 48)
          { h1 with
            psw := psw, acc := w 2, acx := w 3, x := w 4, y := w 5, lc := w 6, ls := w 7, le := w 8
            sg := h.sg.set 0 { sel := BitVec.ofNat 16 sel, desc := d } }), .jump (w 0).toNat)

/-! ### Waiting and fences -/

/-- WAIT (R203): consumes a pending count, or the thread waits for one. -/
def State.waitCount (s : State) (t : Tid) : State × Fate :=
  let k := t.val
  if 0 < s.pend k then ((s.take k 1).onThr k (fun h => h.setFlag pswZ true), .next)
  else (s.onThr k (fun h => { h with st := .waiting, waitFor := .wake }), .next)

/-- SLEEP (R203): operand × 16 clk. -/
def State.sleep (s : State) (t : Tid) (f : Operand) : State × Fate :=
  gotThen (s.operandR t.val f false) fun s1 v =>
  if v = 0 then s1.done t.val f (fun h => h.setFlag pswZ true)
  else s1.done t.val f (fun h => { h with st := .waiting, waitFor := .sleep (s1.clk + v.toNat * 16) })

/-- FENCE (R194): the buffer is empty and every request of the thread has completed. -/
def State.fence (s : State) (t : Tid) : State × Fate :=
  match s.drainAll t.val with
  | none => (s, .stay)
  | some s1 => match s1.flushMaster 8 with
    | none => (s, .stay)
    | some s2 => (s2, .next)

/-! ### Special registers (R183, R184) -/

/-- RDSR (R184). -/
def State.readSpecial (s : State) (t : Tid) (f : Operand) : State × Fate :=
  let h := s.thr t.val
  let r := f.disp.toNat
  match h.special t.val r with
  | none => (s, .trap 1 0 0)
  | some v =>
    if (r = 6 ∧ h.pl ≠ 3) ∨ (r = 5 ∧ h.pl = 0) then (s, .trap 2 0 0)
    else s.done t.val f (fun h => { h with acc := v })

/-- WRSR (R184). -/
def State.writeSpecial (s : State) (t : Tid) (f : Operand) : State × Fate :=
  let h := s.thr t.val
  let v := h.acc
  match f.disp.toNat with
  | 0 =>
    if pswIllegal v then (s, .trap 1 0 0)
    else match pswWrite h.pl h.psw v with
      | none => (s, .trap 2 0 0)
      | some p => s.done t.val f (fun h => { h with psw := p })
  | 1 => s.done t.val f (fun h => { h with acx := v })
  | 2 => s.done t.val f (fun h => { h with lc := v })
  | 3 => s.done t.val f (fun h => { h with ls := v })
  | 4 => s.done t.val f (fun h => { h with le := v })
  | 5 => if h.pl = 0 then (s, .trap 2 0 0) else s.done t.val f (fun h => { h with tspS := v })
  | 6 => if h.pl ≠ 3 then (s, .trap 2 0 0) else s.done t.val f (fun h => { h with tspM := v })
  | _ => (s, .trap 1 0 0)

/-! ### LSEG and BKPT -/

/-- LSEG (R186). -/
def State.lseg (s : State) (t : Tid) (f : Operand) : State × Fate :=
  let h := s.thr t.val
  let k := f.seg.toNat
  let a := h.acc.toNat
  if 2 ^ 16 ≤ a then (s, .trap 3 a (k + 32))
  else gotThen (s.segLoad t.val a h.pl a (k + 32) (k == 0)) fun s1 d =>
    s1.done t.val f (fun h => { h with sg := h.sg.set k { sel := BitVec.ofNat 16 a, desc := d } })

/-- BKPT (R208, R403): a halt of the thread when BKPTHALT is set and the debugger may halt it; else the Breakpoint trap
with the tag in FADDR (R228). -/
def State.breakpoint (s : State) (t : Tid) (f : Operand) : State × Fate :=
  if s.b R.DBG_CTL 1 && s.mayHalt t.val then (s, .halt) else (s, .trap 9 f.disp.toNat 0)

/-! ### Instructions -/

/-- SYSCALL (R223): Enters the Supervisor handler with the service number in FADDR. -/
def execSyscall (t : Tid) (f : Operand) (s : State) : Res := s.issue t 0x60 f (.syscall t f) (fun s => s.syscall t f)

/-- TRET (R232): Checks the trap frame and restores the thread state from it in one step. -/
def execTret (t : Tid) (f : Operand) (s : State) : Res := s.issue t 0x61 f (.tret t f) (fun s => s.tret t)

/-- WAIT (R203): Consumes one wake count, or waits until one arrives. -/
def execWait (t : Tid) (f : Operand) (s : State) : Res := s.issue t 0x62 f (.wait t f) (fun s => s.waitCount t)

/-- FENCE (R194): Waits until the store buffer is empty and every request of the thread has completed. -/
def execFence (t : Tid) (f : Operand) (s : State) : Res := s.issue t 0x63 f (.fence t f) (fun s => s.fence t)

/-- RDSR (R184): Copies a special register to ACC. -/
def execRdsr (t : Tid) (f : Operand) (s : State) : Res := s.issue t 0x64 f (.rdsr t f) (fun s => s.readSpecial t f)

/-- WRSR (R184): Copies ACC to a special register, subject to the level rules. -/
def execWrsr (t : Tid) (f : Operand) (s : State) : Res := s.issue t 0x65 f (.wrsr t f) (fun s => s.writeSpecial t f)

/-- LSEG (R186): Loads a segment register from the descriptor table after the checks. -/
def execLseg (t : Tid) (f : Operand) (s : State) : Res := s.issue t 0x66 f (.lseg t f) (fun s => s.lseg t f)

/-- SLEEP (R203): Waits for the operand × 16 clk. -/
def execSleep (t : Tid) (f : Operand) (s : State) : Res := s.issue t 0x67 f (.sleep t f) (fun s => s.sleep t f)

/-- BKPT (R208): Raises the Breakpoint trap, or a debug halt when BKPTHALT is set. -/
def execBkpt (t : Tid) (f : Operand) (s : State) : Res := s.issue t 0xF0 f (.bkpt t f) (fun s => s.breakpoint t f)

end Sys2Proof.Machine
end

