-- ==== Sys2Proof/Machine/StemVector.lean ====
section
/-! DEFINITION. VISSUE, VWAIT, VPOLL and VCANCEL (R106-R108, R117, R202). -/

namespace Sys2Proof.Machine

/-- What a step of an issue answers, as an instruction meets it. -/
def chkGot {α : Type} (r : State × Chk α) (k : State → Nat × Nat × Nat → State × Fate) (ok : State → α → State × Fate) :
    State × Fate :=
  match r with
  | (s, .ok a) => ok s a
  | (s, .fault c f a) => k s (c, f, a)
  | (s, .need dv w n a d) => (s, .need dv w n a d)
  | (s, .wait) => (s, .stay)

/-- The outcome of VISSUE in ACC, with Z for admitted, deferred and DONE (R107, R202). -/
def State.outcome (s : State) (t : Tid) (f : Operand) (o : Outcome) : State × Fate :=
  let z := match o with
    | .admitted _ => true
    | .deferred _ => true
    | .done => true
    | _ => false
  s.done t.val f (fun h => { (h.setFlag pswZ z) with acc := BitVec.ofNat 32 o.acc })

/-- FROND of STAT at issue (R85): BASE, or 0 when ANY = 1. -/
def issueFrond (acc : Nat) : Nat := if acc / 8 % 2 = 1 then 0 else acc % 8

/-- The words of a VJD written at issue (R107), by the Stem. -/
def State.issueWrite (s : State) (vjd word : Nat) (vals : List Nat) : State :=
  (s.post { master := 8, machine := true } (vjd + 4 * word) (vals.flatMap (leBytes 4))).1

/-- A fault found at issue: words 3 to 6 (R107). -/
def State.issueFault (s : State) (t : Tid) (f : Operand) (vjd acc : Nat) (ws : List Word) (e : Nat × Nat × Nat) :
    State × Fate :=
  (s.issueWrite vjd 3 [vw ws 3, statWord 6 e.1 (statFlags ws) (issueFrond acc), e.2.2, e.2.1]).outcome t f (.fault e.1)

/-- VISSUE (R108): capture, BUSY, the checks, DONE, and the ledger's answer. -/
def State.vissue (s : State) (t : Tid) (f : Operand) : State × Fate :=
  let k := t.val
  let h := s.thr k
  let (seg, ea) := h.target f
  let acc := h.acc.toNat
  let sg1 := (h.sg.get 1).sel.toNat
  match s.drainAll k with
  | none => (s, .stay)
  | some s0 =>
    match s0.flushMaster 8 with
    | none => (s, .stay)
    | some s00 =>
    chkGot (s00.readVjd (s.who k) h.answers h.pl (h.sg.get seg).sel.toNat ea) (fun s1 e => s1.outcome t f (.fault e.1))
      fun s1 r =>
      let (vjd, vsegs, ws) := r
      if (s1.jobAt vjd).isSome then s1.outcome t f .busy
      else
        chkGot (s1.checkJob (s.who k) h.answers ws acc vjd h.pl sg1 vsegs) (fun s2 e => s2.issueFault t f vjd acc ws e)
          fun s2 c =>
          if c.done then
            ((s2.issueWrite vjd 4 [statWord 5 0 (statFlags ws) (issueFrond acc)]).completionSpore ws h.pl).outcome t f .done
          else
            let (s3, o) := s2.askLedger c acc vjd sg1 h.pl (some k)
            s3.outcome t f o

/-- The VJD that VWAIT, VPOLL and VCANCEL name (R202): a 128-byte read through SG(s), a multiple of 64. -/
def State.vjdOf (s : State) (t : Tid) (f : Operand) : State × Got Nat :=
  let h := s.thr t.val
  let (seg, ea) := h.target f
  let g := h.sg.get seg
  if g.allows h.pl ea 128 true false = false then (s, .trap 3 ea (detailOf seg false))
  else if ea % 64 ≠ 0 then (s, .trap 4 ea 0)
  else match s.checkMem (s.who t.val) (g.desc.base + ea) 128 false with
    | some (a, c) =>
      let (w1, l, _) := s.route (s.who t.val) a
      (s.refuse w1 l false c a, .trap 5 ea (detailOf c false))
    | none => (s, .ok (g.desc.base + ea))

/-- STAT as written in a VJD. -/
def State.statAt (s : State) (t : Tid) (vjd ea : Nat) : State × Got Nat :=
  gotBind (accGot (s.busRead t.val (vjd + 16) 4) ea 0 false) (fun s1 d => (s1, .ok (leVal d)))

/-- The live STAT of a job in flight (R85). -/
def Job.liveStat (j : Job) : Nat :=
  match j.st with
  | .held => statWord 1 0 j.flags j.base
  | .queued => statWord 2 0 j.flags j.base
  | .running => statWord 3 0 j.flags j.base
  | .carried => statWord 4 14 j.flags j.base
  | .armed => statWord 7 0 j.flags j.base

/-- VWAIT (R202): waits until the job is not in flight, then answers STAT as written. -/
def State.vwait (s : State) (t : Tid) (f : Operand) : State × Fate :=
  let ea := ((s.thr t.val).target f).2
  gotThen (s.vjdOf t f) fun s1 vjd =>
  if (s1.jobAt vjd).isSome then (s1.onThr t.val (fun h => { h with st := .waiting, waitFor := .job vjd }), .step)
  else gotThen (s1.statAt t vjd ea) fun s2 v =>
    s2.done t.val f (fun h => { (h.setFlag pswZ (v % 8 == 5)) with acc := BitVec.ofNat 32 v })

/-- VPOLL (R202). -/
def State.vpoll (s : State) (t : Tid) (f : Operand) : State × Fate :=
  let ea := ((s.thr t.val).target f).2
  gotThen (s.vjdOf t f) fun s1 vjd =>
  match s1.jobAt vjd with
  | some j => s1.done t.val f (fun h => { (h.setFlag pswZ false) with acc := BitVec.ofNat 32 j.liveStat })
  | none => gotThen (s1.statAt t vjd ea) fun s2 v =>
    s2.done t.val f (fun h => { (h.setFlag pswZ true) with acc := BitVec.ofNat 32 v })

/-- VCANCEL (R115, R117, R202): a job whose last element has committed completes, and is not in flight. -/
def State.vcancel (s : State) (t : Tid) (f : Operand) : State × Fate :=
  match s.drainAll t.val with
  | none => (s, .stay)
  | some s0 =>
    gotThen (s0.vjdOf t f) fun s1 vjd =>
    match s1.jobAt vjd with
    | some j =>
      if j.finished then (s1.completeJob j).done t.val f (fun h => { (h.setFlag pswZ false) with acc := 1 })
      else (s1.cancelJob j).done t.val f (fun h => { (h.setFlag pswZ true) with acc := 0 })
    | none => s1.done t.val f (fun h => { (h.setFlag pswZ false) with acc := 1 })

/-- VISSUE (R108): The instruction captures a VJD, checks it in order and asks the ledger for admission, then returns the outcome in ACC. -/
def execVissue (t : Tid) (f : Operand) (s : State) : Res := s.issue t 0x80 f (.vissue t f) (fun s => s.vissue t f)

/-- VWAIT (R202): Waits until the named job is not in flight and returns its STAT. -/
def execVwait (t : Tid) (f : Operand) (s : State) : Res := s.issue t 0x81 f (.vwait t f) (fun s => s.vwait t f)

/-- VPOLL (R202): Returns the live or written STAT of the named job without waiting. -/
def execVpoll (t : Tid) (f : Operand) (s : State) : Res := s.issue t 0x82 f (.vpoll t f) (fun s => s.vpoll t f)

/-- VCANCEL (R117): Cancels the named job according to its state. -/
def execVcancel (t : Tid) (f : Operand) (s : State) : Res := s.issue t 0x83 f (.vcancel t f) (fun s => s.vcancel t f)

end Sys2Proof.Machine
end

