-- ==== Sys2Proof/Machine/StemAgain.lean ====
section
/-! DEFINITION. The instruction that a thread has in progress, run again when a remote response has come (R194, R307). -/

namespace Sys2Proof.Machine

/-- The instruction that waits for a response goes on with the answers received. -/
def State.runAgain (s : State) (i : Instr) : Res :=
  match i with
  | .vissue t f => execVissue t f s
  | .ld t f => execLd t f s
  | .lds t f => execLds t f s
  | .st t f => execSt t f s
  | .ldx t f => execLdx t f s
  | .ldy t f => execLdy t f s
  | .stx t f => execStx t f s
  | .sty t f => execSty t f s
  | .leax t f => execLeax t f s
  | .leay t f => execLeay t f s
  | .xch t f => execXch t f s
  | .add t f => execAdd t f s
  | .adc t f => execAdc t f s
  | .sub t f => execSub t f s
  | .sbc t f => execSbc t f s
  | .and t f => execAnd t f s
  | .or t f => execOr t f s
  | .xor t f => execXor t f s
  | .cmp t f => execCmp t f s
  | .tst t f => execTst t f s
  | .addx t f => execAddx t f s
  | .addy t f => execAddy t f s
  | .cmpx t f => execCmpx t f s
  | .cmpy t f => execCmpy t f s
  | .mul t f => execMul t f s
  | .mulu t f => execMulu t f s
  | .div t f => execDiv t f s
  | .divu t f => execDivu t f s
  | .mull t f => execMull t f s
  | .shl t f => execShl t f s
  | .shr t f => execShr t f s
  | .sar t f => execSar t f s
  | .rol t f => execRol t f s
  | .ror t f => execRor t f s
  | .neg t f => execNeg t f s
  | .not t f => execNot t f s
  | .abs t f => execAbs t f s
  | .tax t f => execTax t f s
  | .txa t f => execTxa t f s
  | .tay t f => execTay t f s
  | .tya t f => execTya t f s
  | .txy t f => execTxy t f s
  | .swapb t f => execSwapb t f s
  | .clz t f => execClz t f s
  | .jmp t f => execJmp t f s
  | .jeq t f => execJeq t f s
  | .jne t f => execJne t f s
  | .jlt t f => execJlt t f s
  | .jge t f => execJge t f s
  | .jltu t f => execJltu t f s
  | .jgeu t f => execJgeu t f s
  | .jvs t f => execJvs t f s
  | .jvc t f => execJvc t f s
  | .jmi t f => execJmi t f s
  | .jpl t f => execJpl t f s
  | .call t f => execCall t f s
  | .ret t f => execRet t f s
  | .jxnz t f => execJxnz t f s
  | .loop t f => execLoop t f s
  | .lexit t f => execLexit t f s
  | .syscall t f => execSyscall t f s
  | .tret t f => execTret t f s
  | .wait t f => execWait t f s
  | .fence t f => execFence t f s
  | .rdsr t f => execRdsr t f s
  | .wrsr t f => execWrsr t f s
  | .lseg t f => execLseg t f s
  | .sleep t f => execSleep t f s
  | .ldl t f => execLdl t f s
  | .stc t f => execStc t f s
  | .vwait t f => execVwait t f s
  | .vpoll t f => execVpoll t f s
  | .vcancel t f => execVcancel t f s
  | .dadd t f => execDadd t f s
  | .dsub t f => execDsub t f s
  | .dcmp t f => execDcmp t f s
  | .movb t f => execMovb t f s
  | .fill t f => execFill t f s
  | .bkpt t f => execBkpt t f s
  | .illegal t w => execIllegal t w s
  | .trapEntry t => execTrapEntry t s
  | _ => .next s

end Sys2Proof.Machine
end

