-- ==== Sys2Proof/Machine/Serve.lean ====
section
/-! DEFINITION. Remote operations at both ends (R305-R310, R316): inbound requests served as master 11 and answered, packets
passed on, responses and timeouts that complete this device's own requests, and what a port's RESYNC or fall ends. -/

namespace Sys2Proof.Machine

/-! ### What goes on when a response has come -/

/-- The state that an instruction leaves. -/
def stateOf (s : State) (r : Res) : State :=
  match r with
  | .next s1 => s1
  | _ => s

/-- A thread whose remote access is answered runs its instruction on. -/
def State.resumeThread (s : State) (t : Nat) : State :=
  match (s.thr t).remote with
  | some r => if r.tag = none ∧ r.answers ≠ [] then stateOf s (s.runAgain r.instr) else s
  | none => s

/-- A debug read of FAB_ATOMn RES_LO that waited completes when BUSY has cleared (R310, R399). -/
def State.resumeDebug (s : State) : State :=
  match s.dbg.waitRead with
  | none => s
  | some off =>
    match s.csRead .debug off 4 with
    | (s1, .ok v) => (s1.dbgDone 0 v).onDbg (fun d => { d with waitRead := none })
    | (s1, .err c) => ((s1.busError 15 30 false c (csBase + off)).dbgDone 1 0).onDbg (fun d => { d with waitRead := none })
    | (_, .wait) => s

/-- The host as a master: never Machine origin (R50). -/
def hostWho : Who := { master := 12 }

/-- The lines of a memory request in order: it stops at the first that fails, and waits at one for a remote device. For a read,
`acc` holds the bytes so far; for a write, those still to write. -/
def State.usbLines (s : State) (tag : Nat) (write : Bool) : List (Nat × Nat) → List Byte → State
  | [], acc => s.emit (.usb 0 tag (if write then [] else acc))
  | (a, n) :: t, acc =>
    match (if write then s.writeNow hostWho a (acc.take n) else s.readNow hostWho a n) with
    | (s1, .ok d) => s1.usbLines tag write t (if write then acc.drop n else acc ++ d)
    | (s1, .need dev w k _ d) =>
      (s1.request .usb (b2n write) dev k w d false false 0).1.onHost (fun h =>
        { h with usb := some { tag := tag, write := write, todo := (a, n) :: t, data := acc } })
    | (s1, .control _) =>
      let (m, c) := s1.controlRefusal hostWho a write
      (s1.busError m 30 write c a).emit (.usb 1 tag (if write then [] else acc))
    | (s1, _) => s1.emit (.usb 1 tag (if write then [] else acc))

/-- A memory request goes on with the answer of a remote device. -/
def State.resumeUsb (s : State) : State :=
  match s.host.usb with
  | some u =>
    (match u.answer, u.todo with
      | some (0, d), (_, n) :: t =>
        (s.onHost (fun h => { h with usb := none })).usbLines u.tag u.write t (if u.write then u.data.drop n else u.data ++ d)
      | some _, _ => (s.onHost (fun h => { h with usb := none })).emit (.usb 1 u.tag (if u.write then [] else u.data))
      | none, _ => s)
  | none => s

/-- The register writes whose descriptor has come complete, oldest first (R51). -/
def State.resumeCtl (s : State) : State :=
  (s.each (s.ctlWaits.filter (fun w => w.tag.isNone)) (fun s w =>
    match s.ctlWrite (.control w.origin) w.off 4 w.val with
    | (s1, none) => if w.origin = .debug then s1.dbgDone 0 0 else s1
    | (s1, some c) =>
      let s2 := (s1.busError (originMaster w.origin) 30 true c (csBase + w.off)).emit (.busError c)
      if w.origin = .debug then s2.dbgDone 1 0 else s2)).onCtl (fun l => l.filter (fun w => w.tag.isSome))

/-- The device of a remote window that an access of the host may use. -/
def State.hostRemote (s : State) (a : Nat) : Option Nat :=
  match s.route hostWho a with
  | (_, .remote d _, _) => if s.remoteOk d then some d else none
  | _ => none

/-- A read of the host that this device answers itself: data, or an error that the window logs (R331). -/
def State.hostLocal (s : State) (a n : Nat) : State :=
  match s.readNow hostWho a n with
  | (s1, .ok b) => s1.emit (.readCompletion 0 b)
  | (s1, .err c) => (s1.winError (c + 2) a false).emit (.readCompletion 2 [])
  | (s1, _) =>
    let (m, c) := s1.controlRefusal hostWho a false
    ((s1.busError m 30 false c a).winError (c + 2) a false).emit (.readCompletion 2 [])

/-- Line requests of the host's reads outstanding at other devices. -/
def State.hostLines (s : State) : Nat :=
  ((s.fabric.outstanding.filter (fun o => match o.user with | .host _ => true | _ => false)).map (fun o => o.lines)).sum

/-- Remote reads of the host leave in order, as long as at most 32 line requests are outstanding (R74). -/
def State.hostReads (s : State) : List (Nat × Nat) → State
  | [] => s.onHost (fun h => { h with reads := [] })
  | (a, n) :: t =>
    if 32 < s.hostLines + (pieces a n).length then s.onHost (fun h => { h with reads := (a, n) :: t })
    else match s.hostRemote a with
      | some d => ((s.request (.host n) 0 d n (a % remoteSize) [] false false 0).1).hostReads t
      | none => (s.hostLocal a n).hostReads t

/-- Everything that waited for a remote response goes on. -/
def State.resumeAll (s : State) : State :=
  let s1 := (s.each (List.range 8) (fun s t => s.resumeThread t)).resumeDebug.resumeUsb.resumeCtl
  if s1.host.reads = [] then s1 else s1.hostReads s1.host.reads

/-! ### Inbound requests (R308) -/

/-- One line request of an inbound READ: STATUS and data. -/
def State.serveRead (s : State) (machine : Bool) (a n : Nat) : State × Nat × List Byte :=
  match s.readNow { master := 11, machine := machine } a n with
  | (s1, .ok d) => (s1, 0, d)
  | (s1, .err c) => (s1, statusOf c, [])
  | (s1, .control off) =>
    (match s1.ctlRead (.control (.lichen machine)) off n with
      | (s2, .ok v) => (s2, 0, leBytes 4 v.toNat)
      | (s2, .err c) => (s2.busError 11 30 false c a, statusOf c, [])
      | (s2, .wait) => (s2, 9, []))
  | (s1, _) => (s1, 1, [])

/-- One line request of an inbound WRITE: STATUS. -/
def State.serveWrite (s : State) (machine : Bool) (a : Nat) (d : List Byte) : State × Nat :=
  match s.writeNow { master := 11, machine := machine } a d with
  | (s1, .ok _) => (s1, 0)
  | (s1, .err c) => (s1, statusOf c)
  | (s1, .control off) =>
    (match s1.ctlWrite (.control (.lichen machine)) off d.length (BitVec.ofNat 32 (leVal d)) with
      | (s2, none) => (s2, 0)
      | (s2, some c) => (s2.busError 11 30 true c a, statusOf c))
  | (s1, _) => (s1, 1)

/-- The line requests of a READ in ascending order: the first failure's STATUS, and the data. -/
def State.serveReads (s : State) (machine : Bool) : List (Nat × Nat) → Nat → List Byte → State × Nat × List Byte
  | [], st, acc => (s, st, acc)
  | (a, n) :: t, st, acc =>
    match s.serveRead machine a n with
    | (s1, st1, d) => s1.serveReads machine t (if st = 0 then st1 else st) (acc ++ d)

/-- The line requests of a WRITE in ascending order: the first failure's STATUS. -/
def State.serveWrites (s : State) (machine : Bool) : List (Nat × Nat) → List Byte → Nat → State × Nat
  | [], _, st => (s, st)
  | (a, n) :: t, d, st =>
    match s.serveWrite machine a (d.take n) with
    | (s1, st1) => s1.serveWrites machine t (d.drop n) (if st = 0 then st1 else st)

/-- The RESP of a request (R294, R305): it goes back to the requester; LATE is copied, or set where a
line request waited more than MTX_LATE.WAIT clk for its grant (R78). -/
def State.respond (s : State) (p : Nat) (k : Packet) (status : Nat) (data : List Byte) (waited : Nat) : State :=
  s.passOn p
    { op := 3, vc := 2, dst := k.src, src := s.srcId, late := k.late || decide (s.f R.MTX_LATE 15 0 < waited), morg := false, sub := BitVec.ofNat 2 status
      hi := decide (4 ≤ status), len := BitVec.ofNat 12 data.length, tag := k.tag, addr := k.addr, payload := data }

/-- A request packet taken in: one of another kind, or that breaks the field rules, is discarded and counted; one for another
device goes on, or is answered with STATUS 3 where no route is (R294, R306); one for this device is served. -/
def State.inbound (s : State) (p : Nat) (k : Packet) (op : Nat) (serve : State → State) : State :=
  if s.running = false then s
  else if k.op.toNat ≠ op ∨ pktValid k = false ∨ s.fabEn = false then (s.takeRx p k).dropPacket p 1
  else if s.isMine k then serve s
  else
    let s1 := s.takeRx p k
    (s1.sendOn k).getD (s1.respond p k 3 [] 0)

/-- READ at the serving device. A read of FAB_ATOMn RES_LO waits while BUSY (R310). -/
def State.remoteRead (s : State) (p : Nat) (k : Packet) (waited : Nat) : State :=
  s.inbound p k 0 (fun s =>
    match (s.takeRx p k).serveReads k.morg (pieces k.addr.toNat k.len.toNat) 0 [] with
    | (s1, st, d) => if st = 9 then s else (s1.respond p k st (if st = 0 then d else []) waited).resumeAll)

/-- REMOTE_READ (R308). -/
def execRemoteRead (port : Fin 4) (pkt : Packet) (waited : Nat) (s : State) : Res := .next (s.remoteRead port.val pkt waited)

/-- WRITE at the serving device: answered after every line has taken effect. -/
def State.remoteWrite (s : State) (p : Nat) (k : Packet) (waited : Nat) : State :=
  s.inbound p k 1 (fun s =>
    match (s.takeRx p k).serveWrites k.morg (pieces k.addr.toNat k.payload.length) k.payload 0 with
    | (s1, st) => (s1.respond p k st [] waited).resumeAll)

/-- REMOTE_WRITE (R308). -/
def execRemoteWrite (port : Fin 4) (pkt : Packet) (waited : Nat) (s : State) : Res := .next (s.remoteWrite port.val pkt waited)

/-- ATOMIC at the serving device. -/
def State.remoteAtomic (s : State) (p : Nat) (k : Packet) (waited : Nat) : State :=
  s.inbound p k 2 (fun s =>
    match (s.takeRx p k).atomicAt k.morg k.addr.toNat k.sub.toNat k.hi k.payload with
    | (s1, st, d) => s1.respond p k st d waited)

/-- REMOTE_ATOMIC (R308). -/
def execRemoteAtomic (port : Fin 4) (pkt : Packet) (waited : Nat) (s : State) : Res := .next (s.remoteAtomic port.val pkt waited)

/-! ### Packets that nothing answers -/

/-- A packet taken from its port: discarded and counted, passed on, or taken here. -/
def State.oneWay (s : State) (p : Nat) (k : Packet) (op : Nat) (take : State → State) : State :=
  if s.running = false then s
  else
    let s1 := s.takeRx p k
    if k.op.toNat ≠ op ∨ pktValid k = false ∨ s.fabEn = false then s1.dropPacket p 1
    else if s.isMine k then take s1 else s1.passOn p k

/-- The bytes of a COPY packet belong to the region that is being copied. -/
def State.ofRegion (s : State) (k : Packet) : Bool :=
  let r := s.fabric.regions.getD (s.f R.FAB_REJSTAT 4 1) {}
  s.b R.FAB_REJSTAT 0 && k.src.toNat == r.srcDev && decide (r.addr ≤ k.addr.toNat) && decide (k.addr.toNat < r.addr + r.len)

/-- COPY at its destination (R316). -/
def State.copyIn (s : State) (k : Packet) : State :=
  let s1 := (s.serveWrites k.morg (pieces k.addr.toNat k.payload.length) k.payload 0).1
  if s.ofRegion k then s1.copyProgress k.payload.length else s1

/-- COPY (R316). -/
def execCopy (port : Fin 4) (pkt : Packet) (s : State) : Res := .next (s.oneWay port.val pkt 7 (fun s => s.copyIn pkt))

/-- SPORE (R253, R310): ADDR holds the channel, the hop count and SEC. -/
def execSpore (port : Fin 4) (pkt : Packet) (s : State) : Res :=
  .next (s.oneWay port.val pkt 4 (fun s =>
    s.remoteArrive (pkt.addr.toNat % 256) (pkt.addr.toNat / 256 % 16) (pkt.addr.getLsbD 12) pkt.src.toNat))

/-- A RESP for this device: its request completes; one without a request came after its timeout and is a packet discarded at its
port (R309). -/
def State.takeResp (s : State) (p : Nat) (k : Packet) : State :=
  match s.fabric.outstanding.find? (fun o => o.tag == k.tag.toNat) with
  | none => (s.dropPacket p 1).onFab (fun f => { f with lateResponses := f.lateResponses + 1 })
  | some o => (s.complete o (k.sub.toNat + b2n k.hi * 4) k.payload k.late).resumeAll

/-- REMOTE_RESP (R307). -/
def execRemoteResp (port : Fin 4) (pkt : Packet) (s : State) : Res :=
  .next (s.oneWay port.val pkt 3 (fun s => s.takeResp port.val pkt))

/-! ### Timeouts, RESYNC, and the fall of a port -/

/-- A request that has no response within FAB_RSPTO µs completes with STATUS 4 (R309). -/
def State.responseTimeout (s : State) (tag : Nat) : State :=
  match s.fabric.outstanding.find? (fun o => o.tag == tag) with
  | none => s
  | some o => (((s.untilTime (o.since + usTime (s.f R.FAB_RSPTO 15 0))).complete o 4 [] false).fabInt 10).resumeAll

/-- RESPONSE_TIMEOUT (R309). -/
def execResponseTimeout (tag : BitVec 12) (s : State) : Res := .next (s.responseTimeout tag.toNat)

/-- RESYNC (R298, R301): its arrival shows that lock is regained, and this port's own RESYNC leaves if it has not; the accounts are
restored and the port is UP, or the retrain fails. -/
def State.resync (s : State) (p : Nat) (h : LinkHeader) (acct : List (Nat × Nat)) (next : Nat) : State :=
  if s.lnkState p ≠ 5 then s
  else match ((s.sendResync p).takeHeader p { h with nak := false }).resyncOk p acct next with
    | some s1 => s1
    | none => (s.failRetrain p).resumeAll

/-- RESYNC. -/
def execResync (port : Fin 4) (hdr : LinkHeader) (state : List (Nat × Nat) × BitVec 12) (s : State) : Res :=
  .next (s.resync port.val hdr state.1 state.2.toNat)

/-- RETRAIN_TIMEOUT (R291): 20 µs in RETRAIN without RESYNC. -/
def execRetrainTimeout (port : Fin 4) (s : State) : Res :=
  .next (if s.lnkState port.val = 5 then
    ((s.untilTime ((s.lnk port.val).retrainAt + usTime 20)).failRetrain port.val).resumeAll else s)

/-- LINK_DOWN (R291, R299): loss of signal. -/
def execLinkDown (port : Fin 4) (s : State) : Res := .next (s.linkDown port.val).resumeAll

end Sys2Proof.Machine
end

