-- ==== Sys2Proof/Machine/Rows.lean ====
section
/-! DEFINITION. The commands that are one access to control space: each write that has a row of its own, every other register
write, reads that clear, and an access of the debug port (R4, R51, R79, R399). -/

namespace Sys2Proof.Machine

/-! ### How an access ends -/

/-- The master of a path reaches the register now: the debug port while it has clocks, the others in a running mode. -/
def State.reaches (s : State) : Origin → Bool
  | .debug => s.portAlive && s.dbg.status != 3
  | _ => s.running

/-- The host reaches the function: a mode with clocks, and the PCIe tunnel up (R322, R334). -/
def State.hostUp (s : State) : Bool := s.running && s.b R.HIF_LINK 3

/-- A refused access: the bus error is logged and answered (R51, R79). -/
def State.refused (s : State) (o : Origin) (write : Bool) (c off : Nat) : State :=
  let s1 := (s.busError (originMaster o) 30 write c (csBase + off)).emit (.busError c)
  if o = .debug then s1.dbgDone 1 0 else s1

/-- A write accepted or refused. -/
def State.wrote (o : Origin) (off : Nat) (r : State × Option Nat) : State :=
  match r with
  | (s, none) => (if o = .debug then s.dbgDone 0 0 else s).resumeAll
  | (s, some c) => s.refused o true c off

/-- A debug access that the level held does not allow is denied (R400). -/
def State.dbgDenies (s : State) (o : Origin) (off : Nat) : Bool := o == .debug && !s.debugAllows (csBase + off)

/-- Every older request of the master has completed, a thread's buffered stores among them (R51, R194); none: one of them must
wait. -/
def State.olderDone (s : State) : Origin → Option State
  | .thread t => (s.drainAll t.val).bind (fun s1 => s1.flushMaster 8)
  | .debug => s.flushMaster 15
  | .lichen _ => some s

/-- A write meets the register once the older requests of its master have completed (R51). One that reads a descriptor of another
device waits for that (R209, R225, R226). -/
def State.sizedWrite (s : State) (o : Origin) (off size : Nat) (v : Word) : State :=
  if s.reaches o = false then s
  else if s.dbgDenies o off then s.dbgDone 2 0
  else match s.olderDone o with
    | none => s
    | some s1 => match (if size = 4 then s1.descAsk o off v else none) with
      | some (d, x, _) =>
        let (s2, tag) := s1.request .control 0 d 16 x [] true false 0
        (if o = .debug then s2.dbgDone 3 0 else s2).onCtl (fun l => l ++ [{ origin := o, off := off, val := v, tag := some tag }])
      | none => State.wrote o off (s1.ctlWrite (.control o) off size v)

/-- One write of a register by a master. -/
def State.regWrite (s : State) (o : Origin) (off : Nat) (v : Word) : State := s.sizedWrite o off 4 v

/-- One read of a register by a master, once its older requests have completed: its value is an output. -/
def State.regRead (s : State) (o : Origin) (off : Nat) : State :=
  if s.reaches o = false then s
  else if s.dbgDenies o off then s.dbgDone 2 0
  else match s.olderDone o with
    | none => s
    | some s0 => match s0.ctlRead (.control o) off 4 with
      | (s1, .ok v) => if o = .debug then (s1.dbgDone 0 v).emit (.readData v) else s1.emit (.readData v)
      | (s1, .err c) => s1.refused o false c off
      | (s1, .wait) => if o = .debug then (s1.dbgDone 3 0).onDbg (fun d => { d with waitRead := some off }) else s1

/-! ### Writes with a row of their own -/

/-- PWR_RST (R432). -/
def execPwrRst (o : Origin) (v : Word) (s : State) : Res := .next (s.regWrite o R.PWR_RST v)

/-- MODE_REQUEST: PWR_MODEREQ (R437). -/
def execModeRequest (o : Origin) (v : Word) (s : State) : Res := .next (s.regWrite o R.PWR_MODEREQ v)

/-- CLKDIV_CHANGE: PWR_CLKDIV (R431). -/
def execClkdivChange (o : Origin) (v : Word) (s : State) : Res := .next (s.regWrite o R.PWR_CLKDIV v)

/-- FLUSHQ: FRDn_CTL (R117). -/
def execFlushq (o : Origin) (frond : Fin 8) (v : Word) (s : State) : Res := .next (s.regWrite o (R.FRD_CTL frond.val) v)

/-- ERROR_INJECT_SBE: BANKn_ERRINJ.SBE (R80). -/
def execErrorInjectSbe (o : Origin) (bank : Fin 18) (s : State) : Res := .next (s.regWrite o (R.BANK_ERRINJ bank.val) 1)

/-- ERROR_INJECT_DBE: BANKn_ERRINJ.DBE (R80). -/
def execErrorInjectDbe (o : Origin) (bank : Fin 18) (s : State) : Res := .next (s.regWrite o (R.BANK_ERRINJ bank.val) 2)

/-- DDR_RETRAIN_REQUEST: DDRn_CTL (R69). -/
def execDdrRetrainRequest (o : Origin) (chan : Fin 12) (v : Word) (s : State) : Res := .next (s.regWrite o (R.DDR_CTL chan.val) v)

/-- THREAD_START: STMn_CTL (R209). -/
def execThreadStart (o : Origin) (t : Tid) (v : Word) (s : State) : Res := .next (s.regWrite o (R.STM_CTL t.val) v)

/-- THREAD_STOP: STMn_CTL (R209). -/
def execThreadStop (o : Origin) (t : Tid) (v : Word) (s : State) : Res := .next (s.regWrite o (R.STM_CTL t.val) v)

/-- SPC_TRIG (R256). -/
def execSpcTrig (o : Origin) (v : Word) (s : State) : Res := .next (s.regWrite o R.SPC_TRIG v)

/-- PMC_THAW: PMC_CTL (R422). -/
def execPmcThaw (o : Origin) (v : Word) (s : State) : Res := .next (s.regWrite o R.PMC_CTL v)

/-- PMC_COUNTER_WRITE: PMC_LO or PMC_HI, with the amount the counter takes in the clk of the write (R421). -/
def execPmcCounterWrite (o : Origin) (n : Fin 64) (high : Bool) (v : Word) (amount : Nat) (s : State) : Res :=
  let off := if high then R.PMC_HI n.val else R.PMC_LO n.val
  .next (
    if s.reaches o = false then s
    else if s.dbgDenies o off then s.dbgDone 2 0
    else match s.olderDone o with
      | none => s
      | some s0 => match s0.ctlWrite (.control o) off 4 v with
        | (_, none) => let r := s0.writePmcCount n.val high v amount; State.wrote o off (r.1.accessDone, r.2)
        | r => State.wrote o off r)

/-- SIM_FLIP: SIM_CTL (R275). -/
def execSimFlip (o : Origin) (v : Word) (s : State) : Res := .next (s.regWrite o R.SIM_CTL v)

/-- GCL_CHANGE: ETHe_GCLCTL (R262). -/
def execGclChange (o : Origin) (port : Fin 2) (v : Word) (s : State) : Res := .next (s.regWrite o (R.ETH_GCLCTL port.val) v)

/-- LNK_RETRAIN_REQUEST: LNKp_CTL (R291). -/
def execLnkRetrainRequest (o : Origin) (port : Fin 4) (v : Word) (s : State) : Res := .next (s.regWrite o (R.LNK_CTL port.val) v)

/-- LNK_DOWN_REQUEST: LNKp_CTL (R291). -/
def execLnkDownRequest (o : Origin) (port : Fin 4) (v : Word) (s : State) : Res := .next (s.regWrite o (R.LNK_CTL port.val) v)

/-- FAB_ATOM_GO: FAB_ATOMn CTL (R310). -/
def execFabAtomGo (o : Origin) (n : Fin 8) (v : Word) (s : State) : Res := .next (s.regWrite o (R.FAB_ATOM_CTL n.val) v)

/-- PUBLISH: MBXn_PUB (R338). -/
def execPublish (o : Origin) (mbx : Fin 16) (v : Word) (s : State) : Res := .next (s.regWrite o (R.MBX_PUB mbx.val) v)

/-- HIF_MSIREQ (R333). -/
def execHifMsireq (o : Origin) (v : Word) (s : State) : Res := .next (s.regWrite o R.HIF_MSIREQ v)

/-- FUSE_PROGRAM: UPD_FUSE (R368). -/
def execFuseProgram (o : Origin) (v : Word) (s : State) : Res := .next (s.regWrite o R.UPD_FUSE v)

/-- KEYLOCK: UPD_KEYLOCK (R367). -/
def execKeylock (o : Origin) (v : Word) (s : State) : Res := .next (s.regWrite o R.UPD_KEYLOCK v)

/-- DBG_AUTH_NEW: DBG_AUTH (R401). -/
def execDbgAuthNew (o : Origin) (s : State) : Res := .next (s.regWrite o R.DBG_AUTH 1)

/-- DBG_AUTH_SUBMIT: DBG_AUTH with a level (R401). -/
def execDbgAuthSubmit (o : Origin) (level : BitVec 2) (s : State) : Res :=
  .next (s.regWrite o R.DBG_AUTH (word (2 + level.toNat * 4)))

/-- DBG_AUTH_REVOKE: DBG_AUTH (R402). -/
def execDbgAuthRevoke (o : Origin) (s : State) : Res := .next (s.regWrite o R.DBG_AUTH 16)

/-- DEBUG_HALT: DBG_HALT (R403). -/
def execDebugHalt (o : Origin) (v : Word) (s : State) : Res := .next (s.regWrite o R.DBG_HALT v)

/-- DEBUG_RESUME: DBG_RESUME (R406). -/
def execDebugResume (o : Origin) (v : Word) (s : State) : Res := .next (s.regWrite o R.DBG_RESUME v)

/-- DEBUG_STEP: DBG_STEP (R406). -/
def execDebugStep (o : Origin) (v : Word) (s : State) : Res := .next (s.regWrite o R.DBG_STEP v)

/-- DBG_TREG_ACCESS: DBG_TREG (R407). -/
def execDbgTregAccess (o : Origin) (write : Option Word) (s : State) : Res :=
  .next (match write with
    | some v => s.regWrite o R.DBG_TREG v
    | none => s.regRead o R.DBG_TREG)

/-- STIMULUS_WRITE: DBG_SPn (R415). -/
def execStimulusWrite (o : Origin) (n : Fin 32) (v : Word) (s : State) : Res := .next (s.regWrite o (R.DBG_SP n.val) v)

/-- WATCHDOG_ENABLE: WDG_CTL (R409). -/
def execWatchdogEnable (o : Origin) (v : Word) (s : State) : Res := .next (s.regWrite o R.WDG_CTL v)

/-- WATCHDOG_SERVICE: WDG_SVC (R409). -/
def execWatchdogService (o : Origin) (v : Word) (s : State) : Res := .next (s.regWrite o R.WDG_SVC v)

/-- TIMER_START: TMRn_CTL (R417). -/
def execTimerStart (o : Origin) (n : Fin 4) (v : Word) (s : State) : Res := .next (s.regWrite o (R.TMR_CTL n.val) v)

/-- TIMER_STOP: TMRn_CTL (R417). -/
def execTimerStop (o : Origin) (n : Fin 4) (v : Word) (s : State) : Res := .next (s.regWrite o (R.TMR_CTL n.val) v)

/-! ### Any register -/

/-- READ_CLEAR (R4): a read by any path. -/
def execReadClear (p : Path) (off : Nat) (s : State) : Res :=
  .next (match p with
    | .control o => s.regRead o off
    | .bar0 =>
      if s.hostUp = false then s
      else match s.ctlRead .bar0 off 4 with
        | (s1, .ok v) => s1.emit (.readData v)
        | (s1, _) => s1)

/-- REGISTER_WRITE (R4, R51): a write by any path and of any size. -/
def execRegisterWrite (p : Path) (off : Nat) (size : Nat) (v : Word) (s : State) : Res :=
  .next (match p with
    | .control o => s.sizedWrite o off size v
    | .bar0 => if s.hostUp then (s.ctlWrite .bar0 off size v).1.resumeAll else s)

/-! ### The debug port (R399, R400) -/

/-- The debug port as a master: Machine origin with Full authorisation (R50). -/
def State.debugWho (s : State) : Who := { master := 15, machine := s.dbgLevel == 2 }

/-- The origin of a debug access to control space: its own, or an inbound request through the own-ID window. -/
def State.debugOrigin (s : State) (a : Nat) : Origin := if s.isOwnWindow a then .lichen (s.dbgLevel == 2) else .debug

/-- A debug read of one word. -/
def State.debugRead (s : State) (a : Nat) : State :=
  match s.readNow s.debugWho a 4 with
  | (s1, .ok d) => s1.dbgDone 0 (BitVec.ofNat 32 (leVal d))
  | (s1, .err _) => s1.dbgDone 1 0
  | (s1, .control off) =>
    let o := s.debugOrigin a
    (match s1.ctlRead (.control o) off 4 with
      | (s2, .ok v) => s2.dbgDone 0 v
      | (s2, .err c) => (s2.busError (originMaster o) 30 false c a).dbgDone 1 0
      | (s2, .wait) => (s2.dbgDone 3 0).onDbg (fun d => { d with waitRead := some off }))
  | (s1, .need dev w n _ _) => ((s1.request .debug 0 dev n w [] s.debugWho.machine false 0).1).dbgDone 3 0
  | (s1, .wait) => s1.dbgDone 3 0

/-- A debug write of one word. -/
def State.debugWrite (s : State) (a : Nat) (v : Word) : State :=
  match s.writeNow s.debugWho a (leBytes 4 v.toNat) with
  | (s1, .ok _) => s1.dbgDone 0 0
  | (s1, .err _) => s1.dbgDone 1 0
  | (s1, .control off) =>
    let o := s.debugOrigin a
    (match s1.descAsk o off v with
      | some (d, x, _) =>
        let (s2, tag) := s1.request .control 0 d 16 x [] true false 0
        (s2.dbgDone 3 0).onCtl (fun l => l ++ [{ origin := .debug, off := off, val := v, tag := some tag }])
      | none => match s1.ctlWrite (.control o) off 4 v with
        | (s2, none) => (s2.dbgDone 0 0).resumeAll
        | (s2, some c) => (s2.busError (originMaster o) 30 true c a).dbgDone 1 0)
  | (s1, .need dev w n _ d) => ((s1.request .debug 1 dev n w d s.debugWho.machine false 0).1).dbgDone 3 0
  | (s1, .wait) => s1.dbgDone 3 0

/-- DBGACC_UPDATE (R399): an update while an access is in progress is a collision; OP 3 is none. -/
def execDbgaccUpdate (op : BitVec 2) (addr : BitVec 48) (data : Word) (s : State) : Res :=
  let a := addr.toNat
  .next (
    if s.portAlive = false then s
    else if s.dbg.status = 3 then s.setB R.DBG_STAT 8 true
    else if op ≠ 1 ∧ op ≠ 2 then s
    else if s.debugAllows a = false then s.dbgDone 2 0
    else if op = 1 then s.debugRead a else s.debugWrite a data)

end Sys2Proof.Machine
end

