-- ==== Sys2Proof/Machine/HostLink.lean ====
section
/-! DEFINITION. The host link (R322-R337): USB4 and its PCIe function, accesses through the BAR2 window, doorbells and command
words, and the USB 2.0 port's requests and reports. -/

namespace Sys2Proof.Machine

/-! ### USB4 and the function (R323, R333, R334) -/

/-- The PCIe tunnel comes up: the host enables MSI-X, and unmasked pending vectors go (R333; log 10). -/
def State.tunnelUp (s : State) : State :=
  let s1 := s.onHost (fun h => { h with msixEn := true })
  s1.each (List.range 32) (fun s v =>
    if s.host.msixPending.testBit v = true ∧ (s.msixWord (4 * v + 3)).getLsbD 0 = false then
      (s.onHost (fun h => { h with msixPending := putBit h.msixPending v false })).emit (.msix v)
    else s)

/-- USB4_LINK_TRAIN (R323): a generation reached, or none; and whether the PCIe tunnel is up. -/
def State.usb4Train (s : State) (gen : Nat) (pcie : Bool) : State :=
  let up := gen != 0
  let was := s.b R.HIF_LINK 3
  let s1 := s.setUsb4 up gen (pcie && up)
  if pcie && up && !was then s1.tunnelUp else s1

/-- USB4_LINK_TRAIN. -/
def execUsb4LinkTrain (gen : Fin 4) (pcie : Bool) (s : State) : Res := .next (if s.running then s.usb4Train gen.val pcie else s)

/-- FLR (R334). -/
def execFlr (s : State) : Res := .next (if s.hostUp then s.functionReset else s)

/-! ### The BAR2 window (R330, R331) -/

/-- The physical address of a BAR2 offset. -/
def State.barAddr (s : State) (off : Nat) : Nat := s.f (R.HIF_AP (off / 2 ^ 26 % 16)) 21 0 * 2 ^ 26 + off % 2 ^ 26

/-- The aperture refuses the access: 0 it is disabled, 1 it is read-only. -/
def State.barRefuses (s : State) (off : Nat) (write : Bool) : Option Nat :=
  let ap := R.HIF_AP (off / 2 ^ 26 % 16)
  if s.b ap 31 = false then some 0 else if write && !s.b ap 30 then some 1 else none

/-- Every earlier write of the host completes at its target (R76, R332). -/
def State.hostDrain (s : State) : State :=
  let mine := (s.matrix.waiting ++ s.matrix.held).filter (fun q => q.master == 12)
  let s1 := s.each mine (fun s q => s.settle q.addr)
  (s1.flushMaster 12).getD s1

/-- BAR2_READ (R331): its completion, or one for each block once a remote device answers; behind the host's older remote reads
where those fill the limit of R74. -/
def State.barRead (s : State) (off len : Nat) : State :=
  let a := s.barAddr off
  match s.barRefuses off false with
  | some c => (s.winError c a false).emit (.readCompletion 1 [])
  | none =>
    let s0 := s.hostDrain
    match s0.hostRemote a with
    | some _ => s0.hostReads (s0.host.reads ++ blocks a len)
    | none => s0.hostLocal a len

/-- BAR2_READ. -/
def execBar2Read (off len : Nat) (s : State) : Res := .next (if s.hostUp then s.barRead off len else s)

/-- BAR2_WRITE (R330, R331): its line requests enter the matrix; a refused aperture discards it. At the limit of R74 the older
requests complete first. -/
def State.barWrite (s : State) (off : Nat) (d : List Byte) : State :=
  let a := s.barAddr off
  match s.barRefuses off true with
  | some c => s.winError c a true
  | none =>
    let l := s.lineWrites hostWho (pieces a d.length) d
    let s0 := if writeLimit 12 < s.outstandingOf 12 + l.length then s.hostDrain else s
    s0.each l (fun s q => s.enqueue q)

/-- BAR2_WRITE. -/
def execBar2Write (off : Nat) (data : List Byte) (s : State) : Res := .next (if s.hostUp then s.barWrite off data else s)

/-! ### Command words and doorbells (R332, R336, R337) -/

/-- COMMAND_AREA_WRITE. -/
def execCommandAreaWrite (mbx : Fin 16) (word : Fin 16) (v : Word) (s : State) : Res :=
  .next (if s.hostUp then (s.commandWrite mbx.val word.val v).accessDone else s)

/-- DOORBELL: after every earlier write of the host; a 1 in a reserved bit is a bus error (R5). -/
def execDoorbell (mbx : Fin 16) (v : Word) (s : State) : Res :=
  .next (if s.hostUp = false then s
    else if fld v 31 16 = 0 then (s.hostDrain.ring mbx.val v).accessDone
    else s.hostDrain.busError 12 30 true 7 (csBase + R.MBX_DOORBELL mbx.val))

/-! ### USB 2.0 (R325-R327) -/

/-- A request on EP1 comes from a configured device (HIF_LINK.U2CFG; log 27). -/
def State.usbConfigured (s : State) : State :=
  if s.b R.HIF_LINK 4 then s else (s.setB R.HIF_LINK 4 true).setB R.HIF_LINK 5 true

/-- The port takes a request: no earlier one waits. -/
def State.usbReady (s : State) : Bool := s.running && s.host.usb.isNone

/-- MBX_WRITE (R326, R332): 64 bytes to the command area, then the doorbell; STATUS says how it was taken. -/
def State.usbMailbox (s : State) (n v tag : Nat) (l : List Word) : State :=
  let s1 := (s.each (List.range 16) (fun s w => s.commandWrite n w (l.getD w 0))).hostDrain
  let st := if s1.inProgress n then 3 else if v = s1.f (R.MBX_SEQ n) 15 0 then 4 else 0
  (s1.ring n (word v)).emit (.usb st tag [])

/-- MBX_WRITE. -/
def execMbxWrite (hdr : UsbHeader) (data : List Word) (s : State) : Res :=
  let tag := hdr.tag.toNat
  .next (
    if s.usbReady = false then s
    else if hdr.len ≠ 64 then s.usbConfigured.emit (.usb 2 tag [])
    else s.usbConfigured.usbMailbox hdr.mbx.val (fld hdr.word2 15 0) tag data)

/-- The 128 bytes of a result area: SEQ, STATUS and the result words (R335). -/
def State.resultBytes (s : State) (n : Nat) : List Byte :=
  (List.range 32).flatMap (fun w => leBytes 4 (s.rd (R.MBX_SEQ n + 4 * w)).toNat)

/-- MBX_READ. -/
def execMbxRead (hdr : UsbHeader) (s : State) : Res :=
  let tag := hdr.tag.toNat
  .next (
    if s.usbReady = false then s
    else if hdr.len ≠ 128 then s.usbConfigured.emit (.usb 2 tag [])
    else s.usbConfigured.emit (.usb 0 tag (s.resultBytes hdr.mbx.val)))

/-- The address of a memory request. -/
def UsbHeader.addr (h : UsbHeader) : Nat := h.word2.toNat + h.word3.toNat * 2 ^ 32

/-- LEN and address of a memory request follow R327; an address has 48 bits. -/
def UsbHeader.memOk (h : UsbHeader) : Bool :=
  decide (8 ≤ h.len.toNat) && decide (h.len.toNat ≤ 65536) && h.len.toNat % 8 == 0 && UsbHeader.addr h % 8 == 0 &&
    decide (UsbHeader.addr h < 2 ^ 48)

/-- MEM_WRITE (R326, R327). -/
def execMemWrite (hdr : UsbHeader) (data : List Byte) (s : State) : Res :=
  let tag := hdr.tag.toNat
  .next (
    if s.usbReady = false then s
    else if UsbHeader.memOk hdr = false then s.usbConfigured.emit (.usb 2 tag [])
    else
      let n := hdr.len.toNat
      s.usbConfigured.hostDrain.usbLines tag true (pieces (UsbHeader.addr hdr) n) (data.take n ++ List.replicate (n - data.length) 0))

/-- MEM_READ (R326, R327). -/
def execMemRead (hdr : UsbHeader) (s : State) : Res :=
  let tag := hdr.tag.toNat
  .next (
    if s.usbReady = false then s
    else if UsbHeader.memOk hdr = false then s.usbConfigured.emit (.usb 2 tag [])
    else s.usbConfigured.hostDrain.usbLines tag false (pieces (UsbHeader.addr hdr) hdr.len.toNat) [])

/-- EP3_REPORT (R327): the publishes and events since the previous report. -/
def execEp3Report (s : State) : Res :=
  .next (if s.running then (s.emit (.ep3 s.host.ep3)).onHost (fun h => { h with ep3 := 0 }) else s)

end Sys2Proof.Machine
end

