-- ==== Sys2Proof/Machine/Mail.lean ====
section
/-! DEFINITION. Resident firmware at the mailboxes (R342-R346): how a command in progress is taken, checked and published, and the
commands that report (R347, R348, R351, R353, R354, R356, R359) or change the mode. -/

namespace Sys2Proof.Machine

/-! ### Serving a command (R342-R346) -/

/-- The assigned command codes (R347-R359). -/
def assignedCodes : List Nat :=
  [0x01, 0x02, 0x10, 0x11, 0x20, 0x21, 0x22, 0x30, 0x31, 0x32, 0x40, 0x50, 0x51, 0x52, 0x60, 0x61, 0x70, 0x71, 0x72, 0x73, 0x74,
    0x75, 0x80, 0x81, 0x90, 0xA0, 0xA1, 0xA2, 0xB0, 0xB1, 0xC0, 0xD0]

/-- The codes that Fiddlehead executes (R342), with those of a recovery with BOOT_SEL = 1 (R436). -/
def State.fiddleServes (s : State) (c : Nat) : Bool :=
  [0x01, 0x02, 0x80, 0xC0].contains c || (s.recovering && s.f R.PWR_BOOT 1 0 == 1 && decide (0x70 ≤ c) && decide (c ≤ 0x74))

/-- Argument Ai of the command in mailbox n. -/
def State.arg (s : State) (n i : Nat) : Nat := (s.cmdWord n i).toNat

/-- The address in Ai and A(i+1) (R346); none: a reserved bit is 1. -/
def State.argAddr (s : State) (n i : Nat) : Option Nat :=
  let hi := s.arg n (i + 1)
  if hi < 65536 then some (s.arg n i + hi * 2 ^ 32) else none

/-- Firmware publishes a command's results (R338). -/
def State.reply (s : State) (n code : Nat) (res : List Nat) : State :=
  s.answer n code res

/-- Mailbox n is in progress and firmware has its command to serve: no earlier part of it waits. -/
def State.toServe (s : State) (n : Nat) : Bool :=
  s.running && s.inProgress n && !s.host.asked.contains n && !(s.host.waits.any (fun e => e.1 == n))

/-- The first argument word after A`used` that is not 0. -/
def State.extraArg (s : State) (n used : Nat) : Option Nat :=
  ((List.range 15).map (fun i => i + 1)).find? (fun i => decide (used < i) && s.arg n i != 0)

/-- The checks of R343 in their order, then the command itself. `bad` gives the result words for the failing word of a refused
argument. A row whose code is not the one in the mailbox does nothing. -/
def State.serve (s : State) (n code : Nat) (modes : List Nat) (used : Nat) (bad : Nat → List Nat) (body : State → State) : State :=
  let c := fld (s.cmdWord n 0) 15 0
  if s.toServe n = false then s
  else if assignedCodes.contains c = false then s.reply n 3 []
  else if c ≠ code then s
  else if (s.fw.fiddlehead && !s.fiddleServes c) || !modes.contains s.mode then s.reply n 6 []
  else if fld (s.cmdWord n 0) 31 16 ≠ 0 then s.reply n 4 (bad 0)
  else match s.extraArg n used with
    | some i => s.reply n 4 (bad i)
    | none => body s

/-- No result words on a refused argument. -/
def noWords : Nat → List Nat := fun _ => []

/-- All four modes of a served mailbox. -/
def allModes : List Nat := [2, 3, 4, 5]

/-- Modes C, R and H. -/
def frameModes : List Nat := [2, 3, 4]

/-- A row of a command with subcommands `last` and below, in the bits of A1 from `lo` on: the row of subcommand 0 also refuses an
unassigned one. -/
def State.serveSub (s : State) (n code lo sub last : Nat) (modes : List Nat) (used : Nat) (bad : Nat → List Nat)
    (body : State → State) : State :=
  let k := fld (s.cmdWord n 1) (lo + 7) lo
  let c := fld (s.cmdWord n 0) 15 0
  if c = code ∧ last < k ∧ sub = 0 then s.serve n code modes 15 bad (fun s => s.reply n 4 (bad 1))
  else if c = code ∧ k ≠ sub then s
  else s.serve n code modes used bad body

/-- The resource of R343 that a command with code c and argument A1 takes: the plan slots, a load table, the update staging, the
settings store, or a Stem thread. -/
def resourceOf (c a1 : Nat) : Option Nat :=
  if c = 0x30 ∨ c = 0x31 then some 0
  else if c = 0x50 ∨ c = 0x51 ∨ c = 0x52 ∨ c = 0x61 then some (c - 0x4F)
  else if (0x70 ≤ c ∧ c ≤ 0x73) ∨ c = 0x75 then some 4
  else if c = 0xB0 ∨ c = 0xB1 then some 5
  else if 0xA0 ≤ c ∧ c ≤ 0xA2 then some (32 + a1)
  else none

/-- The resource of the command in mailbox n. -/
def State.resource (s : State) (n : Nat) : Option Nat := resourceOf (fld (s.cmdWord n 0) 15 0) (s.arg n 1)

/-- Another mailbox's command has begun and holds the resource that mailbox n's command needs (R343). A PLAN_ACTIVATE does not
keep off a second one (R351). -/
def State.taken (s : State) (n : Nat) : Bool :=
  let code := fun m => fld (s.cmdWord m 0) 15 0
  (List.range 16).any (fun m => m != n && s.inProgress m && s.resource n != none && s.resource m == s.resource n &&
    !(code n == 0x31 && code m == 0x31) && (s.host.asked.contains m || s.host.waits.any (fun e => e.1 == m) || s.host.answers.any (fun e => e.1 == m)))

/-- A 64-bit value and its two result words. -/
def words2 (v : DWord) : List Nat := twoWords v.toNat

/-! ### Memory as firmware reads and writes it -/

/-- Resident firmware as a master: the Stem at Machine level. -/
def fwWho : Who := { master := 8, machine := true }

/-- What an access of firmware answers: data, the CAUSE of a bus error, or nothing until a remote device answers. -/
inductive FwRes (α : Type) where
  | ok (a : α)
  | err (cause : Nat)
  | wait
  deriving DecidableEq, Repr

/-- Answers that firmware has for the command in mailbox n. -/
def State.fwAnswers (s : State) (n : Nat) : List RemoteAnswer := sget (fun _ => []) s.host.answers n

/-- An access's outcome; a remote line is asked for, and the command goes on when the answer has come. -/
def fwAcc (n op : Nat) (r : State × AccRes) : State × FwRes (List Byte) :=
  match r with
  | (s, .ok d) => (s, .ok d)
  | (s, .err c) => (s, .err c)
  | (s, .wait) => (s, .wait)
  | (s, .control off) => (s.busError 8 30 (op == 1) 1 (csBase + off), .err 1)
  | (s, .need dev w k _ d) =>
    ((s.request (.mailbox n) op dev k w d true false 0).1.onHost (fun h => { h with asked := h.asked ++ [n] }), .wait)

/-- n bytes read for a command by the master that copies them in: firmware, or for the tables of field I/O the Ingress Sorter or
the Egress Composer (R72). -/
def State.readFor (s : State) (w : Who) (n a len : Nat) : State × FwRes (List Byte) :=
  fwAcc n 0 ((s.settleAll a len).readAns w (s.fwAnswers n) a len)

/-- Firmware reads n bytes. -/
def State.fwRead (s : State) (n a len : Nat) : State × FwRes (List Byte) := s.readFor fwWho n a len

/-- The Ingress Sorter as it copies in stream, field and rule tables (R72). -/
def sorterWho : Who := { master := 9, machine := true }

/-- The Egress Composer as it copies in templates and their fields (R72). -/
def composerWho : Who := { master := 10, machine := true }

/-- Firmware writes bytes. -/
def State.fwWrite (s : State) (n a : Nat) (d : List Byte) : State × FwRes (List Byte) :=
  fwAcc n 1 ((s.settleAll a d.length).writeAns fwWho (s.fwAnswers n) a d)

/-- Entries of a table, each read in turn: none, with the CAUSE, at the first that cannot be read. -/
def State.fwTable (s : State) (w : Who) (n stride size : Nat) : Nat → Nat → List (List Byte) → State × FwRes (List (List Byte))
  | 0, _, acc => (s, .ok acc.reverse)
  | k + 1, a, acc =>
    match s.readFor w n a size with
    | (s1, .ok d) => s1.fwTable w n stride size k (a + stride) (d :: acc)
    | (s1, .err c) => (s1, .err c)
    | (s1, .wait) => (s1, .wait)

/-- The status for data that firmware could not read: FABRIC_ERROR after a remote STATUS 3 or 4, INTEGRITY_FAIL for uncorrectable
data, BAD_ARG otherwise (R344). -/
def State.readStatus (s : State) (n cause : Nat) : Nat :=
  if (s.fwAnswers n).any (fun r => decide (3 ≤ r.status)) then 0x0C else if cause = 4 then 9 else 4

/-- The rest of a command, once firmware has the data; a failed read publishes its status. -/
def fwThen {α : Type} (n : Nat) (r : State × FwRes α) (res : List Nat) (k : State → α → State) : State :=
  match r with
  | (s, .ok a) => k s a
  | (s, .err c) => s.reply n (s.readStatus n c) res
  | (s, .wait) => s

/-- A range. -/
def inRange (a n lo hi : Nat) : Bool := decide (lo ≤ a) && decide (a + n ≤ hi)

/-- A range of DDR5 (R346). -/
def State.inDdr (s : State) (a n : Nat) : Bool := inRange a n ddrBase (ddrBase + s.mappedSize)

/-- A range of B0-B17 or DDR5, at home addresses. -/
def State.inRam (s : State) (a n : Nat) : Bool := inRange (s.home a) n bankBase 0x104400000 || s.inDdr (s.home a) n

/-- A range of one remote window. -/
def inRemote (a n : Nat) : Bool :=
  inRange a n remoteBase (2 ^ 48) && (a - remoteBase) / remoteSize == (a + n - 1 - remoteBase) / remoteSize

/-- An address in a remote window while the fabric is not up (R344). -/
def State.fabricAway (s : State) (a : Nat) : Bool := decide (remoteBase ≤ a) && !s.fabUp

/-- A register write of firmware, as the Stem's own with Machine origin. -/
def State.fwReg (s : State) (off : Nat) (v : Word) : State := (s.csWrite (.lichen true) off 4 v).1

/-- Firmware's value of a register is one that its field rules accept. -/
def State.fwRegOk (s : State) (off : Nat) (v : Word) : Bool := (s.csWrite (.lichen true) off 4 v).2.isNone

/-! ### IDENTIFY, GET_STATUS (R347) -/

/-- IDENTIFY. -/
def execIdentify (mbx : Fin 16) (s : State) : Res :=
  let n := mbx.val
  .next (s.serve n 0x01 allModes 0 noWords (fun s =>
    let flags := s.f R.UPD_STAT 6 6 + s.f R.UPD_STAT 7 7 * 2 + b2n s.fw.fiddlehead * 4
    s.reply n 0 ([(s.live R.GLB_ID).toNat] ++ words2 Config.otpUid ++
      [if s.fw.fiddlehead then 0 else s.fw.imgVer.toNat, flags, s.fw.setSchema, 0x00010000, s.fw.fwArea] ++ twoWords s.mappedSize)))

/-- RES1 of GET_STATUS. -/
def State.statusFlags (s : State) : Nat :=
  ([s.power.safeN, s.power.lockupN, s.b R.UPD_STAT 11, s.b R.UPD_STAT 10, decide (1 ≤ s.dbgLevel), s.held, s.b R.DDRC_CFG 3,
    s.fabUp, s.b R.FAB_STAT 15, s.b R.FAB_TWIN 10, s.f R.BST_WARNCNT 7 0 != 0, s.trialSlot.isSome, s.b R.LDG_STAT 2].foldr
    (fun b m => b2n b + 2 * m) 0)

/-- GET_STATUS: the guard bits reported are those since the previous one. -/
def execGetStatus (mbx : Fin 16) (s : State) : Res :=
  let n := mbx.val
  .next (s.serve n 0x02 allModes 0 noWords (fun s =>
    (s.onFw (fun f => { f with guardSince := 0 })).reply n 0
      ([s.mode, s.statusFlags, if s.mode = 5 then s.f R.PWR_MODE 12 9 else 0] ++ words2 s.ledger.frame ++
        [ofSigned 32 s.power.tj, s.power.vin, s.fw.nextEvent - 1, s.fw.guardSince])))

/-! ### SET_MODE, GET_MODE (R348) -/

/-- SET_MODE through PWR_MODEREQ. One is served at a time (R437): while a request is pending, the command stays in progress. -/
def execSetMode (mbx : Fin 16) (s : State) : Res :=
  let n := mbx.val
  .next (s.serve n 0x10 allModes 1 noWords (fun s =>
    let t := s.arg n 1
    if t < 1 ∨ 5 < t then s.reply n 4 []
    else if s.b R.PWR_MODEREQ 3 = true ∨ s.power.safePending.isSome = true ∨
        s.waiting (fun w => match w with | .setMode _ => true | _ => false) ≠ [] then s
    else (s.onHost (fun h => { h with waits := h.waits ++ [(n, .setMode t)] })).requestMode t))

/-- GET_MODE. -/
def execGetMode (mbx : Fin 16) (s : State) : Res :=
  let n := mbx.val
  .next (s.serve n 0x11 allModes 0 noWords (fun s =>
    s.reply n 0 ([s.mode, s.f R.PWR_MODE 5 3, s.f R.PWR_MODE 8 6] ++ words2 s.fw.transFrame)))

/-! ### Plans (R351) -/

/-- What reading and checking the entries of a plan answers. -/
inductive PlanRes where
  | ok (l : List PlanEntry)
  | bad (entry vf : Nat)
  | wait
  deriving DecidableEq, Repr

/-- One entry of a plan (R44, R110): its VJD read and checked with the level and SG1 of the owner. -/
def State.planEntry (s : State) (n owner : Nat) (b : List Byte) : State × Chk PlanEntry :=
  let w1 := tblWord b 1
  let w2 := tblWord b 2
  let w3 := tblWord b 3
  let acc := bits w1 23 16
  let h := s.thr owner
  let sg1 := (h.sg.get 1).sel.toNat
  let ans := s.fwAnswers n
  if acc.testBit 3 then (s, .fault 0x0B 0 0)
  else chkBind (s.readVjd (s.who owner) ans h.pl (bits w1 15 0) (tblWord b 0)) fun s1 r =>
    chkBind (s1.checkJob (s1.who owner) ans r.2.2 acc r.1 h.pl sg1 r.2.1) fun s2 c =>
      (s2, .ok { job := newJob c r.1 sg1 h.pl (acc % 8) (some owner) 0, chan := bits w2 7 0, atTick := w2.testBit 8
                 lso := bits w3 23 0 })

/-- The entries in order: the first that fails, with its VF code or 0 for a reserved bit. -/
def State.planEntries (s : State) (n owner : Nat) : List (List Byte) → Nat → List PlanEntry → State × PlanRes
  | [], _, acc => (s, .ok acc)
  | b :: t, i, acc =>
    if bits (tblWord b 1) 31 24 ≠ 0 ∨ bits (tblWord b 2) 31 9 ≠ 0 ∨ bits (tblWord b 3) 31 24 ≠ 0 then (s, .bad i 0)
    else match s.planEntry n owner b with
      | (s1, .ok e) => s1.planEntries n owner t (i + 1) (acc ++ [e])
      | (s1, .fault c _ _) => (s1, .bad i c)
      | (s1, .need dev w k a d) => ((fwAcc n 0 (s1, .need dev w k a d)).1, .wait)
      | (s1, .wait) => (s1, .wait)

/-- PLAN_LOAD: BAD_ARG for its arguments, BUSY while a swap is pending, then the entries and the ledger's check of R45. -/
def State.planLoad (s : State) (n : Nat) : State :=
  let cnt := s.arg n 3
  let owner := s.arg n 4
  let k := 1 - s.ledger.actSlot
  match s.argAddr n 1 with
  | none => s.reply n 4 []
  | some a =>
    if cnt < 1 ∨ 1024 < cnt ∨ owner < 2 ∨ 7 < owner ∨ s.inDdr a (16 * cnt) = false ∨ a % 4 ≠ 0 then s.reply n 4 []
    else if (s.thr owner).st ≠ .active ∧ (s.thr owner).st ≠ .waiting then s.reply n 4 []
    else if s.ledger.swapPending = true ∨ s.taken n = true then s.reply n 2 []
    else fwThen n (s.fwTable fwWho n 16 16 cnt a []) [] fun s1 tbl =>
      match s1.planEntries n owner tbl 0 [] with
      | (s2, .wait) => s2
      | (s2, .bad i c) => s2.reply n 4 [0, 0, i, c]
      | (s2, .ok l) =>
        match s2.planFails l with
        | some r => (s2.replacePlan k []).reply n 7 [0, 0, r, 0]
        | none => (s2.replacePlan k l).reply n 0 [k, cnt]

/-- PLAN_LOAD. -/
def execPlanLoad (mbx : Fin 16) (s : State) : Res :=
  .next (s.serve mbx.val 0x30 frameModes 4 noWords (fun s => s.planLoad mbx.val))

/-- PLAN_ACTIVATE (R45): the swap waits for the next tick. -/
def execPlanActivate (mbx : Fin 16) (s : State) : Res :=
  let n := mbx.val
  .next (s.serve n 0x31 frameModes 0 noWords (fun s =>
    if s.taken n then s.reply n 2 []
    else if s.slot (1 - s.ledger.actSlot) = [] then s.reply n 5 []
    else
      let s1 := s.onLdg (fun l => { l with swapPending := true })
      if s.inConfig then s1.reply n 0 [0, 0, 1] else s1.onHost (fun h => { h with waits := h.waits ++ [(n, .planActivate)] })))

/-- PLAN_QUERY. -/
def execPlanQuery (mbx : Fin 16) (s : State) : Res :=
  let n := mbx.val
  .next (s.serve n 0x32 allModes 0 noWords (fun s =>
    (s.onLdg (fun l => { l with skipFrames := 0, lateFrames := 0 })).reply n 0
      ([(s.live R.LDG_PLANSTAT).toNat] ++ words2 s.ledger.lastSwap ++ [s.ledger.skipFrames, s.ledger.lateFrames])))

/-! ### FABRIC_STATUS (R353) -/

/-- FABRIC_STATUS. -/
def execFabricStatus (mbx : Fin 16) (s : State) : Res :=
  let n := mbx.val
  .next (s.serve n 0x60 allModes 0 noWords (fun s =>
    let links := (List.range 4).foldl (fun m p => m + s.lnkState p * 2 ^ (4 * p)) 0
    (s.onFab (fun f => { f with intSince := 0 })).reply n 0
      ([(s.rd R.FAB_STAT).toNat, (s.rd R.FAB_EPOCH).toNat] ++ words2 s.fabric.bestUid ++
        [(s.rd R.FAB_VOTE).toNat, links, (s.rd R.FAB_TWIN).toNat, (s.rd R.FAB_DFRAME_LO).toNat, (s.rd R.FAB_DFRAME_HI).toNat,
          s.fabric.intSince])))

/-! ### HOST_CHANNEL (R354) -/

/-- A subcommand of HOST_CHANNEL: A1 holds channel and subcommand alone. -/
def State.hostChannel (s : State) (n sub used : Nat) (body : State → Nat → State) : State :=
  s.serveSub n 0xD0 8 sub 3 frameModes used noWords (fun s =>
    let k := fld (s.cmdWord n 1) 7 0
    if fld (s.cmdWord n 1) 31 16 ≠ 0 then s.reply n 4 []
    else if sub = 1 ∧ (3 < s.arg n 2 ∨ spcKinds.contains (fld (s.cmdWord n 3) 7 0) = false) then s.reply n 4 []
    else if sub ≠ 0 ∧ s.f (R.CH_CFG k) 1 0 ≠ 1 then s.reply n 5 []
    else body s k)

/-- HOST_CHANNEL_READ. -/
def execHostChannelRead (mbx : Fin 16) (s : State) : Res :=
  .next (s.hostChannel mbx.val 0 1 (fun s k =>
    s.reply mbx.val 0 ([(s.rd (R.CH_CFG k)).toNat] ++ (List.range 4).map (fun m => (s.rd (R.CH_PROD k m)).toNat) ++
      [(s.rd (R.CH_CNT k)).toNat, b2n (s.b (R.SPC_FLAG (k / 32)) (k % 32)) + 2 * b2n (s.b (R.SPC_LOOP (k / 32)) (k % 32))])))

/-- HOST_CHANNEL_PRODUCER: a value that R246 refuses is BAD_ARG. -/
def execHostChannelProducer (mbx : Fin 16) (s : State) : Res :=
  let n := mbx.val
  .next (s.hostChannel n 1 3 (fun s k =>
    let off := R.CH_PROD k (s.arg n 2)
    if s.fwRegOk off (s.cmdWord n 3) then (s.fwReg off (s.cmdWord n 3)).reply n 0 [] else s.reply n 4 []))

/-- HOST_CHANNEL_TRIGGER. -/
def execHostChannelTrigger (mbx : Fin 16) (s : State) : Res :=
  .next (s.hostChannel mbx.val 2 1 (fun s k =>
    let s1 := s.fwReg R.SPC_TRIG (word k)
    s1.reply mbx.val 0 [b2n (s1.b R.SPC_STAT 0)]))

/-- HOST_CHANNEL_CLEAR. -/
def execHostChannelClear (mbx : Fin 16) (s : State) : Res :=
  .next (s.hostChannel mbx.val 3 1 (fun s k =>
    ((s.fwReg (R.SPC_FLAG (k / 32)) (word (2 ^ (k % 32)))).fwReg (R.SPC_LOOP (k / 32)) (word (2 ^ (k % 32)))).reply mbx.val 0 []))

/-! ### Tests, counters and the event log (R356, R359) -/

/-- BIST_REPORT. -/
def execBistReport (mbx : Fin 16) (s : State) : Res :=
  let n := mbx.val
  .next (s.serve n 0x80 allModes 0 noWords (fun s =>
    s.reply n 0 [s.f R.BST_PU 7 0, (s.rd R.BST_PUTIME).toNat, (s.rd R.BST_CYCLES).toNat, (s.rd R.BST_CORRCNT).toNat,
      (s.rd R.BST_FATALCNT).toNat, s.f R.BST_LAST 7 0, s.f R.BST_LAST 15 8, s.f R.BST_WARNCNT 7 0]))

/-- BIST_CONFIG. -/
def execBistConfig (mbx : Fin 16) (s : State) : Res :=
  let n := mbx.val
  .next (s.serve n 0x81 [2] 2 noWords (fun s =>
    if 8 ≤ s.arg n 1 ∨ 256 ≤ s.arg n 2 then s.reply n 4 []
    else ((s.putF R.BST_CTL 2 0 (s.arg n 1)).wr R.LDG_TESTRES (s.cmdWord n 2)).reply n 0 []))

/-- The two words of a counter: live, or as taken at the last tick. -/
def State.counterWords (s : State) (snap : Bool) (k : Nat) : List Nat :=
  if snap then [(s.rd (R.PMC_SNAP_LO k)).toNat, (s.rd (R.PMC_SNAP_HI k)).toNat &&& 0x8000FFFF]
  else [(s.rd (R.PMC_LO k)).toNat, (s.rd (R.PMC_HI k)).toNat &&& 0x8000FFFF]

/-- COUNTERS_READ. -/
def execCountersRead (mbx : Fin 16) (s : State) : Res :=
  let n := mbx.val
  .next (s.serve n 0x90 allModes 1 noWords (fun s =>
    let a := s.cmdWord n 1
    let first := fld a 5 0
    let c := fld a 11 8
    if fld a 7 6 ≠ 0 ∨ fld a 15 12 ≠ 0 ∨ fld a 31 17 ≠ 0 ∨ c = 0 ∨ 64 < first + c then s.reply n 4 []
    else s.reply n 0 ((List.range c).flatMap (fun i => s.counterWords (a.getLsbD 16) (first + i)))))

/-- EVENT_LOG_READ: entries from the first asked for, or from the oldest retained, on. -/
def execEventLogRead (mbx : Fin 16) (s : State) : Res :=
  let n := mbx.val
  .next (s.serve n 0xC0 allModes 2 noWords (fun s =>
    let c := s.arg n 2
    if c < 1 ∨ 7 < c then s.reply n 4 []
    else
      let oldest := match s.fw.events with
        | e :: _ => e.1
        | [] => 0
      let first := max (s.arg n 1) oldest
      let l := (s.fw.events.filter (fun e => decide (first ≤ e.1))).take c
      s.reply n 0 ([first, l.length] ++ l.flatMap (fun e => [e.1 % 2 ^ 32] ++ words2 e.2.1 ++ [e.2.2.toNat]))))

end Sys2Proof.Machine
end

