-- ==== Sys2Proof/Machine/MailLoad.lean ====
section
/-! DEFINITION. The configuration loads (R352, R353): each writes all of its targets or none. -/

namespace Sys2Proof.Machine

/-! ### TICK_CONFIG -/

/-- The first argument word that breaks a field rule or a limit of R20, a limit between two words being broken by the later one. -/
def State.tickArgs (s : State) (n : Nat) : Option Nat :=
  let a := s.arg n
  let small := fun i => decide (a i < 2 ^ 24)
  let ok : List (Nat × Bool) :=
    [(1, decide (a 1 < 16)),
      (2, decide (5000 ≤ a 2) && decide (a 2 ≤ 10000000)),
      (3, small 3),
      (4, small 4 && decide (a 3 ≤ a 4) && decide (1000 ≤ a 4)),
      (5, small 5 && decide (a 4 + 500 ≤ a 5) && decide (a 5 + 500 ≤ a 2)),
      (6, decide (a 6 < 2 ^ 16)),
      (7, small 7),
      (8, decide (a 8 < 2 ^ 9)),
      (9, decide (a 9 < 2 ^ 10)),
      (10, decide (a 10 < 2 ^ 12) && decide (bits (a 10) 3 0 + bits (a 10) 7 4 + bits (a 10) 11 8 ≤ 15))]
  (ok.find? (fun e => !e.2)).map (fun e => e.1)

/-- TICK_CONFIG. -/
def execTickConfig (mbx : Fin 16) (s : State) : Res :=
  let n := mbx.val
  .next (s.serve n 0x40 [2] 15 (fun i => [0, 0, i]) (fun s =>
    match s.tickArgs n with
    | some i => s.reply n 4 [0, 0, i]
    | none => match s.extraArg n 10 with
      | some i => s.reply n 4 [0, 0, i]
      | none =>
        let a := s.cmdWord n
        let s1 := ((((s.writeLdgCtl (a 1)).wr R.LDG_PERIOD (a 2)).wr R.LDG_TCUT (a 3)).wr R.LDG_TDL (a 4)).wr R.LDG_TOUT (a 5)
        let s2 := ((s1.wr R.LDG_TICKWIN (a 6)).wr R.LDG_ASPHASE (a 7)).wr R.LDG_TICKOUT (a 8)
        ((s2.putF R.LDG_DERATE 25 16 (s.arg n 9)).wr R.LDG_VCSHARE (a 10)).reply n 0 []))

/-! ### IO_MAP_LOAD (R265, R267, R271) -/

/-- The first entry of a list that a check refuses. -/
def firstBad {α : Type} (ok : α → Bool) : List α → Nat → Option Nat
  | [], _ => none
  | x :: t, i => if ok x then firstBad ok t (i + 1) else some i

/-- A list as a map from its indices, without the entries that equal the default. -/
def toMap {α : Type} [DecidableEq α] (d : α) : List α → Nat → SMap α
  | [], _ => []
  | x :: t, i => if x = d then toMap d t (i + 1) else (i, x) :: toMap d t (i + 1)

/-- FIRST and NFIELD of a stream entry lie within the field table. -/
def firstOk (b : List Byte) : Bool := decide (bits (tblWord b 5) 15 0 + bits (tblWord b 0) 24 16 ≤ 65536)

/-- The input slots of a map (R271), rising and without repeats. -/
def inputSlotsOf (streams : List StreamEntry) (fields : List FieldEntry) : List Nat :=
  let used : List Nat := (streams.filter (fun e => e.kind != 0)).flatMap (fun e => ((fields.drop e.first).take e.nfield).map (fun f => f.slot))
  (used.foldl (fun (m : SMap Bool) k => sput (fun _ => false) m k true) []).map (fun e => e.1)

/-- The tables of a map take effect: every stream without history, every slot of its class. -/
def State.setIoMap (s : State) (streams : List StreamEntry) (fields : List FieldEntry) (etype : Nat) : State :=
  (s.onIo (fun i =>
    { i with
      streams := toMap {} streams 0, fields := toMap {} fields 0, inputSlots := inputSlotsOf streams fields
      recovery := [], lastAccept := [], commits := [], committed := [], toCopy := [] })).putF R.ING_CTL 15 0 etype

/-- IO_MAP_LOAD on tables that were read. -/
def State.ioMap (s : State) (n : Nat) (st ft : List (List Byte)) : State :=
  let none4 := 0xFFFFFFFF
  match firstBad (fun b => firstOk b && (parseStream b).isSome) st 0 with
  | some i => s.reply n 4 [0, 0, i, none4, if firstOk (st.getD i []) then 1 else 3]
  | none => match firstBad (fun b => (parseField b).isSome) ft 0 with
    | some i => s.reply n 4 [0, 0, 0xFFFF, i, 2]
    | none =>
      let streams := st.filterMap parseStream
      let fields := ft.filterMap parseField
      let slots := inputSlotsOf streams fields
      if s.io.rules.any (fun r => !slots.contains r.2.slot) then s.reply n 4 [0, 0, 0xFFFF, none4, 4]
      else (s.setIoMap streams fields (s.arg n 5)).reply n 0 [(streams.filter (fun e => e.kind != 0)).length, slots.length]

/-- IO_MAP_LOAD. -/
def execIoMapLoad (mbx : Fin 16) (s : State) : Res :=
  let n := mbx.val
  .next (s.serve n 0x50 [2] 5 noWords (fun s =>
    match s.argAddr n 1, s.argAddr n 3 with
    | some a, some b =>
      if s.inDdr a 16384 = false ∨ s.inDdr b 2097152 = false ∨ 65536 ≤ s.arg n 5 then s.reply n 4 []
      else fwThen n (s.fwTable sorterWho n 32 32 512 a []) [] fun s1 st =>
        fwThen n (s1.fwTable sorterWho n 32 32 65536 b []) [] fun s2 ft => s2.ioMap n st ft
    | _, _ => s.reply n 4 []))

/-! ### FIU_RULES_LOAD (R276) -/

/-- Why a rule is refused beside its fields: 3 no input slot, 4 its range, 5 TRIG on a long template. -/
def State.ruleReason (s : State) (r : FiuRule) : Nat :=
  let t := s.tmpl r.template
  if s.io.inputSlots.contains r.slot = false then 3
  else if r.trig = true ∧ 256 < t.len + 4 + 6 * b2n t.rtag then 5
  else 4

/-- The first rule that is refused, and the reason, in rule order. -/
def State.rulesBad (s : State) : List (List Byte) → Nat → List Nat → Option (Nat × Nat)
  | [], _, _ => none
  | b :: t, i, seen =>
    match parseRule b with
    | none => some (i, 1)
    | some r =>
      if 8 ≤ (seen.filter (fun k => k == r.slot)).length then some (i, 2)
      else if s.io.inputSlots.contains r.slot = false ∨ s.ruleOk r = false then some (i, s.ruleReason r)
      else s.rulesBad t (i + 1) (r.slot :: seen)

/-- FIU_RULES_LOAD: every rule state is cleared. -/
def execFiuRulesLoad (mbx : Fin 16) (s : State) : Res :=
  let n := mbx.val
  .next (s.serve n 0x51 [2] 3 noWords (fun s =>
    match s.argAddr n 1 with
    | some a =>
      let c := s.arg n 3
      if 16384 < c ∨ s.inDdr a (32 * c) = false then s.reply n 4 []
      else fwThen n (s.fwTable sorterWho n 32 32 c a []) [] fun s1 l =>
        match s1.rulesBad l 0 [] with
        | some (i, r) => s1.reply n 4 [0, 0, i, 0, r]
        | none =>
          let rules := l.filterMap parseRule
          (s1.onIo (fun i => { i with rules := ((List.range rules.length).zip rules) })).reply n 0 [c]
    | none => s.reply n 4 []))

/-! ### EGRESS_TEMPLATE_LOAD (R282, R283) -/

/-- A template with its stored bytes, from the 2,048 bytes of its place in the table. -/
def templateOf (b : List Byte) : Option Template :=
  (parseTemplate (b.take 32)).map (fun t => { t with bytes := (b.drop 32).take t.len })

/-- The fields a template names lie in the table that is loaded, within its LEN, and apart. -/
def templateOk (fields : List FieldEntry) (t : Template) : Bool :=
  decide (t.first + t.nfield ≤ fields.length) && templateFieldsOk t.len ((fields.drop t.first).take t.nfield)

/-- The templates and fields of a load take effect; each field holds the conversion of SAFE until its first composition (R284). -/
def State.setTemplates (s : State) (l : List Template) (fields : List FieldEntry) : State :=
  let s1 := s.onIo (fun i => { i with templates := toMap {} l 0, egrFields := toMap {} fields 0 })
  s1.each ((s1.io.templates.filter (fun e => e.2.nfield != 0)).map (fun e => e.1)) (fun s t => s.safeFill t)

/-- EGRESS_TEMPLATE_LOAD on tables that were read. -/
def State.egressLoad (s : State) (n : Nat) (tt ft : List (List Byte)) : State :=
  match firstBad (fun b => (templateOf b).isSome) tt 0 with
  | some i => s.reply n 4 [0, 0, i, 0, 1]
  | none => match firstBad (fun b => (parseEgrField b).isSome) ft 0 with
    | some i => s.reply n 4 [0, 0, 0, i, 2]
    | none =>
      let l := tt.filterMap templateOf
      let fields := ft.filterMap parseEgrField
      match firstBad (templateOk fields) l 0 with
      | some i => s.reply n 4 [0, 0, i, (l.getD i {}).first, 3]
      | none =>
        let s1 := s.setTemplates l fields
        match s.io.rules.find? (fun r => !s1.ruleOk r.2) with
        | some r => s.reply n 4 [0, 0, r.2.template, 0, 4]
        | none => s1.reply n 0 [(l.filter (fun t => t.en)).length]

/-- EGRESS_TEMPLATE_LOAD. -/
def execEgressTemplateLoad (mbx : Fin 16) (s : State) : Res :=
  let n := mbx.val
  .next (s.serve n 0x52 [2] 5 noWords (fun s =>
    let c := s.arg n 5
    match s.argAddr n 1, s.argAddr n 3 with
    | some a, some b =>
      if s.inDdr a 1048576 = false ∨ 6144 < c ∨ s.inDdr b (32 * c) = false then s.reply n 4 []
      else fwThen n (s.fwTable composerWho n 2048 2048 512 a []) [] fun s1 tt =>
        fwThen n (s1.fwTable composerWho n 32 32 c b []) [] fun s2 ft => s2.egressLoad n tt ft
    | _, _ => s.reply n 4 []))

/-! ### FABRIC_CONFIG (R353) -/

/-- Results of FABRIC_CONFIG: FAB_STAT after the change, or the failing word or entry. -/
def State.fabReply (s : State) (n : Nat) : State := s.reply n 0 [(s.rd R.FAB_STAT).toNat]

/-- FABRIC_CONFIG refused: RES1 names the word or entry. -/
def State.fabRefuse (s : State) (n code at_ : Nat) : State := s.reply n code [(s.rd R.FAB_STAT).toNat, at_]

/-- A subcommand of FABRIC_CONFIG: A1 holds it alone. -/
def State.fabConfig (s : State) (n sub used : Nat) (modes : List Nat) (body : State → State) : State :=
  s.serveSub n 0x61 0 sub 4 modes used (fun i => [(s.rd R.FAB_STAT).toNat, i]) (fun s =>
    if 256 ≤ s.arg n 1 then s.fabRefuse n 4 1 else body s)

/-- FABRIC_CONFIG_DOMAIN: the four registers, or none; FAB_WITNESS.TOKEN stays. -/
def execFabricConfigDomain (mbx : Fin 16) (s : State) : Res :=
  let n := mbx.val
  .next (s.fabConfig n 0 5 [2] (fun s =>
    let witness : Word := setFld (s.cmdWord n 5) 8 8 (s.f R.FAB_WITNESS 8 8)
    if s.fwRegOk R.FAB_CTL (s.cmdWord n 2) = false then s.fabRefuse n 4 2
    else if s.fwRegOk R.FAB_PRIO (s.cmdWord n 3) = false then s.fabRefuse n 4 3
    else if 65536 ≤ s.arg n 4 ∨ s.fwRegOk R.FAB_VOTE (s.cmdWord n 4) = false then s.fabRefuse n 4 4
    else if 256 ≤ s.arg n 5 ∨ s.fwRegOk R.FAB_WITNESS witness = false then s.fabRefuse n 4 5
    else
      let s1 := ((s.fwReg R.FAB_PRIO (s.cmdWord n 3)).fwReg R.FAB_VOTE (s.cmdWord n 4)).fwReg R.FAB_WITNESS witness
      (s1.fwReg R.FAB_CTL (s.cmdWord n 2)).fabReply n))

/-- FABRIC_CONFIG_TOKEN (R314). -/
def execFabricConfigToken (mbx : Fin 16) (s : State) : Res :=
  let n := mbx.val
  .next (s.fabConfig n 1 2 allModes (fun s =>
    if 2 ≤ s.arg n 2 then s.fabRefuse n 4 2 else (s.setB R.FAB_WITNESS 8 (s.arg n 2 == 1)).fabReply n))

/-- FABRIC_CONFIG_TWIN. -/
def execFabricConfigTwin (mbx : Fin 16) (s : State) : Res :=
  let n := mbx.val
  .next (s.fabConfig n 2 2 [2] (fun s =>
    if 1024 ≤ s.arg n 2 ∨ s.fwRegOk R.FAB_TWIN (s.cmdWord n 2) = false then s.fabRefuse n 4 2
    else (s.fwReg R.FAB_TWIN (s.cmdWord n 2)).fabReply n))

/-- A rejoin region of 32 bytes (R316), or none where it is refused. -/
def State.parseRegion (s : State) (b : List Byte) : Option RejoinRegion :=
  let r : RejoinRegion := { addr := leField b 0 8, len := leField b 8 4, srcDev := leField b 12 1, srcAddr := leField b 16 8 }
  if r.len % 64 = 0 ∧ r.len ≤ 524288 ∧ r.srcDev < 64 ∧ zeros b 13 3 = true ∧ zeros b 24 8 = true ∧ s.inRam r.addr r.len = true ∧
      r.srcAddr + r.len ≤ remoteSize then some r else none

/-- FABRIC_CONFIG_REJOIN_REGIONS. -/
def execFabricConfigRejoinRegions (mbx : Fin 16) (s : State) : Res :=
  let n := mbx.val
  .next (s.fabConfig n 3 4 [2] (fun s =>
    let c := s.arg n 4
    match s.argAddr n 2 with
    | none => s.fabRefuse n 4 3
    | some a =>
      if 16 < c then s.fabRefuse n 4 4
      else if s.inDdr a (32 * c) = false then s.fabRefuse n 4 2
      else fwThen n (s.fwTable fwWho n 32 32 c a []) [(s.rd R.FAB_STAT).toNat] fun s1 l =>
        match firstBad (fun b => (s1.parseRegion b).isSome) l 0 with
        | some i => s1.fabRefuse n 4 i
        | none => (s1.onFab (fun f => { f with regions := l.filterMap s1.parseRegion })).fabReply n))

/-- A twin region of 16 bytes (R319), or none where it is refused. -/
def State.parseTwin (s : State) (b : List Byte) : Option (Nat × Nat) :=
  let a := leField b 0 8
  let len := leField b 8 4
  if len % 64 = 0 ∧ zeros b 12 4 = true ∧ s.inRam a len = true then some (a, len) else none

/-- The entry with which the total length passes 256 KiB. -/
def overTotal : List (Nat × Nat) → Nat → Nat → Option Nat
  | [], _, _ => none
  | r :: t, i, sum => if 262144 < sum + r.2 then some i else overTotal t (i + 1) (sum + r.2)

/-- FABRIC_CONFIG_TWIN_REGIONS. -/
def execFabricConfigTwinRegions (mbx : Fin 16) (s : State) : Res :=
  let n := mbx.val
  .next (s.fabConfig n 4 4 [2] (fun s =>
    let c := s.arg n 4
    match s.argAddr n 2 with
    | none => s.fabRefuse n 4 3
    | some a =>
      if 16 < c then s.fabRefuse n 4 4
      else if s.inDdr a (16 * c) = false then s.fabRefuse n 4 2
      else fwThen n (s.fwTable fwWho n 16 16 c a []) [(s.rd R.FAB_STAT).toNat] fun s1 l =>
        match firstBad (fun b => (s1.parseTwin b).isSome) l 0 with
        | some i => s1.fabRefuse n 4 i
        | none =>
          let r := l.filterMap s1.parseTwin
          match overTotal r 0 0 with
          | some i => s1.fabRefuse n 4 i
          | none => (s1.onFab (fun f => { f with twinRegions := r })).fabReply n))

end Sys2Proof.Machine
end

