-- ==== Sys2Proof/Machine/MailUpdate.lean ====
section
/-! DEFINITION. The update, settings and task commands (R355, R357, R358, R369-R373, R381, R382). -/

namespace Sys2Proof.Machine

/-! ### Update (R355, R369-R373, R382) -/

/-- UPDATE_BEGIN on a header that was read: the steps of R369 in their order. -/
def State.updateBegin (s : State) (n : Nat) (h : List Byte) : State :=
  if imgWellFormed h = false then s.reply n 4 []
  else if imgAuthentic h = false then s.reply n 8 []
  else if imgArb h < s.arbCount ∨ s.trialSlot.isSome = true then s.reply n 5 []
  else if maxPayload < imgPlen h then s.reply n 0x0A []
  else match s.lockFor .host h with
    | none => s.reply n 2 []
    | some s1 => s1.reply n 0 [imgPlen h, leField h 8 4]

/-- UPDATE_BEGIN. -/
def execUpdateBegin (mbx : Fin 16) (s : State) : Res :=
  let n := mbx.val
  .next (s.serve n 0x70 allModes 2 noWords (fun s =>
    match s.argAddr n 1 with
    | none => s.reply n 4 []
    | some a =>
      if s.taken n then s.reply n 2 []
      else if s.fabricAway a then s.reply n 0x0C []
      else fwThen n (s.fwRead n a 512) [] fun s1 h => s1.updateBegin n h))

/-- UPDATE_BLOCK on the bytes that were read (R371). -/
def State.updateBlock (s : State) (n : Nat) (d : List Byte) : State :=
  match s.stageBlock .host (s.arg n 3) d with
  | (s1, .ok) => s1.reply n 0 [(s1.rd R.UPD_RECV).toNat]
  | (s1, .denied) => s1.reply n 5 []
  | (s1, _) => s1.reply n 4 []

/-- UPDATE_BLOCK. -/
def execUpdateBlock (mbx : Fin 16) (s : State) : Res :=
  let n := mbx.val
  .next (s.serve n 0x71 allModes 4 noWords (fun s =>
    let len := s.arg n 4
    match s.argAddr n 1 with
    | none => s.reply n 4 []
    | some a =>
      if len < 1 ∨ 65536 < len then s.reply n 4 []
      else if s.taken n then s.reply n 2 []
      else if s.attached .host = false ∨ s.upd.failedHost = true then s.reply n 5 []
      else if s.fabricAway a then s.reply n 0x0C []
      else fwThen n (s.fwRead n a len) [] fun s1 d => s1.updateBlock n d))

/-- UPDATE_COMMIT (R372); in a recovery the reset follows (R436). -/
def execUpdateCommit (mbx : Fin 16) (s : State) : Res :=
  let n := mbx.val
  .next (s.serve n 0x72 allModes 0 noWords (fun s =>
    if s.taken n then s.reply n 2 []
    else if s.attached .host = false then s.reply n 5 []
    else match s.commitStaging with
      | (s1, some o) => s1.reply n 9 [0, o]
      | (s1, none) => (s1.reply n 0 [1 - s1.boot.active]).recovered))

/-- UPDATE_ABORT (R373): the host's attachment ends. -/
def execUpdateAbort (mbx : Fin 16) (s : State) : Res :=
  let n := mbx.val
  .next (s.serve n 0x73 allModes 0 noWords (fun s =>
    if s.taken n then s.reply n 2 []
    else if s.upd.holder = some .host then (s.detach .host none).reply n 0 [] else s.reply n 5 []))

/-- UPDATE_STATUS. -/
def execUpdateStatus (mbx : Fin 16) (s : State) : Res :=
  let n := mbx.val
  .next (s.serve n 0x74 allModes 0 noWords (fun s =>
    let u := s.upd
    let r := s.boot
    let lock := b2n (u.holder == some .host) + b2n (u.holder == some .fabric) * 2 + b2n u.coSource.isSome * 4
    let trial := s.trialSlot.isSome
    s.reply n 0 [s.updState, (s.rd R.UPD_RECV).toNat, u.plen, leField u.header 8 4, lock, if trial then 3 - r.boots else 0,
      if trial then r.runmin else 0]))

/-- UPDATE_CONFIRM (R382). -/
def execUpdateConfirm (mbx : Fin 16) (s : State) : Res :=
  let n := mbx.val
  .next (s.serve n 0x75 allModes 0 noWords (fun s =>
    if s.taken n then s.reply n 2 []
    else match s.trialSlot with
      | none => s.reply n 5 []
      | some x => (s.confirm x).reply n 0 [x]))

/-! ### Settings (R358, R381) -/

/-- SETTINGS_READ. -/
def execSettingsRead (mbx : Fin 16) (s : State) : Res :=
  let n := mbx.val
  .next (s.serve n 0xB0 allModes 4 noWords (fun s =>
    match s.argAddr n 2 with
    | none => s.reply n 4 []
    | some a =>
      if 65536 ≤ s.arg n 1 then s.reply n 4 []
      else if s.taken n then s.reply n 2 []
      else match s.fw.settings.find? (fun r => r.key == s.arg n 1) with
        | none => s.reply n 4 [0, 0, 1]
        | some r =>
          if s.fabricAway a then s.reply n 0x0C []
          else fwThen n (s.fwWrite n a (r.data.take (s.arg n 4))) [] fun s1 _ => s1.reply n 0 [r.data.length, r.schema]))

/-- The records of a store with one key's record replaced, added, or deleted (length 0). -/
def putRecord (l : List SettingsRec) (r : SettingsRec) : List SettingsRec :=
  if r.data = [] then l.filter (fun x => x.key != r.key)
  else if l.any (fun x => x.key == r.key) then l.map (fun x => if x.key = r.key then r else x)
  else l ++ [r]

/-- SETTINGS_WRITE on data that was read: a complete new store in the copy not in use (R381). -/
def State.settingsWrite (s : State) (n : Nat) (d : List Byte) : State :=
  let recs := putRecord s.fw.settings { key := s.arg n 1, schema := s.arg n 5, data := d }
  if 1048512 < (recs.map (fun r => recordSize r.data.length)).sum then s.reply n 0x0A []
  else
    let c := 1 - s.fw.setCopy
    let z : SettingsCopy := { schema := s.fw.setSchema, slot := s.f R.UPD_STAT 6 6, gen := wrapAdd 32 s.fw.setGen 1, recs := recs }
    ((s.writeSettings c z).onFw (fun f => { f with setCopy := c, setGen := z.gen, settings := recs })).reply n 0 []

/-- SETTINGS_WRITE. -/
def execSettingsWrite (mbx : Fin 16) (s : State) : Res :=
  let n := mbx.val
  .next (s.serve n 0xB1 [2] 5 noWords (fun s =>
    let len := s.arg n 4
    match s.argAddr n 2 with
    | none => s.reply n 4 []
    | some a =>
      if 65535 ≤ s.arg n 1 ∨ 4096 < len ∨ 65536 ≤ s.arg n 5 then s.reply n 4 []
      else if s.taken n then s.reply n 2 []
      else if s.trialSlot.isSome then s.reply n 5 []
      else if s.arg n 5 < s.fw.schMin ∨ s.fw.schMax < s.arg n 5 then s.reply n 0x0D []
      else if len = 0 then s.settingsWrite n []
      else if s.fabricAway a then s.reply n 0x0C []
      else fwThen n (s.fwRead n a len) [] fun s1 d => s1.settingsWrite n d))

/-! ### Tasks (R357) -/

/-- The descriptor of a task's code: rights R and X, MINPL = PL. -/
def codeDesc (base len pl : Nat) : List Byte :=
  leBytes 4 base ++ leBytes 4 (base / 2 ^ 32) ++ leBytes 4 (len - 1) ++ leBytes 4 (1 + 4 + pl * 16 + 128)

/-- Indexes that TASK_LOAD may take for thread t, from 1 on: not present and not another task's, or the thread's own of an
earlier load. -/
def State.freeDescs (s : State) (t : Nat) (tbl : List (List Byte)) : List Nat :=
  (((List.range tbl.length).zip tbl).filter (fun e =>
    e.1 != 0 && (match s.fw.descs.find? (fun x => x.2 == e.1) with
      | some x => x.1 == t
      | none => !(parseDesc e.2).present))).map (fun e => e.1)

/-- Descriptors written at their indexes, in order; a bus error stops them. -/
def State.writeDescs (s : State) (n : Nat) : List (Nat × List Byte) → State × FwRes Unit
  | [] => (s, .ok ())
  | (i, b) :: l =>
    match s.fwWrite n (s.descAddr (8 * i)) b with
    | (s1, .ok _) => s1.writeDescs n l
    | (s1, .err c) => (s1, .err c)
    | (s1, .wait) => (s1, .wait)

/-- TASK_LOAD once image, list and table were read and there is room: image and descriptors written, those of an earlier load
that are not used again cleared, and the thread's registers set. -/
def State.taskLoad (s : State) (n t : Nat) (img : List Byte) (list : List (List Byte)) (idx : List Nat) : State :=
  let off := s.arg n 5
  let len := s.arg n 4
  let pl := s.arg n 7
  let base := bankHome 16 + off
  let old := ((s.fw.descs.filter (fun e => e.1 == t)).map (fun e => e.2)).filter (fun i => !idx.contains i)
  fwThen n (s.fwWrite n base img) [] fun s1 _ =>
  fwThen n (s1.writeDescs n ((idx.zip (codeDesc base len pl :: list)) ++ old.map (fun i => (i, List.replicate 16 0)))) [] fun s2 _ =>
    let s3 := s2.onFw (fun f =>
      { f with
        descs := f.descs.filter (fun e => e.1 != t) ++ idx.map (fun i => (t, i))
        taskMem := f.taskMem.filter (fun e => e.1 != t) ++ [(t, off, len)] })
    let sel := 8 * idx.headD 0
    let s4 := ((s3.wr (R.STM_ENTRY t) (BitVec.ofNat 32 (s.arg n 6))).wr (R.STM_CSEL t) (BitVec.ofNat 32 sel)).putF (R.STM_CTL t) 5 4 pl
    s4.reply n 0 (idx.map (fun i => 8 * i))

/-- TASK_LOAD for a thread that may take it. -/
def State.taskFit (s : State) (n t : Nat) (img : List Byte) (list : List (List Byte)) : State :=
  let off := s.arg n 5
  let stop := off + s.arg n 4
  if list.any (fun b => (parseDesc b).bad || decide (2 ≤ (parseDesc b).minpl)) then s.reply n 4 []
  else if bankSize 16 < stop ∨ s.fw.taskMem.any (fun e => e.1 != t && decide (off < e.2.1 + e.2.2) && decide (e.2.1 < stop)) = true then
    s.reply n 0x0A []
  else fwThen n (s.fwTable fwWho n 16 16 (s.f R.STM_DTCOUNT 13 0) (s.descAddr 0) []) [] fun s1 tbl =>
    let idx := (s1.freeDescs t tbl).take (1 + list.length)
    if idx.length < 1 + list.length then s1.reply n 0x0A [] else s1.taskLoad n t img list idx

/-- TASK_LOAD. -/
def execTaskLoad (mbx : Fin 16) (s : State) : Res :=
  let n := mbx.val
  .next (s.serve n 0xA0 frameModes 10 noWords (fun s =>
    let t := s.arg n 1
    let len := s.arg n 4
    let cnt := s.arg n 10
    match s.argAddr n 2, s.argAddr n 8 with
    | some a, some b =>
      if 7 < t ∨ len = 0 ∨ len % 4 ≠ 0 ∨ s.arg n 5 % 64 ≠ 0 ∨ s.arg n 5 < s.fw.fwArea ∨ s.arg n 6 % 4 ≠ 0 ∨ len ≤ s.arg n 6 ∨
          1 < s.arg n 7 ∨ 7 < cnt ∨ (cnt ≠ 0 ∧ s.inDdr b (16 * cnt) = false) then s.reply n 4 []
      else if s.taken n then s.reply n 2 []
      else if t < 2 ∨ (s.thr t).st ≠ .stopped then s.reply n 5 []
      else if s.fabricAway a then s.reply n 0x0C []
      else if bankSize 16 < len then s.reply n 0x0A []
      else fwThen n (s.fwRead n a len) [] fun s1 img =>
        fwThen n (s1.fwTable fwWho n 16 16 cnt b []) [] fun s2 list => s2.taskFit n t img list
    | _, _ => s.reply n 4 []))

/-- TASK_START: a START that sets STARTERR gives BAD_ARG. -/
def execTaskStart (mbx : Fin 16) (s : State) : Res :=
  let n := mbx.val
  .next (s.serve n 0xA1 frameModes 1 noWords (fun s =>
    let t := s.arg n 1
    if 7 < t then s.reply n 4 []
    else if s.taken n then s.reply n 2 []
    else if t < 2 then s.reply n 5 []
    else
      let v := setFld 1 5 4 (s.f (R.STM_CTL t) 5 4)
      let far : State × FwRes (List Byte) := match s.descAsk (.lichen true) (R.STM_CTL t) v with
        | some (d, x, a) => fwAcc n 0 (s, .need d x 16 a [])
        | none => (s, .ok [])
      fwThen n far [] (fun s _ =>
        let s1 := s.writeStmCtl s.ctlAns t v
        s1.reply n (if (s1.thr t).st = .stopped then 4 else 0) [(s1.stmStat t).toNat])))

/-- TASK_STOP publishes when the thread is STOPPED. -/
def execTaskStop (mbx : Fin 16) (s : State) : Res :=
  let n := mbx.val
  .next (s.serve n 0xA2 frameModes 1 noWords (fun s =>
    let t := s.arg n 1
    if 7 < t then s.reply n 4 []
    else if s.taken n then s.reply n 2 []
    else if t < 2 then s.reply n 5 []
    else if (s.thr t).st = .stopped then s.reply n 0 [(s.thr t).pc.toNat, (s.stmStat t).toNat]
    else (s.onHost (fun h => { h with waits := h.waits ++ [(n, .taskStop t)] })).writeStmCtl [] t
      (setFld 2 5 4 (s.f (R.STM_CTL t) 5 4))))

end Sys2Proof.Machine
end

