-- ==== Sys2Proof/Machine/Region.lean ====
section
/-! DEFINITION. The region commands (R349, R350): their checks, the COPY jobs that firmware issues for them in Config, Run and
Hold, and the Stem's own copying in Safe and in idle windows (log 25). -/

namespace Sys2Proof.Machine

/-! ### The start (R349) -/

/-- The mailbox's region command as it begins: FLAGS [0] IDLE, [3:1] CLASS, [31:16] TIMEOUT. -/
def State.regionOf (s : State) (n kind dst src : Nat) : RegionWork :=
  let fl := s.cmdWord n 6
  { kind := kind, dst := dst, src := src, len := s.arg n 5, cls := fld fl 3 1, idle := fl.getLsbD 0
    limit := if fld fl 31 16 = 0 then 1000 else fld fl 31 16, start := s.ledger.frame.toNat }

/-- Two ranges of equal length meet without being one. -/
def crossing (a b n : Nat) : Bool := a != b && decide (a < b + n) && decide (b < a + n)

/-- A range of B0-B15 or DDR5. -/
def State.inData (s : State) (a n : Nat) : Bool := inRange (s.home a) n bankBase (bankHome 16) || s.inDdr (s.home a) n

/-- A range of B0-B17, DDR5 or a remote window. -/
def State.inAny (s : State) (a n : Nat) : Bool := s.inRam a n || inRemote a n

/-- The status that the checks of R349 give a region command, in their order; 0: it may begin. -/
def State.regionCheck (s : State) (w : RegionWork) : Nat :=
  let src := w.kind == 2 || (if w.kind = 0 then s.inData w.src w.len else s.inAny w.src w.len)
  let dst := if w.kind = 1 then s.inData w.dst w.len else s.inAny w.dst w.len
  let d := s.home w.dst
  if w.len % 8 ≠ 0 ∨ w.len < 8 ∨ 2 ^ 30 < w.len ∨ w.dst % 8 ≠ 0 ∨ (w.kind ≠ 2 ∧ w.src % 8 ≠ 0) then 4
  else if src = false ∨ dst = false then 4
  else if d < bankHome 16 + s.fw.fwArea ∧ bankHome 16 < d + w.len then 5
  else if w.kind ≠ 2 ∧ crossing d (s.home w.src) w.len = true then 4
  else if s.fabricAway w.dst = true ∨ (w.kind ≠ 2 ∧ s.fabricAway w.src = true) then 0x0C
  else 0

/-! ### The end -/

/-- The command publishes: bytes copied, idle windows used, fault code, fault address. -/
def State.regionEnd (s : State) (n status : Nat) (w : RegionWork) (code addr : Nat) : State :=
  s.reply n status ([w.done, w.windows, code] ++ twoWords addr)

/-- The command goes on later. -/
def State.regionWait (s : State) (n : Nat) (w : RegionWork) : State :=
  s.onHost (fun h => { h with waits := h.waits.filter (fun e => e.1 != n) ++ [(n, .region w)] })

/-- The doubleword at an address has an uncorrectable error. -/
def State.uncorrectableAt (s : State) (a : Nat) : Bool :=
  let h := s.home a
  match s.locate h with
  | .bank b off => (match s.eccAt (s.bankAddr b off) with
    | some (.single _) => false
    | some _ => true
    | none => false)
  | .ddr _ => (match s.lineError h with
    | some (.single _) => false
    | some _ => true
    | none => false)
  | _ => false

/-- The status of a fault (R350): uncorrectable data, a remote STATUS 3 or 4, or another. -/
def State.regionFault (s : State) (w : RegionWork) (code addr : Nat) : Nat :=
  if 3 ≤ w.remote then 0x0C else if code = 9 ∧ s.uncorrectableAt addr = true then 9 else 4

/-- The command's time limit has passed. -/
def State.regionLate (s : State) (w : RegionWork) : Bool := decide (w.limit ≤ s.ledger.frame.toNat - w.start)

/-! ### COPY jobs (R350) -/

/-- Elements of the next job. -/
def RegionWork.elems (w : RegionWork) : Nat := min 8192 ((w.len - w.done) / 8)

/-- Source and destination of the next job. -/
def RegionWork.from_ (w : RegionWork) : Nat := w.src + w.done
/-- Destination of the next job. -/
def RegionWork.into (w : RegionWork) : Nat := w.dst + w.done

/-- The VJD of the next job: COPY of uint64, deferrable, on one Frond; a fill broadcasts its pattern. -/
def RegionWork.vjd (w : RegionWork) : List Word :=
  let a := if w.kind = 2 then [4 * 2 ^ 16, w.src % 2 ^ 32, w.src / 2 ^ 32, 0] else [8 + 2 ^ 16, 0, 1, 0]
  ([0x50 + 8 * 2 ^ 24, w.elems, w.cls * 2 ^ 12 + 2 ^ 15, 0, 0, 0, 0, 0] ++ a ++ List.replicate 12 0 ++ [16 + 2 ^ 16, 0, 1, 0] ++
    List.replicate 4 0).map (fun v => BitVec.ofNat 32 v)

/-- The segments that firmware gives the job. -/
def RegionWork.segs (w : RegionWork) : List (Nat × SegDesc) :=
  let seg := fun (a : Nat) => ({ base := a, limit := 8 * w.elems - 1, r := true, w := true, minpl := 3, present := true } : SegDesc)
  (if w.kind = 2 then [] else [(8, seg w.from_)]) ++ [(16, seg w.into)]

/-- The next job is issued: admitted or deferred it is in flight; with no room in a queue it is tried again later; denied it
ends the command. -/
def State.regionIssue (s : State) (n : Nat) (w : RegionWork) : State :=
  let a := regionVjd s.fw.fwArea n
  match parseVjd w.vjd with
  | none => s.regionEnd n 4 w 11 a
  | some v =>
    let s1 := s.setBytes a (w.vjd.flatMap (fun x => leBytes 4 x.toNat))
    match s1.askLedger { job := v, segs := w.segs } 8 a 0 3 none with
    | (s2, .denied) => s2.regionEnd n 7 w 0 0
    | (s2, .qfull) => s2.regionWait n w
    | (s2, _) => s2.regionWait n { w with issued := some w.elems }

/-! ### The Stem's copying (R350) -/

/-- Firmware has used its answers. -/
def State.clearAnswers (s : State) (n : Nat) : State :=
  s.onHost (fun h => { h with answers := h.answers.filter (fun e => e.1 != n) })

/-- Units of 8 bytes in ascending order: what was done, and the CAUSE and address of a bus error. The flag says that a unit waits. -/
def State.copyUnits (s : State) (n : Nat) : Nat → RegionWork → State × RegionWork × Option (Nat × Nat) × Bool
  | 0, w => (s, w, none, false)
  | k + 1, w =>
    if w.len ≤ w.done then (s, w, none, false)
    else
      let got := if w.kind = 2 then (s, FwRes.ok (leBytes 8 w.src)) else s.fwRead n w.from_ 8
      match got with
      | (s1, .err c) => (s1, w, some (c, w.from_), false)
      | (s1, .wait) => (s1, w, none, true)
      | (s1, .ok d) =>
        match s1.fwWrite n w.into d with
        | (s2, .err c) => (s2, w, some (c, w.into), false)
        | (s2, .wait) => (s2, w, none, true)
        | (s2, .ok _) => (s2.clearAnswers n).copyUnits n k { w with done := w.done + 8 }

/-- The Stem copies up to k units, then the command ends or waits. -/
def State.regionCopy (s : State) (n k : Nat) (w : RegionWork) : State :=
  match s.copyUnits n k w with
  | (s1, w1, some (c, a), _) => s1.regionEnd n (s1.readStatus n c) w1 9 a
  | (s1, w1, none, _) => if w1.len ≤ w1.done then s1.regionEnd n 0 w1 0 0 else s1.regionWait n w1

/-- An idle window is used: as many units as firmware copies before it closes; once a window. -/
def State.regionIdle (s : State) (n : Nat) (w : RegionWork) : State :=
  if s.phaseNow ≠ 3 then s.regionWait n w
  else if w.lastWindow = some s.ledger.frame.toNat then
    (if s.host.answers.any (fun e => e.1 == n) then s.regionCopy n 1 w else s.regionWait n w)
  else
    let k := Config.idleCopy s.free
    let s1 : State := { s with free := s.free + 1 }
    let w1 := { w with lastWindow := some s.ledger.frame.toNat, windows := w.windows + (if k = 0 then 0 else 1) }
    s1.regionCopy n k w1

/-! ### Going on -/

/-- The job that was in flight has left: its bytes are done, or it faulted at the first uncommitted byte. -/
def State.regionJob (s : State) (w : RegionWork) (n m : Nat) : RegionWork × Option (Nat × Nat) :=
  let b := s.bytesAt (regionVjd s.fw.fwArea n) 32
  let stat := leField b 16 4
  if stat % 256 = 5 then ({ w with issued := none, done := w.done + 8 * m }, none)
  else
    let wr := bits (leField b 24 4) 18 16 == 4
    let w1 := { w with issued := none, done := w.done + 8 * leField b 12 4 }
    (w1, some (bits stat 15 8, (if wr then w.into else w.from_) + leField b 20 4))

/-- With no job in flight: the end, the time limit, or the next part. -/
def State.regionNext (s : State) (n : Nat) (w : RegionWork) : State :=
  if w.len ≤ w.done then s.regionEnd n 0 w 0 0
  else if s.regionLate w then s.regionEnd n 0x0B w 0 0
  else if s.mode = 5 then s.regionCopy n (w.len / 8) w
  else if w.idle = true ∧ s.inFrame = true then s.regionIdle n w
  else s.regionIssue n w

/-- A region command in progress. -/
def State.regionOn (s : State) (n : Nat) (w : RegionWork) : State :=
  match w.issued with
  | none => s.regionNext n w
  | some m =>
    if (s.jobAt (regionVjd s.fw.fwArea n)).isSome then s
    else match s.regionJob w n m with
      | (w1, none) => s.regionNext n w1
      | (w1, some (code, a)) => s.regionEnd n (s.regionFault w code a) w1 code a

/-- A region command begins, or goes on with what it waited for. -/
def State.region (s : State) (n code kind : Nat) : State :=
  match s.host.waits.find? (fun e => e.1 == n) with
  | some (_, MailboxWait.region w) =>
    if w.kind ≠ kind ∨ s.running = false ∨ s.host.asked.contains n = true then s else s.regionOn n w
  | _ =>
    s.serve n code allModes 6 (fun _ => [0]) (fun s =>
      let src := if kind = 2 then some (s.arg n 3 + s.arg n 4 * 2 ^ 32) else s.argAddr n 3
      match s.argAddr n 1, src with
      | some a, some b =>
        if fld (s.cmdWord n 6) 15 4 ≠ 0 then s.reply n 4 [0]
        else
          let w := s.regionOf n kind a b
          let c := s.regionCheck w
          if c ≠ 0 then s.reply n c [0] else s.regionNext n w
      | _, _ => s.reply n 4 [0])

/-- REGION_WRITE. -/
def execRegionWrite (mbx : Fin 16) (s : State) : Res := .next (s.region mbx.val 0x20 0)

/-- REGION_READ. -/
def execRegionRead (mbx : Fin 16) (s : State) : Res := .next (s.region mbx.val 0x21 1)

/-- REGION_FILL. -/
def execRegionFill (mbx : Fin 16) (s : State) : Res := .next (s.region mbx.val 0x22 2)

end Sys2Proof.Machine
end

