-- ==== Sys2Proof/Machine/Dispatch.lean ====
section
/-! DEFINITION. The dispatch: one arm per command of the table, each one call of its meaning. -/

namespace Sys2Proof.Machine

/-- The effect of a command on everything but the queue. -/
def exec (i : Instr) (s : State) : Host.Outcome State Fault Refusal :=
  match i with
  | .powerUp env => Sys2Proof.Machine.execPowerUp env s
  | .vinLoss => Sys2Proof.Machine.execVinLoss s
  | .vinLow mv => Sys2Proof.Machine.execVinLow mv s
  | .railFault rail => Sys2Proof.Machine.execRailFault rail s
  | .porNReset => Sys2Proof.Machine.execPorNReset s
  | .refclkLoss => Sys2Proof.Machine.execRefclkLoss s
  | .pwrRst o v => Sys2Proof.Machine.execPwrRst o v s
  | .modeRequest o v => Sys2Proof.Machine.execModeRequest o v s
  | .safeEntry => Sys2Proof.Machine.execSafeEntry s
  | .dormantEntry => Sys2Proof.Machine.execDormantEntry s
  | .wake src trained => Sys2Proof.Machine.execWake src trained s
  | .wakeTimerExpire => Sys2Proof.Machine.execWakeTimerExpire s
  | .clkdivChange o v => Sys2Proof.Machine.execClkdivChange o v s
  | .thermalRise tj sensor => Sys2Proof.Machine.execThermalRise tj sensor s
  | .thermalTrip tj sensor => Sys2Proof.Machine.execThermalTrip tj sensor s
  | .tick => Sys2Proof.Machine.execTick s
  | .generatorTick => Sys2Proof.Machine.execGeneratorTick s
  | .tickInEdge falling => Sys2Proof.Machine.execTickInEdge falling s
  | .tickWindowExpire => Sys2Proof.Machine.execTickWindowExpire s
  | .sourceReturn => Sys2Proof.Machine.execSourceReturn s
  | .commitHold => Sys2Proof.Machine.execCommitHold s
  | .cutoff => Sys2Proof.Machine.execCutoff s
  | .deadline => Sys2Proof.Machine.execDeadline s
  | .outputTime => Sys2Proof.Machine.execOutputTime s
  | .templateRelease template => Sys2Proof.Machine.execTemplateRelease template s
  | .vissue t f => Sys2Proof.Machine.execVissue t f s
  | .jobStart frond => Sys2Proof.Machine.execJobStart frond s
  | .stripStart frond => Sys2Proof.Machine.execStripStart frond s
  | .jobComplete frond => Sys2Proof.Machine.execJobComplete frond s
  | .preempt frond => Sys2Proof.Machine.execPreempt frond s
  | .jobCarry frond => Sys2Proof.Machine.execJobCarry frond s
  | .topupResume frond => Sys2Proof.Machine.execTopupResume frond s
  | .planEntryStart entry => Sys2Proof.Machine.execPlanEntryStart entry s
  | .flushq o frond v => Sys2Proof.Machine.execFlushq o frond v s
  | .bankPowerChange bank => Sys2Proof.Machine.execBankPowerChange bank s
  | .bankClear bank => Sys2Proof.Machine.execBankClear bank s
  | .bankScrub bank => Sys2Proof.Machine.execBankScrub bank s
  | .errorInjectSbe o bank => Sys2Proof.Machine.execErrorInjectSbe o bank s
  | .errorInjectDbe o bank => Sys2Proof.Machine.execErrorInjectDbe o bank s
  | .ddrTraining dimms trained => Sys2Proof.Machine.execDdrTraining dimms trained s
  | .ddrRefresh chan => Sys2Proof.Machine.execDdrRefresh chan s
  | .dimmTempChange chan temp => Sys2Proof.Machine.execDimmTempChange chan temp s
  | .ddrRetrain chan => Sys2Proof.Machine.execDdrRetrain chan s
  | .ddrRetrainRequest o chan v => Sys2Proof.Machine.execDdrRetrainRequest o chan v s
  | .patrolScrub sub found => Sys2Proof.Machine.execPatrolScrub sub found s
  | .matrixGrant target => Sys2Proof.Machine.execMatrixGrant target s
  | .matrixResponse master => Sys2Proof.Machine.execMatrixResponse master s
  | .holdbackRelease master => Sys2Proof.Machine.execHoldbackRelease master s
  | .fetch => Sys2Proof.Machine.execFetch s
  | .storeDrain t => Sys2Proof.Machine.execStoreDrain t s
  | .trapEntry t => Sys2Proof.Machine.execTrapEntry t s
  | .threadStart o t v => Sys2Proof.Machine.execThreadStart o t v s
  | .threadStop o t v => Sys2Proof.Machine.execThreadStop o t v s
  | .waitWake t => Sys2Proof.Machine.execWaitWake t s
  | .sleepExpire t => Sys2Proof.Machine.execSleepExpire t s
  | .ld t f => Sys2Proof.Machine.execLd t f s
  | .lds t f => Sys2Proof.Machine.execLds t f s
  | .st t f => Sys2Proof.Machine.execSt t f s
  | .ldx t f => Sys2Proof.Machine.execLdx t f s
  | .ldy t f => Sys2Proof.Machine.execLdy t f s
  | .stx t f => Sys2Proof.Machine.execStx t f s
  | .sty t f => Sys2Proof.Machine.execSty t f s
  | .leax t f => Sys2Proof.Machine.execLeax t f s
  | .leay t f => Sys2Proof.Machine.execLeay t f s
  | .xch t f => Sys2Proof.Machine.execXch t f s
  | .add t f => Sys2Proof.Machine.execAdd t f s
  | .adc t f => Sys2Proof.Machine.execAdc t f s
  | .sub t f => Sys2Proof.Machine.execSub t f s
  | .sbc t f => Sys2Proof.Machine.execSbc t f s
  | .and t f => Sys2Proof.Machine.execAnd t f s
  | .or t f => Sys2Proof.Machine.execOr t f s
  | .xor t f => Sys2Proof.Machine.execXor t f s
  | .cmp t f => Sys2Proof.Machine.execCmp t f s
  | .tst t f => Sys2Proof.Machine.execTst t f s
  | .addx t f => Sys2Proof.Machine.execAddx t f s
  | .addy t f => Sys2Proof.Machine.execAddy t f s
  | .cmpx t f => Sys2Proof.Machine.execCmpx t f s
  | .cmpy t f => Sys2Proof.Machine.execCmpy t f s
  | .mul t f => Sys2Proof.Machine.execMul t f s
  | .mulu t f => Sys2Proof.Machine.execMulu t f s
  | .div t f => Sys2Proof.Machine.execDiv t f s
  | .divu t f => Sys2Proof.Machine.execDivu t f s
  | .mull t f => Sys2Proof.Machine.execMull t f s
  | .shl t f => Sys2Proof.Machine.execShl t f s
  | .shr t f => Sys2Proof.Machine.execShr t f s
  | .sar t f => Sys2Proof.Machine.execSar t f s
  | .rol t f => Sys2Proof.Machine.execRol t f s
  | .ror t f => Sys2Proof.Machine.execRor t f s
  | .neg t f => Sys2Proof.Machine.execNeg t f s
  | .not t f => Sys2Proof.Machine.execNot t f s
  | .abs t f => Sys2Proof.Machine.execAbs t f s
  | .tax t f => Sys2Proof.Machine.execTax t f s
  | .txa t f => Sys2Proof.Machine.execTxa t f s
  | .tay t f => Sys2Proof.Machine.execTay t f s
  | .tya t f => Sys2Proof.Machine.execTya t f s
  | .txy t f => Sys2Proof.Machine.execTxy t f s
  | .swapb t f => Sys2Proof.Machine.execSwapb t f s
  | .clz t f => Sys2Proof.Machine.execClz t f s
  | .jmp t f => Sys2Proof.Machine.execJmp t f s
  | .jeq t f => Sys2Proof.Machine.execJeq t f s
  | .jne t f => Sys2Proof.Machine.execJne t f s
  | .jlt t f => Sys2Proof.Machine.execJlt t f s
  | .jge t f => Sys2Proof.Machine.execJge t f s
  | .jltu t f => Sys2Proof.Machine.execJltu t f s
  | .jgeu t f => Sys2Proof.Machine.execJgeu t f s
  | .jvs t f => Sys2Proof.Machine.execJvs t f s
  | .jvc t f => Sys2Proof.Machine.execJvc t f s
  | .jmi t f => Sys2Proof.Machine.execJmi t f s
  | .jpl t f => Sys2Proof.Machine.execJpl t f s
  | .call t f => Sys2Proof.Machine.execCall t f s
  | .ret t f => Sys2Proof.Machine.execRet t f s
  | .jxnz t f => Sys2Proof.Machine.execJxnz t f s
  | .loop t f => Sys2Proof.Machine.execLoop t f s
  | .lexit t f => Sys2Proof.Machine.execLexit t f s
  | .syscall t f => Sys2Proof.Machine.execSyscall t f s
  | .tret t f => Sys2Proof.Machine.execTret t f s
  | .wait t f => Sys2Proof.Machine.execWait t f s
  | .fence t f => Sys2Proof.Machine.execFence t f s
  | .rdsr t f => Sys2Proof.Machine.execRdsr t f s
  | .wrsr t f => Sys2Proof.Machine.execWrsr t f s
  | .lseg t f => Sys2Proof.Machine.execLseg t f s
  | .sleep t f => Sys2Proof.Machine.execSleep t f s
  | .ldl t f => Sys2Proof.Machine.execLdl t f s
  | .stc t f => Sys2Proof.Machine.execStc t f s
  | .vwait t f => Sys2Proof.Machine.execVwait t f s
  | .vpoll t f => Sys2Proof.Machine.execVpoll t f s
  | .vcancel t f => Sys2Proof.Machine.execVcancel t f s
  | .dadd t f => Sys2Proof.Machine.execDadd t f s
  | .dsub t f => Sys2Proof.Machine.execDsub t f s
  | .dcmp t f => Sys2Proof.Machine.execDcmp t f s
  | .movb t f => Sys2Proof.Machine.execMovb t f s
  | .fill t f => Sys2Proof.Machine.execFill t f s
  | .bkpt t f => Sys2Proof.Machine.execBkpt t f s
  | .illegal t w => Sys2Proof.Machine.execIllegal t w s
  | .sporeProduce => Sys2Proof.Machine.execSporeProduce s
  | .sporeArrive chan => Sys2Proof.Machine.execSporeArrive chan s
  | .countRelay input => Sys2Proof.Machine.execCountRelay input s
  | .remoteSend input => Sys2Proof.Machine.execRemoteSend input s
  | .remoteSporeArrive chan hop sec dev => Sys2Proof.Machine.execRemoteSporeArrive chan hop sec dev s
  | .spcTrig o v => Sys2Proof.Machine.execSpcTrig o v s
  | .egressTake input => Sys2Proof.Machine.execEgressTake input s
  | .pmcFreeze => Sys2Proof.Machine.execPmcFreeze s
  | .pmcThaw o v => Sys2Proof.Machine.execPmcThaw o v s
  | .pmcCounterWrite o n high v amount => Sys2Proof.Machine.execPmcCounterWrite o n high v amount s
  | .bwWindowEnd => Sys2Proof.Machine.execBwWindowEnd s
  | .ethFrameReceive port bytes => Sys2Proof.Machine.execEthFrameReceive port bytes s
  | .frameAccept port => Sys2Proof.Machine.execFrameAccept port s
  | .slotCommit => Sys2Proof.Machine.execSlotCommit s
  | .imageCopy => Sys2Proof.Machine.execImageCopy s
  | .simFlip o v => Sys2Proof.Machine.execSimFlip o v s
  | .recoveryResetTimeout stream => Sys2Proof.Machine.execRecoveryResetTimeout stream s
  | .syncReceive port offset interval => Sys2Proof.Machine.execSyncReceive port offset interval s
  | .peerDelay port delay => Sys2Proof.Machine.execPeerDelay port delay s
  | .syncLoss => Sys2Proof.Machine.execSyncLoss s
  | .ethLinkChange port up anDone => Sys2Proof.Machine.execEthLinkChange port up anDone s
  | .preemptionVerify port ok => Sys2Proof.Machine.execPreemptionVerify port ok s
  | .gclChange o port v => Sys2Proof.Machine.execGclChange o port v s
  | .gclActivate port => Sys2Proof.Machine.execGclActivate port s
  | .linkSignalDetect port => Sys2Proof.Machine.execLinkSignalDetect port s
  | .linkTrained port ok => Sys2Proof.Machine.execLinkTrained port ok s
  | .linkAligned port => Sys2Proof.Machine.execLinkAligned port s
  | .linkInit port hdr uid prioId => Sys2Proof.Machine.execLinkInit port hdr uid prioId s
  | .linkRetrain port fecWords => Sys2Proof.Machine.execLinkRetrain port fecWords s
  | .lnkRetrainRequest o port v => Sys2Proof.Machine.execLnkRetrainRequest o port v s
  | .resync port hdr state => Sys2Proof.Machine.execResync port hdr state s
  | .linkDown port => Sys2Proof.Machine.execLinkDown port s
  | .lnkDownRequest o port v => Sys2Proof.Machine.execLnkDownRequest o port v s
  | .packetSend port => Sys2Proof.Machine.execPacketSend port s
  | .dataPacketReceive port hdr body tail => Sys2Proof.Machine.execDataPacketReceive port hdr body tail s
  | .ack port hdr => Sys2Proof.Machine.execAck port hdr s
  | .nakReceive port hdr => Sys2Proof.Machine.execNakReceive port hdr s
  | .retryTimeout port => Sys2Proof.Machine.execRetryTimeout port s
  | .auditSend port => Sys2Proof.Machine.execAuditSend port s
  | .audit port hdr state => Sys2Proof.Machine.execAudit port hdr state s
  | .delayMeasure port => Sys2Proof.Machine.execDelayMeasure port s
  | .delay port hdr reply t1 t2 t3 => Sys2Proof.Machine.execDelay port hdr reply t1 t2 t3 s
  | .advertSend => Sys2Proof.Machine.execAdvertSend s
  | .advert port a => Sys2Proof.Machine.execAdvert port a s
  | .member port m => Sys2Proof.Machine.execMember port m s
  | .assign port epoch ids => Sys2Proof.Machine.execAssign port epoch ids s
  | .route port dst at_ table => Sys2Proof.Machine.execRoute port dst at_ table s
  | .quorum port q => Sys2Proof.Machine.execQuorum port q s
  | .digest dst of_ => Sys2Proof.Machine.execDigest dst of_ s
  | .rejoin dst src copy => Sys2Proof.Machine.execRejoin dst src copy s
  | .rejoinCopy region member dst len src => Sys2Proof.Machine.execRejoinCopy region member dst len src s
  | .copy port pkt => Sys2Proof.Machine.execCopy port pkt s
  | .tickPacket port dframe acc period lat uid => Sys2Proof.Machine.execTickPacket port dframe acc period lat uid s
  | .remoteRead port pkt waited => Sys2Proof.Machine.execRemoteRead port pkt waited s
  | .remoteWrite port pkt waited => Sys2Proof.Machine.execRemoteWrite port pkt waited s
  | .remoteAtomic port pkt waited => Sys2Proof.Machine.execRemoteAtomic port pkt waited s
  | .remoteResp port pkt => Sys2Proof.Machine.execRemoteResp port pkt s
  | .spore port pkt => Sys2Proof.Machine.execSpore port pkt s
  | .responseTimeout tag => Sys2Proof.Machine.execResponseTimeout tag s
  | .fabAtomGo o n v => Sys2Proof.Machine.execFabAtomGo o n v s
  | .relayBegin port pkt => Sys2Proof.Machine.execRelayBegin port pkt s
  | .relayBlock port pkt => Sys2Proof.Machine.execRelayBlock port pkt s
  | .relayCommit port pkt => Sys2Proof.Machine.execRelayCommit port pkt s
  | .relayResult port pkt => Sys2Proof.Machine.execRelayResult port pkt s
  | .usb4LinkTrain gen pcie => Sys2Proof.Machine.execUsb4LinkTrain gen pcie s
  | .bar2Read off len => Sys2Proof.Machine.execBar2Read off len s
  | .bar2Write off data => Sys2Proof.Machine.execBar2Write off data s
  | .flr => Sys2Proof.Machine.execFlr s
  | .commandAreaWrite mbx word v => Sys2Proof.Machine.execCommandAreaWrite mbx word v s
  | .doorbell mbx v => Sys2Proof.Machine.execDoorbell mbx v s
  | .publish o mbx v => Sys2Proof.Machine.execPublish o mbx v s
  | .hifMsireq o v => Sys2Proof.Machine.execHifMsireq o v s
  | .mbxWrite hdr data => Sys2Proof.Machine.execMbxWrite hdr data s
  | .mbxRead hdr => Sys2Proof.Machine.execMbxRead hdr s
  | .memWrite hdr data => Sys2Proof.Machine.execMemWrite hdr data s
  | .memRead hdr => Sys2Proof.Machine.execMemRead hdr s
  | .ep3Report => Sys2Proof.Machine.execEp3Report s
  | .identify mbx => Sys2Proof.Machine.execIdentify mbx s
  | .getStatus mbx => Sys2Proof.Machine.execGetStatus mbx s
  | .setMode mbx => Sys2Proof.Machine.execSetMode mbx s
  | .getMode mbx => Sys2Proof.Machine.execGetMode mbx s
  | .regionWrite mbx => Sys2Proof.Machine.execRegionWrite mbx s
  | .regionRead mbx => Sys2Proof.Machine.execRegionRead mbx s
  | .regionFill mbx => Sys2Proof.Machine.execRegionFill mbx s
  | .planLoad mbx => Sys2Proof.Machine.execPlanLoad mbx s
  | .planActivate mbx => Sys2Proof.Machine.execPlanActivate mbx s
  | .planQuery mbx => Sys2Proof.Machine.execPlanQuery mbx s
  | .tickConfig mbx => Sys2Proof.Machine.execTickConfig mbx s
  | .ioMapLoad mbx => Sys2Proof.Machine.execIoMapLoad mbx s
  | .fiuRulesLoad mbx => Sys2Proof.Machine.execFiuRulesLoad mbx s
  | .egressTemplateLoad mbx => Sys2Proof.Machine.execEgressTemplateLoad mbx s
  | .fabricStatus mbx => Sys2Proof.Machine.execFabricStatus mbx s
  | .fabricConfigDomain mbx => Sys2Proof.Machine.execFabricConfigDomain mbx s
  | .fabricConfigToken mbx => Sys2Proof.Machine.execFabricConfigToken mbx s
  | .fabricConfigTwin mbx => Sys2Proof.Machine.execFabricConfigTwin mbx s
  | .fabricConfigRejoinRegions mbx => Sys2Proof.Machine.execFabricConfigRejoinRegions mbx s
  | .fabricConfigTwinRegions mbx => Sys2Proof.Machine.execFabricConfigTwinRegions mbx s
  | .hostChannelRead mbx => Sys2Proof.Machine.execHostChannelRead mbx s
  | .hostChannelProducer mbx => Sys2Proof.Machine.execHostChannelProducer mbx s
  | .hostChannelTrigger mbx => Sys2Proof.Machine.execHostChannelTrigger mbx s
  | .hostChannelClear mbx => Sys2Proof.Machine.execHostChannelClear mbx s
  | .updateBegin mbx => Sys2Proof.Machine.execUpdateBegin mbx s
  | .updateBlock mbx => Sys2Proof.Machine.execUpdateBlock mbx s
  | .updateCommit mbx => Sys2Proof.Machine.execUpdateCommit mbx s
  | .updateAbort mbx => Sys2Proof.Machine.execUpdateAbort mbx s
  | .updateStatus mbx => Sys2Proof.Machine.execUpdateStatus mbx s
  | .updateConfirm mbx => Sys2Proof.Machine.execUpdateConfirm mbx s
  | .updateLockTimeout => Sys2Proof.Machine.execUpdateLockTimeout s
  | .trialMinute => Sys2Proof.Machine.execTrialMinute s
  | .fuseProgram o v => Sys2Proof.Machine.execFuseProgram o v s
  | .fuseDone => Sys2Proof.Machine.execFuseDone s
  | .keylock o v => Sys2Proof.Machine.execKeylock o v s
  | .bistReport mbx => Sys2Proof.Machine.execBistReport mbx s
  | .bistConfig mbx => Sys2Proof.Machine.execBistConfig mbx s
  | .countersRead mbx => Sys2Proof.Machine.execCountersRead mbx s
  | .taskLoad mbx => Sys2Proof.Machine.execTaskLoad mbx s
  | .taskStart mbx => Sys2Proof.Machine.execTaskStart mbx s
  | .taskStop mbx => Sys2Proof.Machine.execTaskStop mbx s
  | .settingsRead mbx => Sys2Proof.Machine.execSettingsRead mbx s
  | .settingsWrite mbx => Sys2Proof.Machine.execSettingsWrite mbx s
  | .eventLogRead mbx => Sys2Proof.Machine.execEventLogRead mbx s
  | .bankSlice result => Sys2Proof.Machine.execBankSlice result s
  | .sliceAbort addr => Sys2Proof.Machine.execSliceAbort addr s
  | .frondSlice frond result => Sys2Proof.Machine.execFrondSlice frond result s
  | .analogueSlice unit item result => Sys2Proof.Machine.execAnalogueSlice unit item result s
  | .dbgaccUpdate op addr data => Sys2Proof.Machine.execDbgaccUpdate op addr data s
  | .dbgaccCapture => Sys2Proof.Machine.execDbgaccCapture s
  | .dbgAuthNew o => Sys2Proof.Machine.execDbgAuthNew o s
  | .dbgAuthSubmit o level => Sys2Proof.Machine.execDbgAuthSubmit o level s
  | .dbgAuthRevoke o => Sys2Proof.Machine.execDbgAuthRevoke o s
  | .authDelayExpire => Sys2Proof.Machine.execAuthDelayExpire s
  | .trstN => Sys2Proof.Machine.execTrstN s
  | .debugHalt o v => Sys2Proof.Machine.execDebugHalt o v s
  | .haltComplete => Sys2Proof.Machine.execHaltComplete s
  | .debugResume o v => Sys2Proof.Machine.execDebugResume o v s
  | .debugStep o v => Sys2Proof.Machine.execDebugStep o v s
  | .stepComplete t => Sys2Proof.Machine.execStepComplete t s
  | .dbgTregAccess o write => Sys2Proof.Machine.execDbgTregAccess o write s
  | .stimulusWrite o n v => Sys2Proof.Machine.execStimulusWrite o n v s
  | .traceDrain => Sys2Proof.Machine.execTraceDrain s
  | .watchdogEnable o v => Sys2Proof.Machine.execWatchdogEnable o v s
  | .watchdogService o v => Sys2Proof.Machine.execWatchdogService o v s
  | .watchdogPrebite => Sys2Proof.Machine.execWatchdogPrebite s
  | .watchdogBite => Sys2Proof.Machine.execWatchdogBite s
  | .timerStart o n v => Sys2Proof.Machine.execTimerStart o n v s
  | .timerStop o n v => Sys2Proof.Machine.execTimerStop o n v s
  | .timerExpire n => Sys2Proof.Machine.execTimerExpire n s
  | .gpioEdge pin level => Sys2Proof.Machine.execGpioEdge pin level s
  | .i2cWrite bytes => Sys2Proof.Machine.execI2cWrite bytes s
  | .i2cRead => Sys2Proof.Machine.execI2cRead s
  | .mgtRefresh => Sys2Proof.Machine.execMgtRefresh s
  | .readClear p off => Sys2Proof.Machine.execReadClear p off s
  | .registerWrite p off size v => Sys2Proof.Machine.execRegisterWrite p off size v s
  | .gclIntervalEnd port => Sys2Proof.Machine.execGclIntervalEnd port s
  | .ethTransmitEnd port => Sys2Proof.Machine.execEthTransmitEnd port s
  | .retrainTimeout port => Sys2Proof.Machine.execRetrainTimeout port s
  | .pmcCounterWrap n => Sys2Proof.Machine.execPmcCounterWrap n s

end Sys2Proof.Machine
end

