-- ==== Sys2Proof/Safety.lean ====
section
/-! DEFINITION. What claims about the engine speak of: the canonical form of a state, a command that completes, an instruction
that is ready to issue and what its end leaves, and a register access that is let through. -/

namespace Sys2Proof.Machine

/-! ### States -/

/-- The state is in canonical form: equal contents of the register file, of memory and of flash are equal data. -/
def State.canonical (s : State) : Prop := swf regReset s.csr = true ∧ s.mem.wf = true

/-- Every byte of memory reads as before. -/
def SameMemory (s u : State) : Prop := ∀ a, u.byte a = s.byte a

/-- Every register but those of a list reads as before. -/
def SameRegsBut (l : List Nat) (s u : State) : Prop := ∀ r, r ∉ l → u.rd r = s.rd r

/-- Every thread but one is as before. -/
def SameThreadsBut (t : Tid) (s u : State) : Prop := ∀ k : Tid, k ≠ t → u.thr k.val = s.thr k.val

/-! ### Stem instructions -/

/-- An instruction is ready to issue (R179, R216): its thread can issue, the fetch buffer holds its words, and its first word is not
illegal. -/
def StemReady (s : State) (t : Tid) (op : Nat) (f : Operand) (i : Instr) : Prop :=
  s.canIssue t.val i = true ∧ (s.thr t.val).fetched (s.thr t.val).pc.toNat = .word (encodeWord op f) ∧ operandOk op f = true ∧
    (f.mode = 6 → (s.thr t.val).fetched ((s.thr t.val).pc.toNat + 4) = .word f.long)

/-- The end of an instruction in sequence, from the state its effect left: PC and the hardware loop (R197, R204). -/
def State.inSequence (s1 : State) (t : Tid) (f : Operand) (pc : Word) : State :=
  (s1.onThr t.val (fun h => h.advance ((pc.toNat + if f.mode = 6 then 8 else 4) % 2 ^ 32))).retired t.val true

/-- The end of an instruction that took a transfer to an offset (R182, R207). -/
def State.jumpedTo (s1 : State) (t : Tid) (target : Nat) : State :=
  (s1.onThr t.val (fun h => { h with pc := BitVec.ofNat 32 target, fbuf := [] })).retired t.val true

/-- The end of an instruction that traps (R204, R229): the state before it, when the entry needs something first. -/
def State.trapEnd (s s1 : State) (t : Tid) (i : Instr) (num faddr detail : Nat) : State :=
  s.finish t.val i 0 (s1, .trap num faddr detail)

/-- A thread's registers after an instruction that changes ACC and flags: the post-increment of R189 first. -/
def Thread.withAcc (h : Thread) (f : Operand) (acc : Word) (fl : Flags) : Thread :=
  let b := h.bump f
  { b with acc := acc, psw := fl.into b.psw }

/-! ### Register accesses -/

/-- A master reaches a register of control space, with no older request of its own still to complete (R50, R51, R400). -/
def Reaches (s : State) (o : Origin) (off : Nat) : Prop :=
  s.reaches o = true ∧ s.dbgDenies o off = false ∧ s.olderDone o = some s ∧ (s.ctlOpen o = true ∨ (o = .debug ∧ openReg off = true))

/-- A value that a register takes: no bit outside its described fields is 1 (R5). -/
def Takes (off : Nat) (v : Word) : Prop := ∃ r, regRow off = some r ∧ r.accepts v = true

/-- A register after a write under its access codes alone (R4). -/
def State.stored (s : State) (off : Nat) (v : Word) : State :=
  match regRow off with
  | some r => s.plain r off v
  | none => s

/-- What follows an accepted write: the clk of the access is over (R6), the debug port shows it done, and whatever waited for a
remote response goes on. -/
def State.accepted (s : State) (o : Origin) : State :=
  (if o = .debug then s.accessDone.dbgDone 0 0 else s.accessDone).resumeAll

/-- A write of a register that is let through has an effect of its own. -/
def Writes (c : Instr) (s : State) (o : Origin) (effect : State) : Prop := exec c s = .next (effect.accepted o)

/-! ### Commands of firmware -/

/-- Firmware serves the command of a mailbox: it is in progress with nothing of it waiting, its code is the row's, its mode is allowed,
and no reserved word is set (R342, R343). -/
def Served (s : State) (n code : Nat) (modes : List Nat) (used : Nat) : Prop :=
  s.toServe n = true ∧ fld (s.cmdWord n 0) 15 0 = code ∧ (s.fw.fiddlehead = true → s.fiddleServes code = true) ∧ s.mode ∈ modes ∧
    fld (s.cmdWord n 0) 31 16 = 0 ∧ s.extraArg n used = none

end Sys2Proof.Machine
end

