-- ==== Sys2Proof/Certificates/Slice0/Obligations.lean ====
section
/-! DEFINITION. The statements about the model, for the provers. -/

open Sys2Proof Sys2Proof.Machine

/-- R4 says what one access does; this one is the model's own: with a command at the front of its queue, a step runs that
command on the state with the queue's rest; with no command waiting it is one clk of the idle block (the model's choice, log
7). -/
def Obligations.StepRunsFrontCommand : Prop := ∀ (s : State),
  (∀ (c : Instr) (rest : List Instr), s.pending = c :: rest → step s = exec c { s with pending := rest }) ∧
  (s.pending = [] → step s = .next s.idle)

/-- R5, R178, R186, R224, R432: the state after reset: every register holds the reset value of its row, among them those written
out here; the mode is Off; T0 is ACTIVE at Machine level with its reset code segment, at the offset that the first word of the
Boot ROM holds, every other thread STOPPED with registers 0; no job, no event and no command waits; memory and flash list nothing,
and the state is in canonical form. What a register without a reset value in the spec holds is the model's choice (log 1). -/
def Obligations.ResetState : Prop := (∀ r, State.reset.rd r = regReset r) ∧ State.reset.mode = 0 ∧ State.reset.canonical ∧
  (∀ b : Fin 18, State.reset.rd (R.BANK_PWR b.val) = 0x24 ∧ State.reset.rd (R.BANK_SCRUB b.val) = 0x10100) ∧
  State.reset.rd R.DDRC_CFG = 0x30 ∧ State.reset.rd R.DDRC_RTCFG = 0x3E8 ∧ State.reset.rd R.MTX_AGE = 0x400 ∧
  State.reset.rd R.MTX_LATE = 0x100 ∧
  (State.reset.thr 0).st = .active ∧ (State.reset.thr 0).pc.toNat = ((Config.bootRom 0).toNat + (Config.bootRom 1).toNat * 2 ^ 8 +
    (Config.bootRom 2).toNat * 2 ^ 16 + (Config.bootRom 3).toNat * 2 ^ 24) ∧ (State.reset.thr 0).pl = 3 ∧
  ((State.reset.thr 0).sg.get 0).desc = resetDesc ∧ (∀ t : Tid, t ≠ 0 → State.reset.thr t.val = ({} : Thread)) ∧
  State.reset.jobs = [] ∧ State.reset.spores.events = [] ∧ State.reset.pending = [] ∧ State.reset.mem.cells = [] ∧
  State.reset.mem.flash = []

/-- R210-R215: the words of every well-formed Stem instruction decode to it, with every field of its operand, a second word
exactly in mode 6; every pair of words decodes to a well-formed instruction of the thread whose words they are; an illegal
word decodes to ILLEGAL. -/
def Obligations.StemRoundTrip : Prop := ∀ (t : Tid),
  (∀ (i : Instr) (op : Nat) (f : Operand), wellFormed i = true → stemParts i = some (op, t, f) →
    ∃ w, encodeStem i = (if f.mode = 6 then [w, f.long] else [w]) ∧ decodeStem t w f.long = i ∧
      (f.mode ≠ 6 → ∀ x, decodeStem t w x = i)) ∧
  (∀ (w x : Word), wellFormed (.illegal t w) = true → encodeStem (.illegal t w) = [w] ∧ decodeStem t w x = .illegal t w) ∧
  (∀ (w x : Word), wellFormed (decodeStem t w x) = true ∧
    encodeStem (decodeStem t w x) = (if isLong w = true then [w, x] else [w]))

/-- The model's invariant (its memory and register file are canonical lists): every step from a state in canonical form,
whatever command is at the front of its queue and whatever else the state holds, answers a next state that is in canonical
form again. So equal contents of registers, memory and flash stay equal data. -/
def Obligations.StepKeepsCanonical : Prop := ∀ (s u : State), s.canonical → step s = .next u → u.canonical

/-! ### The Stem: loads, stores and arithmetic -/

/-- R205, R189, R190: LD and LDS take the operand into ACC with Z and N; LDX and LDY take it into X or Y, and a register that
the mode increments holds the loaded value. R205, R190, R192: ST, STX and STY put the low bytes of their register, of the
operand's size, at the effective offset through the store buffer; LEAX and LEAY take the offset itself and make no access. -/
def Obligations.LoadsAndStores : Prop :=
  (∀ (s s1 : State) (t : Tid) (f : Operand) (v : Word),
  let pc := (s.thr t.val).pc
  let fl : Flags := { z := some (v == 0), n := some (v.getLsbD 31) }
  (StemReady s t 0x01 f (.ld t f) → s.operandR t.val f false = (s1, .ok v) →
    exec (.ld t f) s = .next ((s1.onThr t.val (fun h => h.withAcc f v fl)).inSequence t f pc)) ∧
  (StemReady s t 0x02 f (.lds t f) → s.operandR t.val f true = (s1, .ok v) →
    exec (.lds t f) s = .next ((s1.onThr t.val (fun h => h.withAcc f v fl)).inSequence t f pc)) ∧
  (StemReady s t 0x04 f (.ldx t f) → s.operandR t.val f false = (s1, .ok v) →
    exec (.ldx t f) s = .next ((s1.onThr t.val (fun h => { h.bump f with x := v })).inSequence t f pc)) ∧
  (StemReady s t 0x05 f (.ldy t f) → s.operandR t.val f false = (s1, .ok v) →
    exec (.ldy t f) s = .next ((s1.onThr t.val (fun h => { h.bump f with y := v })).inSequence t f pc))) ∧
  (∀ (s s1 : State) (t : Tid) (f : Operand),
  let h := s.thr t.val
  let store := fun (v : Word) => s.stemStore t.val f.seg.toNat (h.ea f) (leBytes (opBytes f) v.toNat)
  (StemReady s t 0x03 f (.st t f) → store h.acc = (s1, .ok ()) →
    exec (.st t f) s = .next ((s1.onThr t.val (fun k => k.bump f)).inSequence t f h.pc)) ∧
  (StemReady s t 0x06 f (.stx t f) → store h.x = (s1, .ok ()) →
    exec (.stx t f) s = .next ((s1.onThr t.val (fun k => k.bump f)).inSequence t f h.pc)) ∧
  (StemReady s t 0x07 f (.sty t f) → store h.y = (s1, .ok ()) →
    exec (.sty t f) s = .next ((s1.onThr t.val (fun k => k.bump f)).inSequence t f h.pc)) ∧
  (StemReady s t 0x08 f (.leax t f) →
    exec (.leax t f) s = .next ((s.onThr t.val (fun k => { k.bump f with x := BitVec.ofNat 32 (h.ea f) })).inSequence t f h.pc)) ∧
  (StemReady s t 0x09 f (.leay t f) →
    exec (.leay t f) s = .next ((s.onThr t.val (fun k => { k.bump f with y := BitVec.ofNat 32 (h.ea f) })).inSequence t f h.pc)))

/-- R192, R194: a store to B16 or another local target whose segment check and address pass goes into the thread's store buffer
as at most two doubleword halves that hold the bytes in address order, and changes no byte of memory yet. -/
def Obligations.StoreIsBuffered : Prop := ∀ (s : State) (t : Tid) (seg ea : Nat) (d : List Byte),
  let h := s.thr t.val
  let g := h.sg.get seg
  let a := g.desc.base + ea
  g.allows h.pl ea d.length false true = true → s.unbuffered a = false → s.checkMem (s.who t.val) a d.length true = none →
    h.sbuf = [] → (storeHalves (d.length + 1) a d).length ≤ 4 →
    ∃ u, s.stemStore t.val seg ea d = (u, .ok ()) ∧ (u.thr t.val).sbuf = storeHalves (d.length + 1) a d ∧
      SameMemory s u ∧ SameRegsBut [] s u ∧ SameThreadsBut t s u

/-- R205: ADD, ADC, SUB and SBC put the sum or difference modulo 2^32 into ACC; C is the carry out of bit 31 or the borrow, V
signed overflow, Z and N follow the result; nothing else of PSW changes. With VTE = 1 an overflow traps instead. R182, R183:
flags put into PSW set exactly the bits they name: C 0, Z 1, N 2, V 3, DV 4; every other bit keeps its value. -/
def Obligations.AddSubtract : Prop :=
  (∀ (s s1 : State) (t : Tid) (f : Operand) (v : Word),
  let h := s.thr t.val
  let a := h.acc
  let c := b2n (h.flag pswC)
  let sum := fun (k : Nat) => (BitVec.ofNat 32 (a.toNat + v.toNat + k) : Word)
  let dif := fun (k : Nat) => (BitVec.ofInt 32 ((a.toNat : Int) - v.toNat - k) : Word)
  let flags := fun (r : Word) (carry : Bool) (i : Int) =>
    ({ c := some carry, v := some (decide (i ≠ r.toInt)), z := some (r == 0), n := some (r.getLsbD 31) } : Flags)
  let fAdd := flags (sum 0) (decide (2 ^ 32 ≤ a.toNat + v.toNat)) (a.toInt + v.toInt)
  let fAdc := flags (sum c) (decide (2 ^ 32 ≤ a.toNat + v.toNat + c)) (a.toInt + v.toInt + c)
  let fSub := flags (dif 0) (decide (a.toNat < v.toNat)) (a.toInt - v.toInt)
  let fSbc := flags (dif c) (decide (a.toNat < v.toNat + c)) (a.toInt - v.toInt - c)
  let traps := fun (fl : Flags) => fl.v = some true ∧ (s1.thr t.val).flag pswVTE = true
  let sets := fun (r : Word) (fl : Flags) => (s1.onThr t.val (fun k => k.withAcc f r fl)).inSequence t f h.pc
  s.operandR t.val f false = (s1, .ok v) →
  (StemReady s t 0x10 f (.add t f) →
    (¬ traps fAdd → exec (.add t f) s = .next (sets (sum 0) fAdd)) ∧
    (traps fAdd → exec (.add t f) s = .next (s.trapEnd s1 t (.add t f) 7 0 0))) ∧
  (StemReady s t 0x11 f (.adc t f) →
    (¬ traps fAdc → exec (.adc t f) s = .next (sets (sum c) fAdc)) ∧
    (traps fAdc → exec (.adc t f) s = .next (s.trapEnd s1 t (.adc t f) 7 0 0))) ∧
  (StemReady s t 0x12 f (.sub t f) →
    (¬ traps fSub → exec (.sub t f) s = .next (sets (dif 0) fSub)) ∧
    (traps fSub → exec (.sub t f) s = .next (s.trapEnd s1 t (.sub t f) 7 0 0))) ∧
  (StemReady s t 0x13 f (.sbc t f) →
    (¬ traps fSbc → exec (.sbc t f) s = .next (sets (dif c) fSbc)) ∧
    (traps fSbc → exec (.sbc t f) s = .next (s.trapEnd s1 t (.sbc t f) 7 0 0)))) ∧
  (∀ (fl : Flags) (psw : Word) (i : Nat),
  (fl.into psw).getLsbD i =
    (if i = 0 then fl.c.getD (psw.getLsbD 0) else if i = 1 then fl.z.getD (psw.getLsbD 1) else if i = 2 then fl.n.getD (psw.getLsbD 2)
     else if i = 3 then fl.v.getD (psw.getLsbD 3) else if i = 4 then fl.dv.getD (psw.getLsbD 4) else psw.getLsbD i))

/-- R205: CMP, CMPX and CMPY set the flags of the difference of ACC, X or Y and the operand and change no register; TST sets Z
and N of the conjunction; ADDX and ADDY add the operand to X or Y with no flag. R205, R206: AND, OR and XOR of ACC and the
operand, and NOT, SWAPB, CLZ, TXA and TYA of one register, go into ACC with Z and N; TAX, TAY and TXY move a register and
change no flag. -/
def Obligations.CompareAndLogic : Prop :=
  (∀ (s s1 : State) (t : Tid) (f : Operand) (v : Word),
  let h := s.thr t.val
  let flags := fun (a : Word) =>
    let r : Word := a - v
    ({ c := some (decide (a.toNat < v.toNat)), v := some (decide (a.toInt - v.toInt ≠ r.toInt)), z := some (a == v),
       n := some (r.getLsbD 31) } : Flags)
  let tst : Flags := { z := some (h.acc &&& v == 0), n := some ((h.acc &&& v).getLsbD 31) }
  let sets := fun (fl : Flags) =>
    (s1.onThr t.val (fun k => { k.bump f with psw := fl.into (k.bump f).psw })).inSequence t f h.pc
  s.operandR t.val f false = (s1, .ok v) →
  (StemReady s t 0x17 f (.cmp t f) → exec (.cmp t f) s = .next (sets (flags h.acc))) ∧
  (StemReady s t 0x1B f (.cmpx t f) → exec (.cmpx t f) s = .next (sets (flags h.x))) ∧
  (StemReady s t 0x1C f (.cmpy t f) → exec (.cmpy t f) s = .next (sets (flags h.y))) ∧
  (StemReady s t 0x18 f (.tst t f) → exec (.tst t f) s = .next (sets tst)) ∧
  (StemReady s t 0x19 f (.addx t f) → exec (.addx t f) s =
    .next ((s1.onThr t.val (fun k => { k.bump f with x := (k.bump f).x + v })).inSequence t f h.pc)) ∧
  (StemReady s t 0x1A f (.addy t f) → exec (.addy t f) s =
    .next ((s1.onThr t.val (fun k => { k.bump f with y := (k.bump f).y + v })).inSequence t f h.pc))) ∧
  (∀ (s s1 : State) (t : Tid) (f : Operand) (v : Word),
  let h := s.thr t.val
  let a := h.acc
  let zn := fun (r : Word) => ({ z := some (r == 0), n := some (r.getLsbD 31) } : Flags)
  let acc := fun (s0 : State) (r : Word) => (s0.onThr t.val (fun k => k.withAcc f r (zn r))).inSequence t f h.pc
  (s.operandR t.val f false = (s1, .ok v) →
    (StemReady s t 0x14 f (.and t f) → exec (.and t f) s = .next (acc s1 (a &&& v))) ∧
    (StemReady s t 0x15 f (.or t f) → exec (.or t f) s = .next (acc s1 (a ||| v))) ∧
    (StemReady s t 0x16 f (.xor t f) → exec (.xor t f) s = .next (acc s1 (a ^^^ v)))) ∧
  (StemReady s t 0x36 f (.not t f) → exec (.not t f) s = .next (acc s (~~~ a))) ∧
  (StemReady s t 0x3D f (.swapb t f) → exec (.swapb t f) s = .next (acc s
    (a.extractLsb' 0 8 ++ a.extractLsb' 8 8 ++ a.extractLsb' 16 8 ++ a.extractLsb' 24 8))) ∧
  (StemReady s t 0x3E f (.clz t f) → ∃ n : Nat, n ≤ 32 ∧ a.toNat < 2 ^ (32 - n) ∧ (n < 32 → a.getLsbD (31 - n) = true) ∧
    exec (.clz t f) s = .next (acc s (BitVec.ofNat 32 n))) ∧
  (StemReady s t 0x39 f (.txa t f) → exec (.txa t f) s = .next (acc s h.x)) ∧
  (StemReady s t 0x3B f (.tya t f) → exec (.tya t f) s = .next (acc s h.y)) ∧
  (StemReady s t 0x38 f (.tax t f) → exec (.tax t f) s =
    .next ((s.onThr t.val (fun k => { k.bump f with x := a })).inSequence t f h.pc)) ∧
  (StemReady s t 0x3A f (.tay t f) → exec (.tay t f) s =
    .next ((s.onThr t.val (fun k => { k.bump f with y := a })).inSequence t f h.pc)) ∧
  (StemReady s t 0x3C f (.txy t f) → exec (.txy t f) s =
    .next ((s.onThr t.val (fun k => { k.bump f with y := h.x })).inSequence t f h.pc)))

/-- R148, R205: MUL and MULU put the 64-bit product into ACX:ACC with V := 0 and Z, N of the 64 bits; MULL puts the low word of
the signed product into ACC, V says that the product lies outside int32, and with VTE = 1 that traps. C keeps its value.
R148: DIV and DIVU put the quotient into ACC and the remainder, of the dividend's sign, into ACX; V is 1 at the edges of the
table and 0 outside them, C keeps its value; a divisor of 0 traps with DZE = 1, the overflowing quotient with VTE = 1. R148:
NEG and ABS of ACC with Z and N of the result and V only for 0x80000000, which stays as it is and, with VTE = 1, traps with
nothing changed. -/
def Obligations.MultiplyDivideNegate : Prop :=
  (∀ (s s1 : State) (t : Tid) (f : Operand) (v : Word),
  let h := s.thr t.val
  let a := h.acc
  let pu : BitVec 64 := BitVec.ofNat 64 (a.toNat * v.toNat)
  let ps : BitVec 64 := BitVec.ofInt 64 (a.toInt * v.toInt)
  let low : Word := BitVec.ofInt 32 (a.toInt * v.toInt)
  let big := decide (a.toInt * v.toInt ≠ low.toInt)
  let wide := fun (p : BitVec 64) =>
    (s1.onThr t.val (fun k => { k.withAcc f (p.extractLsb' 0 32) { v := some false, z := some (p == 0), n := some (p.getLsbD 63) } with
      acx := p.extractLsb' 32 32 })).inSequence t f h.pc
  s.operandR t.val f false = (s1, .ok v) →
  (StemReady s t 0x20 f (.mul t f) → exec (.mul t f) s = .next (wide ps)) ∧
  (StemReady s t 0x21 f (.mulu t f) → exec (.mulu t f) s = .next (wide pu)) ∧
  (StemReady s t 0x24 f (.mull t f) → ¬ (big = true ∧ (s1.thr t.val).flag pswVTE = true) →
    exec (.mull t f) s = .next ((s1.onThr t.val (fun k =>
      k.withAcc f low { v := some big, z := some (low == 0), n := some (low.getLsbD 31) })).inSequence t f h.pc)) ∧
  (StemReady s t 0x24 f (.mull t f) → big = true → (s1.thr t.val).flag pswVTE = true →
    exec (.mull t f) s = .next (s.trapEnd s1 t (.mull t f) 7 0 0))) ∧
  (∀ (s s1 : State) (t : Tid) (f : Operand) (v : Word),
  let h := s.thr t.val
  let a := h.acc
  let minOver := a = 0x80000000 ∧ v = 0xFFFFFFFF
  let gives := fun (q r : Word) (ov : Bool) => (s1.onThr t.val (fun k =>
    { k.withAcc f q { v := some ov, z := some (q == 0), n := some (q.getLsbD 31) } with acx := r })).inSequence t f h.pc
  s.operandR t.val f false = (s1, .ok v) →
  (StemReady s t 0x22 f (.div t f) →
    (v ≠ 0 → ¬ minOver → exec (.div t f) s =
      .next (gives (BitVec.ofInt 32 (a.toInt.tdiv v.toInt)) (BitVec.ofInt 32 (a.toInt.tmod v.toInt)) false)) ∧
    (minOver → h.flag pswVTE = false → exec (.div t f) s = .next (gives 0x80000000 0 true)) ∧
    (minOver → h.flag pswVTE = true → exec (.div t f) s = .next (s.trapEnd s1 t (.div t f) 7 0 0)) ∧
    (v = 0 → h.flag pswDZE = false → exec (.div t f) s = .next (gives (if a.toInt < 0 then 0x80000000 else 0x7FFFFFFF) a true)) ∧
    (v = 0 → h.flag pswDZE = true → exec (.div t f) s = .next (s.trapEnd s1 t (.div t f) 6 0 0))) ∧
  (StemReady s t 0x23 f (.divu t f) →
    (v ≠ 0 → exec (.divu t f) s =
      .next (gives (BitVec.ofNat 32 (a.toNat / v.toNat)) (BitVec.ofNat 32 (a.toNat % v.toNat)) false)) ∧
    (v = 0 → h.flag pswDZE = false → exec (.divu t f) s = .next (gives 0xFFFFFFFF a true)) ∧
    (v = 0 → h.flag pswDZE = true → exec (.divu t f) s = .next (s.trapEnd s1 t (.divu t f) 6 0 0)))) ∧
  (∀ (s : State) (t : Tid) (f : Operand),
  let h := s.thr t.val
  let a := h.acc
  let edge := a = 0x80000000
  let fl := fun (r : Word) => ({ v := some (decide edge), z := some (r == 0), n := some (r.getLsbD 31) } : Flags)
  let pos : Word := if a.toInt < 0 then -a else a
  let gives := fun (r : Word) => (s.onThr t.val (fun k => k.withAcc f r (fl r))).inSequence t f h.pc
  let traps := edge ∧ h.flag pswVTE = true
  (StemReady s t 0x35 f (.neg t f) → ¬ traps → exec (.neg t f) s = .next (gives (-a))) ∧
  (StemReady s t 0x35 f (.neg t f) → traps → exec (.neg t f) s = .next (s.trapEnd s t (.neg t f) 7 0 0)) ∧
  (StemReady s t 0x37 f (.abs t f) → ¬ traps → exec (.abs t f) s = .next (gives pos)) ∧
  (StemReady s t 0x37 f (.abs t f) → traps → exec (.abs t f) s = .next (s.trapEnd s t (.abs t f) 7 0 0)))

/-- R149: the result of a shift or rotate by c from bits [5:0] of the operand, with C by the table (a c of 0, or a rotation by a
multiple of 32, leaves C), Z and N of the result, and V unchanged. -/
def Obligations.ShiftsAndRotates : Prop := ∀ (s s1 : State) (t : Tid) (f : Operand) (v : Word),
  let h := s.thr t.val
  let a := h.acc
  let c := v.toNat % 64
  let gives := fun (r : Word) (cf : Option Bool) => (s1.onThr t.val (fun k =>
    k.withAcc f r { c := cf, z := some (r == 0), n := some (r.getLsbD 31) })).inSequence t f h.pc
  s.operandR t.val f false = (s1, .ok v) →
  (StemReady s t 0x30 f (.shl t f) → exec (.shl t f) s =
    .next (gives (a <<< c) (if c = 0 then none else some (if c ≤ 32 then a.getLsbD (32 - c) else false)))) ∧
  (StemReady s t 0x31 f (.shr t f) → exec (.shr t f) s =
    .next (gives (a >>> c) (if c = 0 then none else some (if c ≤ 32 then a.getLsbD (c - 1) else false)))) ∧
  (StemReady s t 0x32 f (.sar t f) → exec (.sar t f) s =
    .next (gives (a.sshiftRight c) (if c = 0 then none else some (if c ≤ 32 then a.getLsbD (c - 1) else a.getLsbD 31)))) ∧
  (StemReady s t 0x33 f (.rol t f) → exec (.rol t f) s =
    .next (gives (a.rotateLeft (c % 32)) (if c % 32 = 0 then none else some ((a.rotateLeft (c % 32)).getLsbD 0)))) ∧
  (StemReady s t 0x34 f (.ror t f) → exec (.ror t f) s =
    .next (gives (a.rotateRight (c % 32)) (if c % 32 = 0 then none else some ((a.rotateRight (c % 32)).getLsbD 31))))

/-! ### The Stem: control transfers and traps -/

/-- R207: a jump is taken exactly under its condition, to T, which is relative to the jump in mode 0 and the effective offset in
the others; taken, a T that is not a multiple of 4 is an Alignment fault at the jump; not taken, T is not checked. JXNZ
counts X down first and is taken while X is not 0. -/
def Obligations.ConditionalJumps : Prop := ∀ (s : State) (t : Tid) (f : Operand),
  let h := s.thr t.val
  let target := if f.mode = 0 then (h.pc.toNat + 4 * (f.disp.signExtend 32).toNat) % 2 ^ 32 else h.ea f
  let x : Word := h.x - 1
  (StemReady s t 0x40 f (.jmp t f) → target % 4 = 0 → exec (.jmp t f) s = .next (s.jumpedTo t target)) ∧
  (StemReady s t 0x40 f (.jmp t f) → target % 4 ≠ 0 → exec (.jmp t f) s = .next (s.trapEnd s t (.jmp t f) 4 target 0)) ∧
  (StemReady s t 0x41 f (.jeq t f) →
    (h.flag pswZ = true → target % 4 = 0 → exec (.jeq t f) s = .next (s.jumpedTo t target)) ∧
    (h.flag pswZ = true → target % 4 ≠ 0 → exec (.jeq t f) s = .next (s.trapEnd s t (.jeq t f) 4 target 0)) ∧
    (h.flag pswZ = false → exec (.jeq t f) s = .next (s.inSequence t f h.pc))) ∧
  (StemReady s t 0x42 f (.jne t f) →
    (h.flag pswZ = false → target % 4 = 0 → exec (.jne t f) s = .next (s.jumpedTo t target)) ∧
    (h.flag pswZ = false → target % 4 ≠ 0 → exec (.jne t f) s = .next (s.trapEnd s t (.jne t f) 4 target 0)) ∧
    (h.flag pswZ = true → exec (.jne t f) s = .next (s.inSequence t f h.pc))) ∧
  (StemReady s t 0x43 f (.jlt t f) →
    (h.flag pswN ≠ h.flag pswV → target % 4 = 0 → exec (.jlt t f) s = .next (s.jumpedTo t target)) ∧
    (h.flag pswN ≠ h.flag pswV → target % 4 ≠ 0 → exec (.jlt t f) s = .next (s.trapEnd s t (.jlt t f) 4 target 0)) ∧
    (h.flag pswN = h.flag pswV → exec (.jlt t f) s = .next (s.inSequence t f h.pc))) ∧
  (StemReady s t 0x44 f (.jge t f) →
    (h.flag pswN = h.flag pswV → target % 4 = 0 → exec (.jge t f) s = .next (s.jumpedTo t target)) ∧
    (h.flag pswN = h.flag pswV → target % 4 ≠ 0 → exec (.jge t f) s = .next (s.trapEnd s t (.jge t f) 4 target 0)) ∧
    (h.flag pswN ≠ h.flag pswV → exec (.jge t f) s = .next (s.inSequence t f h.pc))) ∧
  (StemReady s t 0x45 f (.jltu t f) →
    (h.flag pswC = true → target % 4 = 0 → exec (.jltu t f) s = .next (s.jumpedTo t target)) ∧
    (h.flag pswC = true → target % 4 ≠ 0 → exec (.jltu t f) s = .next (s.trapEnd s t (.jltu t f) 4 target 0)) ∧
    (h.flag pswC = false → exec (.jltu t f) s = .next (s.inSequence t f h.pc))) ∧
  (StemReady s t 0x46 f (.jgeu t f) →
    (h.flag pswC = false → target % 4 = 0 → exec (.jgeu t f) s = .next (s.jumpedTo t target)) ∧
    (h.flag pswC = false → target % 4 ≠ 0 → exec (.jgeu t f) s = .next (s.trapEnd s t (.jgeu t f) 4 target 0)) ∧
    (h.flag pswC = true → exec (.jgeu t f) s = .next (s.inSequence t f h.pc))) ∧
  (StemReady s t 0x47 f (.jvs t f) →
    (h.flag pswV = true → target % 4 = 0 → exec (.jvs t f) s = .next (s.jumpedTo t target)) ∧
    (h.flag pswV = true → target % 4 ≠ 0 → exec (.jvs t f) s = .next (s.trapEnd s t (.jvs t f) 4 target 0)) ∧
    (h.flag pswV = false → exec (.jvs t f) s = .next (s.inSequence t f h.pc))) ∧
  (StemReady s t 0x48 f (.jvc t f) →
    (h.flag pswV = false → target % 4 = 0 → exec (.jvc t f) s = .next (s.jumpedTo t target)) ∧
    (h.flag pswV = false → target % 4 ≠ 0 → exec (.jvc t f) s = .next (s.trapEnd s t (.jvc t f) 4 target 0)) ∧
    (h.flag pswV = true → exec (.jvc t f) s = .next (s.inSequence t f h.pc))) ∧
  (StemReady s t 0x49 f (.jmi t f) →
    (h.flag pswN = true → target % 4 = 0 → exec (.jmi t f) s = .next (s.jumpedTo t target)) ∧
    (h.flag pswN = true → target % 4 ≠ 0 → exec (.jmi t f) s = .next (s.trapEnd s t (.jmi t f) 4 target 0)) ∧
    (h.flag pswN = false → exec (.jmi t f) s = .next (s.inSequence t f h.pc))) ∧
  (StemReady s t 0x4A f (.jpl t f) →
    (h.flag pswN = false → target % 4 = 0 → exec (.jpl t f) s = .next (s.jumpedTo t target)) ∧
    (h.flag pswN = false → target % 4 ≠ 0 → exec (.jpl t f) s = .next (s.trapEnd s t (.jpl t f) 4 target 0)) ∧
    (h.flag pswN = true → exec (.jpl t f) s = .next (s.inSequence t f h.pc))) ∧
  (StemReady s t 0x4D f (.jxnz t f) →
    (x = 0 → exec (.jxnz t f) s = .next ((s.onThr t.val (fun k => { k with x := 0 })).inSequence t f h.pc)) ∧
    (x ≠ 0 → target % 4 = 0 → exec (.jxnz t f) s = .next ((s.onThr t.val (fun k => { k with x := x })).jumpedTo t target)) ∧
    (x ≠ 0 → target % 4 ≠ 0 → exec (.jxnz t f) s = .next (s.trapEnd s t (.jxnz t f) 4 target 0)))

/-- R196, R197, R207: CALL pushes the offset of the next instruction at Y - 4 of SG7 and jumps; RET pops it and jumps; LOOP with
LA = 0 starts ACC iterations of the next B words, or passes over them when ACC = 0; LEXIT clears LA and LC and jumps to LE.
R197: an instruction that ends in sequence at LE with LA = 1 ends an iteration: LC counts down, and PC goes back to LS, or
on to LE with LA cleared when LC reaches 0; at any other offset PC just goes on. -/
def Obligations.CallsAndLoops : Prop :=
  (∀ (s s1 : State) (t : Tid) (f : Operand) (d : List Byte),
  let h := s.thr t.val
  let target := if f.mode = 0 then (h.pc.toNat + 4 * (f.disp.signExtend 32).toNat) % 2 ^ 32 else h.ea f
  let back := (h.pc.toNat + if f.mode = 6 then 8 else 4) % 2 ^ 32
  let next := (h.pc.toNat + 4) % 2 ^ 32
  let e := (next + 4 * f.disp.toNat) % 2 ^ 32
  (StemReady s t 0x4B f (.call t f) → target % 4 = 0 → s.stemStore t.val 7 (h.y - 4).toNat (leBytes 4 back) = (s1, .ok ()) →
    exec (.call t f) s = .next ((s1.onThr t.val (fun k => { k with y := h.y - 4 })).jumpedTo t target)) ∧
  (StemReady s t 0x4C f (.ret t f) → s.stemLoad t.val 7 h.y.toNat 4 = (s1, .ok d) → leVal d % 4 = 0 →
    exec (.ret t f) s = .next ((s1.onThr t.val (fun k => { k with y := k.y + 4 })).jumpedTo t (leVal d))) ∧
  (StemReady s t 0x50 f (.loop t f) → h.flag pswLA = false →
    (h.acc = 0 → exec (.loop t f) s = .next (s.jumpedTo t e)) ∧
    (h.acc ≠ 0 → exec (.loop t f) s = .next ((s.onThr t.val (fun k =>
      { k with psw := setFld k.psw 15 15 1, lc := h.acc, ls := BitVec.ofNat 32 next, le := BitVec.ofNat 32 e })).inSequence t f h.pc))) ∧
  (StemReady s t 0x51 f (.lexit t f) → h.le.toNat % 4 = 0 →
    exec (.lexit t f) s = .next ((s.onThr t.val (fun k => { k with psw := setFld k.psw 15 15 0, lc := 0 })).jumpedTo t h.le.toNat))) ∧
  (∀ (h : Thread) (next : Nat), next < 2 ^ 32 →
  (h.flag pswLA = true → h.le.toNat = next → h.lc - 1 ≠ 0 →
    (h.advance next).pc = h.ls ∧ (h.advance next).lc = h.lc - 1 ∧ (h.advance next).psw = h.psw) ∧
  (h.flag pswLA = true → h.le.toNat = next → h.lc - 1 = 0 →
    (h.advance next).pc.toNat = next ∧ (h.advance next).lc = 0 ∧ (h.advance next).flag pswLA = false) ∧
  (h.flag pswLA = false ∨ h.le.toNat ≠ next →
    (h.advance next).pc.toNat = next ∧ (h.advance next).lc = h.lc ∧ (h.advance next).psw = h.psw) ∧
  (h.advance next).acc = h.acc ∧ (h.advance next).x = h.x ∧ (h.advance next).y = h.y ∧ (h.advance next).acx = h.acx ∧
  (h.advance next).ls = h.ls ∧ (h.advance next).le = h.le ∧ (h.advance next).sg = h.sg)

/-- R222, R227, R229: when the trap stack of level max(nominal, PL) is loaded and aligned, the buffer drained, the frame written
and an aligned vector read, the entry moves the thread to the handler: PC the vector, the level entered, IE and LA cleared,
the rest of PSW kept, TSP of the level 48 lower, SG0 the level's code segment, ACC, X and Y as they were. -/
def Obligations.TrapEntry : Prop := ∀ (s s0 s2 s3 : State) (t : Tid) (num fa d nominal a : Nat) (pc : Word),
  let h := s.thr t.val
  let l := max nominal h.pl
  let s1 := s0.onThr t.val (fun k => { k with resv := none })
  let tsp := (h.tsp l).toNat
  l ≤ 3 → s.drainAll t.val = some s0 → (s1.stackSeg l).sel ≠ 0 → tsp % 16 = 0 → (l = 1 → s2.rd R.TRP_STVS ≠ 0) →
  s1.pushFrame t.val l ((tsp + 2 ^ 32 - 48) % 2 ^ 32) (pairUp (h.frame pc fa num d)) = (s2, .ok true) →
  s2.vector t.val l num = (s3, .ok (some a)) → a % 4 = 0 → a < 2 ^ 32 →
  ∃ u, s.enterTrap t.val num fa d nominal pc = (u, .step) ∧ (u.thr t.val).pc.toNat = a ∧ (u.thr t.val).pl = l ∧
    (u.thr t.val).flag pswIE = false ∧ (u.thr t.val).flag pswLA = false ∧
    (∀ i, i ≠ 8 → i ≠ 12 → i ≠ 13 → i ≠ 15 → (u.thr t.val).psw.getLsbD i = (s3.thr t.val).psw.getLsbD i) ∧
    (u.thr t.val).tsp l = BitVec.ofNat 32 (((s3.thr t.val).tsp l).toNat + 2 ^ 32 - 48) ∧
    (u.thr t.val).sg.get 0 = s3.codeSeg l ∧ (u.thr t.val).acc = (s3.thr t.val).acc ∧ (u.thr t.val).x = (s3.thr t.val).x ∧
    (u.thr t.val).y = (s3.thr t.val).y ∧ SameMemory s3 u ∧ SameRegsBut [] s3 u ∧ SameThreadsBut t s3 u

/-- R179, R182: an instruction waits while its thread cannot issue and while a word of it is not in the fetch buffer. R215, R216:
the checks at issue in order: a first word whose fetch failed traps as its fetch failed, then an illegal first word traps 0x01,
then a second word of a long instruction whose fetch failed traps; each at the instruction's PC.
R208, R215, R223: SYSCALL completes, saves the next PC and enters level 1 or above with its service number in FADDR; an
illegal word enters trap 0x01 and BKPT, with no debugger to halt for, trap 0x09 with its tag, each with the PC of the
instruction. -/
def Obligations.TrapsAtIssue : Prop :=
  (∀ (s : State) (t : Tid) (op : Nat) (f : Operand) (i : Instr) (body : State → State × Fate),
  let h := s.thr t.val
  let pc := h.pc.toNat
  let fails := fun (o n d : Nat) => State.trapEnd (s.logFetch t.val o (n, d)) (s.logFetch t.val o (n, d)) t i n o d
  (s.canIssue t.val i = false → s.issue t op f i body = .next s) ∧
  (h.fetched pc = .absent → s.issue t op f i body = .next s) ∧
  (s.canIssue t.val i = true →
    (∀ n d, h.fetched pc = .failed n d → s.issue t op f i body = .next (fails pc n d)) ∧
    (h.fetched pc = .word (encodeWord op f) → operandOk op f = false → s.issue t op f i body = .next (s.trapEnd s t i 1 0 0)) ∧
    (h.fetched pc = .word (encodeWord op f) → operandOk op f = true → f.mode = 6 →
      (h.fetched (pc + 4) = .absent → s.issue t op f i body = .next s) ∧
      (∀ n d, h.fetched (pc + 4) = .failed n d → s.issue t op f i body = .next (fails (pc + 4) n d))))) ∧
  (∀ (s u : State) (t : Tid) (f : Operand) (w : Word),
  let h := s.thr t.val
  let after := s.onThr t.val (fun k => k.advance ((h.pc.toNat + 4) % 2 ^ 32))
  (StemReady s t 0x60 f (.syscall t f) →
    after.enterTrap t.val 0x0A f.disp.toNat 0 1 (after.thr t.val).pc = (u, .step) →
    exec (.syscall t f) s = .next (u.retired t.val false)) ∧
  (s.canIssue t.val (.illegal t w) = true → h.fetched h.pc.toNat = .word w → operandOk (opcodeOf w) (fieldsOf w) = false →
    s.instrTrap t.val 1 0 0 = (u, .step) →
    exec (.illegal t w) s = .next (u.retired t.val false)) ∧
  (StemReady s t 0xF0 f (.bkpt t f) → (s.b R.DBG_CTL 1 && s.mayHalt t.val) = false →
    s.instrTrap t.val 9 f.disp.toNat 0 = (u, .step) → exec (.bkpt t f) s = .next (u.retired t.val false)) ∧
  (StemReady s t 0xF0 f (.bkpt t f) → (s.b R.DBG_CTL 1 && s.mayHalt t.val) = true →
    exec (.bkpt t f) s = .next ((s.requestHalt [t.val] []).retired t.val false)))

/-- R231, R232: TRET above Task level reads the frame of its level, and when the frame's level is not above it, no reserved PSW
bit is set, the saved PC is aligned and SG0's descriptor loads, restores PC, PSW, ACC, ACX, X, Y, LC, LS, LE and SG0, and
gives the frame's 48 bytes back; at Task level it is a Privilege violation. -/
def Obligations.ReturnFromTrap : Prop := ∀ (s s0 s1 s2 : State) (t : Tid) (f : Operand) (b : List Byte) (d : SegDesc),
  let h := s.thr t.val
  let l := h.pl
  let tsp := (h.tsp l).toNat
  let w := fun i => (bytesWords b).getD i 0
  let fpl := fld (w 1) 13 12
  let sel := fld (w 10) 31 16
  StemReady s t 0x61 f (.tret t f) →
  (l = 0 → exec (.tret t f) s = .next (s.trapEnd s t (.tret t f) 2 0 0)) ∧
  (l ≠ 0 → (s.stackSeg l).allows l tsp 48 true false = true → s.drainAll t.val = some s0 →
    s0.readFrame t.val (s.stackSeg l).desc.base [tsp, tsp + 8, tsp + 16, tsp + 24, tsp + 32, tsp + 40] [] = (s1, .ok b) →
    fpl ≠ 2 → fpl ≤ l → fld (w 1) 7 5 = 0 → (w 1).getLsbD 14 = false → fld (w 1) 31 16 = 0 → (w 0).toNat % 4 = 0 →
    s1.segLoad t.val sel fpl sel 32 true = (s2, .ok d) →
    exec (.tret t f) s = .next ((s2.onThr t.val (fun k =>
      { k.setTsp l (k.tsp l + 48) with
        psw := w 1, acc := w 2, acx := w 3, x := w 4, y := w 5, lc := w 6, ls := w 7, le := w 8
        sg := k.sg.set 0 { sel := BitVec.ofNat 16 sel, desc := d } })).jumpedTo t (w 0).toNat))

/-- R183, R184: RDSR copies PSW, ACX, LC, LS, LE, TSP_S, TSP_M, the thread number or a selector to ACC; TSP_M needs Machine
level and TSP_S a level above Task, and otherwise it is a Privilege violation. R184, R186: WRSR copies ACC to ACX, LC, LS or
LE at any level, to TSP_S above Task and to TSP_M at Machine level, and to PSW but for LA where the level may write every
bit that changes; LSEG loads a segment register from the descriptor that ACC names. -/
def Obligations.SpecialRegisters : Prop :=
  (∀ (s : State) (t : Tid) (f : Operand),
  let h := s.thr t.val
  let r := f.disp.toNat
  let gives := fun (v : Word) => exec (.rdsr t f) s =
    .next ((s.onThr t.val (fun k => { k.bump f with acc := v })).inSequence t f h.pc)
  StemReady s t 0x64 f (.rdsr t f) →
  (r = 0 → gives h.psw) ∧ (r = 1 → gives h.acx) ∧ (r = 2 → gives h.lc) ∧ (r = 3 → gives h.ls) ∧ (r = 4 → gives h.le) ∧
  (r = 5 → h.pl ≠ 0 → gives h.tspS) ∧ (r = 6 → h.pl = 3 → gives h.tspM) ∧ (r = 7 → gives (BitVec.ofNat 32 t.val)) ∧
  (8 ≤ r → r < 16 → gives ((h.sg.get (r - 8)).sel.zeroExtend 32)) ∧
  ((r = 5 ∧ h.pl = 0) ∨ (r = 6 ∧ h.pl ≠ 3) → exec (.rdsr t f) s = .next (s.trapEnd s t (.rdsr t f) 2 0 0))) ∧
  (∀ (s s1 : State) (t : Tid) (f : Operand) (d : SegDesc),
  let h := s.thr t.val
  let v := h.acc
  let r := f.disp.toNat
  let sets := fun (g : Thread → Thread) => exec (.wrsr t f) s = .next ((s.onThr t.val (fun k => g (k.bump f))).inSequence t f h.pc)
  let resv := fld v 7 5 ≠ 0 ∨ v.getLsbD 14 = true ∨ fld v 31 16 ≠ 0 ∨ fld v 13 12 = 2
  (StemReady s t 0x65 f (.wrsr t f) →
    (r = 0 → ¬ resv → h.pl = 3 → sets (fun k => { k with psw := setFld v 15 15 (fld h.psw 15 15) })) ∧
    (r = 0 → resv → exec (.wrsr t f) s = .next (s.trapEnd s t (.wrsr t f) 1 0 0)) ∧
    (r = 1 → sets (fun k => { k with acx := v })) ∧ (r = 2 → sets (fun k => { k with lc := v })) ∧
    (r = 3 → sets (fun k => { k with ls := v })) ∧ (r = 4 → sets (fun k => { k with le := v })) ∧
    (r = 5 → h.pl ≠ 0 → sets (fun k => { k with tspS := v })) ∧ (r = 6 → h.pl = 3 → sets (fun k => { k with tspM := v })) ∧
    ((r = 5 ∧ h.pl = 0) ∨ (r = 6 ∧ h.pl ≠ 3) → exec (.wrsr t f) s = .next (s.trapEnd s t (.wrsr t f) 2 0 0))) ∧
  (StemReady s t 0x66 f (.lseg t f) → v.toNat < 2 ^ 16 →
    s.segLoad t.val v.toNat h.pl v.toNat (f.seg.toNat + 32) (f.seg.toNat == 0) = (s1, .ok d) →
    exec (.lseg t f) s = .next ((s1.onThr t.val (fun k =>
      { k.bump f with sg := (k.bump f).sg.set f.seg.toNat { sel := BitVec.ofNat 16 v.toNat, desc := d } })).inSequence t f h.pc)))

/-- R194, R203: WAIT takes a pending count at the wake input with Z := 1, or the thread waits for one; SLEEP of 0 ends at once
with Z := 1, and of v waits v x 16 clk; FENCE leaves the thread's store buffer drained and the Stem's requests completed. -/
def Obligations.WaitingAndFence : Prop := ∀ (s s1 s2 : State) (t : Tid) (f : Operand) (v : Word),
  let h := s.thr t.val
  (StemReady s t 0x62 f (.wait t f) →
    (0 < s.pend t.val → exec (.wait t f) s =
      .next (((s.take t.val 1).onThr t.val (fun k => { k with psw := setFld k.psw 1 1 1 })).inSequence t f h.pc)) ∧
    (s.pend t.val = 0 → exec (.wait t f) s =
      .next ((s.onThr t.val (fun k => { k with st := .waiting, waitFor := .wake })).inSequence t f h.pc))) ∧
  (StemReady s t 0x67 f (.sleep t f) → s.operandR t.val f false = (s1, .ok v) →
    (v = 0 → exec (.sleep t f) s =
      .next ((s1.onThr t.val (fun k => { k.bump f with psw := setFld (k.bump f).psw 1 1 1 })).inSequence t f h.pc)) ∧
    (v ≠ 0 → exec (.sleep t f) s = .next ((s1.onThr t.val (fun k =>
      { k.bump f with st := .waiting, waitFor := .sleep (s1.clk + v.toNat * 16) })).inSequence t f h.pc))) ∧
  (StemReady s t 0x63 f (.fence t f) → s.drainAll t.val = some s1 → s1.flushMaster 8 = some s2 →
    exec (.fence t f) s = .next (s2.inSequence t f h.pc))

/-- R198, R199, R205: XCH exchanges ACC and a word in one access; LDL loads a word with Z and N and reserves its 64-byte
granule; STC stores ACC and sets Z when the thread holds that reservation once the older requests of the Stem to that place have
completed, stores nothing and clears Z when it does not, and gives the reservation up either way. Each needs a multiple of 4,
its rights, a target that takes it, and drains the buffer first. -/
def Obligations.LockedSequences : Prop := ∀ (s s0 s1 s2 s3 : State) (t : Tid) (f : Operand) (d e : List Byte),
  let h := s.thr t.val
  let a := s.physOf t f
  let v : Word := BitVec.ofNat 32 (leVal d)
  let granule := s.storage a / 64 * 64
  s.drainAll t.val = some s0 →
  (StemReady s t 0x0A f (.xch t f) → s.lockedCheck t f true true = none → (∀ n x, s.locate a ≠ .remote n x) →
    s.checkMem (s.who t.val) a 4 true = none → s0.busRead t.val a 4 = (s1, .ok d) →
    s1.busWrite t.val a (leBytes 4 h.acc.toNat) = (s2, .ok e) →
    exec (.xch t f) s = .next ((s2.onThr t.val (fun k => { k.bump f with acc := v })).inSequence t f h.pc)) ∧
  (StemReady s t 0x70 f (.ldl t f) → s.lockedCheck t f false true = none → s.inBanks a = true →
    s0.busRead t.val a 4 = (s1, .ok d) →
    exec (.ldl t f) s = .next ((s1.onThr t.val (fun k =>
      { k.withAcc f v { z := some (v == 0), n := some (v.getLsbD 31) } with resv := some granule })).inSequence t f h.pc)) ∧
  (StemReady s t 0x71 f (.stc t f) → s.lockedCheck t f true true = none → s.inBanks a = true →
    s.checkMem (s.who t.val) a 4 true = none → s0.enter (s.who t.val) a 4 (s0.onPortA a) = some s3 →
    let held := (s3.thr t.val).resv = some (s3.storage a / 64 * 64)
    (held → s3.busWrite t.val a (leBytes 4 h.acc.toNat) = (s1, .ok e) →
      exec (.stc t f) s = .next ((s1.onThr t.val (fun k =>
        { k.bump f with psw := setFld (k.bump f).psw 1 1 1, resv := none })).inSequence t f h.pc)) ∧
    (¬ held → exec (.stc t f) s = .next ((s3.onThr t.val (fun k =>
      { k.bump f with psw := setFld (k.bump f).psw 1 1 0, resv := none })).inSequence t f h.pc)))

/-- R200: a step of MOVB or FILL moves n = min(ACC, 8) bytes, advances X and Y, or Y, by n and takes n from ACC; the instruction
ends with the step that leaves ACC = 0, and an ACC of 0 does nothing. R176, R201: DADD, DSUB and DCMP read two
packed-decimal operands of 31 digits at X and at Y; valid ones give the sum, the difference or the comparison, with DV
cleared, V for a result beyond 31 digits, Z and N of the result; an invalid one sets DV, or traps with DTE = 1. R188: DADD and
DSUB on an operand at X that may be read and not written are a Segment violation before anything is read. -/
def Obligations.StringsAndDecimal : Prop :=
  (∀ (s s1 s2 : State) (t : Tid) (f : Operand) (d : List Byte),
  let h := s.thr t.val
  let n := min h.acc.toNat 8
  let sd := f.disp.toNat % 8
  let step : Word := BitVec.ofNat 32 n
  let ends := fun (u : State) => if (u.thr t.val).acc = 0 then u.inSequence t f h.pc else u.retired t.val false
  let src := s.home ((h.sg.get f.seg.toNat).desc.base + h.x.toNat)
  let dst := s.home ((h.sg.get sd).desc.base + h.y.toNat)
  (StemReady s t 0x93 f (.movb t f) → h.acc = 0 → exec (.movb t f) s = .next (s.inSequence t f h.pc)) ∧
  (StemReady s t 0x93 f (.movb t f) → h.acc ≠ 0 → (h.sg.get f.seg.toNat).allows h.pl h.x.toNat n true false = true →
    (h.sg.get sd).allows h.pl h.y.toNat n false true = true →
    s.checkMem (s.who t.val) ((h.sg.get sd).desc.base + h.y.toNat) n true = none → ¬ (src < dst + n ∧ dst < src + n) →
    s.stemLoad t.val f.seg.toNat h.x.toNat n = (s1, .ok d) → s1.stemStore t.val sd h.y.toNat d = (s2, .ok ()) →
    exec (.movb t f) s = .next (ends (s2.onThr t.val (fun k => { k with x := k.x + step, y := k.y + step, acc := k.acc - step })))) ∧
  (StemReady s t 0x94 f (.fill t f) → h.acc = 0 → exec (.fill t f) s = .next (s.inSequence t f h.pc)) ∧
  (StemReady s t 0x94 f (.fill t f) → h.acc ≠ 0 →
    s.stemStore t.val f.seg.toNat h.y.toNat (List.replicate n (h.x.extractLsb' 0 8)) = (s1, .ok ()) →
    exec (.fill t f) s = .next (ends (s1.onThr t.val (fun k => { k with y := k.y + step, acc := k.acc - step }))))) ∧
  (∀ (s s1 s2 s3 : State) (t : Tid) (f : Operand) (a b : Nat) (i j : Int),
  let h := s.thr t.val
  let sb := f.disp.toNat % 8
  let flags := fun (r : Int) =>
    ({ dv := some false, v := some (decide (10 ^ 31 ≤ r.natAbs)), z := some (r.natAbs % 10 ^ 31 == 0), n := some (decide (r < 0)) } : Flags)
  let cmp : Flags := { dv := some false, v := some false, z := some (decide (i = j)), n := some (decide (i < j)) }
  let bytes := fun (r : Int) => leBytes 16 (decPack 31 (r.natAbs % 10 ^ 31) (decide (r < 0)))
  let sets := fun (u : State) (fl : Flags) =>
    (u.onThr t.val (fun k => { k.bump f with psw := fl.into (k.bump f).psw })).inSequence t f h.pc
  let stores := fun (r : Int) => ¬ ((flags r).v = some true ∧ h.flag pswVTE = true) ∧
    s2.stemStore t.val f.seg.toNat h.x.toNat (bytes r) = (s3, .ok ())
  let g := h.sg.get f.seg.toNat
  let both := g.allows h.pl h.x.toNat 16 true true
  (g.allows h.pl h.x.toNat 16 true false = true → both = false →
    (StemReady s t 0x90 f (.dadd t f) → exec (.dadd t f) s = .next (s.trapEnd s t (.dadd t f) 3 h.x.toNat (detailOf f.seg.toNat true))) ∧
    (StemReady s t 0x91 f (.dsub t f) → exec (.dsub t f) s = .next (s.trapEnd s t (.dsub t f) 3 h.x.toNat (detailOf f.seg.toNat true)))) ∧
  (s.readDecimal t.val f.seg.toNat h.x.toNat = (s1, .ok a) → s1.readDecimal t.val sb h.y.toNat = (s2, .ok b) →
  (StemReady s t 0x90 f (.dadd t f) → both = true → decVal 31 a = some i → decVal 31 b = some j → stores (i + j) →
    exec (.dadd t f) s = .next (sets s3 (flags (i + j)))) ∧
  (StemReady s t 0x91 f (.dsub t f) → both = true → decVal 31 a = some i → decVal 31 b = some j → stores (i - j) →
    exec (.dsub t f) s = .next (sets s3 (flags (i - j)))) ∧
  (StemReady s t 0x92 f (.dcmp t f) → decVal 31 a = some i → decVal 31 b = some j → exec (.dcmp t f) s = .next (sets s2 cmp)) ∧
  (decVal 31 a = none ∨ decVal 31 b = none → ∀ x op, (x, op) ∈ [(Instr.dadd t f, 0x90), (.dsub t f, 0x91), (.dcmp t f, 0x92)] →
    StemReady s t op f x → (op = 0x92 ∨ both = true) →
    (h.flag pswDTE = false → exec x s = .next (sets s2 { dv := some true })) ∧
    (h.flag pswDTE = true → exec x s = .next (s.trapEnd s2 t x 8 0 0)))))

/-- R107, R117, R202: VWAIT waits for a job in flight and otherwise answers STAT as written, with Z for DONE; VPOLL answers the
live STAT with Z := 0 of a job in flight, or STAT as written with Z := 1; VCANCEL cancels a job in flight with ACC 0 and Z := 1,
and answers 1 with Z := 0 when there is none, a job that has committed its last element then completing; VISSUE answers its
outcome in ACC with Z for admitted, deferred and DONE. -/
def Obligations.VectorJobInstructions : Prop := ∀ (s s0 s1 s2 s3 : State) (t : Tid) (f : Operand) (vjd v : Nat) (j : Job),
  let h := s.thr t.val
  let ea := h.ea f
  let answer := fun (u : State) (z : Bool) (x : Nat) => (u.onThr t.val (fun k =>
    { k.bump f with psw := setFld (k.bump f).psw 1 1 (b2n z), acc := BitVec.ofNat 32 x })).inSequence t f h.pc
  (s.vjdOf t f = (s1, .ok vjd) →
    (StemReady s t 0x81 f (.vwait t f) → (s1.jobAt vjd).isSome = true → exec (.vwait t f) s =
      .next ((s1.onThr t.val (fun k => { k with st := .waiting, waitFor := .job vjd })).retired t.val false)) ∧
    (StemReady s t 0x81 f (.vwait t f) → s1.jobAt vjd = none → s1.statAt t vjd ea = (s2, .ok v) →
      exec (.vwait t f) s = .next (answer s2 (decide (v % 8 = 5)) v)) ∧
    (StemReady s t 0x82 f (.vpoll t f) → s1.jobAt vjd = some j → exec (.vpoll t f) s = .next (answer s1 false j.liveStat)) ∧
    (StemReady s t 0x82 f (.vpoll t f) → s1.jobAt vjd = none → s1.statAt t vjd ea = (s2, .ok v) →
      exec (.vpoll t f) s = .next (answer s2 true v))) ∧
  (StemReady s t 0x83 f (.vcancel t f) → s.drainAll t.val = some s0 → s0.vjdOf t f = (s1, .ok vjd) →
    (s1.jobAt vjd = some j → j.finished = false → exec (.vcancel t f) s = .next (answer (s1.cancelJob j) true 0)) ∧
    (s1.jobAt vjd = some j → j.finished = true → exec (.vcancel t f) s = .next (answer (s1.completeJob j) false 1)) ∧
    (s1.jobAt vjd = none → exec (.vcancel t f) s = .next (answer s1 false 1))) ∧
  (∀ o : Outcome, StemReady s t 0x80 f (.vissue t f) → s.vissue t f = s3.outcome t f o →
    exec (.vissue t f) s = .next (answer s3 (decide (o.acc % 256 = 0 ∨ o.acc % 256 = 1 ∨ o.acc % 256 = 6)) o.acc))

/-! ### Power, clocks and modes -/

/-- What a reset of R432 leaves: PWR_RSTCAUSE its cause and every other register its reset value, the threads as after reset, no job
in flight, flash as it was, and the failure count and LOCKOUT cleared or kept. -/
def AfterReset (s : State) (cause : Word) (clear : Bool) (u : State) : Prop :=
  u.rd R.PWR_RSTCAUSE = cause ∧ (∀ r, r ≠ R.PWR_RSTCAUSE → u.rd r = regReset r) ∧ u.threads = State.reset.threads ∧
  u.jobs = [] ∧ u.spores = State.reset.spores ∧ u.ledger = State.reset.ledger ∧ u.mem.flash = s.mem.flash ∧
  u.power.up = false ∧ u.power.fails = (if clear then 0 else s.power.fails) ∧
  u.power.lockout = (if clear then false else s.power.lockout) ∧ u.pending = s.pending

/-- R428, R432, R464: loss of VIN, POR_N, a rail fault while the rail is on, loss of REFCLK while power is up, and firmware's
write of 0x5A3C to PWR_RST reset the engine, with their cause; the first two also clear the debug failure count and LOCKOUT.
R428: VIN below 1.70 V sets PWR_STAT.VINLOW, above 1.72 V clears it, and between them it stays; PWR_VIN shows the level. No
thread, job or byte of memory changes. R433, R434, R458: power-up with TEST_EN high holds, and POR_N does not release it; without
a failure it raises the rails, passes power-up BIST, trains DDR5 and makes the start that BOOT_SEL selects, into Config when
Fiddlehead starts an image; with a failure, or a step past its bound, it enters Safe with cause 1. -/
def Obligations.ResetsAndPowerUp : Prop :=
  (∀ (s : State) (rail : Fin 5) (o : Origin),
  (∃ u : State, exec .vinLoss s = .next u ∧ AfterReset s 1 true u) ∧
  (s.power.testHold = false → (∃ u : State, exec .porNReset s = .next u ∧ AfterReset s 2 true u)) ∧
  (s.power.testHold = true → exec .porNReset s = .next s) ∧
  (s.running = true → (∃ u : State, exec (.railFault rail) s = .next u ∧ AfterReset s 4 false u)) ∧
  (s.power.up = true → (∃ u : State, exec .refclkLoss s = .next u ∧ AfterReset s 4 false u)) ∧
  (Reaches s o R.PWR_RST → s.machineOrigin o = true →
    exec (.pwrRst o 0x5A3C) s = .next (State.accepted s.fwReset o) ∧ AfterReset s 8 false s.fwReset)) ∧
  (∀ (s : State) (mv : Nat), s.power.up = true →
  (∃ u : State, exec (.vinLow mv) s = .next u ∧
    (mv < 1700 → u.b R.PWR_STAT 2 = true) ∧ (1720 < mv → u.b R.PWR_STAT 2 = false) ∧
    (1700 ≤ mv → mv ≤ 1720 → u.b R.PWR_STAT 2 = s.b R.PWR_STAT 2) ∧ u.rd R.PWR_VIN = BitVec.ofNat 32 (mv % 8192) ∧
    SameRegsBut [R.PWR_STAT, R.PWR_VIN] s u ∧ u.threads = s.threads ∧ u.jobs = s.jobs ∧ SameMemory s u)) ∧
  (∀ (s : State) (env : PowerEnv),
  s.power.up = false → s.power.testHold = false → 1710 ≤ env.vinMv →
  let s0 := ((s.railsUp env).powerUpBist none env.bistUs).trainAll env.dimms env.trained
  (env.testEn = true → (∃ u : State, exec (.powerUp env) s = .next u ∧ u.power.testHold = true ∧ u.power.safeN = true ∧
    SameRegsBut [] s u)) ∧
  (env.testEn = false → env.lateUnit = none → env.bistFail = none →
    (env.bootSel.toNat = 0 → s0.mem.flashSize = 0 → exec (.powerUp env) s = .next (s0.fiddleSafe 5)) ∧
    (env.bootSel.toNat = 0 → s0.mem.flashSize ≠ 0 → let (s1, started) := s0.fiddlehead env.convertOk
      exec (.powerUp env) s = .next (if started then (s1.driveSafe false).enterMode 2 5 else s1.fiddleSafe 5)) ∧
    (env.bootSel.toNat = 1 → exec (.powerUp env) s = .next (s0.fiddleSafe 6)) ∧
    (env.bootSel.toNat = 2 → exec (.powerUp env) s = .next (s0.fabricRecovery.fiddleSafe 6)) ∧
    (env.bootSel.toNat = 3 → exec (.powerUp env) s = .next (s0.fiddleSafe 7))) ∧
  (env.testEn = false → ∀ x, env.lateUnit = some x →
    exec (.powerUp env) s = .next (((s.railsUp env).powerUpBist (some (x.toNat, 0x0B)) env.bistUs).fiddleSafe 1)) ∧
  (env.testEn = false → env.lateUnit = none → ∀ a b, env.bistFail = some (a, b) →
    exec (.powerUp env) s = .next (((s.railsUp env).powerUpBist (some (a.toNat, b.toNat)) env.bistUs).fiddleSafe 1)))

/-- R437, R438: a request of Hold in Run, or of Config in Run or Hold, passes with no check and becomes pending, and one of Safe
in either makes the entry to Safe pending; one of Run, Hold or Dormant in Config becomes pending when the checks of R438 pass, and
is refused with the REASON of the first that fails; a request of the present mode completes at once; one that the table does not
list is refused with REASON 5. SAFE_ENTRY makes a pending entry to Safe. R440: SAFE_ENTRY drops the frames still queued, asserts
SAFE_N, shows mode 5 with its cause, stops T2 to T7 and refuses what waits for a mode. R411, R442, R443: a pending request of
Dormant that fails check 4 is refused with REASON 4; one that passes notes the instant and shows whether the debugger's emulation
runs; an enabled wake source wakes the engine through the wake sequence, the timer at its expiry. R431: a write of PWR_CLKDIV in
Config sets the divider, and in any other mode it is a bus error with CAUSE 7 that leaves the divider as it was. R444, R445, R447:
when the hottest sensor reaches a higher threshold in Config, Run or Hold the level rises to it, PWR_THINT.RISE and
LDG_GUARD.THROTTLE set; below that, and in Safe, the level stays; at TRIP the engine also enters Safe with cause 8. PWR_TEMP shows
the temperature and its sensor. -/
def Obligations.ModesAndTemperature : Prop :=
  (∀ (s : State) (o : Origin) (v : Word),
  Reaches s o R.PWR_MODEREQ → s.machineOrigin o = true → s.b R.PWR_MODEREQ 3 = false → v.toNat < 8 → 1 ≤ v.toNat → v.toNat ≤ 5 →
  ((s.mode = 3 ∧ v.toNat = 4) ∨ (s.inFrame = true ∧ v.toNat = 2) →
    exec (.modeRequest o v) s =
      .next (State.accepted (((s.putF R.PWR_MODEREQ 6 4 0).onPwr (fun p => { p with request := some (v.toNat, 0) })).setB
      R.PWR_MODEREQ 3 true) o)) ∧
  (s.inFrame = true → v.toNat = 5 → exec (.modeRequest o v) s = .next (State.accepted (((s.putF R.PWR_MODEREQ 6 4 0).onPwr (fun p =>
    { p with safePending := some 9 })).setB R.PWR_MODEREQ 3 true) o)) ∧
  (∀ w, s.mode = 2 → v.toNat ∈ [1, 3, 4] → ((s.putF R.PWR_MODEREQ 6 4 0).wr R.PWR_CLKDIV 0).transitionChecks v.toNat = (w, 0) →
    exec (.modeRequest o v) s = .next (State.accepted ((w.onPwr (fun p => { p with request := some (v.toNat, 0) })).setB
      R.PWR_MODEREQ 3 true) o)) ∧
  (∀ w r, r ≠ 0 → s.mode = 2 → v.toNat ∈ [1, 3, 4] → ((s.putF R.PWR_MODEREQ 6 4 0).wr R.PWR_CLKDIV 0).transitionChecks v.toNat = (w, r) →
    exec (.modeRequest o v) s = .next (State.accepted ((w.putF R.PWR_MODEREQ 6 4 r).modeRefused r) o)) ∧
  (v.toNat = s.mode → exec (.modeRequest o v) s = .next (State.accepted (s.putF R.PWR_MODEREQ 6 4 0).modeReached o)) ∧
  (v.toNat ≠ s.mode → s.transitionListed v.toNat = false →
    exec (.modeRequest o v) s = .next (State.accepted (((s.putF R.PWR_MODEREQ 6 4 0).putF R.PWR_MODEREQ 6 4 5).modeRefused 5) o))) ∧
  (∀ (s : State) (c : Nat), s.power.safePending = some c → (s.mode = 2 ∨ s.inFrame = true) →
  exec .safeEntry s = .next
    ((((((((if c = 9 then s.wr R.PWR_CLKDIV 0 else s).dropQueued.driveSafe true).enterMode 5 3).putF R.PWR_MODE 12 9 c).onPwr
      (fun p => { p with safePending := none })).each (List.range 6) (fun s i => s.stopRequest (i + 2))).modeRefused 5))) ∧
  (∀ (s : State) (c : Nat) (src : WakeSource) (trained : Bool),
  (s.power.request = some (1, c) → s.mode = 2 → s.check4 = false →
    exec .dormantEntry s = .next (((((s.onPwr (fun p => { p with request := none })).setB R.PWR_MODEREQ 3 false).putF
      R.PWR_MODEREQ 6 4 4).modeRefused 4))) ∧
  (s.power.request = some (1, c) → s.mode = 2 → s.check4 = true →
    (∃ u : State, exec .dormantEntry s = .next u ∧ u.power.dormantTb = s.tb ∧ u.b R.PWR_STAT 1 = u.b R.DBG_STAT 7)) ∧
  (s.mode = 1 → s.wakes src = true → src ≠ .timer → exec (.wake src trained) s = .next (s.wakeUp (wakeBit src) trained)) ∧
  (s.mode = 1 → s.wakes .timer = true → exec (.wake .timer trained) s = .next (s.passWakeTimer.wakeUp 3 trained) ∧
    exec .wakeTimerExpire s = .next (s.passWakeTimer.wakeUp 3 true))) ∧
  (∀ (s : State) (o : Origin) (v : Word),
  Reaches s o R.PWR_CLKDIV → s.machineOrigin o = true → v.toNat < 4 →
  (s.mode = 2 → exec (.clkdivChange o v) s = .next (State.accepted (s.wr R.PWR_CLKDIV v) o)) ∧
  (s.mode ≠ 2 → exec (.clkdivChange o v) s = .next (s.accessDone.refused o true 7 R.PWR_CLKDIV))) ∧
  (∀ (s : State) (tj : Int) (n : Fin 24), s.running = true →
  let t := tj
  let l := if (s.f R.PWR_THERM 15 8 : Int) ≤ t then 2 else if (s.f R.PWR_THERM 7 0 : Int) ≤ t then 1 else 0
  (s.power.level < l → (s.mode = 2 ∨ s.inFrame = true) → (∃ u : State, exec (.thermalRise tj n) s = .next u ∧
    u.power.level = l ∧ u.f R.PWR_THSTAT 1 0 = l ∧ u.b R.PWR_THINT 0 = true ∧ u.b R.LDG_GUARD 1 = true ∧ u.power.tj = t ∧
    u.f R.PWR_TEMP 7 0 = ofSigned 8 t ∧ SameMemory s u ∧ u.jobs = s.jobs)) ∧
  ((l ≤ s.power.level ∨ s.mode = 5) → (∃ u : State, exec (.thermalRise tj n) s = .next u ∧
    u.power.level = s.power.level ∧ u.power.tj = t ∧ u.f R.PWR_TEMP 7 0 = ofSigned 8 t ∧ SameRegsBut [R.PWR_TEMP] s u)) ∧
  ((s.f R.PWR_THERM 23 16 : Int) ≤ t →
    exec (.thermalTrip tj n) s = .next ((s.thermalRise t n.val).safeEntry 8)))

/-! ### Ticks, the ledger and vector jobs -/

/-- R15, R16, R18: the selected generator, and an edge of TICK_IN in its window, give a tick; an edge outside the window sets
LDG_STAT bit 4 and gives none; while the generator supplies the ticks it is kept for the source's return. Without a source to
return to, the generator's next instant is the first whole period of LDG_PERIOD ahead. R16, R18, R273: a TICK_IN window that ends
with no edge loses the source and sets LDG_STAT bit 3; with holdover the generator gives the tick, without it the commit hold
ends. A source that returns, once its tick lies within 20 ns (320 sixteenths) of the generated one, is shown again in LDG_STAT
and no longer lost; until then nothing changes. -/
def Obligations.TickSources : Prop :=
  (∀ (s : State), s.running = true →
  (s.src = 0 → s.keystoneOf 0 = false → (∃ u : State, exec .generatorTick s = .next u ∧
    u.ledger.tickDue = true ∧ u.ledger.genBase = s.genDue ∧ u.clk = (s.untilGen s.genDue).clk ∧ u.jobs = s.jobs ∧ SameMemory s u)) ∧
  (s.src = 0 → s.holdover = false → s.genDue = s.ledger.genBase +
    max 1 (ceilDiv (s.gen - s.ledger.genBase) s.genPeriod) * s.genPeriod) ∧
  (∀ falling, falling = s.b R.LDG_CTL 3 → s.src = 1 → s.edgeInWindow = true → s.ledger.lost = false → s.keystoneOf 1 = false →
    exec (.tickInEdge falling) s = .next (s.onLdg (fun l => { l with tickDue := true }))) ∧
  (∀ falling, falling = s.b R.LDG_CTL 3 → s.src = 1 → s.edgeInWindow = false →
    (s.holdover = false → exec (.tickInEdge falling) s = .next (s.setB R.LDG_STAT 4 true)) ∧
    (s.holdover = true →
      exec (.tickInEdge falling) s = .next ((s.onLdg (fun l => { l with back := some s.gen })).setB R.LDG_STAT 4 true))) ∧
  (∀ falling, falling ≠ s.b R.LDG_CTL 3 → exec (.tickInEdge falling) s = .next s)) ∧
  (∀ (s : State), s.running = true →
  (s.src = 1 → s.ledger.open_ = true → s.ledger.tickDue = false → s.ledger.lost = false →
    (∃ u : State, exec .tickWindowExpire s = .next u ∧ u.ledger.lost = true ∧ u.b R.LDG_STAT 3 = true ∧
      (s.b R.LDG_CTL 2 = true → u.ledger.tickDue = true ∧ u.b R.LDG_STAT 2 = true ∧ u.f R.LDG_STAT 1 0 = 0) ∧
      (s.b R.LDG_CTL 2 = false → u.ledger.tickDue = false ∧ u.b R.SIM_STAT 2 = false ∧ u.io.holdEnded = true) ∧
      u.jobs = s.jobs ∧ SameMemory s u)) ∧
  (s.ledger.lost = true → 320 < (s.sourceAhead s.ledger.genBase).natAbs → exec .sourceReturn s = .next s) ∧
  (s.ledger.lost = true → s.src ≠ 3 → (s.sourceAhead s.ledger.genBase).natAbs ≤ 320 → (∃ u : State, exec .sourceReturn s = .next u ∧
    u.ledger.lost = false ∧ u.b R.LDG_STAT 2 = false ∧ u.f R.LDG_STAT 1 0 = s.src ∧
    u.ledger.tickDue = (s.ledger.tickDue || (s.src == 1 && !s.b R.LDG_CTL 2)) ∧ SameRegsBut [R.LDG_STAT] s u ∧ SameMemory s u ∧
    u.jobs = s.jobs)))

/-- R11, R41, R437, R440: at a given tick instant, with no fatal self-test failure due, the phases of the ending frame come first;
then the tick of Run and Hold closes the ending frame, counts, and opens the next, in the mode of a pending request that passes
its checks, or leaves for Config; that of Safe only counts; in Config none occurs but the one that enters Run or Hold. R15, R21: a
counted tick adds 1 to LDG_FRAME modulo 2^64, is the new instant of the frame, and takes the captured values of LDG_DERATE,
LDG_VCSHARE and LDG_TICKWIN. No job, thread or byte of memory changes. -/
def Obligations.TickOfEachMode : Prop :=
  (∀ (s w : State), s.running = true → s.ledger.tickDue = true → s.outputTime = w → w.ledger.tickDue = true → w.src ≠ 2 →
  w.bist.fatal = false → w.inFrame = true →
  (w.power.request = none → exec .tick s = .next (w.frameTick none)) ∧
  (∀ s1, w.dueRequest = (s1, some 2) → exec .tick s = .next (s1.toConfig 0)) ∧
  (∀ s1 m, m ≠ 2 → w.dueRequest = (s1, some m) → exec .tick s = .next (s1.frameTick (some m))) ∧
  (∀ s1, w.dueRequest = (s1, none) → exec .tick s = .next (s1.frameTick none))) ∧
  (∀ (s : State), s.running = true → s.ledger.tickDue = true → s.src ≠ 2 → s.bist.fatal = false →
  (s.mode = 5 → exec .tick s = .next s.safeTick) ∧
  (s.mode = 2 → s.power.request = none → (∃ u : State, exec .tick s = .next u ∧ u.ledger.tickDue = false ∧
    u.ledger.frame = s.ledger.frame ∧ u.ledger.accts = s.ledger.accts ∧ SameRegsBut [] s u ∧ SameMemory s u ∧ u.threads = s.threads ∧
    u.jobs = s.jobs)) ∧
  (∀ t c s1 m, s.mode = 2 → s.power.request = some (t, c) → t ≠ 1 → s.dueRequest = (s1, some m) →
    exec .tick s = .next (s1.frameTick (some m)))) ∧
  (∀ (s : State), s.mem.refNext = 0 →
  let u := s.countTick
  u.ledger.frame = s.ledger.frame + 1 ∧ u.ledger.tickClk = s.clk ∧ u.ledger.tickDue = false ∧ u.ledger.open_ = true ∧
  u.ledger.capScrub = s.f R.LDG_DERATE 25 16 ∧ u.ledger.capVc = s.rd R.LDG_VCSHARE ∧
  u.ledger.winNow = s.f R.LDG_TICKWIN 15 0 ∧ u.ledger.accts = s.ledger.accts ∧ u.jobs = s.jobs ∧ u.threads = s.threads ∧ SameMemory s u)

/-- R41, R42: step 2 empties every pool into EXPIRED, step 3 copies the four sums of the closed frame to the audit registers and
starts them at 0, and step 4 sets GRANT, the pool and GRANTED of every account to the grant of R24. R34: admission takes
every charge from its pool and leaves every other part of every account. -/
def Obligations.LedgerAtTick : Prop :=
  (∀ (s : State) (r : Nat), r < 148 → acctAssigned r = true →
  let a := s.acct r
  s.tickExpire.acct r = { a with pool := 0, expired := a.expired + a.pool } ∧
  s.tickAudit.acct r = { a with
    audGranted := a.granted, audConsumed := a.consumed, audRefunded := a.refunded, audExpired := a.expired
    granted := 0, consumed := 0, refunded := 0, expired := 0 } ∧
  s.tickGrant.acct r = { a with grant := s.grantOf r, pool := s.grantOf r, granted := s.grantOf r } ∧
  s.tickGrant.grantOf r = s.grantOf r) ∧
  (∀ (s : State) (ch : SMap Nat), (ch.map Prod.fst).Nodup → ∀ r,
  (s.deduct ch).acct r = { s.acct r with pool := (s.acct r).pool - (sget (fun _ => 0) ch r : Nat) })

/-- R37, R42: with the credits still charged to a job counted beside it, the identity GRANTED = CONSUMED + REFUNDED + EXPIRED +
pool of an account holds again after a refund of that job; it makes step 2 balance the account; step 3 sets LDG_AUDSTAT bit
0 exactly when some account does not balance. R37, R42: a refund gives every account what the job was charged there and has
not used, in the pool, in REFUNDED and in GRANTED, so what GRANTED exceeds REFUNDED by does not change; no other account
changes. -/
def Obligations.AuditIdentity : Prop :=
  (∀ (s : State) (j : Job) (r : Nat) (rest : Int), (j.charges.map Prod.fst).Nodup →
  let a := s.acct r
  let b := (s.refund j).acct r
  ((a.granted : Int) = a.consumed + a.refunded + a.expired + a.pool + (j.charge r - j.use r : Nat) + rest →
    (b.granted : Int) = b.consumed + b.refunded + b.expired + b.pool + rest) ∧
  (r < 148 → acctAssigned r = true → (a.granted : Int) = a.consumed + a.refunded + a.expired + a.pool →
    (s.tickExpire.acct r).balanced = true) ∧
  ((∀ k, k < 148 → acctAssigned k = true → (s.acct k).balanced = true) → SameRegsBut [] s s.tickAudit ∧ s.tickAudit.threads = s.threads) ∧
  (r < 148 → acctAssigned r = true → a.balanced = false → s.tickAudit.b R.LDG_AUDSTAT 0 = true)) ∧
  (∀ (s : State) (j : Job),
  (j.charges.map Prod.fst).Nodup → ∀ r,
    let a := s.acct r
    let x := j.charge r - j.use r
    (s.refund j).acct r = { a with pool := a.pool + x, refunded := a.refunded + x, granted := a.granted + x })

/-- R22, R39, R273: T_CUT, T_DL and T_OUT happen once in an open frame at their instants, T_CUT and T_DL with their producer
events; the commit hold begins 256 clk before the earliest next tick. -/
def Obligations.FramePhases : Prop := ∀ (s : State), s.inFrame = true → s.ledger.open_ = true →
  (s.ledger.cutDone = false → exec .cutoff s =
    .next (((s.until (s.ledger.tickClk + s.tcutClk)).onLdg (fun l => { l with cutDone := true })).produce 0x09 0)) ∧
  (s.ledger.dlDone = false → exec .deadline s = .next
    ((((((s.cutoff.until (s.ledger.tickClk + s.tdlClk)).onLdg (fun l => { l with dlDone := true })).produce 0x0A 0).judgeSkip).deadlineJobs).compose).twinDigest) ∧
  (s.ledger.outDone = false → exec .outputTime s = .next
    ((s.deadline.until (s.ledger.tickClk + s.toutClk)).onLdg (fun l => { l with outDone := true })).twinAbsent) ∧
  (s.b R.SIM_STAT 2 = false → s.io.holdEnded = false → (s.ledger.lost = false ∨ s.b R.LDG_CTL 2 = true) →
    (∃ u : State, exec .commitHold s = .next u ∧ u.b R.SIM_STAT 2 = true ∧ u.clk = max s.clk (s.earliestNext - 256) ∧
      u.jobs = s.jobs ∧ SameMemory s u)) ∧
  (s.ledger.cutDone = true → exec .cutoff s = .next s) ∧ (s.ledger.dlDone = true → exec .deadline s = .next s) ∧
  (s.ledger.outDone = true → exec .outputTime s = .next s)

/-- R38, R82, R94, R95, R104: the first job of a Frond's order starts on every member when all are free, and its STAT becomes
RUNNING; a running job executes the elements of its strip up to the strip's end, a fault, a failed top-up, a remote line that it
asks for or an access that must wait; once it has committed its last element it completes; between strips a job of a lower class
yields, and an overrunning job is carried there or where a top-up stalled it. -/
def Obligations.FrondJobs : Prop := ∀ (s : State) (k : Fin 8) (j : Job) (v : VJob),
  (s.startable k.val = some j → parseVjd j.words = some v → (∃ u : State, exec (.jobStart k) s = .next u ∧
    ∃ (u0 : State) (j2 : Job), u = u0.writeStat j2 3 ∧ j2.st = .running ∧ j2.vjd = j.vjd ∧ j2.started = true ∧ j2.ri = j.ri ∧
      j2.words = j.words)) ∧
  (s.runningOn k.val = some j → parseVjd j.words = some v →
    (s.frondsStopped j = false → j.ri < v.n → j.stall = none → j.rwait = [] →
      (j.atBoundary v = false ∨ (j.preempt = false ∧ j.overrun = false)) →
      ∀ first bound fr, j.strip v = (first, bound, fr) →
      ∀ s0 j0 why s2 j1, s.runElems v fr first (bound - j.ri) { j with inStrip := true } = (s0, j0, why) →
      s0.postGathered j0 fr = (s2, j1) →
      let s1 := s2.noteForward j j1
      (why = none → exec (.stripStart k) s = .next (s1.putJob j1.endStrip)) ∧
      (∀ c fs fa, why = some (.fault c fs fa) → exec (.stripStart k) s = .next (s1.stopFault j1 c fs fa fr)) ∧
      (∀ r, why = some (.stall r) → exec (.stripStart k) s = .next ((s1.guard 4).putJob { j1 with stall := some r })) ∧
      (∀ l, why = some (.need l) → exec (.stripStart k) s = .next (s1.askLines j1 (v.linesAhead j1 bound l))) ∧
      (why = some .wait → exec (.stripStart k) s = .next (s1.putJob j1))) ∧
    (v.n ≤ j.ri → exec (.jobComplete k) s = .next (s.completeJob j)) ∧
    (j.preempt = true → j.atBoundary v = true → j.ri < v.n → exec (.preempt k) s =
      .next (((s.frondEvents j 4).putJob { j with st := .queued, preempt := false }).writeStat
        { j with st := .queued, preempt := false } 2)) ∧
    (j.overrun = true → j.ri < v.n → (j.atBoundary v = true ∨ j.stall ≠ none) → exec (.jobCarry k) s = .next (s.carryJob j)) ∧
    (∀ r, j.stall = some r → (s.useOne j r 1).isSome = true → exec (.topupResume k) s = .next (s.putJob { j with stall := none })))

/-- R110, R111: an armed instance whose start spore is pending takes it; within its latest start and with queue room its job
enters the queue, or waits for room there; after it the instance is dropped with LDG_GUARD.LATE and the overrun spore. R117, R119:
a write of FRDn_CTL with FLUSHQ cancels every job in the Frond's queue, and one without it stores the enables. -/
def Obligations.PlanEntriesAndFlush : Prop :=
  (∀ (s : State) (i : Fin 1024) (j : Job), s.inFrame = true → s.ledger.planActive = true →
  s.ledger.open_ = true →
  let k := s.ledger.actSlot
  let e := (s.slot k).getD i.val {}
  let s1 := s.onEntry k i.val (fun e => { e with pend := e.pend - 1, taken := e.taken + 1 })
  s.jobs.find? (fun j => decide (j.st = .armed) && j.plan == some (k, i.val)) = some j → j.roomWait = false → e.pend ≠ 0 →
  (s.phase ≤ e.lso * 16 → s1.hasRoom j.base j.gang = true → exec (.planEntryStart i) s = .next (s1.enterQueue j)) ∧
  (s.phase ≤ e.lso * 16 → s1.hasRoom j.base j.gang = false → exec (.planEntryStart i) s = .next
    { s1 with jobs := (s1.jobs.filter (fun x => x.vjd != j.vjd)) ++ [{ j with roomWait := true }] }) ∧
  (e.lso * 16 < s.phase → exec (.planEntryStart i) s = .next (((s1.dropInstance j).planLate).overrunSpore))) ∧
  (∀ (s : State) (o : Origin) (k : Fin 8) (v : Word),
  Reaches s o (R.FRD_CTL k.val) → Takes (R.FRD_CTL k.val) v →
  (v.getLsbD 1 = true → exec (.flushq o k v) s = .next (State.accepted ((s.stored (R.FRD_CTL k.val) v).flushQueue k.val) o)) ∧
  (v.getLsbD 1 = false → exec (.flushq o k v) s = .next (State.accepted (s.stored (R.FRD_CTL k.val) v) o)))

/-- R245, R247, R253, R256: the events of a clk are counted by the slots that match them; a spore sets its channel's flag and
counts; a carried spore reaches every enabled input that selects its channel; software triggers and remote spores make an event at
a channel with a matching slot, and otherwise set SPC_STAT or count in SPC_RDROP; the FIU adds at most four events of its queue.
R248: spores that arrive at a task input add to its pending count, which stays at 255 from there on with OVF and SATCNT for the
rest, and ARRIVED counts them all; a take lowers the count and adds to TAKEN what it took. -/
def Obligations.SporesAndTaskInputs : Prop :=
  (∀ (s : State) (c : Fin 256) (hop : BitVec 4) (sec : Bool) (dev : BitVec 6) (o : Origin) (v : Word),
  let e : Event := { kind := 0x18, param := dev.toNat, chan := some c.val, hop := hop.toNat }
  let soft : Event := { kind := 0x30, chan := some (fld v 7 0) }
  let drop := (s.chSecure c.val && !sec) || s.slotsFor c.val e == 0
  (s.running = true → exec .sporeProduce s = .next ((((s.onSpo (fun p => { p with events := [] })).each s.spores.events (fun s e =>
    s.produceAt e)).onIo (fun i => { i with fiuQueue := i.fiuQueue.drop 4 })).each s.fiuEvents (fun s e => s.produceAt e))) ∧
  (s.running = true → exec (.sporeArrive c) s = .next (s.deliver c.val).takeHalt) ∧
  (s.running = true → drop = true → exec (.remoteSporeArrive c hop sec dev) s = .next (s.count R.SPC_RDROP 32 1)) ∧
  (s.running = true → drop = false → exec (.remoteSporeArrive c hop sec dev) s =
    .next (s.onSpo (fun p => { p with events := p.events ++ [e] }))) ∧
  (Reaches s o R.SPC_TRIG → Takes R.SPC_TRIG v → s.chanRights o (fld v 7 0) = true →
    (s.slotsFor (fld v 7 0) soft = 0 → exec (.spcTrig o v) s = .next (State.accepted (s.setB R.SPC_STAT 0 true) o)) ∧
    (s.slotsFor (fld v 7 0) soft ≠ 0 → exec (.spcTrig o v) s =
      .next (State.accepted (s.onSpo (fun p => { p with events := p.events ++ [soft] })) o))) ∧
  (Reaches s o R.SPC_TRIG → Takes R.SPC_TRIG v → s.chanRights o (fld v 7 0) = false →
    exec (.spcTrig o v) s = .next (s.accessDone.refused o true 5 R.SPC_TRIG))) ∧
  (∀ (s : State) (i : Fin 186) (k hop origin : Nat),
  let u := s.arrive i.val k hop origin
  let t := s.take i.val k
  u.pend i.val = min (s.pend i.val + k) 255 ∧
  (u.rd (R.SPC_TI_ARRIVED i.val)).toNat = ((s.rd (R.SPC_TI_ARRIVED i.val)).toNat + k) % 2 ^ 32 ∧
  (255 < s.pend i.val + k → u.b (R.SPC_TI_STAT i.val) 8 = true) ∧
  (s.pend i.val + k ≤ 255 → u.b (R.SPC_TI_STAT i.val) 8 = s.b (R.SPC_TI_STAT i.val) 8) ∧
  t.pend i.val = s.pend i.val - k ∧
  (t.rd (R.SPC_TI_TAKEN i.val)).toNat = ((s.rd (R.SPC_TI_TAKEN i.val)).toNat + min k (s.pend i.val)) % 2 ^ 32 ∧
  SameRegsBut [R.SPC_TI_STAT i.val, R.SPC_TI_ARRIVED i.val, R.SPC_TI_SATCNT i.val] s u ∧
  SameRegsBut [R.SPC_TI_STAT i.val, R.SPC_TI_TAKEN i.val] s t ∧ SameMemory s u ∧ SameMemory s t ∧ u.jobs = s.jobs ∧ t.jobs = s.jobs)

/-- R250, R251, R252, R254, R286: a COUNT input takes its counts and emits one spore for each completed multiple; a REMOTE input
takes one and sends it on the route of its device, or drops it at HOPMAX; an EGRESS input takes one and sends its template.
In Safe none takes. R285: a scheduled template is released in an open frame after T_OUT and after the templates that leave before
it, at T_OUT + RELOFS, or skipped with EGR_LATECNT and IOB_INT when that is not before the next tick. -/
def Obligations.RelaysAndReleases : Prop :=
  (∀ (s : State) (c : Fin 16) (r : Fin 32) (e : Fin 64),
  (0 < s.pend (136 + c.val) → s.running = true → s.mode ≠ 5 → (∃ u : State, exec (.countRelay c) s = .next u ∧
    u.pend (136 + c.val) = 0 ∧
    u.f (R.SPC_TI_STAT (136 + c.val)) 23 16 = (s.f (R.SPC_TI_STAT (136 + c.val)) 23 16 + s.pend (136 + c.val)) %
      (s.f (R.SPC_TI_CFG (136 + c.val)) 23 16 + 1) ∧ u.jobs = s.jobs ∧ SameMemory s u)) ∧
  (0 < s.pend (152 + r.val) → s.running = true → s.mode ≠ 5 → s.remoteReady (152 + r.val) = true →
    let (hop, origin) := (s.hopsAt (152 + r.val)).headD (0, 0)
    let (dev, chan) := s.remoteTarget (152 + r.val)
    (s.f R.SPC_CTL 3 0 ≤ hop + 1 → exec (.remoteSend r) s = .next ((s.take (152 + r.val) 1).loopDrop origin 1)) ∧
    (hop + 1 < s.f R.SPC_CTL 3 0 → (∃ u : State, exec (.remoteSend r) s = .next u ∧ ∃ p : Packet,
      p.op = 4 ∧ p.vc = 0 ∧ p.dst.toNat = dev % 64 ∧ p.addr.toNat % 256 = chan % 256 ∧ p.payload = [] ∧
      u = (s.take (152 + r.val) 1).onLnk (s.f (R.FAB_RT dev) 1 0) (fun l => { l with txq := l.txq ++ [p] })))) ∧
  (0 < s.pend (72 + e.val) → s.mode = 2 → exec (.egressTake e) s = .next ((s.take (72 + e.val) 1).count R.EGR_SUPPCNT 32 1)) ∧
  (0 < s.pend (72 + e.val) → s.inFrame = true →
    let s1 := s.take (72 + e.val) 1
    let t := s.f (R.SPC_TI_CFG (72 + e.val)) 24 16
    exec (.egressTake e) s = .next (s1.sendTemplate t (s1.tmpl t).tc false s1.mutedTwin none)) ∧
  (s.mode = 5 → exec (.countRelay c) s = .next s ∧ exec (.remoteSend r) s = .next s ∧ exec (.egressTake e) s = .next s)) ∧
  (∀ (s : State) (t : Fin 512),
  let m := s.tmpl t.val
  let due := s.toutClk + m.relofs * 16
  let s0 := s.onTmpl t.val (fun m => { m with released := true })
  let s1 := s.outputTime
  (m.en = true → m.sched = true → m.released = false → s.b R.EGR_CTL 0 = true → s.inFrame = true → s.ledger.open_ = true →
    exec (.templateRelease t) s = .next (s1.each (s1.releasesUpTo t.val) (fun s k => s.releaseOne k))) ∧
  (s1.releasesUpTo t.val).getLast? = some t.val ∧
  (due < s.periodClk → s.releaseOne t.val = (s0.until (s.ledger.tickClk + due)).sendTemplate t.val m.tc false s.mutedTwin
    (some (s.ledger.tickClk + due))) ∧
  (s.periodClk ≤ due → s.releaseOne t.val = (s0.setB R.IOB_INT 2 true).count R.EGR_LATECNT 32 1))

/-! ### Memory and threads -/

/-- R58, R59: a bank takes the state of BANKn_PWR.STATE once its pending accesses are performed; going Off its contents become
zeros; coming On from Off it is cleared, CLEARING set until the clear ends, which leaves every byte 0, and ON then set. R57: in
the idle window, while no request waits at its port, the scrub of a bank that is On and not clearing, not yet done in this window,
writes its queued repairs back and, with EN, goes through LINES lines from SCRUBPOS, which moves on by LINES modulo the bank's
lines. With EN = 0 the position stays. No byte changes. R80: a write of BANKn_ERRINJ arms the single-bit or the double-bit error
of the bank's next write. -/
def Obligations.BankService : Prop :=
  (∀ (s s2 : State) (b : Fin 18), s.running = true →
  let p := powerOf (s.f (R.BANK_PWR b.val) 1 0)
  let mine := fun (q : MatrixReq) => q.target == b.val
  let s1 := s.onMtx (fun x => { x with waiting := x.waiting.filter (fun q => !mine q), held := x.held.filter (fun q => !mine q) })
  let u := s.finishClear b.val
  ((s.bank b.val).actual ≠ p → s1.performAll (s.matrix.waiting.filter mine ++ s.matrix.held.filter mine) = some s2 →
    exec (.bankPowerChange b) s = .next (s2.setBankPower b.val p)) ∧
  ((s.bank b.val).actual = p → exec (.bankPowerChange b) s = .next s) ∧
  ((s.bank b.val).actual = .off → (s.setBankPower b.val .on).b (R.BANK_PWR b.val) 4 = true ∧
    (s.setBankPower b.val .on).b (R.BANK_PWR b.val) 5 = false) ∧
  ((s.bank b.val).clearing = true → (s.bank b.val).actual = .on → exec (.bankClear b) s = .next u) ∧
  (∀ a, u.byte a = if bankHome b.val ≤ a ∧ a < bankHome b.val + bankSize b.val then 0 else s.byte a) ∧
  u.b (R.BANK_PWR b.val) 4 = false ∧ u.b (R.BANK_PWR b.val) 5 = decide ((s.bank b.val).actual = .on) ∧
  SameRegsBut [R.BANK_PWR b.val] s u ∧ u.threads = s.threads ∧ u.jobs = s.jobs) ∧
  (∀ (s : State) (b : Fin 18), s.idleWindow = true → (s.bank b.val).actual = .on →
  (s.bank b.val).clearing = false → s.waitingAt b.val = 0 → (s.inConfig = true ∨ (s.bank b.val).scrubbed ≠ s.scrubWindow) →
  let lines := bankSize b.val / 64
  (∃ u : State, exec (.bankScrub b) s = .next u ∧
    (u.bank b.val).repair = [] ∧ u.f (R.BANK_STAT b.val) 4 3 = 0 ∧
    (s.b (R.BANK_SCRUB b.val) 16 = true → u.f (R.BANK_SCRUBPOS b.val) 15 0 =
      (s.f (R.BANK_SCRUBPOS b.val) 15 0 + s.f (R.BANK_SCRUB b.val) 15 0) % lines) ∧
    (s.b (R.BANK_SCRUB b.val) 16 = false → u.rd (R.BANK_SCRUBPOS b.val) = s.rd (R.BANK_SCRUBPOS b.val)) ∧
    SameMemory s u ∧ u.threads = s.threads ∧ u.jobs = s.jobs)) ∧
  (∀ (s : State) (o : Origin) (b : Fin 18), Reaches s o (R.BANK_ERRINJ b.val) →
  exec (.errorInjectSbe o b) s = .next (State.accepted (s.stored (R.BANK_ERRINJ b.val) 1) o) ∧
  exec (.errorInjectDbe o b) s = .next (State.accepted (s.stored (R.BANK_ERRINJ b.val) 2) o) ∧
  (s.stored (R.BANK_ERRINJ b.val) 1).b (R.BANK_ERRINJ b.val) 0 = true ∧
  (s.stored (R.BANK_ERRINJ b.val) 2).b (R.BANK_ERRINJ b.val) 1 = true)

/-- R60, R61, R69: training of a supported population maps DDR5: DDRC_CFG shows it, and DDRC_STAT no error; an unsupported one
sets DDRC_STAT bit 0, a failed training bit 1, and either leaves DDR5 unmapped with no subchannel lines. R66, R68, R69, R429: a
refresh is counted on its channel; a hotter DIMM shows in DDRn_TEMP and, once one lies above 85 C, every channel shows HOT and
LDG_GUARD.THROTTLE sets; a channel that is due retrains at the start of the idle window with RETRAINING shown, until it ends. R69:
a write of DDRn_CTL with RETRAIN asks for one retraining of the channel. R67, R68: with PATROL on and a share of the channel that
does not retrain, the patrol writes back the line it corrected last and moves its subchannel one line on; a line without an error
changes no byte; one wrong nibble is corrected and logged with its device, and the line is written back at the next transfer; two
are logged as uncorrectable and the line is uncorrectable from then on. -/
def Obligations.DdrService : Prop :=
  (∀ (s : State) (l : List Dimm) (trained : Bool), s.running = true → s.b R.DDRC_CFG 3 = false →
  (∃ u : State, exec (.ddrTraining l trained) s = .next u ∧
    u.b R.DDRC_CFG 3 = (populationOk l && trained) ∧ u.b R.DDRC_STAT 0 = (!populationOk l) ∧
    u.b R.DDRC_STAT 1 = (populationOk l && !trained) ∧ ((populationOk l && trained) = false → u.rd R.DDRC_SUBLINES = 0) ∧
    u.jobs = s.jobs ∧ u.threads = s.threads ∧ SameMemory s u)) ∧
  (∀ (s : State) (c : Fin 12) (t : BitVec 8), s.running = true → s.b R.DDRC_CFG 3 = true →
  (∃ u : State, exec (.ddrRefresh c) s = .next u ∧
    sget (fun _ => 0) u.mem.refreshes c.val = sget (fun _ => 0) s.mem.refreshes c.val + 1 ∧ SameRegsBut [] s u ∧ SameMemory s u) ∧
  (s.f (R.DDR_STAT c.val) 1 0 ≠ 0 → (∃ u : State, exec (.dimmTempChange c t) s = .next u ∧
    u.rd (R.DDR_TEMP c.val) = BitVec.ofNat 32 t.toNat ∧
    (85 < t.toInt → u.mem.hot = true) ∧ (s.mem.hot = false → 85 < t.toInt → (∀ k : Fin 12, u.b (R.DDR_STAT k.val) 5 = true) ∧
      u.b R.LDG_GUARD 1 = true ∧ u.b R.PWR_STAT 3 = true) ∧ SameMemory s u)) ∧
  (s.inFrame = true → s.idleWindow = true → s.phase = s.toutClk → s.mem.retraining = [] → s.retrainDue c.val = true →
    (∃ u : State, exec (.ddrRetrain c) s = .next u ∧
    u.mem.retraining = [(c.val, s.clk)] ∧ u.b (R.DDR_STAT c.val) 6 = true ∧ u.b R.LDG_GUARD 3 = true ∧ SameMemory s u)) ∧
  (s.mem.retraining.any (fun e => e.1 == c.val) = true → (∃ u : State, exec (.ddrRetrain c) s = .next u ∧
    u.mem.retraining = [] ∧ u.b (R.DDR_STAT c.val) 6 = false ∧ SameRegsBut [R.DDR_STAT c.val] s u ∧ SameMemory s u))) ∧
  (∀ (s : State) (o : Origin) (c : Fin 12) (v : Word), Reaches s o (R.DDR_CTL c.val) →
  Takes (R.DDR_CTL c.val) v →
  exec (.ddrRetrainRequest o c v) s = .next (State.accepted (s.writeDdrCtl c.val v) o) ∧
  (v.getLsbD 0 = true → (s.writeDdrCtl c.val v).mem.retrainReq.contains c.val = true ∧
    SameRegsBut [] s (s.writeDdrCtl c.val v) ∧ SameMemory s (s.writeDdrCtl c.val v))) ∧
  (∀ (s : State) (k : Fin 24) (n m : Fin 10), s.running = true → s.b R.DDRC_CFG 3 = true →
  s.b R.DDRC_CFG 4 = true → s.mem.selfRefresh = false →
  let busy := s.mem.retraining.any (fun e => e.1 == k.val / 2)
  let i := sget (fun _ => 0) s.mem.patrol k.val
  let p := ddrLine k.val (i % (s.rd R.DDRC_SUBLINES).toNat)
  let s0 := (s.patrolBack k.val).patrolMove k.val
  let s1 : State := { s0.onMem (fun x => { x with patrol := sput (fun _ => 0) x.patrol k.val (i + 1) }) with free := s.free }
  let device := fun (n : Fin 10) => if s.b (R.DDR_MODULE (k.val / 2)) 1 then n.val / 2 else n.val
  let both := if device n = device m then device n else 15
  (∀ l, s.scrubShare = 0 ∨ busy = true → exec (.patrolScrub k l) s = .next s) ∧
  (s.scrubShare ≠ 0 → busy = false → s0.lineError (ddrBase + p) = none →
    exec (.patrolScrub k []) s = .next s1.patrolPass ∧
    exec (.patrolScrub k [n]) s = .next ((((s1.ddrLog p false true (device n)).setEcc (ddrBase + p) (some (.single (device n)))).onMem
      (fun x => { x with patrolFix := sput (fun _ => 0) x.patrolFix k.val (p / 64 + 1) })).patrolPass) ∧
    (n ≠ m → exec (.patrolScrub k [n, m]) s =
      .next (((s1.ddrLog p true true both).setEcc (ddrBase + p) (some (.double both))).patrolPass)) ∧
    SameMemory s s1.patrolPass))

/-- R73, R75, R77: a target port grants the request that its rule chooses, whose write takes effect and whose response stands
until its master takes it; while its target accepts no access nothing is granted; a held request enters once nothing older of its
master conflicts with it. R73: what a target port grants is a request that waits there and is the oldest of its master there. In
the compute window a charged request is granted before every uncharged one; outside it an uncharged request that has waited
MTX_AGE is granted before the others, the one that has waited longest first (the model's choice among several, log 67). -/
def Obligations.MatrixGrants : Prop :=
  (∀ (s : State) (t : Fin 34) (m : Fin 16), s.running = true →
  (∀ q s1, s.choose t.val = some q → s.perform q = some s1 → exec (.matrixGrant t) s = .next (s1.onMtx (fun x =>
    { x with waiting := removeFirst q x.waiting, responses := x.responses ++ [q.response]
             lastGrant := sput (fun _ => 15) x.lastGrant t.val q.master }))) ∧
  ((s.choose t.val = none ∨ ∃ q, s.choose t.val = some q ∧ s.perform q = none) → exec (.matrixGrant t) s = .next s) ∧
  (∀ r, s.matrix.responses.find? (fun r => r.master == m.val) = some r → exec (.matrixResponse m) s =
    .next (s.onMtx (fun x => { x with responses := removeFirst r x.responses }))) ∧
  (∀ q, s.matrix.held.find? (fun q => q.master == m.val) = some q →
    let s1 := s.onMtx (fun x => { x with held := removeFirst q x.held })
    (s1.conflicts q = false → exec (.holdbackRelease m) s = .next (s1.onMtx (fun x => { x with waiting := x.waiting ++ [q] }))) ∧
    (s1.conflicts q = true → exec (.holdbackRelease m) s = .next s))) ∧
  (∀ (s : State) (t : Nat) (q : MatrixReq), s.choose t = some q →
  (s.computeWindow = false → ∀ r, s.matrix.waiting.find? (fun x => x.target == t && x.master == r.master) = some r → r.charged = false →
    r.since + (s.rd R.MTX_AGE).toNat ≤ s.clk → q.charged = false ∧ q.since ≤ r.since) ∧
  q ∈ s.matrix.waiting ∧ q.target = t ∧
  s.matrix.waiting.find? (fun r => r.target == t && r.master == q.master) = some q ∧
  (s.computeWindow = true → (∃ r, s.matrix.waiting.find? (fun x => x.target == t && x.master == r.master) = some r ∧ r.charged = true) →
    q.charged = true))

/-- R209: START of a STOPPED thread gives it the entry offset, level and code segment of its STM registers, every other register
0, and makes it ACTIVE; when the segment does not load it stays STOPPED with STARTERR. STOP drains its buffer and makes it
STOPPED with no reservation. PL 2, and PL 3 of T2 to T7, are refused with CAUSE 7. R182, R192, R203, R234: a fetch puts
words behind those in the buffer of the thread that has the fewest; the oldest buffered store drains; a count ends WAIT and
the delay ends SLEEP, each with Z := 1; a thread at a boundary takes its first pending event. -/
def Obligations.ThreadEvents : Prop :=
  (∀ (s s1 : State) (o : Origin) (t : Tid) (v : Word) (d : SegDesc),
  let w := s.putF (R.STM_CTL t.val) 5 4 (fld v 5 4)
  let w1 := w.setB (R.TRP_LK t.val) 31 false
  let pl := fld v 5 4
  let sel := s.f (R.STM_CSEL t.val) 15 0
  let bad := pl = 2 ∨ (pl = 3 ∧ 2 ≤ t.val)
  Reaches s o (R.STM_CTL t.val) → Takes (R.STM_CTL t.val) v → (t.val ≤ 1 → s.machineOrigin o = true) →
  s.descAsk o (R.STM_CTL t.val) v = none →
  (¬ bad → v.getLsbD 0 = true → v.getLsbD 1 = false → (s.thr t.val).st = .stopped → w1.engineSeg s.ctlAns sel pl true = (s1, some d) →
    ∃ u : State, exec (.threadStart o t v) s = .next (State.accepted u o) ∧ (u.thr t.val).st = .active ∧
      (u.thr t.val).pc = s.rd (R.STM_ENTRY t.val) ∧
      (u.thr t.val).pl = pl ∧ (u.thr t.val).acc = 0 ∧ (u.thr t.val).x = 0 ∧ (u.thr t.val).y = 0 ∧ (u.thr t.val).acx = 0 ∧
      (u.thr t.val).sg.get 0 = { sel := BitVec.ofNat 16 sel, desc := d } ∧ SameThreadsBut t s1 u) ∧
  (¬ bad → v.getLsbD 0 = true → v.getLsbD 1 = false → (s.thr t.val).st = .stopped → w1.engineSeg s.ctlAns sel pl true = (s1, none) →
    exec (.threadStart o t v) s = .next (State.accepted (s1.setB (R.STM_STAT t.val) 12 true) o)) ∧
  (¬ bad → v.getLsbD 1 = true → exec (.threadStop o t v) s = .next (State.accepted (w.stopRequest t.val) o)) ∧
  (bad → exec (.threadStart o t v) s = .next (s.accessDone.refused o true 7 (R.STM_CTL t.val)) ∧
    exec (.threadStop o t v) s = .next (s.accessDone.refused o true 7 (R.STM_CTL t.val)))) ∧
  (∀ (s s1 : State) (t : Tid) (due : Nat), s.running = true →
  let h := s.thr t.val
  let wakes := fun (k : Thread) => { (k.setFlag pswZ true) with st := .active, waitFor := .nothing }
  (exec .fetch s = .next s.fetch) ∧
  (s.fetchThread = none → exec .fetch s = .next s) ∧
  (h.sbuf = [] → h.stopReq = false → exec (.storeDrain t) s = .next s) ∧
  (h.sbuf ≠ [] → s.outstandingOf 8 < 8 → h.stopReq = false →
    let p := oldestStore h.sbuf
    (s.onThr t.val (fun k => { k with sbuf := p.2 })).drainList t.val p.1 = some s1 → (s1.thr t.val).stopReq = false →
    exec (.storeDrain t) s = .next s1) ∧
  (h.st = .waiting → h.waitFor = .wake → h.haltReq = false → 0 < s.pend t.val →
    exec (.waitWake t) s = .next (((s.take t.val 1).onThr t.val wakes).stepEnd t.val true)) ∧
  (h.st = .waiting → h.waitFor = .sleep due → h.haltReq = false →
    exec (.sleepExpire t) s = .next (((s.until due).onThr t.val wakes).stepEnd t.val true)) ∧
  (s.redeliver = s → h.atEventBoundary (.trapEntry t) = true →
    exec (.trapEntry t) s = .next (s.ended (s.nextEvent t.val) t.val (.trapEntry t))))

/-! ### Field I/O and counters -/

/-- R260, R264: a frame that fits the receive buffer of a port that is up joins it behind the older ones with its bytes counted;
one that does not fit is dropped whole with ETHe_RXOVF and the overflow interrupt. R260, R264, R266: the oldest frame of a port
leaves its buffer and is counted: in RXFCS for a bad FCS, in RXLEN for a length outside 64 to 1,536, in both when it is bad in
both; a gPTP frame goes to the end station; any other counts in RXNOM without a stream, and in Safe; a stream's frame is accepted,
or counted in RXDUP when elimination refuses it. -/
def Obligations.FrameReception : Prop :=
  (∀ (s : State) (e : Fin 2) (b : List Byte), s.ethUp e.val = true → s.running = true →
  ((s.eth e.val).rxBytes + b.length ≤ 131072 → (∃ u : State, exec (.ethFrameReceive e b) s = .next u ∧ ∃ f : RxFrame,
    (u.eth e.val).rx = (s.eth e.val).rx ++ [f] ∧ f.port = e.val ∧ f.bytes = b ∧ f.ts = BitVec.ofNat 32 s.ns ∧
    (u.eth e.val).rxBytes = (s.eth e.val).rxBytes + b.length ∧ SameRegsBut [] s u ∧ SameMemory s u ∧ u.jobs = s.jobs)) ∧
  (131072 < (s.eth e.val).rxBytes + b.length →
    exec (.ethFrameReceive e b) s = .next ((s.count (R.ETH_RXOVF e.val) 32 1).setB (R.ETH_INT e.val) 1 true))) ∧
  (∀ (s s2 : State) (e : Fin 2) (f : RxFrame) (l : List RxFrame) (k : Nat), s.running = true →
  (s.eth e.val).rx = f :: l →
  let n := f.bytes.length
  let s1 := s.onEth e.val (fun q => { q with rx := l, rxBytes := q.rxBytes - n })
  let good := 64 ≤ n ∧ n ≤ 1536 ∧ f.fcsGood = true
  ((n < 64 ∨ 1536 < n) → f.fcsGood = true → exec (.frameAccept e) s = .next (s1.count (R.ETH_RXLEN e.val) 32 1)) ∧
  ((n < 64 ∨ 1536 < n) → f.fcsGood = false →
    exec (.frameAccept e) s = .next ((s1.count (R.ETH_RXFCS e.val) 32 1).count (R.ETH_RXLEN e.val) 32 1)) ∧
  (64 ≤ n → n ≤ 1536 → f.fcsGood = false → exec (.frameAccept e) s = .next (s1.count (R.ETH_RXFCS e.val) 32 1)) ∧
  (good → (parseFrame f.bytes).etype = 0x88F7 → exec (.frameAccept e) s = .next (s1.count (R.ETH_RXFRM e.val) 32 1)) ∧
  (good → (parseFrame f.bytes).etype ≠ 0x88F7 → (s.mode = 5 ∨ f.stream = none) →
    exec (.frameAccept e) s = .next (s1.count (R.ETH_RXNOM e.val) 32 1)) ∧
  (good → (parseFrame f.bytes).etype ≠ 0x88F7 → s.mode ≠ 5 → f.stream = some k →
    (s1.eliminate k f.seqTag = (s2, true) → exec (.frameAccept e) s = .next (s2.acceptFrame f k)) ∧
    (s1.eliminate k f.seqTag = (s2, false) → exec (.frameAccept e) s = .next (s2.count (R.ETH_RXDUP e.val) 32 1))))

/-- R266: the vector recovery accepts any number after a reset; a number ahead of the last by less than the history is accepted
and becomes the last; one behind within the history is accepted once and then refused; one outside the history, or seen
before, is refused. -/
def Obligations.FrameElimination : Prop := ∀ (r : Recovery) (hist q : Nat), 1 ≤ hist → hist ≤ 32 → q < 65536 → r.seq < 65536 →
  r.history.length = hist →
  let d := toSigned 16 (q + 65536 - r.seq)
  let u := r.see hist q
  (r.take = true → u.1 = true ∧ u.2.seq = q ∧ u.2.take = false ∧ u.2.history.length = hist) ∧
  (r.take = false → (hist : Int) ≤ d.natAbs → u = (false, r)) ∧
  (r.take = false → 0 < d → d < hist → u.1 = true ∧ u.2.seq = q ∧ u.2.history.getD 0 false = true ∧ u.2.history.length = hist) ∧
  (r.take = false → d ≤ 0 → d.natAbs < hist → u.2.seq = r.seq ∧ u.2.history.getD d.natAbs false = true ∧
    u.1 = !(r.history.getD d.natAbs true) ∧ (u.2.see hist q).1 = false)

/-- R270, R273, R274, R275: outside the commit hold the next accepted frame commits into the live half; the copy takes every slot
of the closing frame that the new one has not committed, and clears FRESH of those the frame before it left fresh there; a flip
exchanges the halves, ends the hold and begins that copy; SIM_CTL.FLIP is for Config. R269, R270: the commit of one field writes
the 16 bytes of its slot in the live half: the value, the time stamp, the quality word and the source word, each little-endian. -/
def Obligations.SignalImage : Prop :=
  (∀ (s : State) (f : RxFrame) (l : List RxFrame) (o : Origin) (v : Word),
  (s.b R.SIM_STAT 2 = false → s.running = true → s.io.commits = f :: l →
    exec .slotCommit s = .next ((s.onIo (fun i => { i with commits := l })).commitFrame f)) ∧
  (s.b R.SIM_STAT 2 = true → exec .slotCommit s = .next s) ∧
  (s.b R.SIM_STAT 1 = true → s.running = true →
    let l := s.io.toCopy.filter (fun k => !s.io.committed.contains k)
    let old := s.io.stale.filter (fun k => !s.io.committed.contains k)
    exec .imageCopy s = .next (((((s.copyLines l).each l (fun s k => s.copySlot k)).each old (fun s k => s.clearFresh k)).onIo
      (fun i => { i with toCopy := [], stale := [] })).setB R.SIM_STAT 1 false)) ∧
  (s.b R.SIM_STAT 1 = false → exec .imageCopy s = .next s) ∧
  (s.b R.SIM_STAT 1 = false → s.flipImage.f R.SIM_STAT 0 0 = 1 - s.f R.SIM_STAT 0 0 ∧ s.flipImage.b R.SIM_STAT 2 = false ∧
    let stale := s.io.lastFrame.filter (fun k => !s.io.committed.contains k)
    s.flipImage.b R.SIM_STAT 1 = (s.io.committed != [] || stale != []) ∧ s.flipImage.io.toCopy = s.io.committed ∧
    s.flipImage.io.committed = [] ∧ s.flipImage.io.stale = stale ∧ s.flipImage.io.lastFrame = s.io.committed ∧
    SameMemory s s.flipImage) ∧
  (Reaches s o R.SIM_CTL → Takes R.SIM_CTL v → v.getLsbD 0 = true →
    (s.mode = 2 → exec (.simFlip o v) s = .next (State.accepted s.flipImage o)) ∧
    (s.mode ≠ 2 → exec (.simFlip o v) s = .next (s.accessDone.refused o true 7 R.SIM_CTL)))) ∧
  (∀ (w : SlotWrite) (ts : Word) (stream port i : Nat), w.quality < 65536 → i < 16 →
  let b := (slotBytes w ts stream port).getD i 0
  (slotBytes w ts stream port).length = 16 ∧
  (i < 8 → b.toNat = w.value.toNat / 256 ^ i % 256) ∧
  (8 ≤ i → i < 12 → b.toNat = ts.toNat / 256 ^ (i - 8) % 256) ∧
  (12 ≤ i → i < 14 → b.toNat = w.quality / 256 ^ (i - 12) % 256) ∧
  (14 ≤ i → b.toNat = (stream % 512 + port % 2 * 512) / 256 ^ (i - 14) % 256))

/-- R259, R260, R261, R263, R266: the events of the end station: an accepted Sync notes its instant; at the slave port it shows
the offset and disciplines the timebase, in rate within 100 ppm up to 1 ms, by a step or a hold beyond; a Sync at another port
leaves the timebase; a loss of Sync sets the interrupt and clears the synchronised state; a link change sets LINK and its
interrupt; the verify procedure sets or clears PREEMPT; the recovery of a stream resets after its time. R262, R263, R285:
ETHe_GCLCTL.CHANGE schedules a list with a LEN and a cycle within the limits, and sets GCLERR for any other; at its base time the
list becomes operational from its first entry; each interval moves on to the next entry, and to the first of the next cycle after
the last; a port that ends a frame counts it. -/
def Obligations.EndStationAndGates : Prop :=
  (∀ (s : State) (e : Fin 2) (ofs : Int) (n : Nat) (ok : Bool) (st : Fin 512), s.running = true →
  (s.ptpOn e.val = true → (∃ u : State, exec (.syncReceive e ofs n) s = .next u ∧
    (u.eth e.val).lastSync = some s.now ∧ (u.eth e.val).syncInterval = n ∧ SameMemory s u ∧ u.jobs = s.jobs ∧
    (u.eth e.val).goodSyncs = (if ofs.natAbs ≤ 100 then (s.eth e.val).goodSyncs + 1 else 0) ∧
    (u.io.slave ≠ e.val → u.tb = s.tb ∧ u.io.synced = s.io.synced) ∧
    (u.io.slave = e.val → u.io.synced = (s.io.synced || decide (8 ≤ (u.eth e.val).goodSyncs)) ∧
      u.rd (R.ETH_PTPOFS e.val) = BitVec.ofNat 32 (ofSigned 32 (max (-2147483648) (min 2147483647 ofs))) ∧
      (ofs.natAbs ≤ 1000000 → u.tb = s.tb ∧ u.tbHold = 0 ∧ -100 ≤ u.tbRate ∧ u.tbRate ≤ 100) ∧
      (ofs < -1000000 → u.tb = s.tb + ofs.natAbs * 16 ∧ u.tbHold = 0) ∧
      (1000000 < ofs → u.tb = s.tb ∧ u.tbHold = (ofs.natAbs - 1000000) * 16)))) ∧
  (s.ptpOn e.val = false → exec (.syncReceive e ofs n) s = .next s) ∧
  (s.ptpOn e.val = true → (∃ u : State, exec (.peerDelay e n) s = .next u ∧ (u.eth e.val).peerDelay = n ∧ SameRegsBut [] s u ∧
    SameMemory s u)) ∧
  (s.io.synced = true → (∃ u : State, exec .syncLoss s = .next u ∧ u.io.synced = false ∧
    (∃ k : Fin 2, u.b (R.ETH_INT k.val) 2 = true) ∧ (∀ k : Fin 2, (u.eth k.val).goodSyncs = 0) ∧
    (s.src = 3 → u.ledger.lost = true ∧ u.b R.LDG_STAT 3 = true) ∧ SameMemory s u)) ∧
  (s.f (R.ETH_CTL e.val) 1 0 ≠ 0 → s.ethUp e.val ≠ ok → (∃ u : State, exec (.ethLinkChange e ok false) s = .next u ∧
    u.b (R.ETH_STAT e.val) 0 = ok ∧ u.b (R.ETH_INT e.val) 0 = true ∧ SameMemory s u ∧ u.jobs = s.jobs)) ∧
  (s.ethUp e.val = true → s.b (R.ETH_CTL e.val) 5 = true → (∃ u : State, exec (.preemptionVerify e ok) s = .next u ∧
    u.b (R.ETH_STAT e.val) 4 = ok ∧ (ok = false → u.b (R.ETH_INT e.val) 3 = true) ∧
    SameRegsBut [R.ETH_STAT e.val, R.ETH_INT e.val] s u ∧ SameMemory s u)) ∧
  ((s.stream st.val).elim = true → (s.recoveryOf st.val).take = false → (∃ u : State, exec (.recoveryResetTimeout st) s = .next u ∧
    u.recoveryOf st.val = {} ∧ SameMemory s u ∧ u.jobs = s.jobs))) ∧
  (∀ (s : State) (e : Fin 2) (o : Origin) (v : Word) (g : TxFrame),
  let cyc := s.f (R.ETH_GCLCYC e.val) 23 0
  let bad := fld v 8 0 = 0 ∨ cyc < 100 ∨ 10000000 < cyc
  (Reaches s o (R.ETH_GCLCTL e.val) → Takes (R.ETH_GCLCTL e.val) v → s.b (R.ETH_GCLCTL e.val) 10 = false → fld v 8 0 ≤ 256 →
    ∃ u : State, exec (.gclChange o e v) s = .next (State.accepted u o) ∧ u.f (R.ETH_GCLCTL e.val) 8 0 = fld v 8 0 ∧
      u.b (R.ETH_GCLCTL e.val) 10 = (v.getLsbD 9 && !decide bad) ∧
      (v.getLsbD 9 = true → bad → u.b (R.ETH_INT e.val) 4 = true) ∧
      SameRegsBut [R.ETH_GCLCTL e.val, R.ETH_INT e.val] s u ∧ SameMemory s u) ∧
  (s.b (R.ETH_GCLCTL e.val) 10 = true → s.running = true → (∃ u : State, exec (.gclActivate e) s = .next u ∧
    u.b (R.ETH_GCLCTL e.val) 10 = false ∧ (u.eth e.val).oper = s.adminGates e.val ∧ (u.eth e.val).operIdx = 0 ∧
    (u.eth e.val).operCycle = cyc ∧ SameMemory s u)) ∧
  (s.running = true → (s.eth e.val).oper ≠ [] → (s.eth e.val).operIdx + 1 < (s.eth e.val).oper.length →
    (s.eth e.val).operSum < (s.eth e.val).operCycle → (∃ u : State, exec (.gclIntervalEnd e) s = .next u ∧
      (u.eth e.val).operIdx = (s.eth e.val).operIdx + 1 ∧ (u.eth e.val).oper = (s.eth e.val).oper ∧ SameMemory s u)) ∧
  (s.running = true → (s.eth e.val).oper ≠ [] → (s.eth e.val).oper.length ≤ (s.eth e.val).operIdx + 1 →
    (∃ u : State, exec (.gclIntervalEnd e) s = .next u ∧ (u.eth e.val).operIdx = 0 ∧
      (u.eth e.val).operBase = (s.eth e.val).operBase + (s.eth e.val).operCycle * 10 ∧ SameMemory s u)) ∧
  ((s.eth e.val).sending = some g → exec (.ethTransmitEnd e) s =
    .next (((s.onEth e.val (fun p => { p with sending := none })).count (R.ETH_TXFRM e.val) 32 1).startTx e.val)))

/-- R419, R421, R422, R424: a wrap sets OVF and goes on from 0; a write of a counter's low or high word sets it, in a clk in which
it also counts together with the amounts of that clk; the FREEZE input sets PMC_STAT.FROZEN and PMC_CTL.THAW clears it, unless it
was set in that clk; a window's end latches its bytes. -/
def Obligations.PerformanceCounters : Prop := ∀ (s : State) (n : Fin 64) (k amount : Nat) (o : Origin) (v : Word),
  let u := s.pmcAdd n.val k
  let both := (if s.pmcCounts n.val then amount else 0) + s.pmcGained n.val
  (k < 2 ^ 48 → u.pmcValue n.val = (s.pmcValue n.val + k) % 2 ^ 48 ∧
    u.b (R.PMC_HI n.val) 31 = (s.b (R.PMC_HI n.val) 31 || decide (2 ^ 48 ≤ s.pmcValue n.val + k)) ∧
    SameRegsBut [R.PMC_LO n.val, R.PMC_HI n.val] s u) ∧
  (s.pmcCounts n.val = true → s.pmcSteady n.val = true → exec (.pmcCounterWrap n) s = .next (s.advance (2 ^ 48 - s.pmcValue n.val))) ∧
  (s.running = true → 0 < s.pend 185 → (∃ u : State, exec .pmcFreeze s = .next u ∧
    u.b R.PMC_STAT 0 = true ∧ u.pend 185 = 0 ∧ SameMemory s u ∧ u.jobs = s.jobs)) ∧
  (s.running = true → s.b R.PMC_BWCTL 20 = true →
    exec .bwWindowEnd s = .next (((s.untilTime (s.pmc.winAt + usTime (s.f R.PMC_BWCTL 19 0))).closeWindow).onPmc
      (fun p => { p with winAt := s.pmc.winAt + usTime (s.f R.PMC_BWCTL 19 0) }))) ∧
  (Reaches s o R.PMC_CTL → Takes R.PMC_CTL v → s.debugRights o = true → ∃ u : State, exec (.pmcThaw o v) s = .next (State.accepted u o) ∧
    u.rd R.PMC_CTL = v &&& 3 ∧ (v.getLsbD 2 = true → (s.fresh R.PMC_STAT).getLsbD 0 = false → u.b R.PMC_STAT 0 = false) ∧
    SameRegsBut [R.PMC_CTL, R.PMC_STAT] s u ∧ SameMemory s u) ∧
  (Reaches s o (R.PMC_LO n.val) → s.debugRights o = true →
    exec (.pmcCounterWrite o n false v amount) s = .next (State.accepted ((s.wr (R.PMC_LO n.val) v).pmcAdd n.val both) o)) ∧
  (Reaches s o (R.PMC_HI n.val) → s.debugRights o = true → fld v 30 16 = 0 →
    exec (.pmcCounterWrite o n true v amount) s = .next (State.accepted
      (((if v.getLsbD 31 then s.clears (R.PMC_HI n.val) 0x80000000 else s).putF (R.PMC_HI n.val) 15 0 (fld v 15 0)).pmcAdd n.val both) o))

/-! ### The Lichen fabric -/

/-- R291: the states of a port in order: a signal takes it from DOWN to TRAIN, training to ALIGN or back to DOWN, alignment to
INIT with an INIT packet, the partner's INIT to UP with new accounts, full credit on every channel and the partner's UID. R291,
R298, R299: a port in UP that loses lock, or meets 8 uncorrectable codewords within 1 ms, enters RETRAIN, counted, with its retry
buffer kept and its waiting packets marked late; in RETRAIN it sends one RESYNC at each lock; RESYNC in agreement with its own
counters takes it back to UP, one in disagreement and the 20 us of a lock that does not come fail the attempt; one that goes DOWN
drops and counts what it holds, closes its accounts and takes its partner out of the domain. R299: the port that goes DOWN keeps
the packets not yet sent, but its own requests, and its delay samples, and loses the rest: what it had sent without an
acknowledgement and what it had received are counted in LNKp_DROPCNT with their interrupt. R291, R321: a write of LNKp_CTL stores
it; with RETRAIN the port enters RETRAIN, with DOWN, or with MODE 0, it goes DOWN; a change of MODE outside Config, MODE 3 and VC
share 0 are refused with CAUSE 7. -/
def Obligations.LinkStates : Prop :=
  (∀ (s : State) (p : Fin 4) (h : LinkHeader) (uid : DWord) (prioId : BitVec 8 × BitVec 8),
  let due := (s.lnk p.val).retrainAt + usTime 500000
  (s.running = true → s.lnkState p.val = 0 → s.f (R.LNK_CTL p.val) 1 0 ≠ 0 → (∃ u : State, exec (.linkSignalDetect p) s = .next u ∧
    u.lnkState p.val = 1 ∧ u.b (R.LNK_INT p.val) 0 = s.b (R.LNK_INT p.val) 0 ∧ SameRegsBut [R.LNK_STAT p.val] s u ∧ SameMemory s u)) ∧
  (s.lnkState p.val = 1 → (∃ u : State, exec (.linkTrained p true) s = .next u ∧
    u.lnkState p.val = 2 ∧ SameRegsBut [R.LNK_STAT p.val] s u ∧ SameMemory s u)) ∧
  (s.lnkState p.val = 1 → (∃ u : State, exec (.linkTrained p false) s = .next u ∧
    u.lnkState p.val = 0 ∧ due ≤ u.now ∧ (due ≤ s.now → u.now = s.now) ∧ SameMemory s u)) ∧
  (s.lnkState p.val = 2 → (∃ (u : State) (k : LinkHeader), exec (.linkAligned p) s = .next u ∧ u.lnkState p.val = 3 ∧
    u.out = .control p.val 2 k [Config.otpUid.toNat, s.prio, s.idByte] :: s.out ∧ k.nak = false ∧
    k.ack = BitVec.ofNat 12 (s.lnk p.val).ackSeq ∧ SameRegsBut [R.LNK_STAT p.val] s u)) ∧
  (s.lnkState p.val = 5 → (s.lnk p.val).resyncSent = false → (∃ (u : State) (k : LinkHeader), exec (.linkAligned p) s = .next u ∧
    u.out = .control p.val 4 k ((List.range 4).flatMap (fun v => [((u.lnk p.val).vc.get v).rx, ((u.lnk p.val).vc.get v).ret]) ++
      [(s.lnk p.val).rxNext]) :: s.out ∧ (u.lnk p.val).resyncSent = true ∧ SameRegsBut [] s u ∧ SameMemory s u)) ∧
  (s.lnkState p.val = 5 → (s.lnk p.val).resyncSent = true → exec (.linkAligned p) s = .next s) ∧
  (s.lnkState p.val = 3 → ∃ s1 : State, exec (.linkInit p h uid prioId) s = .next s1.newEpoch ∧ s1.lnkState p.val = 4 ∧
    s1.b (R.LNK_INT p.val) 0 = true ∧
    (∀ v, v < 4 → (s1.lnk p.val).vc.get v = { cr := vcBuffer v, rxc := if v = h.crvc.toNat then h.crcnt.toNat else 0 }) ∧
    (s1.lnk p.val).txq = (s.lnk p.val).txq ∧ (s1.lnk p.val).txSeq = 0 ∧ (s1.lnk p.val).rxNext = 0 ∧ (s1.lnk p.val).retry = [] ∧
    (s1.rd (R.LNK_PEERUID_LO p.val)).toNat + (s1.rd (R.LNK_PEERUID_HI p.val)).toNat * 2 ^ 32 = uid.toNat ∧ SameMemory s s1)) ∧
  (∀ (s s1 : State) (p : Fin 4) (h : LinkHeader) (n : Nat) (acct : List (Nat × Nat)) (next : BitVec 12),
  let fec := (s.lnk p.val).fecAt.filter (fun t => decide (s.now ≤ t + usTime 1000))
  let counted := ((s.count (R.LNK_FECUE p.val) 32 n).setB (R.LNK_INT p.val) 4 true).onLnk p.val (fun l =>
    { l with fecAt := (List.replicate (min n 8) s.now ++ fec).take 8 })
  let met := (s.sendResync p.val).takeHeader p.val { h with nak := false }
  (s.lnkState p.val = 4 → n = 0 → (∃ u : State, exec (.linkRetrain p n) s = .next u ∧ u.lnkState p.val = 5 ∧
    u.b (R.LNK_INT p.val) 2 = true ∧
    u.f (R.LNK_RETRAINCNT p.val) 31 0 = satAdd 32 (s.f (R.LNK_RETRAINCNT p.val) 31 0) 1 ∧ (u.lnk p.val).retry = (s.lnk p.val).retry ∧
    (u.lnk p.val).txSeq = (s.lnk p.val).txSeq ∧ (u.lnk p.val).txq = (s.lnk p.val).txq.map (fun k => { k with late := true }) ∧
    SameMemory s u)) ∧
  (s.lnkState p.val = 4 → 0 < n → n + fec.length < 8 → exec (.linkRetrain p n) s = .next counted) ∧
  (s.lnkState p.val = 4 → 0 < n → 8 ≤ n + fec.length → exec (.linkRetrain p n) s = .next (counted.enterRetrain p.val)) ∧
  (s.lnkState p.val = 5 → met.resyncOk p.val acct next.toNat = some s1 → exec (.resync p h (acct, next)) s = .next s1 ∧
    s1.lnkState p.val = 4 ∧ SameMemory s s1 ∧ (s1.lnk p.val).failed = 0 ∧ (s1.lnk p.val).rounds = 0) ∧
  (s.lnkState p.val = 5 → met.resyncOk p.val acct next.toNat = none →
    exec (.resync p h (acct, next)) s = .next (s.failRetrain p.val).resumeAll) ∧
  (s.lnkState p.val = 5 → exec (.retrainTimeout p) s =
    .next (((s.untilTime ((s.lnk p.val).retrainAt + usTime 20)).failRetrain p.val).resumeAll)) ∧
  (s.linkUp p.val = true → exec (.linkDown p) s = .next (((s.portDown p.val).partnerGone p.val).resumeAll)) ∧
  (s.linkUp p.val = false → exec (.linkDown p) s = .next (s.portDown p.val).resumeAll)) ∧
  (∀ (s : State) (p : Fin 4), s.lnkState p.val ≠ 0 → s.fabric.outstanding = [] →
  let l := s.lnk p.val
  let n := l.retry.length + l.rxq.length
  let u := s.portDown p.val
  u.lnkState p.val = 0 ∧
  u.lnk p.val = { txq := l.txq.filter (fun k => !(decide (k.op.toNat ≤ 2) && k.src == s.srcId)), delays := l.delays } ∧
  u.f (R.LNK_DROPCNT p.val) 31 0 = satAdd 32 (s.f (R.LNK_DROPCNT p.val) 31 0) n ∧ (0 < n → u.b (R.LNK_INT p.val) 3 = true) ∧
  (s.lnkState p.val = 4 → u.b (R.LNK_INT p.val) 0 = true) ∧
  SameRegsBut [R.LNK_STAT p.val, R.LNK_INT p.val, R.LNK_DROPCNT p.val] s u ∧ SameMemory s u ∧ u.jobs = s.jobs ∧ u.threads = s.threads) ∧
  (∀ (s : State) (o : Origin) (p : Fin 4) (v : Word), Reaches s o (R.LNK_CTL p.val) →
  Takes (R.LNK_CTL p.val) v → s.machineOrigin o = true →
  let bad := fld v 1 0 = 3 ∨ fld v 15 8 = 0 ∨ (fld v 1 0 ≠ s.f (R.LNK_CTL p.val) 1 0 ∧ s.mode ≠ 2)
  let s1 := s.wr (R.LNK_CTL p.val) (v &&& 0xFF13)
  (¬ bad → fld v 1 0 ≠ 0 → v.getLsbD 3 = false → v.getLsbD 2 = true →
    exec (.lnkRetrainRequest o p v) s = .next (State.accepted (s1.enterRetrain p.val) o)) ∧
  (¬ bad → v.getLsbD 2 = false → (fld v 1 0 = 0 ∨ v.getLsbD 3 = true) →
    exec (.lnkDownRequest o p v) s = .next (State.accepted (s1.linkDown p.val) o)) ∧
  (bad → exec (.lnkRetrainRequest o p v) s = .next (s.accessDone.refused o true 7 (R.LNK_CTL p.val)) ∧
    exec (.lnkDownRequest o p v) s = .next (s.accessDone.refused o true 7 (R.LNK_CTL p.val))))

/-- R292, R296, R302, R312: a new packet leaves as bytes with the next SEQ when its flits fit the retry buffer, stays there until
it is acknowledged, and its flits leave the credit of its channel; a port that has packets to resend sends the oldest of these
first, marked late; one with nothing to send returns the credit it owes in an ACK; with FAB_CTL.EN = 0 only that. R293, R294,
R297: a data packet with the expected SEQ and a good CRC is taken in: the expected SEQ moves on, its flits count as received and
occupied, and it joins the receive buffer when it follows the field rules, or is counted as dropped with its credit to be
returned; one of KIND 6 or 7 is discarded; a bad CRC counts and asks for a resend once; an ACK retires the packets up to it and
returns credit up to the channel's buffer; a NAK and a time without an ACK resend. R300, R311: an audit packet carries TX, RXC and
CR of each channel and the last SEQ sent; one received is judged once the port has accepted its MARK, and a channel that fails it
sets the interrupt and retrains; DELAY is sent with the timebase, answered with the two instants of its turn, and its answer
enters the mean of the last eight. -/
def Obligations.LinkPackets : Prop :=
  (∀ (s : State) (p : Fin 4) (k : Packet) (w : Nat), s.lnkState p.val = 4 → s.b R.FAB_CTL 0 = true →
  let l := s.lnk p.val
  let fits := (l.retry.map (fun e => pktFlits e.2)).sum + pktFlits k ≤ 1024 ∧ l.retry.length < 2047
  (∀ q t, l.resend = (q, k) :: t → exec (.packetSend p) s =
    .next ((((s.onLnk p.val (fun l => { l with resend := t })).launch p.val q { k with late := true }).count (R.LNK_RETRYCNT p.val) 32 1).event
      0x39 p.val 1)) ∧
  (l.resend = [] → s.nextPacket p.val = some (k, w) → fits →
    (∃ (u : State) (h : LinkHeader), exec (.packetSend p) s = .next u ∧
      u.out = .packet p.val (wireBytes h (s.departing k)) :: s.out ∧ h.seq = BitVec.ofNat 12 l.txSeq ∧ h.nak = false ∧
      (u.lnk p.val).txSeq = (l.txSeq + 1) % 4096 ∧ (u.lnk p.val).retry = l.retry ++ [(l.txSeq, k)] ∧
      (u.lnk p.val).txq = l.txq.erase k ∧ ((u.lnk p.val).vc.get k.vc.toNat).cr = (l.vc.get k.vc.toNat).cr - pktFlits k ∧
      SameMemory s u ∧ u.jobs = s.jobs)) ∧
  (l.resend = [] → (s.nextPacket p.val = none ∨ (s.nextPacket p.val = some (k, w) ∧ ¬ fits)) → 0 < l.owed.2 →
    exec (.packetSend p) s = .next (s.sendAck p.val false))) ∧
  (∀ (s : State) (p : Fin 4), s.lnkState p.val = 4 → s.b R.FAB_CTL 0 = false →
    exec (.packetSend p) s = .next (if 0 < (s.lnk p.val).owed.2 then s.sendAck p.val false else s)) ∧
  (∀ (s : State) (p : Fin 4) (h : LinkHeader) (b1 b2 b3 : List Byte), s.lnkState p.val = 4 →
  let b := b1 ++ b2 ++ b3
  let l := s.lnk p.val
  let k := wirePacket b
  let expected := wireGood b = true ∧ wireKind b = 0 ∧ (wireLink b).nak = false ∧ (wireLink b).seq.toNat = l.rxNext ∧ l.audit = none
  let gone := fun (e : Nat × Packet) => decide ((h.ack.toNat + 4096 - e.1) % 4096 < 2048)
  (wireGood b = false → l.nakSent = true → exec (.dataPacketReceive p b1 b2 b3) s = .next (s.count (R.LNK_CRCERR p.val) 32 1)) ∧
  (wireGood b = false → l.nakSent = false → exec (.dataPacketReceive p b1 b2 b3) s =
    .next (((s.count (R.LNK_CRCERR p.val) 32 1).onLnk p.val (fun l => { l with nakSent := true })).sendAck p.val true)) ∧
  (expected → wireValid b = true → (∃ u : State, exec (.dataPacketReceive p b1 b2 b3) s = .next u ∧
    (u.lnk p.val).rxNext = (l.rxNext + 1) % 4096 ∧ (u.lnk p.val).rxq = l.rxq ++ [k] ∧
    ((u.lnk p.val).vc.get k.vc.toNat).occ = (l.vc.get k.vc.toNat).occ + pktFlits k ∧
    ((u.lnk p.val).vc.get k.vc.toNat).rx = wrapAdd 32 (l.vc.get k.vc.toNat).rx (pktFlits k) ∧ SameRegsBut [] s u ∧ SameMemory s u)) ∧
  (expected → wireValid b = false → (∃ u : State, exec (.dataPacketReceive p b1 b2 b3) s = .next u ∧
    (u.lnk p.val).rxNext = (l.rxNext + 1) % 4096 ∧ (u.lnk p.val).rxq = l.rxq ∧ u.b (R.LNK_INT p.val) 3 = true ∧
    u.f (R.LNK_DROPCNT p.val) 31 0 = satAdd 32 (s.f (R.LNK_DROPCNT p.val) 31 0) 1 ∧
    ((u.lnk p.val).vc.get k.vc.toNat).pend = (l.vc.get k.vc.toNat).pend + b.length / 64 ∧
    SameRegsBut [R.LNK_INT p.val, R.LNK_DROPCNT p.val] s u ∧ SameMemory s u)) ∧
  (wireGood b = true → 6 ≤ wireKind b → exec (.dataPacketReceive p b1 b2 b3) s = .next ((s.takeHeader p.val (wireLink b)).dropPacket p.val 1)) ∧
  ((∃ u : State, exec (.ack p h) s = .next u ∧
    (u.lnk p.val).retry = l.retry.filter (fun e => !gone e) ∧
    ((u.lnk p.val).vc.get h.crvc.toNat).cr = min (vcBuffer h.crvc.toNat) ((l.vc.get h.crvc.toNat).cr + h.crcnt.toNat) ∧
    (u.lnk p.val).txq = l.txq ∧ SameRegsBut [] s u ∧ SameMemory s u)) ∧
  (l.retry.filter (fun e => !gone e) ≠ [] → exec (.nakReceive p h) s =
    .next ((s.takeHeader p.val { h with nak := false }).resendAll p.val)) ∧
  (s.b R.FAB_CTL 0 = true → l.retry ≠ [] → exec (.retryTimeout p) s = .next ((s.until (l.ackClk + 4096)).resendAll p.val))) ∧
  (∀ (s : State) (p : Fin 4) (h : LinkHeader) (acct : List (Nat × Nat × Nat)) (mark : BitVec 12) (t1 t2 t3 : Nat),
  s.lnkState p.val = 4 → h.nak = false →
  let l := s.lnk p.val
  let s1 := s.takeHeader p.val h
  let judged := fun (v : Nat) => ((s1.lnk p.val).vc.get v).auditOk v (acct.getD v (0, 0, 0))
  let d := (((s.tb : Int) - t1 - ((t3 : Int) - t2)) / 2).toNat
  let ds := (d :: l.delays).take 8
  exec (.auditSend p) s = .next (s.sendControl p.val 3 false
    ((List.range 4).flatMap (fun v => [(l.vc.get v).tx, (l.vc.get v).rxc, (l.vc.get v).cr]) ++ [(l.txSeq + 4095) % 4096])) ∧
  (2048 ≤ (l.ackSeq + 4096 - mark.toNat) % 4096 → exec (.audit p h (acct, mark)) s =
    .next (s1.onLnk p.val (fun l => { l with audit := some (acct, mark.toNat) }))) ∧
  ((l.ackSeq + 4096 - mark.toNat) % 4096 < 2048 → (∀ v, v < 4 → judged v = true) →
    (∃ u : State, exec (.audit p h (acct, mark)) s = .next u ∧ (u.lnk p.val).audit = none ∧ u.lnkState p.val = 4 ∧ SameRegsBut [] s u ∧
      SameMemory s u)) ∧
  ((l.ackSeq + 4096 - mark.toNat) % 4096 < 2048 → (∃ v, v < 4 ∧ judged v = false) →
    (∃ u : State, exec (.audit p h (acct, mark)) s = .next u ∧ u.lnkState p.val = 5 ∧ u.b (R.LNK_INT p.val) 1 = true)) ∧
  exec (.delayMeasure p) s = .next ((s.onLnk p.val (fun l => { l with delayT1 := some s.tb })).sendControl p.val 5 false [s.tb]) ∧
  exec (.delay p h false t1 t2 t3) s = .next (s1.sendControl p.val 5 false [s.tb, s.tb]) ∧
  (l.delayT1 = some t1 → (∃ u : State, exec (.delay p h true t1 t2 t3) s = .next u ∧ (u.lnk p.val).delays = ds ∧
    u.f (R.LNK_DELAY p.val) 23 0 = min (2 ^ 24 - 1) (ds.sum / ds.length) ∧ SameRegsBut [R.LNK_DELAY p.val] s u ∧ SameMemory s u)) ∧
  (l.delayT1 = none → exec (.delay p h true t1 t2 t3) s = .next s1))

/-- R295, R303: the adverts and reports of a domain: adverts go out, and a partner silent for longer than 20 us is forgotten first
(the model's choice of the time, log 75); a new partner's ADVERT is noted and begins an epoch, a known one's elects again; MEMBER
is collected by the keystone, which forms the epoch once every link it reports leads to a member, and sent on toward the keystone
by others. R304, R306, R315: ASSIGN gives a member its device ID and passes on; ROUTE puts the routing table in force, or holds it
for its frame while the domain is up in a mode with ticks, and passes on when it is for another device; QUORUM is held for the
next tick and passes on. The keystone takes none of them. R304: what an ASSIGN leaves: FAB_EPOCH, the number of members, the
member's own ID with its valid bit, or NOID when it is given none; a new epoch ends the decision of the old one. -/
def Obligations.DomainEpochs : Prop :=
  (∀ (s : State) (p : Fin 4) (a : Advert) (m : MemberReport) (q : Nat),
  let i : MemberInfo :=
    { uid := m.uid, weight := m.weight.toNat, pin := m.pin, pinId := m.pinId.toNat, prevId := m.prevId.toNat
      prevQuorate := m.prevQuorate, links := m.links.map (fun k => (k.1.val, k.2)) }
  let s1 := s.takeTyped p.val 6 2 (memberBytes i)
  let others := s.fabric.members.filter (fun x => x.uid != i.uid)
  let s2 := s1.onFab (fun f => { f with members := s1.keptReports (others ++ [i]) })
  let noted := fun (t : State) => (t.lnk p.val).advSeen = true ∧ t.f (R.LNK_STAT p.val) 9 4 = a.ownId.toNat % 64 ∧
    t.b (R.LNK_STAT p.val) 10 = decide (a.ownId.toNat < 64) ∧ (t.lnk p.val).advMode = a.mode.toNat ∧ (t.lnk p.val).advHeld = a.held ∧
    (a.hops.toNat < 63 → (t.lnk p.val).advPrio = a.bestPrio.toNat ∧ (t.lnk p.val).advUid = a.bestUid ∧
      (t.lnk p.val).advHops = a.hops.toNat) ∧ SameRegsBut [R.LNK_STAT p.val] s t ∧ SameMemory s t
  (s.running = true → (∀ q : Fin 4, (s.lnk q.val).advSeen = true → s.now ≤ (s.lnk q.val).advAt + usTime 20) →
    exec .advertSend s = .next s.sendAdverts) ∧
  (s.running = true → s.fabEn = true → exec .advertSend s = .next ((s.each
    (s.upPorts.filter (fun q => (s.lnk q).advSeen && decide ((s.lnk q).advAt + usTime 20 < s.now))) (fun s q => s.partnerGone q)).sendAdverts)) ∧
  (s.fabEn = true → s.linkUp p.val = true → (s.lnk p.val).advSeen = false → ∃ t : State, exec (.advert p a) s = .next t.newEpoch ∧
    noted t) ∧
  (s.fabEn = true → s.linkUp p.val = true → (s.lnk p.val).advSeen = true → ∃ t : State, exec (.advert p a) s = .next t.reelect ∧ noted t) ∧
  (s.fabEn = true → s.isKeystone = true → s.fabric.members.find? (fun x => x.uid == i.uid) = none →
    (s2.membersComplete = true → exec (.member p m) s = .next s2.form) ∧
    (s2.membersComplete = false → exec (.member p m) s = .next s2)) ∧
  (∀ x, s.fabEn = true → s.isKeystone = true → s.fabric.members.find? (fun x => x.uid == i.uid) = some x →
    (x.links ≠ i.links → s2.membersComplete = true → exec (.member p m) s = .next s2.form) ∧
    (x.links = i.links → s.fabUp = true → x.prevQuorate = i.prevQuorate →
      exec (.member p m) s = .next (s1.onFab (fun f => { f with members := others ++ [i] })))) ∧
  (s.fabEn = true → s.isKeystone = false → s.fabric.bestPort = some q → exec (.member p m) s =
    .next (s1.queueDomain q 0 6 2 (memberBytes i)))) ∧
  (∀ (s : State) (p : Fin 4) (dst : BitVec 6) (epoch frame : DWord) (ids : List (DWord × BitVec 8)) (t : List Word)
  (q : QuorumDecision),
  let l := ids.map (fun e => (e.1, e.2.toNat))
  let e := s.takeTyped p.val 6 3 (assignBytes epoch l)
  let r := s.takeTyped p.val 6 4 (routeBytes epoch frame t)
  let d := s.takeTyped p.val 6 5 (quorumBytes q)
  (s.fabEn = true → s.isKeystone = false →
    ((epoch ≠ s.fabric.epoch ∨ l ≠ s.fabric.ids) → exec (.assign p epoch ids) s =
      .next ((e.takeAssign epoch l).floodDomain p.val 3 (assignBytes epoch l))) ∧
    (s.ownId = some dst.toNat → epoch = s.fabric.epoch →
      exec (.route p dst (epoch, frame) t) s = .next (r.takeRoute frame (t.map (fun w => w &&& 0x3FF)))) ∧
    (s.ownId = some dst.toNat → epoch ≠ s.fabric.epoch → exec (.route p dst (epoch, frame) t) s = .next r) ∧
    (q.epoch = s.fabric.epoch → s.fabric.decision ≠ some q → exec (.quorum p q) s =
      .next ((d.takeDecision q).floodDomain p.val 5 (quorumBytes q)))) ∧
  (s.fabEn = true → s.ownId ≠ some dst.toNat → ∃ k : Packet, k.payload = routeBytes epoch frame t ∧ k.op = 6 ∧
    exec (.route p dst (epoch, frame) t) s = .next (r.passOn p.val k)) ∧
  (s.isKeystone = true → exec (.assign p epoch ids) s = .next e ∧ exec (.quorum p q) s = .next d ∧
    (s.ownId = some dst.toNat → exec (.route p dst (epoch, frame) t) s = .next r))) ∧
  (∀ (s : State) (epoch : DWord) (l : List (DWord × Nat)),
  let u := s.takeAssign epoch l
  let id := idOf l Config.otpUid
  u.fabric.epoch = epoch ∧ u.fabric.ids = l ∧ u.rd R.FAB_EPOCH = BitVec.ofNat 32 epoch.toNat ∧ u.f R.FAB_STAT 22 16 = l.length % 128 ∧
  u.b R.FAB_STAT 6 = (id != 255) ∧ u.b R.FAB_STAT 23 = (id == 255) ∧ (id < 64 → u.f R.FAB_STAT 5 0 = id) ∧
  (id = 255 → u.f R.FAB_STAT 5 0 = 0) ∧ (epoch ≠ s.fabric.epoch → u.fabric.decision = none ∧ u.b R.FAB_INT 0 = true) ∧
  SameMemory s u ∧ u.jobs = s.jobs ∧ u.threads = s.threads)

/-- R312, R316, R319: a TICK packet of the common period names the tick instant and passes down the tree, one of another period
sets FAB_INT.PERIOD and gives no tick; a REJOIN report is noted where it is addressed and passed on elsewhere; a region asked for
by a member in Hold is copied in Run's idle window as one COPY packet, and a source that is not in Run reports that; a twin's
DIGEST shows in FAB_PEERDIG where it is addressed and is passed on elsewhere. -/
def Obligations.DomainService : Prop := ∀ (s s1 : State) (p : Fin 4) (d : DWord) (acc lat period : Nat) (uid : DWord) (src dev home : BitVec 6)
  (rg st : BitVec 8) (reg : Fin 16) (dst len from_ : Nat) (fr dg : DWord) (b : List Byte),
  let total := acc + s.f (R.LNK_DELAY p.val) 23 0
  let word := leBytes 1 rg.toNat ++ leBytes 1 st.toNat
  let two := leBytes 8 fr.toNat ++ leBytes 8 dg.toNat
  let asked := sget (fun _ => 0) s.fabric.copyState (256 * dev.toNat + reg.val) = 1
  (s.fabEn = true → s.linkUp p.val = true → period = s.f R.LDG_PERIOD 23 0 →
    (∃ u : State, exec (.tickPacket p d acc period lat uid) s = .next u ∧
    u.fabric.dframe = d ∧ u.fabric.tickAt = some (max s.tb (s.tb + lat * 160 - total), d) ∧
    (s.tb + lat * 160 < total + s.tb → u.b R.FAB_INT 3 = true) ∧
    (s.src = 2 → s.ledger.lost = false → u.ledger.tickDue = true) ∧
    (s.src = 2 → s.ledger.lost = true → u.ledger.back = some (s.gen + (max s.tb (s.tb + lat * 160 - total) - s.tb))) ∧
    SameMemory s u ∧ u.jobs = s.jobs)) ∧
  (s.fabEn = true → s.linkUp p.val = true → period ≠ s.f R.LDG_PERIOD 23 0 →
    (∃ u : State, exec (.tickPacket p d acc period lat uid) s = .next u ∧
    u.b R.FAB_INT 4 = true ∧ u.fabric.dframe = s.fabric.dframe ∧ u.ledger.tickDue = s.ledger.tickDue ∧
    (s.src = 2 → u.ledger.lost = true) ∧ SameMemory s u)) ∧
  (s.fabEn = true → s.ownId = some home.toNat → exec (.rejoin home src (rg, st)) s =
    .next ((s.takeTyped (s.typedPort 7 word) 6 7 word).rejoinReport src.toNat rg.toNat st.toNat)) ∧
  (s.fabEn = true → s.ownId ≠ some home.toNat → ∃ k : Packet, k.payload = word ∧ k.op = 6 ∧ exec (.rejoin home src (rg, st)) s =
    .next ((s.takeTyped (s.typedPort 7 word) 6 7 word).passOn (s.typedPort 7 word) k)) ∧
  (s.fabEn = false → exec (.rejoin home src (rg, st)) s = .next (s.takeTyped (s.typedPort 7 word) 6 7 word)) ∧
  (¬ asked → exec (.rejoinCopy reg dev dst len from_) s = .next s) ∧
  (asked → s.mode ≠ 3 → exec (.rejoinCopy reg dev dst len from_) s = .next (s.sendRejoin dev.toNat reg.val 3)) ∧
  (asked → s.mode = 3 → s.idleWindow = true → s.fabUp = true → s.b (R.FAB_RT dev.toNat) 2 = true → len ≤ 524288 →
    blocks dst len = [(dst, len)] → s.readMem { master := 11, machine := true } from_ len = (s1, .ok b) →
    exec (.rejoinCopy reg dev dst len from_) s = .next (s1.queuePacket (s1.fabPort dev.toNat)
      { op := 7, vc := 3, dst := dev, src := s1.srcId, late := false, morg := true, sub := 0, hi := false, len := BitVec.ofNat 12 len
        tag := 0, addr := BitVec.ofNat 41 dst, payload := b })) ∧
  (s.fabEn = true → s.ownId = some home.toNat → s.b R.FAB_TWIN 0 = true → (∃ u : State, exec (.digest home (fr, dg)) s = .next u ∧
    u.fabric.peerDigest = some (fr, dg) ∧ u.rd R.FAB_PEERDIG_LO = BitVec.ofNat 32 dg.toNat ∧
    u.rd R.FAB_PEERDIG_HI = BitVec.ofNat 32 (dg.toNat / 2 ^ 32) ∧ SameMemory s u ∧ u.jobs = s.jobs)) ∧
  (s.fabEn = true → s.ownId ≠ some home.toNat → ∃ k : Packet, k.payload = two ∧ k.op = 6 ∧ exec (.digest home (fr, dg)) s =
    .next ((s.takeTyped (s.typedPort 6 two) 6 6 two).passOn (s.typedPort 6 two) k))

/-- R294, R302, R305, R308: an inbound READ, WRITE or ATOMIC for this device is performed in order of its lines and answered with
its STATUS, data only for STATUS 0; one for another device goes on along its route, or is answered with STATUS 3 where there is
none; one that breaks the field rules, or that arrives with FAB_CTL.EN = 0, is discarded and counted. R253, R306, R307, R309,
R316: a RESP completes the outstanding request of its TAG, one without such a request is discarded and counted; a SPORE reaches
its channel; a COPY writes its bytes; each of them passes on when it is for another device. A request without a response completes
with STATUS 4 and sets FAB_INT.RSPTO. -/
def Obligations.RemoteRequestsServed : Prop :=
  (∀ (s s1 : State) (p : Fin 4) (k : Packet) (waited : Nat) (st : Nat) (d : List Byte), s.running = true →
  let s0 := s.takeRx p.val k
  let row := fun (op : Nat) => match op with
    | 0 => Instr.remoteRead p k waited | 1 => .remoteWrite p k waited | _ => .remoteAtomic p k waited
  (s.fabEn = true → pktValid k = true → s.isMine k = true →
    (k.op = 0 → s0.serveReads k.morg (pieces k.addr.toNat k.len.toNat) 0 [] = (s1, st, d) → st ≠ 9 →
      exec (.remoteRead p k waited) s = .next (s1.respond p.val k st (if st = 0 then d else []) waited).resumeAll) ∧
    (k.op = 1 → s0.serveWrites k.morg (pieces k.addr.toNat k.payload.length) k.payload 0 = (s1, st) →
      exec (.remoteWrite p k waited) s = .next (s1.respond p.val k st [] waited).resumeAll) ∧
    (k.op = 2 → s0.atomicAt k.morg k.addr.toNat k.sub.toNat k.hi k.payload = (s1, st, d) →
      exec (.remoteAtomic p k waited) s = .next (s1.respond p.val k st d waited))) ∧
  (∀ op, op < 3 → s.fabEn = true → pktValid k = true → k.op.toNat = op → s.isMine k = false →
    (∀ u, s0.sendOn k = some u → exec (row op) s = .next u) ∧
    (s0.sendOn k = none → exec (row op) s = .next (s0.respond p.val k 3 [] 0))) ∧
  (∀ op, op < 3 → (k.op.toNat ≠ op ∨ pktValid k = false ∨ s.fabEn = false) → exec (row op) s = .next (s0.dropPacket p.val 1))) ∧
  (∀ (s : State) (p : Fin 4) (k : Packet) (o : Outstanding) (tag : BitVec 12), s.running = true →
  let s0 := s.takeRx p.val k
  (s.fabEn = true → pktValid k = true → s.isMine k = true →
    (k.op = 3 → s0.fabric.outstanding.find? (fun o => o.tag == k.tag.toNat) = some o →
      exec (.remoteResp p k) s = .next (s0.complete o (k.sub.toNat + b2n k.hi * 4) k.payload k.late).resumeAll) ∧
    (k.op = 3 → s0.fabric.outstanding.find? (fun o => o.tag == k.tag.toNat) = none →
      exec (.remoteResp p k) s = .next ((s0.dropPacket p.val 1).onFab (fun f => { f with lateResponses := f.lateResponses + 1 }))) ∧
    (k.op = 4 → exec (.spore p k) s = .next
      (s0.remoteArrive (k.addr.toNat % 256) (k.addr.toNat / 256 % 16) (k.addr.getLsbD 12) k.src.toNat)) ∧
    (k.op = 7 → exec (.copy p k) s = .next (s0.copyIn k))) ∧
  (s.fabEn = true → pktValid k = true → s.isMine k = false →
    (k.op = 3 → exec (.remoteResp p k) s = .next (s0.passOn p.val k)) ∧ (k.op = 4 → exec (.spore p k) s = .next (s0.passOn p.val k)) ∧
    (k.op = 7 → exec (.copy p k) s = .next (s0.passOn p.val k))) ∧
  (s.fabric.outstanding.find? (fun o => o.tag == tag.toNat) = some o → exec (.responseTimeout tag) s =
    .next ((((s.untilTime (o.since + usTime (s.f R.FAB_RSPTO 15 0))).complete o 4 [] false).fabInt 10).resumeAll)))

/-- R294, R306, R307, R309: a request of this device takes a TAG that none of its outstanding requests has, as long as one is
free, is outstanding from then on for all of its lines, and leaves on the first port of its route, marked late while the port
retrains; with FAB_CTL.EN = 0 nothing leaves. R310: GO of a FAB_ATOMn set by its owner, for a reachable remote device and an
address of its size, sets BUSY and sends the atomic; GO while BUSY, and an address that is not remote or not aligned, are refused
with CAUSE 7. -/
def Obligations.RemoteRequestsMade : Prop :=
  (∀ (s : State) (user : RemoteUser) (op dev len w sub : Nat) (d : List Byte) (morg hi : Bool),
  s.fabric.outstanding.length < 4096 →
  let r := s.request user op dev len w d morg hi sub
  let port := s.f (R.FAB_RT dev) 1 0
  (∀ o ∈ s.fabric.outstanding, o.tag ≠ r.2) ∧ r.2 < 4096 ∧
  (∃ o p, r.1.fabric.outstanding = s.fabric.outstanding ++ [o] ∧
    (s.b R.FAB_CTL 0 = true → (r.1.lnk port).txq = (s.lnk port).txq ++ [p]) ∧ (s.b R.FAB_CTL 0 = false →
      (r.1.lnk port).txq = (s.lnk port).txq) ∧
    Outstanding.tag o = r.2 ∧ Outstanding.dst o = dev ∧ Outstanding.since o = s.now ∧ Outstanding.user o = user ∧
    Outstanding.lines o = (pieces w len).length ∧ (Packet.tag p).toNat = r.2 ∧
    (Packet.dst p).toNat = dev % 64 ∧ Packet.payload p = d ∧ Packet.vc p = 1 ∧ Packet.late p = (s.lnkState port == 5)) ∧
  SameRegsBut [] s r.1 ∧ SameMemory s r.1 ∧ r.1.jobs = s.jobs ∧ r.1.threads = s.threads) ∧
  (∀ (s : State) (o : Origin) (n : Fin 8) (v : Word) (d x : Nat),
  let ctl := R.FAB_ATOM_CTL n.val
  let u := s.stored ctl v
  let a := (s.rd (R.FAB_ATOM_ADDR_LO n.val)).toNat + s.f (R.FAB_ATOM_ADDR_HI n.val) 15 0 * 2 ^ 32
  let z := if v.getLsbD 2 then 8 else 4
  let opnd := leBytes 4 (s.rd (R.FAB_ATOM_OPND_LO n.val)).toNat ++ leBytes 4 (s.rd (R.FAB_ATOM_OPND_HI n.val)).toNat
  let cmp := leBytes 4 (s.rd (R.FAB_ATOM_CMP_LO n.val)).toNat ++ leBytes 4 (s.rd (R.FAB_ATOM_CMP_HI n.val)).toNat
  let own := s.machineOrigin o = true ∨ (∃ t : Tid, o = .thread t ∧ t.val = n.val)
  Reaches s o ctl → Takes ctl v → own → fld v 1 0 ≠ 3 →
  (v.getLsbD 3 = false → exec (.fabAtomGo o n v) s = .next (State.accepted u o)) ∧
  (v.getLsbD 3 = true → s.b ctl 4 = true → exec (.fabAtomGo o n v) s = .next (s.accessDone.refused o true 7 ctl)) ∧
  (v.getLsbD 3 = true → s.b ctl 4 = false → u.locate a = .remote d x → a % z = 0 → u.remoteOk d = true →
    exec (.fabAtomGo o n v) s = .next (State.accepted ((u.setB ctl 4 true).atomSend n.val d x (fld v 1 0) (v.getLsbD 2)
      (if fld v 1 0 = 2 then cmp.take z ++ opnd.take z else opnd.take z) (u.machineOrigin o)) o)) ∧
  (v.getLsbD 3 = true → s.b ctl 4 = false → (u.atomGo o n.val v).2 = some 7 →
    exec (.fabAtomGo o n v) s = .next (s.accessDone.refused o true 7 ctl)))

/-! ### The host -/

/-- R323, R330, R331, R334: link training shows its result in HIF_LINK; an access through a disabled aperture, or a write
through a read-only one, is refused and logged in HIF_WINERR; a read answers the target's bytes, a write enters the matrix;
a function reset disables every aperture and MSI-X. R331: HIF_WINERR and HIF_WINADDR keep the first error of the window
until VALID is cleared. -/
def Obligations.HostWindow : Prop :=
  (∀ (s s1 : State) (gen : Fin 4) (pcie : Bool) (off len : Nat) (d b : List Byte),
  (s.running = true → (∃ u : State, exec (.usb4LinkTrain gen pcie) s = .next u ∧
    u.b R.HIF_LINK 0 = (gen.val != 0) ∧ u.f R.HIF_LINK 2 1 = gen.val ∧ u.b R.HIF_LINK 3 = (pcie && gen.val != 0) ∧ SameMemory s u ∧
    u.jobs = s.jobs)) ∧
  (s.hostUp = true → (∃ u : State, exec .flr s = .next u ∧ (∀ a : Fin 16, u.b (R.HIF_AP a.val) 31 = false) ∧ u.host.msixEn = false ∧
    SameMemory s u)) ∧
  (s.hostUp = true → ∀ c, s.barRefuses off false = some c → exec (.bar2Read off len) s =
    .next ((s.winError c (s.barAddr off) false).emit (.readCompletion 1 []))) ∧
  (s.hostUp = true → ∀ c, s.barRefuses off true = some c → exec (.bar2Write off d) s = .next (s.winError c (s.barAddr off) true)) ∧
  (s.hostUp = true → s.barRefuses off false = none → s.hostDrain.hostRemote (s.barAddr off) = none →
    s.hostDrain.readNow hostWho (s.barAddr off) len = (s1, .ok b) →
    exec (.bar2Read off len) s = .next (s1.emit (.readCompletion 0 b))) ∧
  (s.hostUp = true → s.barRefuses off true = none →
    s.outstandingOf 12 + (s.lineWrites hostWho (pieces (s.barAddr off) d.length) d).length ≤ 32 →
    exec (.bar2Write off d) s = .next (s.each (s.lineWrites hostWho (pieces (s.barAddr off) d.length) d) (fun s q => s.enqueue q)))) ∧
  (∀ (s : State) (c a : Nat) (w : Bool), c < 16 → a < 2 ^ 48 →
  let u := s.winError c a w
  (s.b R.HIF_WINERR 31 = true → SameRegsBut [] s u) ∧
  (s.b R.HIF_WINERR 31 = false → u.b R.HIF_WINERR 31 = true ∧ u.f R.HIF_WINERR 3 0 = c ∧ u.b R.HIF_WINERR 4 = w ∧
    (u.rd R.HIF_WINADDR_LO).toNat + (u.rd R.HIF_WINADDR_HI).toNat * 2 ^ 32 = a) ∧
  SameRegsBut [R.HIF_WINERR, R.HIF_WINADDR_LO, R.HIF_WINADDR_HI] s u ∧ SameMemory s u ∧ u.jobs = s.jobs ∧ u.threads = s.threads)

/-- R336, R337: a doorbell rings once the host's older requests have completed, and one with a reserved bit is a bus error with
CAUSE 7; one with a new sequence number puts the mailbox in progress, with MBXn_STATUS 1 and HIF_DBPEND, and clears its error
code; one while the mailbox is in progress is refused with code 2, one that repeats MBXn_SEQ with code 4. A command word is stored
unless the mailbox is in progress, which discards it and sets its flag. Interrupt source 84 + n follows HIF_DBPEND. -/
def Obligations.DoorbellsAndCommandArea : Prop := ∀ (s : State) (n m : Fin 16) (v x : Word), s.hostUp = true →
  (fld v 31 16 = 0 → exec (.doorbell n v) s = .next (s.hostDrain.ring n.val v).accessDone) ∧
  (fld v 31 16 ≠ 0 → exec (.doorbell n v) s = .next (s.hostDrain.busError 12 30 true 7 (csBase + R.MBX_DOORBELL n.val))) ∧
  (fld v 31 16 = 0 → s.outstandingOf 12 = 0 →
  (s.inProgress n.val = false → fld v 15 0 ≠ s.f (R.MBX_SEQ n.val) 15 0 → (∃ u : State, exec (.doorbell n v) s = .next u ∧
    u.inProgress n.val = true ∧ u.rd (R.MBX_STATUS n.val) = 1 ∧ u.rd (R.MBX_DOORBELL n.val) = v ∧ u.b R.HIF_DBPEND n.val = true ∧
    u.f (R.MBX_DBSTAT n.val) 7 0 = 0 ∧
    SameRegsBut [R.MBX_DBSTAT n.val, R.MBX_STATUS n.val, R.MBX_DOORBELL n.val, R.HIF_DBPEND] s u ∧ SameMemory s u)) ∧
  (s.inProgress n.val = true → (∃ u : State, exec (.doorbell n v) s = .next u ∧
    u.f (R.MBX_DBSTAT n.val) 7 0 = 2 ∧ u.inProgress n.val = true ∧ SameRegsBut [R.MBX_DBSTAT n.val] s u ∧ SameMemory s u)) ∧
  (s.inProgress n.val = false → fld v 15 0 = s.f (R.MBX_SEQ n.val) 15 0 → (∃ u : State, exec (.doorbell n v) s = .next u ∧
    u.f (R.MBX_DBSTAT n.val) 7 0 = 4 ∧ u.inProgress n.val = false ∧ SameRegsBut [R.MBX_DBSTAT n.val] s u ∧ SameMemory s u)) ∧
  (s.sourcePending (84 + n.val) = s.b R.HIF_DBPEND n.val) ∧
  (s.inProgress n.val = false → exec (.commandAreaWrite n m x) s = .next (s.soft (R.MBX_CMD n.val m.val) x).accessDone) ∧
  (s.inProgress n.val = true → exec (.commandAreaWrite n m x) s = .next (s.setB (R.MBX_DBSTAT n.val) 8 true).accessDone))

/-- R335, R338: what an answer of firmware leaves: the result words in order, the undefined ones 0, the code with its valid bit,
the sequence number rung, and the mailbox no longer in progress. R338: a publish in a mailbox in progress shows the staged
result words, the sequence number rung and the status code with its valid bit, and ends the command; one in a mailbox that
is not in progress is refused with CAUSE 7. HIF_MSIREQ signals the vectors it names. -/
def Obligations.MailboxPublish : Prop :=
  (∀ (s : State) (n : Fin 16) (code : Nat) (res : List Nat), code < 256 →
  let u := s.reply n.val code res
  (∀ w, w < 30 → u.rd (R.MBX_RES n.val w) = BitVec.ofNat 32 (res.getD w 0)) ∧ u.rd (R.MBX_STATUS n.val) = BitVec.ofNat 32 (code + 2 ^ 31) ∧
  u.rd (R.MBX_SEQ n.val) = s.rd (R.MBX_DOORBELL n.val) ∧ u.inProgress n.val = false ∧
  (∀ r, (∀ w, w < 30 → r ≠ R.MBX_RES n.val w) → r ≠ R.MBX_SEQ n.val → r ≠ R.MBX_STATUS n.val → r ≠ R.MBX_DBSTAT n.val → u.rd r = s.rd r) ∧
  SameMemory s u ∧ u.mem.flash = s.mem.flash ∧ u.jobs = s.jobs ∧ u.threads = s.threads ∧ u.ledger = s.ledger) ∧
  (∀ (s : State) (o : Origin) (n : Fin 16) (v : Word), s.machineOrigin o = true →
  let u := s.publish n.val (fld v 7 0)
  (Reaches s o (R.MBX_PUB n.val) → Takes (R.MBX_PUB n.val) v →
    (s.inProgress n.val = true → exec (.publish o n v) s = .next (State.accepted u o)) ∧
    (s.inProgress n.val = false → exec (.publish o n v) s = .next (s.accessDone.refused o true 7 (R.MBX_PUB n.val)))) ∧
  (∀ w, w < 30 → u.rd (R.MBX_RES n.val w) = s.stagingWord n.val w) ∧ u.rd (R.MBX_SEQ n.val) = s.rd (R.MBX_DOORBELL n.val) ∧
  u.rd (R.MBX_STATUS n.val) = BitVec.ofNat 32 (fld v 7 0 + 2 ^ 31) ∧ u.inProgress n.val = false ∧
  (∀ r, (∀ w, w < 30 → r ≠ R.MBX_RES n.val w) → r ≠ R.MBX_SEQ n.val → r ≠ R.MBX_STATUS n.val → r ≠ R.MBX_DBSTAT n.val → u.rd r = s.rd r) ∧
  SameMemory s u ∧ u.jobs = s.jobs ∧ u.threads = s.threads ∧
  (s.host.msixEn = true → (s.msixWord (4 * n.val + 3)).getLsbD 0 = false → u.out = .msix n.val :: s.out) ∧
  (s.host.msixEn = true → (s.msixWord (4 * n.val + 3)).getLsbD 0 = true → u.host.msixPending.testBit n.val = true ∧ u.out = s.out) ∧
  (s.host.msixEn = false → u.out = s.out ∧ u.host.msixPending = s.host.msixPending) ∧
  (Reaches s o R.HIF_MSIREQ → Takes R.HIF_MSIREQ v → exec (.hifMsireq o v) s = .next (State.accepted (s.msiRequest (fld v 3 0)) o)))

/-- R325, R326, R327: the requests of the USB 2.0 port: a length or an address outside the limits is answered with status 2 and
does nothing else; a mailbox write stores the command and rings; a mailbox read answers the result area; a memory read or
write goes line by line; the report gives what was published since the one before and starts anew. -/
def Obligations.UsbRequests : Prop := ∀ (s : State) (h : UsbHeader) (l : List Word) (d : List Byte), s.running = true → s.host.usb = none →
  let c := s.usbConfigured
  let bad := c.emit (.usb 2 h.tag.toNat [])
  let n := h.len.toNat
  (n ≠ 64 → exec (.mbxWrite h l) s = .next bad) ∧
  (n = 64 → exec (.mbxWrite h l) s = .next (c.usbMailbox h.mbx.val (fld h.word2 15 0) h.tag.toNat l)) ∧
  (n ≠ 128 → exec (.mbxRead h) s = .next bad) ∧
  (n = 128 → exec (.mbxRead h) s = .next (c.emit (.usb 0 h.tag.toNat (c.resultBytes h.mbx.val)))) ∧
  (UsbHeader.memOk h = false → exec (.memWrite h d) s = .next bad ∧ exec (.memRead h) s = .next bad) ∧
  (UsbHeader.memOk h = true → d.length = n → exec (.memWrite h d) s =
    .next (c.hostDrain.usbLines h.tag.toNat true (pieces (UsbHeader.addr h) n) d)) ∧
  (UsbHeader.memOk h = true → exec (.memRead h) s = .next (c.hostDrain.usbLines h.tag.toNat false (pieces (UsbHeader.addr h) n) [])) ∧
  (exec .ep3Report s = .next ((s.emit (.ep3 s.host.ep3)).onHost (fun h => { h with ep3 := 0 })))

/-- R4, R50, R51, R79: a register write that is let through runs its block's rule, which accepts it or names the CAUSE of its bus
error; a read of a described register through the same checks answers its readable bits and clears those that a read clears; an
access waits for the older requests of its master to complete; a register that does not exist is a bus error with CAUSE 0, a size
other than a word CAUSE 2. R5, R329: through BAR0 the host reaches its registers, and a 1 in a reserved bit is a bus error with
CAUSE 7. R4, R6: what a write under the access codes alone leaves: an RW bit takes the value written, a W1C bit clears and a W1S
bit sets where the value is 1, and every other bit keeps its value, as does a bit that an event of the same clk has changed; a WL
field follows only its first write. No other register changes. R79: a bus error counts in MTX_ERRCNT and, when none is held, is
recorded: master, target port, direction, CAUSE and address. A held record stays. -/
def Obligations.RegisterAccess : Prop :=
  (∀ (s s1 : State) (o : Origin) (off size : Nat) (v x : Word) (c : Nat), Reaches s o off →
  ((size = 4 → s.descAsk o off v = none) → s.csWrite o off size v = (s1, none) →
    exec (.registerWrite (.control o) off size v) s = .next (s1.accepted o)) ∧
  ((size = 4 → s.descAsk o off v = none) → s.csWrite o off size v = (s1, some c) →
    exec (.registerWrite (.control o) off size v) s = .next (s1.accessDone.refused o true c off)) ∧
  (s.csRead o off 4 = (s1, .ok x) → o ≠ .debug → exec (.readClear (.control o) off) s = .next (s1.accessDone.emit (.readData x))) ∧
  (s.csRead o off 4 = (s1, .err c) → exec (.readClear (.control o) off) s = .next (s1.accessDone.refused o false c off)) ∧
  (regRow off = none → off % 4 = 0 → s.csWrite o off 4 v = (s, some 0) ∧ s.csRead o off 4 = (s, .err 0)) ∧
  (size ≠ 4 → s.csWrite o off size v = (s, some 2))) ∧
  (∀ (s s0 : State) (o : Origin) (off : Nat) (v : Word), s.reaches o = true → s.dbgDenies o off = false →
  (s.olderDone o = none → exec (.registerWrite (.control o) off 4 v) s = .next s ∧ exec (.readClear (.control o) off) s = .next s) ∧
  (s.olderDone o = some s0 → Reaches s0 o off →
    exec (.registerWrite (.control o) off 4 v) s = exec (.registerWrite (.control o) off 4 v) s0 ∧
    exec (.readClear (.control o) off) s = exec (.readClear (.control o) off) s0)) ∧
  (∀ (s : State) (x : Nat) (v : Word) (r : RegRow), s.hostUp = true → x % 4 = 0 →
  exec (.registerWrite .bar0 x 4 v) s = .next (s.bar0Write x v).accessDone.resumeAll ∧
  exec (.readClear .bar0 x) s = .next ((s.bar0Read x).1.accessDone.emit (.readData (s.bar0Read x).2)) ∧
  (x < 0x1060 → regRow (0x300000 + x) = some r → r.accepts v = false →
    s.bar0Write x v = s.busError 12 30 true 7 (csBase + (0x300000 + x)))) ∧
  (∀ (s : State) (r : RegRow) (off : Nat) (v : Word) (i : Nat), i < 32 →
  r.rw &&& r.w1c = 0 → r.rw &&& r.w1s = 0 → r.w1c &&& r.w1s = 0 → (r.rw ||| r.w1c ||| r.w1s) &&& r.wl = 0 →
  let u := s.plain r off v
  let quiet := (s.before off).getLsbD i = s.b off i ∧ (s.fresh off).getLsbD i = false
  (quiet → r.rw.testBit i = true → u.b off i = v.getLsbD i) ∧
  (quiet → r.w1c.testBit i = true → u.b off i = (s.b off i && !v.getLsbD i)) ∧
  (quiet → r.w1s.testBit i = true → u.b off i = (s.b off i || v.getLsbD i)) ∧
  ((s.before off).getLsbD i ≠ s.b off i → r.wl.testBit i = false → u.b off i = s.b off i) ∧
  ((s.fresh off).getLsbD i = true → r.w1c.testBit i = true → u.b off i = s.b off i) ∧
  (r.wl.testBit i = true → u.b off i = (if s.locked.contains off then s.b off i else v.getLsbD i)) ∧
  ((r.rw ||| r.w1c ||| r.w1s ||| r.wl).testBit i = false → u.b off i = s.b off i) ∧
  SameRegsBut [off] s u ∧ SameMemory s u ∧ u.jobs = s.jobs ∧ u.threads = s.threads) ∧
  (∀ (s : State) (m t : Nat) (w : Bool) (c a : Nat), m < 16 → t < 64 → c < 8 → a < 2 ^ 48 →
  let u := s.busError m t w c a
  (s.b R.MTX_ERR 31 = false → u.b R.MTX_ERR 31 = true ∧ u.f R.MTX_ERR 3 0 = m ∧ u.f R.MTX_ERR 9 4 = t ∧ u.b R.MTX_ERR 10 = w ∧
    u.f R.MTX_ERR 13 11 = c ∧ (u.rd R.MTX_ERRADDR_LO).toNat + (u.rd R.MTX_ERRADDR_HI).toNat * 2 ^ 32 = a) ∧
  (s.b R.MTX_ERR 31 = true → SameRegsBut [R.MTX_ERRCNT] s u) ∧
  (u.rd R.MTX_ERRCNT).toNat = min ((s.rd R.MTX_ERRCNT).toNat + 1) (2 ^ 32 - 1) ∧
  SameRegsBut [R.MTX_ERRCNT, R.MTX_ERR, R.MTX_ERRADDR_LO, R.MTX_ERRADDR_HI] s u ∧ SameMemory s u ∧ u.threads = s.threads ∧ u.jobs = s.jobs)

/-- R342, R343: the order of firmware's checks, shown on IDENTIFY: an unassigned code is BAD_CMD; a command of another row does
nothing here; Fiddlehead refuses what it does not serve, and a mode that is not allowed is WRONG_MODE; a reserved bit of
word 0, or an argument that is not defined and not 0, is BAD_ARG. R347, R348, R351, R353, R356: the commands that report
answer OK with their words; GET_STATUS, PLAN_QUERY and FABRIC_STATUS start the bits or counts they report anew. -/
def Obligations.FirmwareChecksAndReports : Prop :=
  (∀ (s : State) (n : Fin 16),
  let c := fld (s.cmdWord n.val 0) 15 0
  let done := fun (code : Nat) => exec (.identify n) s = .next (s.reply n.val code [])
  (s.toServe n.val = false → exec (.identify n) s = .next s) ∧
  (s.toServe n.val = true → c ∉ assignedCodes → done 3) ∧
  (s.toServe n.val = true → c ∈ assignedCodes → c ≠ 1 → exec (.identify n) s = .next s) ∧
  (s.toServe n.val = true → c = 1 → fld (s.cmdWord n.val 0) 31 16 ≠ 0 → done 4) ∧
  (s.toServe n.val = true → c = 1 → fld (s.cmdWord n.val 0) 31 16 = 0 →
    (∃ i, 1 ≤ i ∧ i ≤ 15 ∧ s.cmdWord n.val i ≠ 0) → done 4) ∧
  (s.toServe n.val = true → c = 0x40 → s.mode ≠ 2 → exec (.tickConfig n) s = .next (s.reply n.val 6 [])) ∧
  (s.toServe n.val = true → s.fw.fiddlehead = true → s.recovering = false → c = 0x11 → exec (.getMode n) s = .next (s.reply n.val 6 []))) ∧
  (∀ (s : State) (n : Fin 16),
  let m := n.val
  let all := [2, 3, 4, 5]
  (Served s m 0x01 all 0 → exec (.identify n) s = .next (s.reply m 0 ([(s.live R.GLB_ID).toNat] ++ words2 Config.otpUid ++
    [if s.fw.fiddlehead then 0 else s.fw.imgVer.toNat, s.f R.UPD_STAT 6 6 + s.f R.UPD_STAT 7 7 * 2 + b2n s.fw.fiddlehead * 4,
      s.fw.setSchema, 0x00010000, s.fw.fwArea] ++ twoWords s.mappedSize))) ∧
  (Served s m 0x02 all 0 → exec (.getStatus n) s = .next ((s.onFw (fun f => { f with guardSince := 0 })).reply m 0
    ([s.mode, s.statusFlags, if s.mode = 5 then s.f R.PWR_MODE 12 9 else 0] ++ words2 s.ledger.frame ++
      [ofSigned 32 s.power.tj, s.power.vin, s.fw.nextEvent - 1, s.fw.guardSince]))) ∧
  (Served s m 0x11 all 0 → exec (.getMode n) s =
    .next (s.reply m 0 ([s.mode, s.f R.PWR_MODE 5 3, s.f R.PWR_MODE 8 6] ++ words2 s.fw.transFrame))) ∧
  (Served s m 0x32 all 0 → exec (.planQuery n) s = .next ((s.onLdg (fun l => { l with skipFrames := 0, lateFrames := 0 })).reply m 0
    ([(s.live R.LDG_PLANSTAT).toNat] ++ words2 s.ledger.lastSwap ++ [s.ledger.skipFrames, s.ledger.lateFrames]))) ∧
  (Served s m 0x60 all 0 → exec (.fabricStatus n) s = .next ((s.onFab (fun f => { f with intSince := 0 })).reply m 0
    ([(s.rd R.FAB_STAT).toNat, (s.rd R.FAB_EPOCH).toNat] ++ words2 s.fabric.bestUid ++
      [(s.rd R.FAB_VOTE).toNat, (List.range 4).foldl (fun a p => a + s.lnkState p * 2 ^ (4 * p)) 0, (s.rd R.FAB_TWIN).toNat,
        (s.rd R.FAB_DFRAME_LO).toNat, (s.rd R.FAB_DFRAME_HI).toNat, s.fabric.intSince]))) ∧
  (Served s m 0x80 all 0 → exec (.bistReport n) s = .next (s.reply m 0 [s.f R.BST_PU 7 0, (s.rd R.BST_PUTIME).toNat,
    (s.rd R.BST_CYCLES).toNat,
    (s.rd R.BST_CORRCNT).toNat, (s.rd R.BST_FATALCNT).toNat, s.f R.BST_LAST 7 0, s.f R.BST_LAST 15 8, s.f R.BST_WARNCNT 7 0])))

/-- R348, R351: SET_MODE of a mode other than 1 to 5 is BAD_ARG, and of a mode it names becomes the request of R437 with its
mailbox waiting, unless one is pending; PLAN_ACTIVATE is DENIED with an empty slot, answers at once in Config and else waits
for the tick; PLAN_LOAD is refused while a swap is pending. R349, R350: a region command whose checks fail publishes their
status with 0 bytes; one that passes them begins; one in Safe is copied by the Stem; one whose bytes are all done publishes
OK, and one past its time limit TIMEOUT. -/
def Obligations.ModePlanAndRegionCommands : Prop :=
  (∀ (s : State) (n : Fin 16) (a : Nat),
  let m := n.val
  let t := s.arg m 1
  let none' := fun (w : MailboxWait) => match w with | .setMode _ => true | _ => false
  (Served s m 0x10 [2, 3, 4, 5] 1 →
    ((t = 0 ∨ 5 < t) → exec (.setMode n) s = .next (s.reply m 4 [])) ∧
    (1 ≤ t → t ≤ 5 → s.b R.PWR_MODEREQ 3 = false → s.power.safePending = none → s.waiting none' = [] → exec (.setMode n) s =
      .next ((s.onHost (fun h => { h with waits := h.waits ++ [(m, .setMode t)] })).requestMode t)) ∧
    (1 ≤ t → t ≤ 5 → s.b R.PWR_MODEREQ 3 = true → exec (.setMode n) s = .next s)) ∧
  (Served s m 0x31 [2, 3, 4] 0 → s.taken m = false →
    (s.slot (1 - s.ledger.actSlot) = [] → exec (.planActivate n) s = .next (s.reply m 5 [])) ∧
    (s.slot (1 - s.ledger.actSlot) ≠ [] → s.mode = 2 → exec (.planActivate n) s =
      .next ((s.onLdg (fun l => { l with swapPending := true })).reply m 0 [0, 0, 1])) ∧
    (s.slot (1 - s.ledger.actSlot) ≠ [] → s.mode ≠ 2 → exec (.planActivate n) s =
      .next ((s.onLdg (fun l => { l with swapPending := true })).onHost (fun h => { h with waits := h.waits ++ [(m, .planActivate)] })))) ∧
  (Served s m 0x30 [2, 3, 4] 4 → s.argAddr m 1 = some a → 1 ≤ s.arg m 3 → s.arg m 3 ≤ 1024 → 2 ≤ s.arg m 4 → s.arg m 4 ≤ 7 →
    s.inDdr a (16 * s.arg m 3) = true → a % 4 = 0 →
    ((s.thr (s.arg m 4)).st = .stopped → exec (.planLoad n) s = .next (s.reply m 4 [])) ∧
    ((s.thr (s.arg m 4)).st = .active → s.ledger.swapPending = true → exec (.planLoad n) s = .next (s.reply m 2 [])) ∧
    ((s.thr (s.arg m 4)).st = .active → s.ledger.swapPending = false → s.taken m = false →
      ∀ s1 s2 tbl l, s.fwTable fwWho m 16 16 (s.arg m 3) a [] = (s1, .ok tbl) → s1.planEntries m (s.arg m 4) tbl 0 [] = (s2, .ok l) →
        (s2.planFails l = none → exec (.planLoad n) s =
          .next ((s2.replacePlan (1 - s.ledger.actSlot) l).reply m 0 [1 - s.ledger.actSlot, s.arg m 3])) ∧
        (∀ r, s2.planFails l = some r → exec (.planLoad n) s =
          .next ((s2.replacePlan (1 - s.ledger.actSlot) []).reply m 7 [0, 0, r, 0]))))) ∧
  (∀ (s : State) (n : Fin 16) (a b : Nat) (w : RegionWork),
  let m := n.val
  let row := fun (k : Nat) => match k with | 0 => Instr.regionWrite n | 1 => .regionRead n | _ => .regionFill n
  let asks := fun (k : Nat) => s.host.waits.find? (fun e => e.1 == m) = none ∧ Served s m (0x20 + k) [2, 3, 4, 5] 6 ∧
    s.argAddr m 1 = some a ∧ fld (s.cmdWord m 6) 15 4 = 0
  let w0 := fun (k : Nat) => s.regionOf m k a b
  let fill := s.arg m 3 + s.arg m 4 * 2 ^ 32
  (asks 0 → s.argAddr m 3 = some b → s.regionCheck (w0 0) = 0 → exec (.regionWrite n) s = .next (s.regionNext m (w0 0))) ∧
  (asks 1 → s.argAddr m 3 = some b → s.regionCheck (w0 1) = 0 → exec (.regionRead n) s = .next (s.regionNext m (w0 1))) ∧
  (asks 2 → b = fill → s.regionCheck (w0 2) = 0 → exec (.regionFill n) s = .next (s.regionNext m (w0 2))) ∧
  (asks 0 → s.argAddr m 3 = some b → s.regionCheck (w0 0) ≠ 0 → exec (.regionWrite n) s = .next (s.reply m (s.regionCheck (w0 0)) [0])) ∧
  (asks 1 → s.argAddr m 3 = some b → s.regionCheck (w0 1) ≠ 0 → exec (.regionRead n) s = .next (s.reply m (s.regionCheck (w0 1)) [0])) ∧
  (asks 2 → b = fill → s.regionCheck (w0 2) ≠ 0 → exec (.regionFill n) s = .next (s.reply m (s.regionCheck (w0 2)) [0])) ∧
  (w.len ≤ w.done → s.regionNext m w = s.regionEnd m 0 w 0 0) ∧
  (w.done < w.len → s.regionLate w = true → s.regionNext m w = s.regionEnd m 0x0B w 0 0) ∧
  (w.done < w.len → s.regionLate w = false → s.mode = 5 → s.regionNext m w = s.regionCopy m (w.len / 8) w) ∧
  (w.done < w.len → s.regionLate w = false → s.mode = 2 → s.regionNext m w = s.regionIssue m w) ∧
  (∀ k, k < 3 → s.host.waits.find? (fun e => e.1 == m) = some (m, .region w) → w.kind = k → s.running = true →
    s.host.asked.contains m = false → exec (row k) s = .next (s.regionOn m w)))

/-- R352, R353: a load writes all of its targets or none: one whose table has a refused entry publishes BAD_ARG and names the
entry with nothing else changed; one that passes its checks puts the tables in force. R353, R354: the subcommands of
FABRIC_CONFIG store what they name once every word of it is accepted, and those of HOST_CHANNEL act on a channel that the
host owns, or read any. -/
def Obligations.LoadsAndSubcommands : Prop :=
  (∀ (s s1 s2 : State) (n : Fin 16) (a b : Nat) (st ft : List (List Byte)),
  let m := n.val
  (Served s m 0x40 [2] 15 → ∀ i, s.tickArgs m = some i → exec (.tickConfig n) s = .next (s.reply m 4 [0, 0, i])) ∧
  (Served s m 0x40 [2] 15 → s.extraArg m 10 = none → s.tickArgs m = none → (∃ u : State, exec (.tickConfig n) s = .next u ∧
    u.rd R.LDG_PERIOD = s.cmdWord m 2 ∧ u.rd R.LDG_TCUT = s.cmdWord m 3 ∧ u.rd R.LDG_TDL = s.cmdWord m 4 ∧ u.rd R.LDG_TOUT = s.cmdWord m 5 ∧
    u.rd R.LDG_TICKWIN = s.cmdWord m 6 ∧ u.rd R.LDG_VCSHARE = s.cmdWord m 10 ∧ u.f R.LDG_CTL 3 0 = fld (s.cmdWord m 1) 3 0 ∧
    u.phasesOk = true ∧ SameMemory s u ∧ u.jobs = s.jobs)) ∧
  (Served s m 0x50 [2] 5 → s.argAddr m 1 = some a → s.argAddr m 3 = some b → s.inDdr a 16384 = true → s.inDdr b 2097152 = true →
    s.arg m 5 < 65536 → s.fwTable sorterWho m 32 32 512 a [] = (s1, .ok st) → s1.fwTable sorterWho m 32 32 65536 b [] = (s2, .ok ft) →
    exec (.ioMapLoad n) s = .next (s2.ioMap m st ft)) ∧
  (Served s m 0x51 [2] 3 → s.argAddr m 1 = some a → s.arg m 3 ≤ 16384 → s.inDdr a (32 * s.arg m 3) = true →
    s.fwTable sorterWho m 32 32 (s.arg m 3) a [] = (s1, .ok st) →
    (∀ i r, s1.rulesBad st 0 [] = some (i, r) → exec (.fiuRulesLoad n) s = .next (s1.reply m 4 [0, 0, i, 0, r])) ∧
    (s1.rulesBad st 0 [] = none → exec (.fiuRulesLoad n) s = .next ((s1.onIo (fun i =>
      { i with rules := (List.range (st.filterMap parseRule).length).zip (st.filterMap parseRule) })).reply m 0 [s.arg m 3]))) ∧
  (Served s m 0x52 [2] 5 → s.argAddr m 1 = some a → s.argAddr m 3 = some b → s.inDdr a 1048576 = true → s.arg m 5 ≤ 6144 →
    s.inDdr b (32 * s.arg m 5) = true → s.fwTable composerWho m 2048 2048 512 a [] = (s1, .ok st) →
    s1.fwTable composerWho m 32 32 (s.arg m 5) b [] = (s2, .ok ft) → exec (.egressTemplateLoad n) s = .next (s2.egressLoad m st ft))) ∧
  (∀ (s s1 : State) (n : Fin 16) (a : Nat) (l : List (List Byte)),
  let m := n.val
  let k := fld (s.cmdWord m 1) 7 0
  let chan := fun (sub used : Nat) => Served s m 0xD0 [2, 3, 4] used ∧ fld (s.cmdWord m 1) 15 8 = sub ∧ fld (s.cmdWord m 1) 31 16 = 0
  let fab := fun (sub used : Nat) (modes : List Nat) => Served s m 0x61 modes used ∧ s.arg m 1 = sub
  (chan 0 1 → exec (.hostChannelRead n) s = .next (s.reply m 0 ([(s.rd (R.CH_CFG k)).toNat] ++
    (List.range 4).map (fun i => (s.rd (R.CH_PROD k i)).toNat) ++ [(s.rd (R.CH_CNT k)).toNat,
      b2n (s.b (R.SPC_FLAG (k / 32)) (k % 32)) + 2 * b2n (s.b (R.SPC_LOOP (k / 32)) (k % 32))]))) ∧
  (chan 1 3 → s.arg m 2 ≤ 3 → spcKinds.contains (fld (s.cmdWord m 3) 7 0) = true → s.f (R.CH_CFG k) 1 0 = 1 →
    s.fwRegOk (R.CH_PROD k (s.arg m 2)) (s.cmdWord m 3) = true →
    exec (.hostChannelProducer n) s = .next ((s.fwReg (R.CH_PROD k (s.arg m 2)) (s.cmdWord m 3)).reply m 0 [])) ∧
  (chan 2 1 → s.f (R.CH_CFG k) 1 0 = 1 → exec (.hostChannelTrigger n) s =
    .next ((s.fwReg R.SPC_TRIG (word k)).reply m 0 [b2n ((s.fwReg R.SPC_TRIG (word k)).b R.SPC_STAT 0)])) ∧
  (chan 3 1 → s.f (R.CH_CFG k) 1 0 = 1 → exec (.hostChannelClear n) s = .next (((s.fwReg (R.SPC_FLAG (k / 32)) (word (2 ^ (k % 32)))).fwReg
    (R.SPC_LOOP (k / 32)) (word (2 ^ (k % 32)))).reply m 0 [])) ∧
  (chan 2 1 → s.f (R.CH_CFG k) 1 0 ≠ 1 → exec (.hostChannelTrigger n) s = .next (s.reply m 5 [])) ∧
  (fab 0 5 [2] → s.fwRegOk R.FAB_CTL (s.cmdWord m 2) = false → exec (.fabricConfigDomain n) s = .next (s.fabRefuse m 4 2)) ∧
  (fab 0 5 [2] → s.fwRegOk R.FAB_CTL (s.cmdWord m 2) = true → s.fwRegOk R.FAB_PRIO (s.cmdWord m 3) = true → s.arg m 4 < 65536 →
    s.fwRegOk R.FAB_VOTE (s.cmdWord m 4) = true → s.arg m 5 < 256 →
    let w : Word := setFld (s.cmdWord m 5) 8 8 (s.f R.FAB_WITNESS 8 8)
    s.fwRegOk R.FAB_WITNESS w = true → exec (.fabricConfigDomain n) s = .next (((((s.fwReg R.FAB_PRIO (s.cmdWord m 3)).fwReg R.FAB_VOTE
      (s.cmdWord m 4)).fwReg R.FAB_WITNESS w).fwReg R.FAB_CTL (s.cmdWord m 2)).fabReply m)) ∧
  (fab 1 2 [2, 3, 4, 5] → s.arg m 2 < 2 → exec (.fabricConfigToken n) s = .next ((s.setB R.FAB_WITNESS 8 (s.arg m 2 == 1)).fabReply m)) ∧
  (fab 2 2 [2] → s.arg m 2 < 1024 → s.fwRegOk R.FAB_TWIN (s.cmdWord m 2) = true →
    exec (.fabricConfigTwin n) s = .next ((s.fwReg R.FAB_TWIN (s.cmdWord m 2)).fabReply m)) ∧
  (fab 3 4 [2] → s.argAddr m 2 = some a → s.arg m 4 ≤ 16 → s.inDdr a (32 * s.arg m 4) = true →
    s.fwTable fwWho m 32 32 (s.arg m 4) a [] = (s1, .ok l) →
    firstBad (fun b => (s1.parseRegion b).isSome) l 0 = none → exec (.fabricConfigRejoinRegions n) s =
      .next ((s1.onFab (fun f => { f with regions := l.filterMap s1.parseRegion })).fabReply m)) ∧
  (fab 4 4 [2] → s.argAddr m 2 = some a → s.arg m 4 ≤ 16 → s.inDdr a (16 * s.arg m 4) = true →
    s.fwTable fwWho m 16 16 (s.arg m 4) a [] = (s1, .ok l) →
    firstBad (fun b => (s1.parseTwin b).isSome) l 0 = none → overTotal (l.filterMap s1.parseTwin) 0 0 = none →
    exec (.fabricConfigTwinRegions n) s = .next ((s1.onFab (fun f => { f with twinRegions := l.filterMap s1.parseTwin })).fabReply m)))

/-- R356, R357, R359: BIST_CONFIG sets what is tested; COUNTERS_READ and EVENT_LOG_READ answer a range of counters and of
entries; TASK_START and TASK_STOP act on threads T2 to T7 alone, the stop answering once the thread has stopped; TASK_LOAD
takes a stopped one of these. -/
def Obligations.TasksAndCounters : Prop := ∀ (s s1 s2 : State) (n : Fin 16) (a b : Nat) (img : List Byte) (l : List (List Byte)),
  let m := n.val
  let t := s.arg m 1
  let c := s.cmdWord m 1
  let start := setFld 1 5 4 (s.f (R.STM_CTL t) 5 4)
  let s3 := s.writeStmCtl s.ctlAns t start
  (Served s m 0x81 [2] 2 → s.arg m 1 < 8 → s.arg m 2 < 256 →
    exec (.bistConfig n) s = .next (((s.putF R.BST_CTL 2 0 (s.arg m 1)).wr R.LDG_TESTRES (s.cmdWord m 2)).reply m 0 [])) ∧
  (Served s m 0x90 [2, 3, 4, 5] 1 → fld c 7 6 = 0 → fld c 15 12 = 0 → fld c 31 17 = 0 → fld c 11 8 ≠ 0 → fld c 5 0 + fld c 11 8 ≤ 64 →
    exec (.countersRead n) s =
      .next (s.reply m 0 ((List.range (fld c 11 8)).flatMap (fun i => s.counterWords (c.getLsbD 16) (fld c 5 0 + i))))) ∧
  (Served s m 0xC0 [2, 3, 4, 5] 2 → 1 ≤ s.arg m 2 → s.arg m 2 ≤ 7 → (∃ u : State, exec (.eventLogRead n) s = .next u ∧
    u.rd (R.MBX_STATUS m) = BitVec.ofNat 32 (2 ^ 31) ∧ u.fw.events = s.fw.events ∧ SameMemory s u)) ∧
  (Served s m 0xC0 [2, 3, 4, 5] 2 → (s.arg m 2 = 0 ∨ 7 < s.arg m 2) → exec (.eventLogRead n) s = .next (s.reply m 4 [])) ∧
  (Served s m 0xA1 [2, 3, 4] 1 → s.taken m = false → t < 2 → exec (.taskStart n) s = .next (s.reply m 5 [])) ∧
  (Served s m 0xA1 [2, 3, 4] 1 → s.taken m = false → 2 ≤ t → t ≤ 7 →
    s.descAsk (.lichen true) (R.STM_CTL t) start = none → exec (.taskStart n) s =
    .next (s3.reply m (if (s3.thr t).st = .stopped then 4 else 0) [(s3.stmStat t).toNat])) ∧
  (Served s m 0xA2 [2, 3, 4] 1 → s.taken m = false → 2 ≤ t → t ≤ 7 → (s.thr t).st = .stopped →
    exec (.taskStop n) s = .next (s.reply m 0 [(s.thr t).pc.toNat, (s.stmStat t).toNat])) ∧
  (Served s m 0xA2 [2, 3, 4] 1 → s.taken m = false → 2 ≤ t → t ≤ 7 → (s.thr t).st ≠ .stopped → exec (.taskStop n) s =
    .next ((s.onHost (fun h => { h with waits := h.waits ++ [(m,
      .taskStop t)] })).writeStmCtl [] t (setFld 2 5 4 (s.f (R.STM_CTL t) 5 4)))) ∧
  (Served s m 0xA0 [2, 3, 4] 10 → s.taken m = false → s.argAddr m 2 = some a → s.argAddr m 8 = some b → 2 ≤ t → t ≤ 7 →
    (s.thr t).st = .stopped →
    0 < s.arg m 4 → s.arg m 4 % 4 = 0 → s.arg m 4 ≤ bankSize 16 → s.arg m 5 % 64 = 0 → s.fw.fwArea ≤ s.arg m 5 → s.arg m 6 % 4 = 0 →
    s.arg m 6 < s.arg m 4 → s.arg m 7 ≤ 1 → s.arg m 10 ≤ 7 → (s.arg m 10 ≠ 0 → s.inDdr b (16 * s.arg m 10) = true) →
      s.fabricAway a = false →
    s.fwRead m a (s.arg m 4) = (s1, .ok img) → s1.fwTable fwWho m 16 16 (s.arg m 10) b [] = (s2, .ok l) →
    exec (.taskLoad n) s = .next (s2.taskFit m t img l))

/-- R355, R369, R371, R372, R373, R382: the update commands of the host: BEGIN takes a header through the steps of R369; BLOCK
stages bytes for the holder; COMMIT needs every byte; ABORT ends the host's attachment; CONFIRM makes the slot on trial
good; each is DENIED where its source is not attached or no slot is on trial, and BUSY while another mailbox's command holds
the staging. R358, R381: SETTINGS_READ answers a record's length and schema after copying its bytes, or BAD_ARG for a key
that has none; SETTINGS_WRITE is DENIED while a slot is on trial, INCOMPATIBLE outside the schemas of the image, and else
writes a complete store into the copy not in use. -/
def Obligations.UpdateAndSettings : Prop :=
  (∀ (s s1 : State) (n : Fin 16) (a x : Nat) (h d : List Byte),
  let m := n.val
  let all := [2, 3, 4, 5]
  (Served s m 0x70 all 2 → s.argAddr m 1 = some a → s.taken m = true → exec (.updateBegin n) s = .next (s.reply m 2 [])) ∧
  (Served s m 0x70 all 2 → s.argAddr m 1 = some a → s.taken m = false → s.fabricAway a = false → s.fwRead m a 512 = (s1, .ok h) →
    exec (.updateBegin n) s = .next (s1.updateBegin m h)) ∧
  (s.updateBegin m h = if imgWellFormed h = false then s.reply m 4 [] else if imgAuthentic h = false then s.reply m 8 []
    else if imgArb h < s.arbCount ∨ s.trialSlot.isSome = true then s.reply m 5 [] else if maxPayload < imgPlen h then s.reply m 0x0A []
    else ((s.lockFor .host h).map (fun u => u.reply m 0 [imgPlen h, leField h 8 4])).getD (s.reply m 2 [])) ∧
  (Served s m 0x71 all 4 → s.argAddr m 1 = some a → 1 ≤ s.arg m 4 → s.arg m 4 ≤ 65536 → s.taken m = false → s.attached .host = false →
    exec (.updateBlock n) s = .next (s.reply m 5 [])) ∧
  (Served s m 0x71 all 4 → s.argAddr m 1 = some a → 1 ≤ s.arg m 4 → s.arg m 4 ≤ 65536 → s.taken m = false → s.attached .host = true →
    s.upd.failedHost = false → s.fabricAway a = false → s.fwRead m a (s.arg m 4) = (s1, .ok d) →
    exec (.updateBlock n) s = .next (s1.updateBlock m d)) ∧
  (Served s m 0x72 all 0 → s.taken m = false → s.attached .host = false → exec (.updateCommit n) s = .next (s.reply m 5 [])) ∧
  (Served s m 0x72 all 0 → s.taken m = false → s.attached .host = true → ∀ o, s.commitStaging = (s1, some o) →
    exec (.updateCommit n) s = .next (s1.reply m 9 [0, o])) ∧
  (Served s m 0x72 all 0 → s.taken m = false → s.attached .host = true → s.commitStaging = (s1, none) →
    exec (.updateCommit n) s = .next (s1.reply m 0 [1 - s1.boot.active]).recovered) ∧
  (Served s m 0x73 all 0 → s.taken m = false → s.upd.holder = some .host →
    exec (.updateAbort n) s = .next ((s.detach .host none).reply m 0 [])) ∧
  (Served s m 0x73 all 0 → s.taken m = false → s.upd.holder ≠ some .host → exec (.updateAbort n) s = .next (s.reply m 5 [])) ∧
  (Served s m 0x74 all 0 → (∃ u : State, exec (.updateStatus n) s = .next u ∧ u.rd (R.MBX_RES m 0) = BitVec.ofNat 32 s.updState ∧
    u.rd (R.MBX_RES m 1) = s.rd R.UPD_RECV ∧ u.rd (R.MBX_STATUS m) = BitVec.ofNat 32 (2 ^ 31) ∧ u.upd = s.upd)) ∧
  (Served s m 0x75 all 0 → s.taken m = false → s.trialSlot = none → exec (.updateConfirm n) s = .next (s.reply m 5 [])) ∧
  (Served s m 0x75 all 0 → s.taken m = false → s.trialSlot = some x → exec (.updateConfirm n) s = .next ((s.confirm x).reply m 0 [x]))) ∧
  (∀ (s s1 : State) (n : Fin 16) (a : Nat) (r : SettingsRec) (d : List Byte) (e : List Byte),
  let m := n.val
  (Served s m 0xB0 [2, 3, 4, 5] 4 → s.argAddr m 2 = some a → s.arg m 1 < 65536 → s.taken m = false →
    (s.fw.settings.find? (fun r => r.key == s.arg m 1) = none → exec (.settingsRead n) s = .next (s.reply m 4 [0, 0, 1])) ∧
    (s.fw.settings.find? (fun r => r.key == s.arg m 1) = some r → s.fabricAway a = false →
      s.fwWrite m a (r.data.take (s.arg m 4)) = (s1, .ok e) → exec (.settingsRead n) s = .next (s1.reply m 0 [r.data.length, r.schema]))) ∧
  (Served s m 0xB1 [2] 5 → s.argAddr m 2 = some a → s.arg m 1 < 65535 → s.arg m 4 ≤ 4096 → s.arg m 5 < 65536 → s.taken m = false →
    (s.trialSlot.isSome = true → exec (.settingsWrite n) s = .next (s.reply m 5 [])) ∧
    (s.trialSlot = none → (s.arg m 5 < s.fw.schMin ∨ s.fw.schMax < s.arg m 5) → exec (.settingsWrite n) s = .next (s.reply m 0x0D [])) ∧
    (s.trialSlot = none → s.fw.schMin ≤ s.arg m 5 → s.arg m 5 ≤ s.fw.schMax → s.arg m 4 = 0 →
      exec (.settingsWrite n) s = .next (s.settingsWrite m [])) ∧
    (s.trialSlot = none → s.fw.schMin ≤ s.arg m 5 → s.arg m 5 ≤ s.fw.schMax → s.arg m 4 ≠ 0 → s.fabricAway a = false →
      s.fwRead m a (s.arg m 4) = (s1, .ok d) → exec (.settingsWrite n) s = .next (s1.settingsWrite m d))))

/-! ### Updates, self-test and debug -/

/-- R368, R373, R374, R375, R380: ten seconds without a block release the lock; the thirtieth minute of a trial in Run falls back
and resets, an earlier one only counts; relayed packets are taken by a member with RELAYIN, answered and passed on; UPD_FUSE
begins and FUSE_DONE ends the blowing of fuses up to its COUNT, and a COUNT already reached blows none; UPD_KEYLOCK.LOCK is
write-once. -/
def Obligations.UpdateEvents : Prop := ∀ (s s1 : State) (p : Fin 4) (k : Packet) (o : Origin) (v : Word) (x : Nat) (r : BlockRes),
  let s0 := s.takeRx p.val k
  (s.running = true → s.upd.holder.isSome = true → exec .updateLockTimeout s =
    .next ((s.untilTime (s.upd.lastBlock + usTime 10000000)).dropStaging (some 0))) ∧
  (s.trialSlot = some x → s.mode = 3 → s.b R.UPD_STAT 7 = true →
    let m := s.untilTime (s.upd.minuteAt + usTime 60000000)
    let w := (m.onUpd (fun u => { u with minuteAt := m.now })).setBoot (fun b => { b with runmin := b.runmin + 1 })
    (30 ≤ w.boot.runmin → exec .trialMinute s = .next (w.fallBack x 2).fwReset) ∧
    (w.boot.runmin < 30 → exec .trialMinute s = .next w.showUpd)) ∧
  (s.running = true → s.fabEn = true → relaySub k = 1 → k.addr.toNat / 16 % 16 = 0 →
    (s.b R.UPD_CTL 1 = false → exec (.relayBegin p k) s = .next ((s0.relayForward k).relayAnswer p.val k.tag.toNat 4)) ∧
    (s.b R.UPD_CTL 1 = true → (s0.setB R.UPD_INT 1 true).lockFor .fabric (k.payload.take 512) = some s1 →
      exec (.relayBegin p k) s = .next ((s1.relayForward k).relayAnswer p.val k.tag.toNat 0)) ∧
    (s.b R.UPD_CTL 1 = true → (s0.setB R.UPD_INT 1 true).lockFor .fabric (k.payload.take 512) = none →
      exec (.relayBegin p k) s = .next (((s0.setB R.UPD_INT 1 true).relayForward k).relayAnswer p.val k.tag.toNat 2))) ∧
  (s.running = true → s.fabEn = true → relaySub k = 2 → k.addr.toNat / 16 % 16 = 0 → s.b R.UPD_CTL 1 = true →
    s.stageBlock .fabric (k.addr.toNat / 256 % 2 ^ 24) k.payload = (s1, r) →
    (r ≠ .failed → exec (.relayBlock p k) s = .next ((s1.takeRx p.val k).relayForward k)) ∧
    (r = .failed → exec (.relayBlock p k) s = .next (((s1.takeRx p.val k).relayForward k).relayAnswer p.val k.tag.toNat 5))) ∧
  (s.running = true → s.fabEn = true → relaySub k = 3 → k.addr.toNat / 16 % 16 = 0 → s.b R.UPD_CTL 1 = true → s.upd.failedFab = false →
    s.attached .fabric = true →
    (s0.commitStaging = (s1, none) → exec (.relayCommit p k) s = .next ((s1.relayForward k).relayAnswer p.val k.tag.toNat 1).recovered) ∧
    (s0.commitStaging = (s1, some x) → exec (.relayCommit p k) s = .next ((s1.relayForward k).relayAnswer p.val k.tag.toNat 3))) ∧
  (s.running = true → s.fabEn = true → s.isMine k = true → exec (.relayResult p k) s =
    .next (s0.onUpd (fun u => { u with results := u.results ++ [(k.src.toNat, k.addr.toNat / 256 % 256)] }))) ∧
  (Reaches s o R.UPD_FUSE → Takes R.UPD_FUSE v → s.machineOrigin o = true → fld v 6 0 ≤ 64 → s.b R.UPD_FUSE 7 = false →
    (fld v 6 0 ≤ s.arbCount → exec (.fuseProgram o v) s = .next (State.accepted s o)) ∧
    (s.arbCount < fld v 6 0 → exec (.fuseProgram o v) s =
      .next (State.accepted ((s.setB R.UPD_FUSE 7 true).onUpd (fun u => { u with fuseTarget := fld v 6 0 })) o))) ∧
  (s.running = true → s.b R.UPD_FUSE 7 = true → s.upd.fuseTarget ≤ 64 → (∃ u : State, exec .fuseDone s = .next u ∧
    u.b R.UPD_FUSE 7 = false ∧
    u.arbCount = max s.arbCount s.upd.fuseTarget ∧ (s.arbCount < s.upd.fuseTarget → u.b R.UPD_INT 3 = true) ∧ SameMemory s u)) ∧
  (Reaches s o R.UPD_KEYLOCK → Takes R.UPD_KEYLOCK v → s.machineOrigin o = true → ∃ u : State, exec (.keylock o v) s =
    .next (State.accepted u o) ∧
    u.b R.UPD_KEYLOCK 0 = (if s.locked.contains R.UPD_KEYLOCK then s.b R.UPD_KEYLOCK 0 else v.getLsbD 0) ∧
    SameRegsBut [R.UPD_KEYLOCK] s u ∧ SameMemory s u)

/-- R388 to R396: a slice of an enabled kind that fits the idle window runs once in it, keeps every byte of memory, and ends with
its event; its item passes, or fails and is retried, and the retry decides; an access to the borrowed region ends the slice after
its first step (the model's choice, log 53) and counts; one that does not fit changes nothing. -/
def Obligations.SelfTest : Prop := ∀ (s : State) (r : SliceResult) (k : Fin 8) (i a n : Nat) (unit : BitVec 8),
  let go := !s.bist.doneAna && !s.bist.fatal
  (s.bankSliceFits = true → s.nextRegion = some i → exec (.bankSlice r) s = .next
    ((((s.saveRegion i).onBist (fun b => { b with
      doneBank := true, nextRegion := (i + 1) % regionCount
      aborts := b.aborts.filter (fun e => e.1 != i) })).bistResult 1 (regionUnit i) i r).sliceEnd)) ∧
  (SameMemory s (s.saveRegion i)) ∧
  (s.bankSliceFits = false → exec (.bankSlice r) s = .next s ∧ exec (.sliceAbort a) s = .next s) ∧
  (s.bankSliceFits = true → s.nextRegion = some i → s.storageOf a = some n → n / 0x10000 = regionHome i / 0x10000 →
    let c := sget (fun _ => 0) s.bist.aborts i + 1
    c < 8 → exec (.sliceAbort a) s = .next ((((s.saveRegion i).count R.BST_ABORTCNT 32 1).onBist (fun b => { b with
      doneBank := true, nextRegion := i, aborts := sput (fun _ => 0) b.aborts i c })).sliceEnd)) ∧
  (s.sliceFits 19200 = true → s.b R.BST_CTL 1 = true → s.testFrond k.val = true → s.depth k.val = 0 → s.retryOf 2 = none →
    s.bist.doneFrond = false → go = true →
    let g := sget (fun _ => 0) s.bist.nextSegment k.val
    exec (.frondSlice k r) s = .next ((((s.onFrd k.val (fun f => { f with lastW := none, lastVals := [] })).onBist (fun b => { b with
      doneFrond := true, nextSegment := sput (fun _ => 0) b.nextSegment k.val ((g + 1) % 32) })).bistResult 2 (0x20 + k.val) g r).sliceEnd)) ∧
  (s.sliceFits 32000 = true → s.b R.BST_CTL 2 = true → anaItems.contains (unit.toNat, i) = true → s.retryOf 3 = none → go = true →
    exec (.analogueSlice unit i r) s = .next (((s.onBist (fun b => { b with doneAna := true })).bistResult 3 unit.toNat i r).sliceEnd)) ∧
  (s.bistResult 1 a n .pass = s.bistPass 1 a n ∨ s.bist.retry ≠ [])

/-- R399, R400, R401, R402: an update while an access is in progress is a collision; one that the level does not allow is denied;
a read or a write is performed; capture shows its status and data. NEW draws a nonce unless a delay runs, SUBMIT grants the level
of a right response and counts any other, REVOKE and TRST_N end the authorisation, the delay ends with WAIT cleared. R403, R404,
R406, R407, R414, R415: DBG_HALT asks the units it names to halt and DBG_RESUME releases them, but those that an event of the same
clk halted; DBG_STEP releases one HALTED thread until its step is done, and is refused with CAUSE 7 for another; DBG_TREG reads
and writes the registers of a HALTED thread; a write of a stimulus register sends its packet; the trace buffer drains to the
balls. -/
def Obligations.DebugAccess : Prop :=
  (∀ (s : State) (a : BitVec 48) (v : Word) (lvl : BitVec 2),
  s.portAlive = true →
  (s.dbg.status = 3 → exec (.dbgaccUpdate 1 a v) s = .next (s.setB R.DBG_STAT 8 true)) ∧
  (s.dbg.status ≠ 3 → s.debugAllows a.toNat = false → exec (.dbgaccUpdate 1 a v) s = .next (s.dbgDone 2 0) ∧
    exec (.dbgaccUpdate 2 a v) s = .next (s.dbgDone 2 0)) ∧
  (s.dbg.status ≠ 3 → s.debugAllows a.toNat = true → exec (.dbgaccUpdate 1 a v) s = .next (s.debugRead a.toNat) ∧
    exec (.dbgaccUpdate 2 a v) s = .next (s.debugWrite a.toNat v)) ∧
  (exec .dbgaccCapture s = .next (s.emit (.jtag s.dbg.status s.dbg.data))) ∧
  (s.dbg.status ≠ 3 → s.olderDone .debug = some s →
    exec (.dbgAuthNew .debug) s = .next (State.accepted s.authNew .debug) ∧
    exec (.dbgAuthSubmit .debug lvl) s = .next (State.accepted (s.authSubmit lvl.toNat) .debug) ∧
    exec (.dbgAuthRevoke .debug) s = .next (State.accepted s.authEnd .debug)) ∧
  (s.b R.DBG_STAT 4 = true → s.authNew = s ∧ (∃ u : State, exec .authDelayExpire s = .next u ∧ u.b R.DBG_STAT 4 = false ∧ SameMemory s u)) ∧
  (s.b R.DBG_STAT 4 = false → s.authNew.dbg.fresh = true) ∧
  ((∃ u : State, exec .trstN s = .next u ∧ u.dbgLevel = 0 ∧ u.dbg.status = 0 ∧ u.power.fails = s.power.fails ∧
    u.power.lockout = s.power.lockout ∧
    SameRegsBut [R.DBG_STAT] s u ∧ SameMemory s u)) ∧
  (s.dbg.fresh = true → s.power.lockout = false → 1 ≤ lvl.toNat → lvl.toNat ≤ 2 → s.authGiven = s.authWants lvl.toNat →
    (s.authSubmit lvl.toNat).dbgLevel = lvl.toNat ∧ (s.authSubmit lvl.toNat).power = s.power) ∧
  (s.dbg.fresh = false ∨ lvl.toNat = 0 ∨ lvl.toNat = 3 ∨ s.authGiven ≠ s.authWants lvl.toNat →
    (s.authSubmit lvl.toNat).dbgLevel = s.dbgLevel ∧ (s.authSubmit lvl.toNat).power.fails = min 3 (s.power.fails + 1) ∧
    (s.authSubmit lvl.toNat).power.lockout = (s.power.lockout || decide (2 ≤ s.power.fails)))) ∧
  (∀ (s : State) (o : Origin) (t : Tid) (v x : Word) (n : Fin 32),
  let off := R.DBG_SP n.val
  let ts := (List.range 8).filter (fun k => (s.thr k).haltReq)
  let fs := (List.range 8).filter (fun k => (s.fronds.get k).haltReq)
  let sel := s.f R.DBG_TSEL 2 0
  let h := s.thr sel
  (Reaches s o R.DBG_HALT → Takes R.DBG_HALT v → s.machineOrigin o = true →
    exec (.debugHalt o v) s = .next (State.accepted (s.requestHalt ((List.range 8).filter (fun k => v.getLsbD k))
      ((List.range 8).filter (fun k => v.getLsbD (8 + k)))) o)) ∧
  (s.running = true → s.dbg.halting = true → (∀ k ∈ ts, (s.thr k).remote = none) → (∃ u : State, exec .haltComplete s = .next u ∧
    (∀ k ∈ ts, (u.thr k).st = .halted ∧ (u.thr k).haltReq = false ∧ (u.thr k).resv = none) ∧
    (∀ k, k < 8 → k ∉ ts → u.thr k = s.thr k) ∧ (∀ k ∈ fs, (u.fronds.get k).halted = true) ∧ u.dbg.halting = false ∧
    u.b R.DBG_STAT 6 = true ∧ u.b R.DBG_INT 1 = true ∧ SameMemory s u ∧ u.jobs = s.jobs)) ∧
  (Reaches s o R.DBG_RESUME → Takes R.DBG_RESUME v → s.debugRights o = true →
    ∃ u : State, exec (.debugResume o v) s = .next (State.accepted u o) ∧ SameMemory s u ∧ u.jobs = s.jobs ∧
      (∀ k : Fin 8, v.getLsbD k.val = true → (s.fresh R.DBG_RESUME).getLsbD k.val = false → s.mayName o k.val = true → 
        (s.thr k.val).st = .halted → (s.thr k.val).waitFor = .nothing →
          u.thr k.val = { s.thr k.val with st := (s.thr k.val).haltFrom, step := none }) ∧
      (∀ k : Fin 8, (v.getLsbD k.val = false ∨ (s.fresh R.DBG_RESUME).getLsbD k.val = true) → u.thr k.val = s.thr k.val)) ∧
  (Reaches s o R.DBG_STEP → Takes R.DBG_STEP v → s.debugRights o = true → s.mayName o (fld v 2 0) = true →
    ((s.thr (fld v 2 0)).st = .halted →
      exec (.debugStep o v) s = .next (State.accepted ((s.release (fld v 2 0) (some (v.getLsbD 3))).showHalted) o)) ∧
    ((s.thr (fld v 2 0)).st ≠ .halted → exec (.debugStep o v) s = .next (s.accessDone.refused o true 7 R.DBG_STEP))) ∧
  (s.running = true → (s.thr t.val).stepDone = true → (s.thr t.val).remote = none → exec (.stepComplete t) s =
    .next (((s.produce 0x29 0).onThr t.val Thread.halt).haltDone [t.val] [])) ∧
  ((s.thr t.val).stepDone = false → exec (.stepComplete t) s = .next s) ∧
  (Reaches s o R.DBG_TREG → s.debugRights o = true → s.mayName o sel = true → h.st = .halted →
    (s.f R.DBG_TSEL 7 3 = 16 → exec (.dbgTregAccess o (some v)) s = .next (State.accepted (s.onThr sel (fun k => { k with acc := v })) o)) ∧
    (s.f R.DBG_TSEL 7 3 = 17 → exec (.dbgTregAccess o (some v)) s = .next (State.accepted (s.onThr sel (fun k => { k with x := v })) o)) ∧
    (s.f R.DBG_TSEL 7 3 = 18 → exec (.dbgTregAccess o (some v)) s = .next (State.accepted (s.onThr sel (fun k => { k with y := v })) o)) ∧
    (s.f R.DBG_TSEL 7 3 = 19 → exec (.dbgTregAccess o (some v)) s =
      .next (State.accepted (s.onThr sel (fun k => { k with pc := v, fbuf := [] })) o)) ∧
    (o ≠ .debug → s.tregRead o = some x → exec (.dbgTregAccess o none) s = .next (s.accessDone.emit (.readData x)))) ∧
  (Reaches s o R.DBG_TREG → s.debugRights o = true → s.mayName o sel = true → h.st ≠ .halted →
    exec (.dbgTregAccess o (some v)) s = .next (s.accessDone.refused o true 7 R.DBG_TREG)) ∧
  (Reaches s o off → (n.val < 16 ∨ s.machineOrigin o = true) → exec (.stimulusWrite o n v) s =
    .next (State.accepted (s.tracePacket 1 0 (BitVec.ofNat 8 n.val :: leBytes 4 v.toNat ++ s.traceTs)) o)) ∧
  (Reaches s o off → 16 ≤ n.val → s.machineOrigin o = false → exec (.stimulusWrite o n v) s = .next (s.accessDone.refused o true 5 off)) ∧
  (s.running = true → s.dbg.trace ≠ [] → s.b R.DBG_TRCCTL 1 = false → exec .traceDrain s =
    .next (((s.onDbg (fun d => { d with trace := [] })).emit (.trace s.dbg.trace)).traceOvf)))

/-- R409, R417, R466, R467: EN of WDG_CTL follows its first write and reloads the period; the key reloads while the watchdog runs
and has not reached 0, any other value of WDG_SVC is a bus error with BADSVC; at a quarter trap 0x0D is raised, at 0 the engine
enters Safe with cause 3; a timer counts from START, stops at STOP, and at zero sets EXP; an input pin's level reaches
GLB_GPIO_IN; the management target's pointer is written, read and steps on. -/
def Obligations.Supervision : Prop := ∀ (s : State) (o : Origin) (v : Word) (n : Fin 4) (pin : Fin 16) (level : Bool) (b : Byte) (l : List Byte),
  let ctl := R.TMR_CTL n.val
  let load := (s.rd (R.TMR_LOAD n.val)).toNat
  let rights := s.supervisorOrigin o = true ∨ s.debugRights o = true
  (Reaches s o R.WDG_CTL → Takes R.WDG_CTL v → s.debugRights o = true → exec (.watchdogEnable o v) s =
    .next (State.accepted (s.writeWdgCtl v) o)) ∧
  (s.locked.contains R.WDG_CTL = false → v.getLsbD 0 = true → (s.writeWdgCtl v).b R.WDG_CTL 0 = true ∧
    (s.writeWdgCtl v).wdg.left = s.f R.WDG_PERIOD 23 0 * 16000) ∧
  (s.locked.contains R.WDG_CTL = true → (s.writeWdgCtl v).b R.WDG_CTL 0 = s.b R.WDG_CTL 0) ∧
  (Reaches s o R.WDG_SVC → s.machineOrigin o = true →
    (v = 0xA5C3 → s.b R.WDG_CTL 0 = true → s.wdg.left ≠ 0 → exec (.watchdogService o v) s = .next (State.accepted s.wdgReload o)) ∧
    (v = 0xA5C3 → (s.b R.WDG_CTL 0 = false ∨ s.wdg.left = 0) → exec (.watchdogService o v) s = .next (State.accepted s o)) ∧
    (v ≠ 0xA5C3 → exec (.watchdogService o v) s =
      .next ((s.setB R.WDG_STAT 1 true).accessDone.refused o true 7 R.WDG_SVC))) ∧
  (s.wdgRuns = true → s.wdg.prebitten = false → exec .watchdogPrebite s =
    (let w := s.advance (s.wdgClk (s.f R.WDG_PERIOD 23 0 * 4000))
     .next ((({ w with wdg := { w.wdg with prebitten := true } } : State).setB R.WDG_STAT 0 true).raiseMachine 1))) ∧
  (s.wdgRuns = true → s.wdg.prebitten = true → exec .watchdogPrebite s = .next s ∧
    exec .watchdogBite s = .next ((s.advance (s.wdgClk 0)).safeEntry 3)) ∧
  (Reaches s o ctl → Takes ctl v → rights →
    (v.getLsbD 0 = true → v.getLsbD 3 = false → load ≠ 0 → ∃ u : State, exec (.timerStart o n v) s = .next (State.accepted u o) ∧
      u.tmr n.val = { run := true, left := load * 160 } ∧ u.b (R.TMR_STAT n.val) 1 = true ∧ u.rd ctl = v &&& 6 ∧
      SameRegsBut [ctl, R.TMR_STAT n.val] s u ∧ SameMemory s u) ∧
    (v.getLsbD 3 = true → ∃ u : State, exec (.timerStop o n v) s = .next (State.accepted u o) ∧ (u.tmr n.val).run = false ∧
      u.b (R.TMR_STAT n.val) 1 = false ∧
      u.rd ctl = v &&& 6 ∧ SameRegsBut [ctl, R.TMR_STAT n.val] s u ∧ SameMemory s u) ∧
    (v.getLsbD 0 = true → v.getLsbD 3 = false → load = 0 → exec (.timerStart o n v) s = .next (s.accessDone.refused o true 7 ctl))) ∧
  ((s.tmr n.val).run = true → s.running = true → exec (.timerExpire n) s =
    (let w := ((s.advance (ceilDiv (s.tmr n.val).left s.clkSixteenths)).setB (R.TMR_STAT n.val) 0 true).produce 0x20 n.val
     .next (if s.b ctl 1 = true ∧ load ≠ 0 then w.setTmr n.val { run := true, left := load * 160 }
       else w.setTmr n.val { run := false, left := 0 }))) ∧
  (s.running = true → s.b R.GLB_GPIO_DIR pin.val = false → (∃ u : State, exec (.gpioEdge pin level) s = .next u ∧
    u.pins.gpio.testBit pin.val = level ∧ SameMemory s u ∧ u.jobs = s.jobs)) ∧
  (s.power.up = true → s.pins.gpio.testBit pin.val ≠ level → (s.gpioLevel pin.val level).b R.GLB_GPIO_IN pin.val = level) ∧
  (s.power.up = true →
    exec .mgtRefresh s = .next { s with pins := { s.pins with mgt := s.mgtValues } } ∧
    exec (.i2cWrite (b :: l)) s = .next { s with pins := { s.pins with ptr := b.toNat } } ∧
    (s.pins.ptr ≠ 6 → (∃ u : State, exec .i2cRead s = .next u ∧ u.out = .i2c (s.pins.mgt.getD s.pins.ptr 0) :: s.out ∧
      u.pins.ptr = (s.pins.ptr + 1) % 256 ∧ u.pins.mgt = s.pins.mgt ∧ SameRegsBut [] s u ∧ SameMemory s u)))
end

