-- ==== Sys2Proof/Laws/Access.lean ====
section
/-! SUPPORT. What one access of a register does: a write that its block's rule accepts or refuses, and when that rule is
reached (R4, R5, R50, R51, R79). -/

namespace Sys2Proof.Machine

variable {s s1 : State} {o : Origin} {off c : Nat} {v : Word}

/-- A write that reads no descriptor of another device leaves what its rule leaves, once it is accepted. -/
theorem regWrite_accepted (h : Reaches s o off) (hd : s.descAsk o off v = none) (hw : s.csWrite o off 4 v = (s1, none)) :
    s.regWrite o off v = s1.accepted o := by
  obtain ⟨h1, h2, h3, _⟩ := h
  unfold State.regWrite State.sizedWrite State.ctlWrite
  simp only [h1, h2, h3, hd, hw]; rfl

/-- A write let through and refused is a bus error with the CAUSE that its rule names. -/
theorem regWrite_refused (h : Reaches s o off) (hd : s.descAsk o off v = none) (hw : s.csWrite o off 4 v = (s1, some c)) :
    s.regWrite o off v = s1.accessDone.refused o true c off := by
  obtain ⟨h1, h2, h3, _⟩ := h
  unfold State.regWrite State.sizedWrite State.ctlWrite
  simp only [h1, h2, h3, hd, hw]; rfl

/-- Only a trap selector, the debug unit's register of a thread and a thread's control register read a descriptor. -/
theorem descAsk_plain (h1 : off ≠ R.TRP_MTVS ∧ off ≠ R.TRP_STVS ∧ off ≠ R.TRP_MSTK ∧ off ≠ R.TRP_SSTK) (h2 : off ≠ R.DBG_TREG)
    (h3 : ∀ t < 8, off ≠ R.STM_CTL t) : s.descAsk o off v = none := by
  have hn : s.descOf o off v = none := by
    unfold State.descOf
    dsimp only
    rw [if_neg (by tauto), if_neg h2, if_neg]
    rintro ⟨ht, he⟩
    exact h3 _ ht he
  unfold State.descAsk; rw [hn]

/-- A word written to a described register, with no bit outside its fields and the rights of its block, comes to its block's
rule. -/
theorem csWrite_block {r : RegRow} (h : Reaches s o off) (hr : regRow off = some r) (hv : r.accepts v = true)
    (hb : s.blockRights o off = true) (ha : off % 4 = 0) : s.csWrite o off 4 v = s.writeBlock o r off v := by
  obtain ⟨_, _, _, h3⟩ := h
  have hop : ¬ (s.ctlOpen o = false ∧ (!(o == .debug && openReg off)) = true) := by
    rcases h3 with h3 | ⟨h3, h4⟩
    · simp [h3]
    · simp [h3, h4]
  unfold State.csWrite
  simp only [hr, hv, hb, ha, if_neg hop]
  rfl

/-- A register that does not exist, an address that is not a multiple of 4 or a size that is not a word is refused before any
rule. -/
theorem csWrite_shape (h : s.ctlOpen o = true) (size : Nat) :
    (regRow off = none → off % 4 = 0 → s.csWrite o off 4 v = (s, some 0)) ∧
    ((size ≠ 4 ∨ off % 4 ≠ 0) → s.csWrite o off size v = (s, some 2)) := by
  refine ⟨fun h1 h2 => ?_, fun h1 => ?_⟩
  · unfold State.csWrite; simp [h, h1, h2]
  · unfold State.csWrite
    rw [if_neg (by simp [h]), if_pos h1]

end Sys2Proof.Machine
end

