-- ==== Sys2Proof/Laws/Mail.lean ====
section
/-! SUPPORT. What serving a mailbox command does: the checks of R343 passed, each check failed, and the row of a subcommand. -/

namespace Sys2Proof.Machine

variable {s : State} {n code used : Nat} {modes : List Nat} {bad : Nat → List Nat} {body : State → State}

/-- A command that passes the checks is carried out. -/
theorem serve_ok (h : Served s n code modes used) (hc : assignedCodes.contains code = true) :
    s.serve n code modes used bad body = body s := by
  obtain ⟨h1, h2, h3, h4, h5, h6⟩ := h
  have hm : modes.contains s.mode = true := List.contains_iff_mem.mpr h4
  have hf : (s.fw.fiddlehead && !s.fiddleServes code) = false := by
    cases hh : s.fw.fiddlehead with
    | false => rfl
    | true => simp [h3 hh]
  unfold State.serve
  dsimp only
  rw [h2, if_neg (by simp [h1]), if_neg (by simp only [hc]; decide), if_neg (by simp), if_neg (by rw [hf, hm]; decide),
    if_neg (by simp [h5]), h6]

/-- Nothing to serve: nothing happens. -/
theorem serve_idle (h : s.toServe n = false) : s.serve n code modes used bad body = s := by
  unfold State.serve; simp [h]

/-- An unassigned code is refused. -/
theorem serve_unassigned (h : s.toServe n = true) (hc : assignedCodes.contains (fld (s.cmdWord n 0) 15 0) = false) :
    s.serve n code modes used bad body = s.reply n 3 [] := by
  unfold State.serve; simp only [h, hc]; rfl

/-- The command of another row is left to that row. -/
theorem serve_other (h : s.toServe n = true) (hc : assignedCodes.contains (fld (s.cmdWord n 0) 15 0) = true)
    (hn : fld (s.cmdWord n 0) 15 0 ≠ code) : s.serve n code modes used bad body = s := by
  unfold State.serve; simp only [h, hc, if_pos hn]; rfl

/-- A command in a mode that is not allowed, or that Fiddlehead does not serve, is refused. -/
theorem serve_mode (h : s.toServe n = true) (h2 : fld (s.cmdWord n 0) 15 0 = code) (hc : assignedCodes.contains code = true)
    (hm : s.mode ∉ modes ∨ (s.fw.fiddlehead = true ∧ s.fiddleServes code = false)) :
    s.serve n code modes used bad body = s.reply n 6 [] := by
  have hr : ((s.fw.fiddlehead && !s.fiddleServes code) || !modes.contains s.mode) = true := by
    rcases hm with hm | ⟨h3, h4⟩
    · have : modes.contains s.mode = false := by
        cases hh : modes.contains s.mode with
        | false => rfl
        | true => exact absurd (List.contains_iff_mem.mp hh) hm
      rw [this]; simp
    · simp [h3, h4]
  unfold State.serve
  dsimp only
  rw [h2, if_neg (by simp [h]), if_neg (by simp only [hc]; decide), if_neg (by simp), if_pos hr]

/-- A subcommand's row carries its subcommand out. -/
theorem serveSub_ok {lo sub last : Nat} (h : Served s n code modes used) (hc : assignedCodes.contains code = true)
    (hk : fld (s.cmdWord n 1) (lo + 7) lo = sub) (hl : sub ≤ last) :
    s.serveSub n code lo sub last modes used bad body = body s := by
  unfold State.serveSub
  rw [if_neg (by rw [hk]; omega), if_neg (by rw [hk]; simp)]
  exact serve_ok h hc

end Sys2Proof.Machine
end

