-- ==== Sys2Proof/Laws/Sparse.lean ====
section
/-! SUPPORT. Laws of the sparse maps: reading after writing, and that every operation keeps the canonical form; then the
same of the register file and of memory. -/

namespace Sys2Proof.Machine

/-! ### Canonical maps -/

/-- A canonical map stays canonical under a lower bound. -/
theorem swfFrom_mono {α : Type} [DecidableEq α] {d : Nat → α} {m : SMap α} {lo lo' : Nat} (h : swfFrom d lo m = true)
    (hl : lo' ≤ lo) : swfFrom d lo' m = true := by
  cases m with
  | nil => rfl
  | cons e t =>
    simp only [swfFrom, Bool.and_eq_true, decide_eq_true_eq] at h ⊢
    exact ⟨⟨by omega, h.1.2⟩, h.2⟩

/-- Removing entries keeps the canonical form. -/
theorem swfFrom_filter {α : Type} [DecidableEq α] {d : Nat → α} (p : Nat × α → Bool) :
    ∀ {m : SMap α} {lo : Nat}, swfFrom d lo m = true → swfFrom d lo (m.filter p) = true
  | [], _, _ => rfl
  | (a, w) :: t, lo, h => by
    simp only [swfFrom, Bool.and_eq_true, decide_eq_true_eq] at h
    have ih := swfFrom_filter p h.2
    by_cases hp : p (a, w) = true
    · simp [hp, swfFrom, h.1.1, h.1.2, ih]
    · simp only [List.filter_cons, hp]; exact swfFrom_mono ih (by omega)

/-- An entry of a key that is not listed keeps the canonical form. -/
theorem swfFrom_sins {α : Type} [DecidableEq α] {d : Nat → α} {k : Nat} {v : α} (hv : v ≠ d k) :
    ∀ {m : SMap α} {lo : Nat}, swfFrom d lo m = true → lo ≤ k → (∀ e ∈ m, e.1 ≠ k) → swfFrom d lo (sins k v m) = true
  | [], lo, _, hk, _ => by simp [sins, swfFrom, hv, hk]
  | (a, w) :: t, lo, h, hk, hn => by
    simp only [swfFrom, Bool.and_eq_true, decide_eq_true_eq] at h
    have ha : a ≠ k := hn (a, w) (by simp)
    unfold sins
    split
    · simp only [swfFrom, Bool.and_eq_true, decide_eq_true_eq]
      exact ⟨⟨hk, hv⟩, ⟨by omega, h.1.2⟩, h.2⟩
    · simp only [swfFrom, Bool.and_eq_true, decide_eq_true_eq]
      exact ⟨h.1, swfFrom_sins hv h.2 (by omega) (fun e he => hn e (by simp [he]))⟩

/-- A write keeps the canonical form. -/
theorem swf_sput {α : Type} [DecidableEq α] {d : Nat → α} {m : SMap α} (h : swf d m = true) (k : Nat) (v : α) :
    swf d (sput d m k v) = true := by
  unfold sput
  have hd : swf d (sdel m k) = true := swfFrom_filter _ h
  split
  · exact hd
  · rename_i hv
    exact swfFrom_sins hv hd (Nat.zero_le k) (fun e he => by simp [sdel] at he; exact he.2)

/-- Consecutive writes keep the canonical form. -/
theorem swf_sputMany {α : Type} [DecidableEq α] {d : Nat → α} :
    ∀ (l : List α) {m : SMap α} (k : Nat), swf d m = true → swf d (sputMany d m k l) = true
  | [], _, _, h => h
  | v :: t, _, k, h => swf_sputMany t (k + 1) (swf_sput h k v)

/-- Removing entries keeps the canonical form. -/
theorem swf_sdrop {α : Type} [DecidableEq α] {d : Nat → α} {m : SMap α} (h : swf d m = true) (p : Nat → Bool) :
    swf d (sdrop p m) = true := swfFrom_filter (fun e => !p e.1) h

/-! ### Reading after writing -/

/-- A removed key reads as the default, the others as before. -/
theorem sget_sdel {α : Type} (d : Nat → α) (k j : Nat) : ∀ m : SMap α,
    sget d (sdel m k) j = if j = k then d k else sget d m j
  | [] => by by_cases h : j = k <;> simp [sdel, sget, h]
  | (a, w) :: t => by
    have ih := sget_sdel d k j t
    unfold sdel at ih ⊢
    by_cases ha : a = k
    · subst ha
      by_cases h : j = a <;> simp_all [sget]
    · by_cases h : j = a
      · subst h; simp [ha, sget]
      · simp [ha, sget, h, ih]

/-- A key put into a map that does not list it reads as its value, the others as before. -/
theorem sget_sins {α : Type} (d : Nat → α) (k j : Nat) (v : α) : ∀ {m : SMap α}, (∀ e ∈ m, e.1 ≠ k) →
    sget d (sins k v m) j = if j = k then v else sget d m j
  | [], _ => by simp [sins, sget]
  | (a, w) :: t, hn => by
    have ha : a ≠ k := hn (a, w) (by simp)
    have ih := sget_sins d k j v (m := t) (fun e he => hn e (by simp [he]))
    unfold sins
    split
    · by_cases h : j = k <;> simp [sget, h]
    · by_cases h : j = k
      · subst h; simp [sget, ih, Ne.symm ha]
      · simp [sget, ih, h]

/-- What a key reads as after a write: no premise on the map is needed. -/
theorem sget_sput {α : Type} [DecidableEq α] (d : Nat → α) (m : SMap α) (k j : Nat) (v : α) :
    sget d (sput d m k v) j = if j = k then v else sget d m j := by
  unfold sput
  split
  · rename_i hv; rw [sget_sdel, hv]
  · rw [sget_sins d k j v (fun e he => by simp [sdel] at he; exact he.2), sget_sdel]
    by_cases h : j = k <;> simp [h]

/-- The key written reads as the value written. -/
@[simp] theorem sget_sput_same {α : Type} [DecidableEq α] (d : Nat → α) (m : SMap α) (k : Nat) (v : α) :
    sget d (sput d m k v) k = v := by simp [sget_sput]

/-- Every other key reads as before. -/
theorem sget_sput_other {α : Type} [DecidableEq α] (d : Nat → α) (m : SMap α) {k j : Nat} (v : α) (hj : j ≠ k) :
    sget d (sput d m k v) j = sget d m j := by simp [sget_sput, hj]

/-- Keys outside consecutive writes read as before. -/
theorem sget_sputMany_outside {α : Type} [DecidableEq α] (d : Nat → α) {j : Nat} :
    ∀ (l : List α) (m : SMap α) (k : Nat), (j < k ∨ k + l.length ≤ j) → sget d (sputMany d m k l) j = sget d m j
  | [], _, _, _ => rfl
  | v :: t, m, k, hj => by
    simp only [List.length_cons] at hj
    have h1 := sget_sputMany_outside d (j := j) t (sput d m k v) (k + 1) (by omega)
    exact h1.trans (sget_sput_other d m v (by omega))

/-- Consecutive values written read back. -/
theorem sgetMany_sputMany {α : Type} [DecidableEq α] (d : Nat → α) :
    ∀ (l : List α) (m : SMap α) (k : Nat), sgetMany d (sputMany d m k l) k l.length = l
  | [], _, _ => rfl
  | v :: t, m, k => by
    have h1 : sget d (sputMany d (sput d m k v) (k + 1) t) k = v :=
      (sget_sputMany_outside d t (sput d m k v) (k + 1) (by omega)).trans (sget_sput_same d m k v)
    simp only [sputMany, List.length_cons, sgetMany, h1, sgetMany_sputMany d t (sput d m k v) (k + 1)]

/-- A key whose entries were removed reads as its default, the others as before. -/
theorem sget_sdrop {α : Type} (d : Nat → α) (p : Nat → Bool) (j : Nat) : ∀ m : SMap α,
    sget d (sdrop p m) j = if p j then d j else sget d m j
  | [] => by by_cases h : p j = true <;> simp [sdrop, sget, h]
  | (a, w) :: t => by
    have ih := sget_sdrop d p j t
    unfold sdrop at ih ⊢
    by_cases ha : p a = true
    · by_cases h : j = a
      · subst h; simp_all
      · simp [ha, ih, sget, h]
    · by_cases h : j = a
      · subst h; simp [ha, sget]
      · simp [ha, sget, h, ih]

/-! ### The register file -/

/-- What a register reads as after a write of the engine. -/
theorem rd_wr (s : State) (off r : Nat) (v : Word) : (s.wr off v).rd r = if r = off then v else s.rd r :=
  sget_sput regReset s.csr off r v

/-- A register written reads as the value written. -/
@[simp] theorem rd_wr_same (s : State) (off : Nat) (v : Word) : (s.wr off v).rd off = v := by simp [rd_wr]

/-- Every other register reads as before. -/
theorem rd_wr_other (s : State) {off r : Nat} (v : Word) (hr : r ≠ off) : (s.wr off v).rd r = s.rd r := by simp [rd_wr, hr]

/-- The register file stays canonical. -/
theorem swf_csr_wr {s : State} (h : swf regReset s.csr = true) (off : Nat) (v : Word) :
    swf regReset (s.wr off v).csr = true := swf_sput h off v

/-! ### Memory -/

/-- Bytes stored keep memory canonical. -/
theorem wf_setBytes {s : State} (h : s.mem.wf = true) (a : Nat) (l : List Byte) : (s.setBytes a l).mem.wf = true := by
  simp only [Memory.wf, Bool.and_eq_true] at h ⊢
  exact ⟨swf_sputMany l a h.1, h.2⟩

/-- A cleared range keeps memory canonical. -/
theorem wf_clearBytes {s : State} (h : s.mem.wf = true) (a n : Nat) : (s.clearBytes a n).mem.wf = true := by
  simp only [Memory.wf, Bool.and_eq_true] at h ⊢
  exact ⟨swf_sdrop h.1 (fun k => decide (a ≤ k) && decide (k < a + n)), h.2⟩

/-- Flash programmed keeps memory canonical. -/
theorem wf_setFlash {s : State} (h : s.mem.wf = true) (a : Nat) (l : List Byte) : (s.setFlash a l).mem.wf = true := by
  simp only [Memory.wf, Bool.and_eq_true] at h ⊢
  exact ⟨h.1, swf_sputMany l a h.2⟩

/-- Flash erased keeps memory canonical. -/
theorem wf_eraseFlash {s : State} (h : s.mem.wf = true) (a n : Nat) : (s.eraseFlash a n).mem.wf = true := by
  simp only [Memory.wf, Bool.and_eq_true] at h ⊢
  exact ⟨h.1, swf_sdrop h.2 (fun k => decide (a ≤ k) && decide (k < a + n))⟩

/-- Bytes stored read back. -/
theorem bytesAt_setBytes (s : State) (a : Nat) (l : List Byte) : (s.setBytes a l).bytesAt a l.length = l :=
  sgetMany_sputMany memDefault l s.mem.cells a

/-- Bytes outside a store read as before. -/
theorem byte_setBytes_outside (s : State) {a b : Nat} (l : List Byte) (hb : b < a ∨ a + l.length ≤ b) :
    (s.setBytes a l).byte b = s.byte b := sget_sputMany_outside memDefault l s.mem.cells a hb

/-- What a byte reads as after a range was cleared. -/
theorem byte_clearBytes (s : State) (a n b : Nat) :
    (s.clearBytes a n).byte b = if a ≤ b ∧ b < a + n then 0 else s.byte b := by
  have h := sget_sdrop memDefault (fun k => decide (a ≤ k) && decide (k < a + n)) b s.mem.cells
  simp only [Bool.and_eq_true, decide_eq_true_eq] at h
  exact h

end Sys2Proof.Machine
end

