-- ==== Sys2Proof/Laws/State.lean ====
section
/-! SUPPORT. Every field of State after every named update of it: the one field the update changes, and all the others as
before. With these no later proof unfolds a record update. -/

namespace Sys2Proof.Machine

variable (s : State)

/-! ### State.wr -/

@[simp] theorem clk_wr (off : Nat) (v : Word) : (s.wr off v).clk = s.clk := rfl
@[simp] theorem now_wr (off : Nat) (v : Word) : (s.wr off v).now = s.now := rfl
@[simp] theorem tb_wr (off : Nat) (v : Word) : (s.wr off v).tb = s.tb := rfl
@[simp] theorem tbHold_wr (off : Nat) (v : Word) : (s.wr off v).tbHold = s.tbHold := rfl
@[simp] theorem tbRate_wr (off : Nat) (v : Word) : (s.wr off v).tbRate = s.tbRate := rfl
@[simp] theorem tbPart_wr (off : Nat) (v : Word) : (s.wr off v).tbPart = s.tbPart := rfl
@[simp] theorem gen_wr (off : Nat) (v : Word) : (s.wr off v).gen = s.gen := rfl
@[simp] theorem csr_wr (off : Nat) (v : Word) : (s.wr off v).csr = sput regReset s.csr off v := rfl
@[simp] theorem eventClk_wr (off : Nat) (v : Word) : (s.wr off v).eventClk = s.clk := rfl
@[simp] theorem latches_wr (off : Nat) (v : Word) : (s.wr off v).latches = s.latches := rfl
@[simp] theorem threads_wr (off : Nat) (v : Word) : (s.wr off v).threads = s.threads := rfl
@[simp] theorem mtvs_wr (off : Nat) (v : Word) : (s.wr off v).mtvs = s.mtvs := rfl
@[simp] theorem stvs_wr (off : Nat) (v : Word) : (s.wr off v).stvs = s.stvs := rfl
@[simp] theorem mstk_wr (off : Nat) (v : Word) : (s.wr off v).mstk = s.mstk := rfl
@[simp] theorem sstk_wr (off : Nat) (v : Word) : (s.wr off v).sstk = s.sstk := rfl
@[simp] theorem ctlWaits_wr (off : Nat) (v : Word) : (s.wr off v).ctlWaits = s.ctlWaits := rfl
@[simp] theorem undelivered_wr (off : Nat) (v : Word) : (s.wr off v).undelivered = s.undelivered := rfl
@[simp] theorem jobs_wr (off : Nat) (v : Word) : (s.wr off v).jobs = s.jobs := rfl
@[simp] theorem fronds_wr (off : Nat) (v : Word) : (s.wr off v).fronds = s.fronds := rfl
@[simp] theorem ledger_wr (off : Nat) (v : Word) : (s.wr off v).ledger = s.ledger := rfl
@[simp] theorem mem_wr (off : Nat) (v : Word) : (s.wr off v).mem = s.mem := rfl
@[simp] theorem matrix_wr (off : Nat) (v : Word) : (s.wr off v).matrix = s.matrix := rfl
@[simp] theorem spores_wr (off : Nat) (v : Word) : (s.wr off v).spores = s.spores := rfl
@[simp] theorem io_wr (off : Nat) (v : Word) : (s.wr off v).io = s.io := rfl
@[simp] theorem fabric_wr (off : Nat) (v : Word) : (s.wr off v).fabric = s.fabric := rfl
@[simp] theorem host_wr (off : Nat) (v : Word) : (s.wr off v).host = s.host := rfl
@[simp] theorem fw_wr (off : Nat) (v : Word) : (s.wr off v).fw = s.fw := rfl
@[simp] theorem upd_wr (off : Nat) (v : Word) : (s.wr off v).upd = s.upd := rfl
@[simp] theorem bist_wr (off : Nat) (v : Word) : (s.wr off v).bist = s.bist := rfl
@[simp] theorem dbg_wr (off : Nat) (v : Word) : (s.wr off v).dbg = s.dbg := rfl
@[simp] theorem pmc_wr (off : Nat) (v : Word) : (s.wr off v).pmc = s.pmc := rfl
@[simp] theorem power_wr (off : Nat) (v : Word) : (s.wr off v).power = s.power := rfl
@[simp] theorem timers_wr (off : Nat) (v : Word) : (s.wr off v).timers = s.timers := rfl
@[simp] theorem wdg_wr (off : Nat) (v : Word) : (s.wr off v).wdg = s.wdg := rfl
@[simp] theorem pins_wr (off : Nat) (v : Word) : (s.wr off v).pins = s.pins := rfl
@[simp] theorem locked_wr (off : Nat) (v : Word) : (s.wr off v).locked = s.locked := rfl
@[simp] theorem free_wr (off : Nat) (v : Word) : (s.wr off v).free = s.free := rfl
@[simp] theorem out_wr (off : Nat) (v : Word) : (s.wr off v).out = s.out := rfl
@[simp] theorem pending_wr (off : Nat) (v : Word) : (s.wr off v).pending = s.pending := rfl

/-! ### State.setReg -/

@[simp] theorem clk_setReg (off : Nat) (v : Word) : (s.setReg off v).clk = s.clk := rfl
@[simp] theorem now_setReg (off : Nat) (v : Word) : (s.setReg off v).now = s.now := rfl
@[simp] theorem tb_setReg (off : Nat) (v : Word) : (s.setReg off v).tb = s.tb := rfl
@[simp] theorem tbHold_setReg (off : Nat) (v : Word) : (s.setReg off v).tbHold = s.tbHold := rfl
@[simp] theorem tbRate_setReg (off : Nat) (v : Word) : (s.setReg off v).tbRate = s.tbRate := rfl
@[simp] theorem tbPart_setReg (off : Nat) (v : Word) : (s.setReg off v).tbPart = s.tbPart := rfl
@[simp] theorem gen_setReg (off : Nat) (v : Word) : (s.setReg off v).gen = s.gen := rfl
@[simp] theorem csr_setReg (off : Nat) (v : Word) : (s.setReg off v).csr = sput regReset s.csr off v := rfl
@[simp] theorem events_setReg (off : Nat) (v : Word) : (s.setReg off v).events = s.events := rfl
@[simp] theorem brought_setReg (off : Nat) (v : Word) : (s.setReg off v).brought = s.brought := rfl
@[simp] theorem eventClk_setReg (off : Nat) (v : Word) : (s.setReg off v).eventClk = s.eventClk := rfl
@[simp] theorem latches_setReg (off : Nat) (v : Word) : (s.setReg off v).latches = s.latches := rfl
@[simp] theorem threads_setReg (off : Nat) (v : Word) : (s.setReg off v).threads = s.threads := rfl
@[simp] theorem mtvs_setReg (off : Nat) (v : Word) : (s.setReg off v).mtvs = s.mtvs := rfl
@[simp] theorem stvs_setReg (off : Nat) (v : Word) : (s.setReg off v).stvs = s.stvs := rfl
@[simp] theorem mstk_setReg (off : Nat) (v : Word) : (s.setReg off v).mstk = s.mstk := rfl
@[simp] theorem sstk_setReg (off : Nat) (v : Word) : (s.setReg off v).sstk = s.sstk := rfl
@[simp] theorem ctlWaits_setReg (off : Nat) (v : Word) : (s.setReg off v).ctlWaits = s.ctlWaits := rfl
@[simp] theorem undelivered_setReg (off : Nat) (v : Word) : (s.setReg off v).undelivered = s.undelivered := rfl
@[simp] theorem jobs_setReg (off : Nat) (v : Word) : (s.setReg off v).jobs = s.jobs := rfl
@[simp] theorem fronds_setReg (off : Nat) (v : Word) : (s.setReg off v).fronds = s.fronds := rfl
@[simp] theorem ledger_setReg (off : Nat) (v : Word) : (s.setReg off v).ledger = s.ledger := rfl
@[simp] theorem mem_setReg (off : Nat) (v : Word) : (s.setReg off v).mem = s.mem := rfl
@[simp] theorem matrix_setReg (off : Nat) (v : Word) : (s.setReg off v).matrix = s.matrix := rfl
@[simp] theorem spores_setReg (off : Nat) (v : Word) : (s.setReg off v).spores = s.spores := rfl
@[simp] theorem io_setReg (off : Nat) (v : Word) : (s.setReg off v).io = s.io := rfl
@[simp] theorem fabric_setReg (off : Nat) (v : Word) : (s.setReg off v).fabric = s.fabric := rfl
@[simp] theorem host_setReg (off : Nat) (v : Word) : (s.setReg off v).host = s.host := rfl
@[simp] theorem fw_setReg (off : Nat) (v : Word) : (s.setReg off v).fw = s.fw := rfl
@[simp] theorem upd_setReg (off : Nat) (v : Word) : (s.setReg off v).upd = s.upd := rfl
@[simp] theorem bist_setReg (off : Nat) (v : Word) : (s.setReg off v).bist = s.bist := rfl
@[simp] theorem dbg_setReg (off : Nat) (v : Word) : (s.setReg off v).dbg = s.dbg := rfl
@[simp] theorem pmc_setReg (off : Nat) (v : Word) : (s.setReg off v).pmc = s.pmc := rfl
@[simp] theorem power_setReg (off : Nat) (v : Word) : (s.setReg off v).power = s.power := rfl
@[simp] theorem timers_setReg (off : Nat) (v : Word) : (s.setReg off v).timers = s.timers := rfl
@[simp] theorem wdg_setReg (off : Nat) (v : Word) : (s.setReg off v).wdg = s.wdg := rfl
@[simp] theorem pins_setReg (off : Nat) (v : Word) : (s.setReg off v).pins = s.pins := rfl
@[simp] theorem locked_setReg (off : Nat) (v : Word) : (s.setReg off v).locked = s.locked := rfl
@[simp] theorem free_setReg (off : Nat) (v : Word) : (s.setReg off v).free = s.free := rfl
@[simp] theorem out_setReg (off : Nat) (v : Word) : (s.setReg off v).out = s.out := rfl
@[simp] theorem pending_setReg (off : Nat) (v : Word) : (s.setReg off v).pending = s.pending := rfl

/-! ### State.bring -/

@[simp] theorem clk_bring (off : Nat) (v amount : Word) : (s.bring off v amount).clk = s.clk := rfl
@[simp] theorem now_bring (off : Nat) (v amount : Word) : (s.bring off v amount).now = s.now := rfl
@[simp] theorem tb_bring (off : Nat) (v amount : Word) : (s.bring off v amount).tb = s.tb := rfl
@[simp] theorem tbHold_bring (off : Nat) (v amount : Word) : (s.bring off v amount).tbHold = s.tbHold := rfl
@[simp] theorem tbRate_bring (off : Nat) (v amount : Word) : (s.bring off v amount).tbRate = s.tbRate := rfl
@[simp] theorem tbPart_bring (off : Nat) (v amount : Word) : (s.bring off v amount).tbPart = s.tbPart := rfl
@[simp] theorem gen_bring (off : Nat) (v amount : Word) : (s.bring off v amount).gen = s.gen := rfl
@[simp] theorem csr_bring (off : Nat) (v amount : Word) : (s.bring off v amount).csr = sput regReset s.csr off v := rfl
@[simp] theorem eventClk_bring (off : Nat) (v amount : Word) : (s.bring off v amount).eventClk = s.clk := rfl
@[simp] theorem latches_bring (off : Nat) (v amount : Word) : (s.bring off v amount).latches = s.latches := rfl
@[simp] theorem threads_bring (off : Nat) (v amount : Word) : (s.bring off v amount).threads = s.threads := rfl
@[simp] theorem mtvs_bring (off : Nat) (v amount : Word) : (s.bring off v amount).mtvs = s.mtvs := rfl
@[simp] theorem stvs_bring (off : Nat) (v amount : Word) : (s.bring off v amount).stvs = s.stvs := rfl
@[simp] theorem mstk_bring (off : Nat) (v amount : Word) : (s.bring off v amount).mstk = s.mstk := rfl
@[simp] theorem sstk_bring (off : Nat) (v amount : Word) : (s.bring off v amount).sstk = s.sstk := rfl
@[simp] theorem ctlWaits_bring (off : Nat) (v amount : Word) : (s.bring off v amount).ctlWaits = s.ctlWaits := rfl
@[simp] theorem undelivered_bring (off : Nat) (v amount : Word) : (s.bring off v amount).undelivered = s.undelivered := rfl
@[simp] theorem jobs_bring (off : Nat) (v amount : Word) : (s.bring off v amount).jobs = s.jobs := rfl
@[simp] theorem fronds_bring (off : Nat) (v amount : Word) : (s.bring off v amount).fronds = s.fronds := rfl
@[simp] theorem ledger_bring (off : Nat) (v amount : Word) : (s.bring off v amount).ledger = s.ledger := rfl
@[simp] theorem mem_bring (off : Nat) (v amount : Word) : (s.bring off v amount).mem = s.mem := rfl
@[simp] theorem matrix_bring (off : Nat) (v amount : Word) : (s.bring off v amount).matrix = s.matrix := rfl
@[simp] theorem spores_bring (off : Nat) (v amount : Word) : (s.bring off v amount).spores = s.spores := rfl
@[simp] theorem io_bring (off : Nat) (v amount : Word) : (s.bring off v amount).io = s.io := rfl
@[simp] theorem fabric_bring (off : Nat) (v amount : Word) : (s.bring off v amount).fabric = s.fabric := rfl
@[simp] theorem host_bring (off : Nat) (v amount : Word) : (s.bring off v amount).host = s.host := rfl
@[simp] theorem fw_bring (off : Nat) (v amount : Word) : (s.bring off v amount).fw = s.fw := rfl
@[simp] theorem upd_bring (off : Nat) (v amount : Word) : (s.bring off v amount).upd = s.upd := rfl
@[simp] theorem bist_bring (off : Nat) (v amount : Word) : (s.bring off v amount).bist = s.bist := rfl
@[simp] theorem dbg_bring (off : Nat) (v amount : Word) : (s.bring off v amount).dbg = s.dbg := rfl
@[simp] theorem pmc_bring (off : Nat) (v amount : Word) : (s.bring off v amount).pmc = s.pmc := rfl
@[simp] theorem power_bring (off : Nat) (v amount : Word) : (s.bring off v amount).power = s.power := rfl
@[simp] theorem timers_bring (off : Nat) (v amount : Word) : (s.bring off v amount).timers = s.timers := rfl
@[simp] theorem wdg_bring (off : Nat) (v amount : Word) : (s.bring off v amount).wdg = s.wdg := rfl
@[simp] theorem pins_bring (off : Nat) (v amount : Word) : (s.bring off v amount).pins = s.pins := rfl
@[simp] theorem locked_bring (off : Nat) (v amount : Word) : (s.bring off v amount).locked = s.locked := rfl
@[simp] theorem free_bring (off : Nat) (v amount : Word) : (s.bring off v amount).free = s.free := rfl
@[simp] theorem out_bring (off : Nat) (v amount : Word) : (s.bring off v amount).out = s.out := rfl
@[simp] theorem pending_bring (off : Nat) (v amount : Word) : (s.bring off v amount).pending = s.pending := rfl

/-! ### State.putF -/

@[simp] theorem clk_putF (off hi lo x : Nat) : (s.putF off hi lo x).clk = s.clk := rfl
@[simp] theorem now_putF (off hi lo x : Nat) : (s.putF off hi lo x).now = s.now := rfl
@[simp] theorem tb_putF (off hi lo x : Nat) : (s.putF off hi lo x).tb = s.tb := rfl
@[simp] theorem tbHold_putF (off hi lo x : Nat) : (s.putF off hi lo x).tbHold = s.tbHold := rfl
@[simp] theorem tbRate_putF (off hi lo x : Nat) : (s.putF off hi lo x).tbRate = s.tbRate := rfl
@[simp] theorem tbPart_putF (off hi lo x : Nat) : (s.putF off hi lo x).tbPart = s.tbPart := rfl
@[simp] theorem gen_putF (off hi lo x : Nat) : (s.putF off hi lo x).gen = s.gen := rfl
@[simp] theorem csr_putF (off hi lo x : Nat) : (s.putF off hi lo x).csr = sput regReset s.csr off (setFld (s.rd off) hi lo x) := rfl
@[simp] theorem eventClk_putF (off hi lo x : Nat) : (s.putF off hi lo x).eventClk = s.clk := rfl
@[simp] theorem latches_putF (off hi lo x : Nat) : (s.putF off hi lo x).latches = s.latches := rfl
@[simp] theorem threads_putF (off hi lo x : Nat) : (s.putF off hi lo x).threads = s.threads := rfl
@[simp] theorem mtvs_putF (off hi lo x : Nat) : (s.putF off hi lo x).mtvs = s.mtvs := rfl
@[simp] theorem stvs_putF (off hi lo x : Nat) : (s.putF off hi lo x).stvs = s.stvs := rfl
@[simp] theorem mstk_putF (off hi lo x : Nat) : (s.putF off hi lo x).mstk = s.mstk := rfl
@[simp] theorem sstk_putF (off hi lo x : Nat) : (s.putF off hi lo x).sstk = s.sstk := rfl
@[simp] theorem ctlWaits_putF (off hi lo x : Nat) : (s.putF off hi lo x).ctlWaits = s.ctlWaits := rfl
@[simp] theorem undelivered_putF (off hi lo x : Nat) : (s.putF off hi lo x).undelivered = s.undelivered := rfl
@[simp] theorem jobs_putF (off hi lo x : Nat) : (s.putF off hi lo x).jobs = s.jobs := rfl
@[simp] theorem fronds_putF (off hi lo x : Nat) : (s.putF off hi lo x).fronds = s.fronds := rfl
@[simp] theorem ledger_putF (off hi lo x : Nat) : (s.putF off hi lo x).ledger = s.ledger := rfl
@[simp] theorem mem_putF (off hi lo x : Nat) : (s.putF off hi lo x).mem = s.mem := rfl
@[simp] theorem matrix_putF (off hi lo x : Nat) : (s.putF off hi lo x).matrix = s.matrix := rfl
@[simp] theorem spores_putF (off hi lo x : Nat) : (s.putF off hi lo x).spores = s.spores := rfl
@[simp] theorem io_putF (off hi lo x : Nat) : (s.putF off hi lo x).io = s.io := rfl
@[simp] theorem fabric_putF (off hi lo x : Nat) : (s.putF off hi lo x).fabric = s.fabric := rfl
@[simp] theorem host_putF (off hi lo x : Nat) : (s.putF off hi lo x).host = s.host := rfl
@[simp] theorem fw_putF (off hi lo x : Nat) : (s.putF off hi lo x).fw = s.fw := rfl
@[simp] theorem upd_putF (off hi lo x : Nat) : (s.putF off hi lo x).upd = s.upd := rfl
@[simp] theorem bist_putF (off hi lo x : Nat) : (s.putF off hi lo x).bist = s.bist := rfl
@[simp] theorem dbg_putF (off hi lo x : Nat) : (s.putF off hi lo x).dbg = s.dbg := rfl
@[simp] theorem pmc_putF (off hi lo x : Nat) : (s.putF off hi lo x).pmc = s.pmc := rfl
@[simp] theorem power_putF (off hi lo x : Nat) : (s.putF off hi lo x).power = s.power := rfl
@[simp] theorem timers_putF (off hi lo x : Nat) : (s.putF off hi lo x).timers = s.timers := rfl
@[simp] theorem wdg_putF (off hi lo x : Nat) : (s.putF off hi lo x).wdg = s.wdg := rfl
@[simp] theorem pins_putF (off hi lo x : Nat) : (s.putF off hi lo x).pins = s.pins := rfl
@[simp] theorem locked_putF (off hi lo x : Nat) : (s.putF off hi lo x).locked = s.locked := rfl
@[simp] theorem free_putF (off hi lo x : Nat) : (s.putF off hi lo x).free = s.free := rfl
@[simp] theorem out_putF (off hi lo x : Nat) : (s.putF off hi lo x).out = s.out := rfl
@[simp] theorem pending_putF (off hi lo x : Nat) : (s.putF off hi lo x).pending = s.pending := rfl

/-! ### State.setB -/

@[simp] theorem clk_setB (off i : Nat) (v : Bool) : (s.setB off i v).clk = s.clk := rfl
@[simp] theorem now_setB (off i : Nat) (v : Bool) : (s.setB off i v).now = s.now := rfl
@[simp] theorem tb_setB (off i : Nat) (v : Bool) : (s.setB off i v).tb = s.tb := rfl
@[simp] theorem tbHold_setB (off i : Nat) (v : Bool) : (s.setB off i v).tbHold = s.tbHold := rfl
@[simp] theorem tbRate_setB (off i : Nat) (v : Bool) : (s.setB off i v).tbRate = s.tbRate := rfl
@[simp] theorem tbPart_setB (off i : Nat) (v : Bool) : (s.setB off i v).tbPart = s.tbPart := rfl
@[simp] theorem gen_setB (off i : Nat) (v : Bool) : (s.setB off i v).gen = s.gen := rfl
@[simp] theorem csr_setB (off i : Nat) (v : Bool) : (s.setB off i v).csr = sput regReset s.csr off (setFld (s.rd off) i i (b2n v)) := rfl
@[simp] theorem eventClk_setB (off i : Nat) (v : Bool) : (s.setB off i v).eventClk = s.clk := rfl
@[simp] theorem latches_setB (off i : Nat) (v : Bool) : (s.setB off i v).latches = s.latches := rfl
@[simp] theorem threads_setB (off i : Nat) (v : Bool) : (s.setB off i v).threads = s.threads := rfl
@[simp] theorem mtvs_setB (off i : Nat) (v : Bool) : (s.setB off i v).mtvs = s.mtvs := rfl
@[simp] theorem stvs_setB (off i : Nat) (v : Bool) : (s.setB off i v).stvs = s.stvs := rfl
@[simp] theorem mstk_setB (off i : Nat) (v : Bool) : (s.setB off i v).mstk = s.mstk := rfl
@[simp] theorem sstk_setB (off i : Nat) (v : Bool) : (s.setB off i v).sstk = s.sstk := rfl
@[simp] theorem ctlWaits_setB (off i : Nat) (v : Bool) : (s.setB off i v).ctlWaits = s.ctlWaits := rfl
@[simp] theorem undelivered_setB (off i : Nat) (v : Bool) : (s.setB off i v).undelivered = s.undelivered := rfl
@[simp] theorem jobs_setB (off i : Nat) (v : Bool) : (s.setB off i v).jobs = s.jobs := rfl
@[simp] theorem fronds_setB (off i : Nat) (v : Bool) : (s.setB off i v).fronds = s.fronds := rfl
@[simp] theorem ledger_setB (off i : Nat) (v : Bool) : (s.setB off i v).ledger = s.ledger := rfl
@[simp] theorem mem_setB (off i : Nat) (v : Bool) : (s.setB off i v).mem = s.mem := rfl
@[simp] theorem matrix_setB (off i : Nat) (v : Bool) : (s.setB off i v).matrix = s.matrix := rfl
@[simp] theorem spores_setB (off i : Nat) (v : Bool) : (s.setB off i v).spores = s.spores := rfl
@[simp] theorem io_setB (off i : Nat) (v : Bool) : (s.setB off i v).io = s.io := rfl
@[simp] theorem fabric_setB (off i : Nat) (v : Bool) : (s.setB off i v).fabric = s.fabric := rfl
@[simp] theorem host_setB (off i : Nat) (v : Bool) : (s.setB off i v).host = s.host := rfl
@[simp] theorem fw_setB (off i : Nat) (v : Bool) : (s.setB off i v).fw = s.fw := rfl
@[simp] theorem upd_setB (off i : Nat) (v : Bool) : (s.setB off i v).upd = s.upd := rfl
@[simp] theorem bist_setB (off i : Nat) (v : Bool) : (s.setB off i v).bist = s.bist := rfl
@[simp] theorem dbg_setB (off i : Nat) (v : Bool) : (s.setB off i v).dbg = s.dbg := rfl
@[simp] theorem pmc_setB (off i : Nat) (v : Bool) : (s.setB off i v).pmc = s.pmc := rfl
@[simp] theorem power_setB (off i : Nat) (v : Bool) : (s.setB off i v).power = s.power := rfl
@[simp] theorem timers_setB (off i : Nat) (v : Bool) : (s.setB off i v).timers = s.timers := rfl
@[simp] theorem wdg_setB (off i : Nat) (v : Bool) : (s.setB off i v).wdg = s.wdg := rfl
@[simp] theorem pins_setB (off i : Nat) (v : Bool) : (s.setB off i v).pins = s.pins := rfl
@[simp] theorem locked_setB (off i : Nat) (v : Bool) : (s.setB off i v).locked = s.locked := rfl
@[simp] theorem free_setB (off i : Nat) (v : Bool) : (s.setB off i v).free = s.free := rfl
@[simp] theorem out_setB (off i : Nat) (v : Bool) : (s.setB off i v).out = s.out := rfl
@[simp] theorem pending_setB (off i : Nat) (v : Bool) : (s.setB off i v).pending = s.pending := rfl

/-! ### State.count -/

@[simp] theorem clk_count (off w n : Nat) : (s.count off w n).clk = s.clk := rfl
@[simp] theorem now_count (off w n : Nat) : (s.count off w n).now = s.now := rfl
@[simp] theorem tb_count (off w n : Nat) : (s.count off w n).tb = s.tb := rfl
@[simp] theorem tbHold_count (off w n : Nat) : (s.count off w n).tbHold = s.tbHold := rfl
@[simp] theorem tbRate_count (off w n : Nat) : (s.count off w n).tbRate = s.tbRate := rfl
@[simp] theorem tbPart_count (off w n : Nat) : (s.count off w n).tbPart = s.tbPart := rfl
@[simp] theorem gen_count (off w n : Nat) : (s.count off w n).gen = s.gen := rfl
@[simp] theorem csr_count (off w n : Nat) : (s.count off w n).csr = sput regReset s.csr off (setFld (s.rd off) (w - 1) 0 (satAdd w (s.f off (w - 1) 0) n)) := rfl
@[simp] theorem eventClk_count (off w n : Nat) : (s.count off w n).eventClk = s.clk := rfl
@[simp] theorem latches_count (off w n : Nat) : (s.count off w n).latches = s.latches := rfl
@[simp] theorem threads_count (off w n : Nat) : (s.count off w n).threads = s.threads := rfl
@[simp] theorem mtvs_count (off w n : Nat) : (s.count off w n).mtvs = s.mtvs := rfl
@[simp] theorem stvs_count (off w n : Nat) : (s.count off w n).stvs = s.stvs := rfl
@[simp] theorem mstk_count (off w n : Nat) : (s.count off w n).mstk = s.mstk := rfl
@[simp] theorem sstk_count (off w n : Nat) : (s.count off w n).sstk = s.sstk := rfl
@[simp] theorem ctlWaits_count (off w n : Nat) : (s.count off w n).ctlWaits = s.ctlWaits := rfl
@[simp] theorem undelivered_count (off w n : Nat) : (s.count off w n).undelivered = s.undelivered := rfl
@[simp] theorem jobs_count (off w n : Nat) : (s.count off w n).jobs = s.jobs := rfl
@[simp] theorem fronds_count (off w n : Nat) : (s.count off w n).fronds = s.fronds := rfl
@[simp] theorem ledger_count (off w n : Nat) : (s.count off w n).ledger = s.ledger := rfl
@[simp] theorem mem_count (off w n : Nat) : (s.count off w n).mem = s.mem := rfl
@[simp] theorem matrix_count (off w n : Nat) : (s.count off w n).matrix = s.matrix := rfl
@[simp] theorem spores_count (off w n : Nat) : (s.count off w n).spores = s.spores := rfl
@[simp] theorem io_count (off w n : Nat) : (s.count off w n).io = s.io := rfl
@[simp] theorem fabric_count (off w n : Nat) : (s.count off w n).fabric = s.fabric := rfl
@[simp] theorem host_count (off w n : Nat) : (s.count off w n).host = s.host := rfl
@[simp] theorem fw_count (off w n : Nat) : (s.count off w n).fw = s.fw := rfl
@[simp] theorem upd_count (off w n : Nat) : (s.count off w n).upd = s.upd := rfl
@[simp] theorem bist_count (off w n : Nat) : (s.count off w n).bist = s.bist := rfl
@[simp] theorem dbg_count (off w n : Nat) : (s.count off w n).dbg = s.dbg := rfl
@[simp] theorem pmc_count (off w n : Nat) : (s.count off w n).pmc = s.pmc := rfl
@[simp] theorem power_count (off w n : Nat) : (s.count off w n).power = s.power := rfl
@[simp] theorem timers_count (off w n : Nat) : (s.count off w n).timers = s.timers := rfl
@[simp] theorem wdg_count (off w n : Nat) : (s.count off w n).wdg = s.wdg := rfl
@[simp] theorem pins_count (off w n : Nat) : (s.count off w n).pins = s.pins := rfl
@[simp] theorem locked_count (off w n : Nat) : (s.count off w n).locked = s.locked := rfl
@[simp] theorem free_count (off w n : Nat) : (s.count off w n).free = s.free := rfl
@[simp] theorem out_count (off w n : Nat) : (s.count off w n).out = s.out := rfl
@[simp] theorem pending_count (off w n : Nat) : (s.count off w n).pending = s.pending := rfl

/-! ### State.countW -/

@[simp] theorem clk_countW (off n : Nat) : (s.countW off n).clk = s.clk := rfl
@[simp] theorem now_countW (off n : Nat) : (s.countW off n).now = s.now := rfl
@[simp] theorem tb_countW (off n : Nat) : (s.countW off n).tb = s.tb := rfl
@[simp] theorem tbHold_countW (off n : Nat) : (s.countW off n).tbHold = s.tbHold := rfl
@[simp] theorem tbRate_countW (off n : Nat) : (s.countW off n).tbRate = s.tbRate := rfl
@[simp] theorem tbPart_countW (off n : Nat) : (s.countW off n).tbPart = s.tbPart := rfl
@[simp] theorem gen_countW (off n : Nat) : (s.countW off n).gen = s.gen := rfl
@[simp] theorem csr_countW (off n : Nat) : (s.countW off n).csr = sput regReset s.csr off (BitVec.ofNat 32 ((s.rd off).toNat + n)) := rfl
@[simp] theorem eventClk_countW (off n : Nat) : (s.countW off n).eventClk = s.clk := rfl
@[simp] theorem latches_countW (off n : Nat) : (s.countW off n).latches = s.latches := rfl
@[simp] theorem threads_countW (off n : Nat) : (s.countW off n).threads = s.threads := rfl
@[simp] theorem mtvs_countW (off n : Nat) : (s.countW off n).mtvs = s.mtvs := rfl
@[simp] theorem stvs_countW (off n : Nat) : (s.countW off n).stvs = s.stvs := rfl
@[simp] theorem mstk_countW (off n : Nat) : (s.countW off n).mstk = s.mstk := rfl
@[simp] theorem sstk_countW (off n : Nat) : (s.countW off n).sstk = s.sstk := rfl
@[simp] theorem ctlWaits_countW (off n : Nat) : (s.countW off n).ctlWaits = s.ctlWaits := rfl
@[simp] theorem undelivered_countW (off n : Nat) : (s.countW off n).undelivered = s.undelivered := rfl
@[simp] theorem jobs_countW (off n : Nat) : (s.countW off n).jobs = s.jobs := rfl
@[simp] theorem fronds_countW (off n : Nat) : (s.countW off n).fronds = s.fronds := rfl
@[simp] theorem ledger_countW (off n : Nat) : (s.countW off n).ledger = s.ledger := rfl
@[simp] theorem mem_countW (off n : Nat) : (s.countW off n).mem = s.mem := rfl
@[simp] theorem matrix_countW (off n : Nat) : (s.countW off n).matrix = s.matrix := rfl
@[simp] theorem spores_countW (off n : Nat) : (s.countW off n).spores = s.spores := rfl
@[simp] theorem io_countW (off n : Nat) : (s.countW off n).io = s.io := rfl
@[simp] theorem fabric_countW (off n : Nat) : (s.countW off n).fabric = s.fabric := rfl
@[simp] theorem host_countW (off n : Nat) : (s.countW off n).host = s.host := rfl
@[simp] theorem fw_countW (off n : Nat) : (s.countW off n).fw = s.fw := rfl
@[simp] theorem upd_countW (off n : Nat) : (s.countW off n).upd = s.upd := rfl
@[simp] theorem bist_countW (off n : Nat) : (s.countW off n).bist = s.bist := rfl
@[simp] theorem dbg_countW (off n : Nat) : (s.countW off n).dbg = s.dbg := rfl
@[simp] theorem pmc_countW (off n : Nat) : (s.countW off n).pmc = s.pmc := rfl
@[simp] theorem power_countW (off n : Nat) : (s.countW off n).power = s.power := rfl
@[simp] theorem timers_countW (off n : Nat) : (s.countW off n).timers = s.timers := rfl
@[simp] theorem wdg_countW (off n : Nat) : (s.countW off n).wdg = s.wdg := rfl
@[simp] theorem pins_countW (off n : Nat) : (s.countW off n).pins = s.pins := rfl
@[simp] theorem locked_countW (off n : Nat) : (s.countW off n).locked = s.locked := rfl
@[simp] theorem free_countW (off n : Nat) : (s.countW off n).free = s.free := rfl
@[simp] theorem out_countW (off n : Nat) : (s.countW off n).out = s.out := rfl
@[simp] theorem pending_countW (off n : Nat) : (s.countW off n).pending = s.pending := rfl

/-! ### State.accessDone -/

@[simp] theorem clk_accessDone : (s.accessDone).clk = s.clk := rfl
@[simp] theorem now_accessDone : (s.accessDone).now = s.now := rfl
@[simp] theorem tb_accessDone : (s.accessDone).tb = s.tb := rfl
@[simp] theorem tbHold_accessDone : (s.accessDone).tbHold = s.tbHold := rfl
@[simp] theorem tbRate_accessDone : (s.accessDone).tbRate = s.tbRate := rfl
@[simp] theorem tbPart_accessDone : (s.accessDone).tbPart = s.tbPart := rfl
@[simp] theorem gen_accessDone : (s.accessDone).gen = s.gen := rfl
@[simp] theorem csr_accessDone : (s.accessDone).csr = s.csr := rfl
@[simp] theorem events_accessDone : (s.accessDone).events = [] := rfl
@[simp] theorem brought_accessDone : (s.accessDone).brought = [] := rfl
@[simp] theorem eventClk_accessDone : (s.accessDone).eventClk = s.eventClk := rfl
@[simp] theorem latches_accessDone : (s.accessDone).latches = s.latches := rfl
@[simp] theorem threads_accessDone : (s.accessDone).threads = s.threads := rfl
@[simp] theorem mtvs_accessDone : (s.accessDone).mtvs = s.mtvs := rfl
@[simp] theorem stvs_accessDone : (s.accessDone).stvs = s.stvs := rfl
@[simp] theorem mstk_accessDone : (s.accessDone).mstk = s.mstk := rfl
@[simp] theorem sstk_accessDone : (s.accessDone).sstk = s.sstk := rfl
@[simp] theorem ctlWaits_accessDone : (s.accessDone).ctlWaits = s.ctlWaits := rfl
@[simp] theorem undelivered_accessDone : (s.accessDone).undelivered = s.undelivered := rfl
@[simp] theorem jobs_accessDone : (s.accessDone).jobs = s.jobs := rfl
@[simp] theorem fronds_accessDone : (s.accessDone).fronds = s.fronds := rfl
@[simp] theorem ledger_accessDone : (s.accessDone).ledger = s.ledger := rfl
@[simp] theorem mem_accessDone : (s.accessDone).mem = s.mem := rfl
@[simp] theorem matrix_accessDone : (s.accessDone).matrix = s.matrix := rfl
@[simp] theorem spores_accessDone : (s.accessDone).spores = s.spores := rfl
@[simp] theorem io_accessDone : (s.accessDone).io = s.io := rfl
@[simp] theorem fabric_accessDone : (s.accessDone).fabric = s.fabric := rfl
@[simp] theorem host_accessDone : (s.accessDone).host = s.host := rfl
@[simp] theorem fw_accessDone : (s.accessDone).fw = s.fw := rfl
@[simp] theorem upd_accessDone : (s.accessDone).upd = s.upd := rfl
@[simp] theorem bist_accessDone : (s.accessDone).bist = s.bist := rfl
@[simp] theorem dbg_accessDone : (s.accessDone).dbg = s.dbg := rfl
@[simp] theorem pmc_accessDone : (s.accessDone).pmc = s.pmc := rfl
@[simp] theorem power_accessDone : (s.accessDone).power = s.power := rfl
@[simp] theorem timers_accessDone : (s.accessDone).timers = s.timers := rfl
@[simp] theorem wdg_accessDone : (s.accessDone).wdg = s.wdg := rfl
@[simp] theorem pins_accessDone : (s.accessDone).pins = s.pins := rfl
@[simp] theorem locked_accessDone : (s.accessDone).locked = s.locked := rfl
@[simp] theorem free_accessDone : (s.accessDone).free = s.free := rfl
@[simp] theorem out_accessDone : (s.accessDone).out = s.out := rfl
@[simp] theorem pending_accessDone : (s.accessDone).pending = s.pending := rfl

/-! ### State.onCtl -/

@[simp] theorem clk_onCtl (g : List CtlWait → List CtlWait) : (s.onCtl g).clk = s.clk := rfl
@[simp] theorem now_onCtl (g : List CtlWait → List CtlWait) : (s.onCtl g).now = s.now := rfl
@[simp] theorem tb_onCtl (g : List CtlWait → List CtlWait) : (s.onCtl g).tb = s.tb := rfl
@[simp] theorem tbHold_onCtl (g : List CtlWait → List CtlWait) : (s.onCtl g).tbHold = s.tbHold := rfl
@[simp] theorem tbRate_onCtl (g : List CtlWait → List CtlWait) : (s.onCtl g).tbRate = s.tbRate := rfl
@[simp] theorem tbPart_onCtl (g : List CtlWait → List CtlWait) : (s.onCtl g).tbPart = s.tbPart := rfl
@[simp] theorem gen_onCtl (g : List CtlWait → List CtlWait) : (s.onCtl g).gen = s.gen := rfl
@[simp] theorem csr_onCtl (g : List CtlWait → List CtlWait) : (s.onCtl g).csr = s.csr := rfl
@[simp] theorem events_onCtl (g : List CtlWait → List CtlWait) : (s.onCtl g).events = s.events := rfl
@[simp] theorem brought_onCtl (g : List CtlWait → List CtlWait) : (s.onCtl g).brought = s.brought := rfl
@[simp] theorem eventClk_onCtl (g : List CtlWait → List CtlWait) : (s.onCtl g).eventClk = s.eventClk := rfl
@[simp] theorem latches_onCtl (g : List CtlWait → List CtlWait) : (s.onCtl g).latches = s.latches := rfl
@[simp] theorem threads_onCtl (g : List CtlWait → List CtlWait) : (s.onCtl g).threads = s.threads := rfl
@[simp] theorem mtvs_onCtl (g : List CtlWait → List CtlWait) : (s.onCtl g).mtvs = s.mtvs := rfl
@[simp] theorem stvs_onCtl (g : List CtlWait → List CtlWait) : (s.onCtl g).stvs = s.stvs := rfl
@[simp] theorem mstk_onCtl (g : List CtlWait → List CtlWait) : (s.onCtl g).mstk = s.mstk := rfl
@[simp] theorem sstk_onCtl (g : List CtlWait → List CtlWait) : (s.onCtl g).sstk = s.sstk := rfl
@[simp] theorem ctlWaits_onCtl (g : List CtlWait → List CtlWait) : (s.onCtl g).ctlWaits = g s.ctlWaits := rfl
@[simp] theorem undelivered_onCtl (g : List CtlWait → List CtlWait) : (s.onCtl g).undelivered = s.undelivered := rfl
@[simp] theorem jobs_onCtl (g : List CtlWait → List CtlWait) : (s.onCtl g).jobs = s.jobs := rfl
@[simp] theorem fronds_onCtl (g : List CtlWait → List CtlWait) : (s.onCtl g).fronds = s.fronds := rfl
@[simp] theorem ledger_onCtl (g : List CtlWait → List CtlWait) : (s.onCtl g).ledger = s.ledger := rfl
@[simp] theorem mem_onCtl (g : List CtlWait → List CtlWait) : (s.onCtl g).mem = s.mem := rfl
@[simp] theorem matrix_onCtl (g : List CtlWait → List CtlWait) : (s.onCtl g).matrix = s.matrix := rfl
@[simp] theorem spores_onCtl (g : List CtlWait → List CtlWait) : (s.onCtl g).spores = s.spores := rfl
@[simp] theorem io_onCtl (g : List CtlWait → List CtlWait) : (s.onCtl g).io = s.io := rfl
@[simp] theorem fabric_onCtl (g : List CtlWait → List CtlWait) : (s.onCtl g).fabric = s.fabric := rfl
@[simp] theorem host_onCtl (g : List CtlWait → List CtlWait) : (s.onCtl g).host = s.host := rfl
@[simp] theorem fw_onCtl (g : List CtlWait → List CtlWait) : (s.onCtl g).fw = s.fw := rfl
@[simp] theorem upd_onCtl (g : List CtlWait → List CtlWait) : (s.onCtl g).upd = s.upd := rfl
@[simp] theorem bist_onCtl (g : List CtlWait → List CtlWait) : (s.onCtl g).bist = s.bist := rfl
@[simp] theorem dbg_onCtl (g : List CtlWait → List CtlWait) : (s.onCtl g).dbg = s.dbg := rfl
@[simp] theorem pmc_onCtl (g : List CtlWait → List CtlWait) : (s.onCtl g).pmc = s.pmc := rfl
@[simp] theorem power_onCtl (g : List CtlWait → List CtlWait) : (s.onCtl g).power = s.power := rfl
@[simp] theorem timers_onCtl (g : List CtlWait → List CtlWait) : (s.onCtl g).timers = s.timers := rfl
@[simp] theorem wdg_onCtl (g : List CtlWait → List CtlWait) : (s.onCtl g).wdg = s.wdg := rfl
@[simp] theorem pins_onCtl (g : List CtlWait → List CtlWait) : (s.onCtl g).pins = s.pins := rfl
@[simp] theorem locked_onCtl (g : List CtlWait → List CtlWait) : (s.onCtl g).locked = s.locked := rfl
@[simp] theorem free_onCtl (g : List CtlWait → List CtlWait) : (s.onCtl g).free = s.free := rfl
@[simp] theorem out_onCtl (g : List CtlWait → List CtlWait) : (s.onCtl g).out = s.out := rfl
@[simp] theorem pending_onCtl (g : List CtlWait → List CtlWait) : (s.onCtl g).pending = s.pending := rfl

/-! ### State.onEth -/

@[simp] theorem clk_onEth (e : Nat) (g : EthPort → EthPort) : (s.onEth e g).clk = s.clk := rfl
@[simp] theorem now_onEth (e : Nat) (g : EthPort → EthPort) : (s.onEth e g).now = s.now := rfl
@[simp] theorem tb_onEth (e : Nat) (g : EthPort → EthPort) : (s.onEth e g).tb = s.tb := rfl
@[simp] theorem tbHold_onEth (e : Nat) (g : EthPort → EthPort) : (s.onEth e g).tbHold = s.tbHold := rfl
@[simp] theorem tbRate_onEth (e : Nat) (g : EthPort → EthPort) : (s.onEth e g).tbRate = s.tbRate := rfl
@[simp] theorem tbPart_onEth (e : Nat) (g : EthPort → EthPort) : (s.onEth e g).tbPart = s.tbPart := rfl
@[simp] theorem gen_onEth (e : Nat) (g : EthPort → EthPort) : (s.onEth e g).gen = s.gen := rfl
@[simp] theorem csr_onEth (e : Nat) (g : EthPort → EthPort) : (s.onEth e g).csr = s.csr := rfl
@[simp] theorem events_onEth (e : Nat) (g : EthPort → EthPort) : (s.onEth e g).events = s.events := rfl
@[simp] theorem brought_onEth (e : Nat) (g : EthPort → EthPort) : (s.onEth e g).brought = s.brought := rfl
@[simp] theorem eventClk_onEth (e : Nat) (g : EthPort → EthPort) : (s.onEth e g).eventClk = s.eventClk := rfl
@[simp] theorem latches_onEth (e : Nat) (g : EthPort → EthPort) : (s.onEth e g).latches = s.latches := rfl
@[simp] theorem threads_onEth (e : Nat) (g : EthPort → EthPort) : (s.onEth e g).threads = s.threads := rfl
@[simp] theorem mtvs_onEth (e : Nat) (g : EthPort → EthPort) : (s.onEth e g).mtvs = s.mtvs := rfl
@[simp] theorem stvs_onEth (e : Nat) (g : EthPort → EthPort) : (s.onEth e g).stvs = s.stvs := rfl
@[simp] theorem mstk_onEth (e : Nat) (g : EthPort → EthPort) : (s.onEth e g).mstk = s.mstk := rfl
@[simp] theorem sstk_onEth (e : Nat) (g : EthPort → EthPort) : (s.onEth e g).sstk = s.sstk := rfl
@[simp] theorem ctlWaits_onEth (e : Nat) (g : EthPort → EthPort) : (s.onEth e g).ctlWaits = s.ctlWaits := rfl
@[simp] theorem undelivered_onEth (e : Nat) (g : EthPort → EthPort) : (s.onEth e g).undelivered = s.undelivered := rfl
@[simp] theorem jobs_onEth (e : Nat) (g : EthPort → EthPort) : (s.onEth e g).jobs = s.jobs := rfl
@[simp] theorem fronds_onEth (e : Nat) (g : EthPort → EthPort) : (s.onEth e g).fronds = s.fronds := rfl
@[simp] theorem ledger_onEth (e : Nat) (g : EthPort → EthPort) : (s.onEth e g).ledger = s.ledger := rfl
@[simp] theorem mem_onEth (e : Nat) (g : EthPort → EthPort) : (s.onEth e g).mem = s.mem := rfl
@[simp] theorem matrix_onEth (e : Nat) (g : EthPort → EthPort) : (s.onEth e g).matrix = s.matrix := rfl
@[simp] theorem spores_onEth (e : Nat) (g : EthPort → EthPort) : (s.onEth e g).spores = s.spores := rfl
@[simp] theorem io_onEth (e : Nat) (g : EthPort → EthPort) : (s.onEth e g).io = { s.io with eth := s.io.eth.set e (g (s.io.eth.get e)) } := rfl
@[simp] theorem fabric_onEth (e : Nat) (g : EthPort → EthPort) : (s.onEth e g).fabric = s.fabric := rfl
@[simp] theorem host_onEth (e : Nat) (g : EthPort → EthPort) : (s.onEth e g).host = s.host := rfl
@[simp] theorem fw_onEth (e : Nat) (g : EthPort → EthPort) : (s.onEth e g).fw = s.fw := rfl
@[simp] theorem upd_onEth (e : Nat) (g : EthPort → EthPort) : (s.onEth e g).upd = s.upd := rfl
@[simp] theorem bist_onEth (e : Nat) (g : EthPort → EthPort) : (s.onEth e g).bist = s.bist := rfl
@[simp] theorem dbg_onEth (e : Nat) (g : EthPort → EthPort) : (s.onEth e g).dbg = s.dbg := rfl
@[simp] theorem pmc_onEth (e : Nat) (g : EthPort → EthPort) : (s.onEth e g).pmc = s.pmc := rfl
@[simp] theorem power_onEth (e : Nat) (g : EthPort → EthPort) : (s.onEth e g).power = s.power := rfl
@[simp] theorem timers_onEth (e : Nat) (g : EthPort → EthPort) : (s.onEth e g).timers = s.timers := rfl
@[simp] theorem wdg_onEth (e : Nat) (g : EthPort → EthPort) : (s.onEth e g).wdg = s.wdg := rfl
@[simp] theorem pins_onEth (e : Nat) (g : EthPort → EthPort) : (s.onEth e g).pins = s.pins := rfl
@[simp] theorem locked_onEth (e : Nat) (g : EthPort → EthPort) : (s.onEth e g).locked = s.locked := rfl
@[simp] theorem free_onEth (e : Nat) (g : EthPort → EthPort) : (s.onEth e g).free = s.free := rfl
@[simp] theorem out_onEth (e : Nat) (g : EthPort → EthPort) : (s.onEth e g).out = s.out := rfl
@[simp] theorem pending_onEth (e : Nat) (g : EthPort → EthPort) : (s.onEth e g).pending = s.pending := rfl

/-! ### State.onLnk -/

@[simp] theorem clk_onLnk (p : Nat) (g : LichenPort → LichenPort) : (s.onLnk p g).clk = s.clk := rfl
@[simp] theorem now_onLnk (p : Nat) (g : LichenPort → LichenPort) : (s.onLnk p g).now = s.now := rfl
@[simp] theorem tb_onLnk (p : Nat) (g : LichenPort → LichenPort) : (s.onLnk p g).tb = s.tb := rfl
@[simp] theorem tbHold_onLnk (p : Nat) (g : LichenPort → LichenPort) : (s.onLnk p g).tbHold = s.tbHold := rfl
@[simp] theorem tbRate_onLnk (p : Nat) (g : LichenPort → LichenPort) : (s.onLnk p g).tbRate = s.tbRate := rfl
@[simp] theorem tbPart_onLnk (p : Nat) (g : LichenPort → LichenPort) : (s.onLnk p g).tbPart = s.tbPart := rfl
@[simp] theorem gen_onLnk (p : Nat) (g : LichenPort → LichenPort) : (s.onLnk p g).gen = s.gen := rfl
@[simp] theorem csr_onLnk (p : Nat) (g : LichenPort → LichenPort) : (s.onLnk p g).csr = s.csr := rfl
@[simp] theorem events_onLnk (p : Nat) (g : LichenPort → LichenPort) : (s.onLnk p g).events = s.events := rfl
@[simp] theorem brought_onLnk (p : Nat) (g : LichenPort → LichenPort) : (s.onLnk p g).brought = s.brought := rfl
@[simp] theorem eventClk_onLnk (p : Nat) (g : LichenPort → LichenPort) : (s.onLnk p g).eventClk = s.eventClk := rfl
@[simp] theorem latches_onLnk (p : Nat) (g : LichenPort → LichenPort) : (s.onLnk p g).latches = s.latches := rfl
@[simp] theorem threads_onLnk (p : Nat) (g : LichenPort → LichenPort) : (s.onLnk p g).threads = s.threads := rfl
@[simp] theorem mtvs_onLnk (p : Nat) (g : LichenPort → LichenPort) : (s.onLnk p g).mtvs = s.mtvs := rfl
@[simp] theorem stvs_onLnk (p : Nat) (g : LichenPort → LichenPort) : (s.onLnk p g).stvs = s.stvs := rfl
@[simp] theorem mstk_onLnk (p : Nat) (g : LichenPort → LichenPort) : (s.onLnk p g).mstk = s.mstk := rfl
@[simp] theorem sstk_onLnk (p : Nat) (g : LichenPort → LichenPort) : (s.onLnk p g).sstk = s.sstk := rfl
@[simp] theorem ctlWaits_onLnk (p : Nat) (g : LichenPort → LichenPort) : (s.onLnk p g).ctlWaits = s.ctlWaits := rfl
@[simp] theorem undelivered_onLnk (p : Nat) (g : LichenPort → LichenPort) : (s.onLnk p g).undelivered = s.undelivered := rfl
@[simp] theorem jobs_onLnk (p : Nat) (g : LichenPort → LichenPort) : (s.onLnk p g).jobs = s.jobs := rfl
@[simp] theorem fronds_onLnk (p : Nat) (g : LichenPort → LichenPort) : (s.onLnk p g).fronds = s.fronds := rfl
@[simp] theorem ledger_onLnk (p : Nat) (g : LichenPort → LichenPort) : (s.onLnk p g).ledger = s.ledger := rfl
@[simp] theorem mem_onLnk (p : Nat) (g : LichenPort → LichenPort) : (s.onLnk p g).mem = s.mem := rfl
@[simp] theorem matrix_onLnk (p : Nat) (g : LichenPort → LichenPort) : (s.onLnk p g).matrix = s.matrix := rfl
@[simp] theorem spores_onLnk (p : Nat) (g : LichenPort → LichenPort) : (s.onLnk p g).spores = s.spores := rfl
@[simp] theorem io_onLnk (p : Nat) (g : LichenPort → LichenPort) : (s.onLnk p g).io = s.io := rfl
@[simp] theorem fabric_onLnk (p : Nat) (g : LichenPort → LichenPort) : (s.onLnk p g).fabric = { s.fabric with ports := s.fabric.ports.set p (g (s.fabric.ports.get p)) } := rfl
@[simp] theorem host_onLnk (p : Nat) (g : LichenPort → LichenPort) : (s.onLnk p g).host = s.host := rfl
@[simp] theorem fw_onLnk (p : Nat) (g : LichenPort → LichenPort) : (s.onLnk p g).fw = s.fw := rfl
@[simp] theorem upd_onLnk (p : Nat) (g : LichenPort → LichenPort) : (s.onLnk p g).upd = s.upd := rfl
@[simp] theorem bist_onLnk (p : Nat) (g : LichenPort → LichenPort) : (s.onLnk p g).bist = s.bist := rfl
@[simp] theorem dbg_onLnk (p : Nat) (g : LichenPort → LichenPort) : (s.onLnk p g).dbg = s.dbg := rfl
@[simp] theorem pmc_onLnk (p : Nat) (g : LichenPort → LichenPort) : (s.onLnk p g).pmc = s.pmc := rfl
@[simp] theorem power_onLnk (p : Nat) (g : LichenPort → LichenPort) : (s.onLnk p g).power = s.power := rfl
@[simp] theorem timers_onLnk (p : Nat) (g : LichenPort → LichenPort) : (s.onLnk p g).timers = s.timers := rfl
@[simp] theorem wdg_onLnk (p : Nat) (g : LichenPort → LichenPort) : (s.onLnk p g).wdg = s.wdg := rfl
@[simp] theorem pins_onLnk (p : Nat) (g : LichenPort → LichenPort) : (s.onLnk p g).pins = s.pins := rfl
@[simp] theorem locked_onLnk (p : Nat) (g : LichenPort → LichenPort) : (s.onLnk p g).locked = s.locked := rfl
@[simp] theorem free_onLnk (p : Nat) (g : LichenPort → LichenPort) : (s.onLnk p g).free = s.free := rfl
@[simp] theorem out_onLnk (p : Nat) (g : LichenPort → LichenPort) : (s.onLnk p g).out = s.out := rfl
@[simp] theorem pending_onLnk (p : Nat) (g : LichenPort → LichenPort) : (s.onLnk p g).pending = s.pending := rfl

/-! ### State.produceOn -/

@[simp] theorem clk_produceOn (e : Event) : (s.produceOn e).clk = s.clk := rfl
@[simp] theorem now_produceOn (e : Event) : (s.produceOn e).now = s.now := rfl
@[simp] theorem tb_produceOn (e : Event) : (s.produceOn e).tb = s.tb := rfl
@[simp] theorem tbHold_produceOn (e : Event) : (s.produceOn e).tbHold = s.tbHold := rfl
@[simp] theorem tbRate_produceOn (e : Event) : (s.produceOn e).tbRate = s.tbRate := rfl
@[simp] theorem tbPart_produceOn (e : Event) : (s.produceOn e).tbPart = s.tbPart := rfl
@[simp] theorem gen_produceOn (e : Event) : (s.produceOn e).gen = s.gen := rfl
@[simp] theorem csr_produceOn (e : Event) : (s.produceOn e).csr = s.csr := rfl
@[simp] theorem events_produceOn (e : Event) : (s.produceOn e).events = s.events := rfl
@[simp] theorem brought_produceOn (e : Event) : (s.produceOn e).brought = s.brought := rfl
@[simp] theorem eventClk_produceOn (e : Event) : (s.produceOn e).eventClk = s.eventClk := rfl
@[simp] theorem latches_produceOn (e : Event) : (s.produceOn e).latches = s.latches := rfl
@[simp] theorem threads_produceOn (e : Event) : (s.produceOn e).threads = s.threads := rfl
@[simp] theorem mtvs_produceOn (e : Event) : (s.produceOn e).mtvs = s.mtvs := rfl
@[simp] theorem stvs_produceOn (e : Event) : (s.produceOn e).stvs = s.stvs := rfl
@[simp] theorem mstk_produceOn (e : Event) : (s.produceOn e).mstk = s.mstk := rfl
@[simp] theorem sstk_produceOn (e : Event) : (s.produceOn e).sstk = s.sstk := rfl
@[simp] theorem ctlWaits_produceOn (e : Event) : (s.produceOn e).ctlWaits = s.ctlWaits := rfl
@[simp] theorem undelivered_produceOn (e : Event) : (s.produceOn e).undelivered = s.undelivered := rfl
@[simp] theorem jobs_produceOn (e : Event) : (s.produceOn e).jobs = s.jobs := rfl
@[simp] theorem fronds_produceOn (e : Event) : (s.produceOn e).fronds = s.fronds := rfl
@[simp] theorem ledger_produceOn (e : Event) : (s.produceOn e).ledger = s.ledger := rfl
@[simp] theorem mem_produceOn (e : Event) : (s.produceOn e).mem = s.mem := rfl
@[simp] theorem matrix_produceOn (e : Event) : (s.produceOn e).matrix = s.matrix := rfl
@[simp] theorem spores_produceOn (e : Event) : (s.produceOn e).spores = { s.spores with events := s.spores.events ++ [e] } := rfl
@[simp] theorem io_produceOn (e : Event) : (s.produceOn e).io = s.io := rfl
@[simp] theorem fabric_produceOn (e : Event) : (s.produceOn e).fabric = s.fabric := rfl
@[simp] theorem host_produceOn (e : Event) : (s.produceOn e).host = s.host := rfl
@[simp] theorem fw_produceOn (e : Event) : (s.produceOn e).fw = s.fw := rfl
@[simp] theorem upd_produceOn (e : Event) : (s.produceOn e).upd = s.upd := rfl
@[simp] theorem bist_produceOn (e : Event) : (s.produceOn e).bist = s.bist := rfl
@[simp] theorem dbg_produceOn (e : Event) : (s.produceOn e).dbg = s.dbg := rfl
@[simp] theorem pmc_produceOn (e : Event) : (s.produceOn e).pmc = s.pmc := rfl
@[simp] theorem power_produceOn (e : Event) : (s.produceOn e).power = s.power := rfl
@[simp] theorem timers_produceOn (e : Event) : (s.produceOn e).timers = s.timers := rfl
@[simp] theorem wdg_produceOn (e : Event) : (s.produceOn e).wdg = s.wdg := rfl
@[simp] theorem pins_produceOn (e : Event) : (s.produceOn e).pins = s.pins := rfl
@[simp] theorem locked_produceOn (e : Event) : (s.produceOn e).locked = s.locked := rfl
@[simp] theorem free_produceOn (e : Event) : (s.produceOn e).free = s.free := rfl
@[simp] theorem out_produceOn (e : Event) : (s.produceOn e).out = s.out := rfl
@[simp] theorem pending_produceOn (e : Event) : (s.produceOn e).pending = s.pending := rfl

/-! ### State.produce -/

@[simp] theorem clk_produce (kind param : Nat) : (s.produce kind param).clk = s.clk := rfl
@[simp] theorem now_produce (kind param : Nat) : (s.produce kind param).now = s.now := rfl
@[simp] theorem tb_produce (kind param : Nat) : (s.produce kind param).tb = s.tb := rfl
@[simp] theorem tbHold_produce (kind param : Nat) : (s.produce kind param).tbHold = s.tbHold := rfl
@[simp] theorem tbRate_produce (kind param : Nat) : (s.produce kind param).tbRate = s.tbRate := rfl
@[simp] theorem tbPart_produce (kind param : Nat) : (s.produce kind param).tbPart = s.tbPart := rfl
@[simp] theorem gen_produce (kind param : Nat) : (s.produce kind param).gen = s.gen := rfl
@[simp] theorem csr_produce (kind param : Nat) : (s.produce kind param).csr = s.csr := rfl
@[simp] theorem events_produce (kind param : Nat) : (s.produce kind param).events = s.events := rfl
@[simp] theorem brought_produce (kind param : Nat) : (s.produce kind param).brought = s.brought := rfl
@[simp] theorem eventClk_produce (kind param : Nat) : (s.produce kind param).eventClk = s.eventClk := rfl
@[simp] theorem latches_produce (kind param : Nat) : (s.produce kind param).latches = s.latches := rfl
@[simp] theorem threads_produce (kind param : Nat) : (s.produce kind param).threads = s.threads := rfl
@[simp] theorem mtvs_produce (kind param : Nat) : (s.produce kind param).mtvs = s.mtvs := rfl
@[simp] theorem stvs_produce (kind param : Nat) : (s.produce kind param).stvs = s.stvs := rfl
@[simp] theorem mstk_produce (kind param : Nat) : (s.produce kind param).mstk = s.mstk := rfl
@[simp] theorem sstk_produce (kind param : Nat) : (s.produce kind param).sstk = s.sstk := rfl
@[simp] theorem ctlWaits_produce (kind param : Nat) : (s.produce kind param).ctlWaits = s.ctlWaits := rfl
@[simp] theorem undelivered_produce (kind param : Nat) : (s.produce kind param).undelivered = s.undelivered := rfl
@[simp] theorem jobs_produce (kind param : Nat) : (s.produce kind param).jobs = s.jobs := rfl
@[simp] theorem fronds_produce (kind param : Nat) : (s.produce kind param).fronds = s.fronds := rfl
@[simp] theorem ledger_produce (kind param : Nat) : (s.produce kind param).ledger = s.ledger := rfl
@[simp] theorem mem_produce (kind param : Nat) : (s.produce kind param).mem = s.mem := rfl
@[simp] theorem matrix_produce (kind param : Nat) : (s.produce kind param).matrix = s.matrix := rfl
@[simp] theorem spores_produce (kind param : Nat) : (s.produce kind param).spores = { s.spores with events := s.spores.events ++ [{ kind := kind, param := param }] } := rfl
@[simp] theorem io_produce (kind param : Nat) : (s.produce kind param).io = s.io := rfl
@[simp] theorem fabric_produce (kind param : Nat) : (s.produce kind param).fabric = s.fabric := rfl
@[simp] theorem host_produce (kind param : Nat) : (s.produce kind param).host = s.host := rfl
@[simp] theorem fw_produce (kind param : Nat) : (s.produce kind param).fw = s.fw := rfl
@[simp] theorem upd_produce (kind param : Nat) : (s.produce kind param).upd = s.upd := rfl
@[simp] theorem bist_produce (kind param : Nat) : (s.produce kind param).bist = s.bist := rfl
@[simp] theorem dbg_produce (kind param : Nat) : (s.produce kind param).dbg = s.dbg := rfl
@[simp] theorem pmc_produce (kind param : Nat) : (s.produce kind param).pmc = s.pmc := rfl
@[simp] theorem power_produce (kind param : Nat) : (s.produce kind param).power = s.power := rfl
@[simp] theorem timers_produce (kind param : Nat) : (s.produce kind param).timers = s.timers := rfl
@[simp] theorem wdg_produce (kind param : Nat) : (s.produce kind param).wdg = s.wdg := rfl
@[simp] theorem pins_produce (kind param : Nat) : (s.produce kind param).pins = s.pins := rfl
@[simp] theorem locked_produce (kind param : Nat) : (s.produce kind param).locked = s.locked := rfl
@[simp] theorem free_produce (kind param : Nat) : (s.produce kind param).free = s.free := rfl
@[simp] theorem out_produce (kind param : Nat) : (s.produce kind param).out = s.out := rfl
@[simp] theorem pending_produce (kind param : Nat) : (s.produce kind param).pending = s.pending := rfl

/-! ### State.setThr -/

@[simp] theorem clk_setThr (t : Nat) (h : Thread) : (s.setThr t h).clk = s.clk := rfl
@[simp] theorem now_setThr (t : Nat) (h : Thread) : (s.setThr t h).now = s.now := rfl
@[simp] theorem tb_setThr (t : Nat) (h : Thread) : (s.setThr t h).tb = s.tb := rfl
@[simp] theorem tbHold_setThr (t : Nat) (h : Thread) : (s.setThr t h).tbHold = s.tbHold := rfl
@[simp] theorem tbRate_setThr (t : Nat) (h : Thread) : (s.setThr t h).tbRate = s.tbRate := rfl
@[simp] theorem tbPart_setThr (t : Nat) (h : Thread) : (s.setThr t h).tbPart = s.tbPart := rfl
@[simp] theorem gen_setThr (t : Nat) (h : Thread) : (s.setThr t h).gen = s.gen := rfl
@[simp] theorem csr_setThr (t : Nat) (h : Thread) : (s.setThr t h).csr = s.csr := rfl
@[simp] theorem events_setThr (t : Nat) (h : Thread) : (s.setThr t h).events = s.events := rfl
@[simp] theorem brought_setThr (t : Nat) (h : Thread) : (s.setThr t h).brought = s.brought := rfl
@[simp] theorem eventClk_setThr (t : Nat) (h : Thread) : (s.setThr t h).eventClk = s.eventClk := rfl
@[simp] theorem latches_setThr (t : Nat) (h : Thread) : (s.setThr t h).latches = s.latches := rfl
@[simp] theorem threads_setThr (t : Nat) (h : Thread) : (s.setThr t h).threads = s.threads.set t h := rfl
@[simp] theorem mtvs_setThr (t : Nat) (h : Thread) : (s.setThr t h).mtvs = s.mtvs := rfl
@[simp] theorem stvs_setThr (t : Nat) (h : Thread) : (s.setThr t h).stvs = s.stvs := rfl
@[simp] theorem mstk_setThr (t : Nat) (h : Thread) : (s.setThr t h).mstk = s.mstk := rfl
@[simp] theorem sstk_setThr (t : Nat) (h : Thread) : (s.setThr t h).sstk = s.sstk := rfl
@[simp] theorem ctlWaits_setThr (t : Nat) (h : Thread) : (s.setThr t h).ctlWaits = s.ctlWaits := rfl
@[simp] theorem undelivered_setThr (t : Nat) (h : Thread) : (s.setThr t h).undelivered = s.undelivered := rfl
@[simp] theorem jobs_setThr (t : Nat) (h : Thread) : (s.setThr t h).jobs = s.jobs := rfl
@[simp] theorem fronds_setThr (t : Nat) (h : Thread) : (s.setThr t h).fronds = s.fronds := rfl
@[simp] theorem ledger_setThr (t : Nat) (h : Thread) : (s.setThr t h).ledger = s.ledger := rfl
@[simp] theorem mem_setThr (t : Nat) (h : Thread) : (s.setThr t h).mem = s.mem := rfl
@[simp] theorem matrix_setThr (t : Nat) (h : Thread) : (s.setThr t h).matrix = s.matrix := rfl
@[simp] theorem spores_setThr (t : Nat) (h : Thread) : (s.setThr t h).spores = s.spores := rfl
@[simp] theorem io_setThr (t : Nat) (h : Thread) : (s.setThr t h).io = s.io := rfl
@[simp] theorem fabric_setThr (t : Nat) (h : Thread) : (s.setThr t h).fabric = s.fabric := rfl
@[simp] theorem host_setThr (t : Nat) (h : Thread) : (s.setThr t h).host = s.host := rfl
@[simp] theorem fw_setThr (t : Nat) (h : Thread) : (s.setThr t h).fw = s.fw := rfl
@[simp] theorem upd_setThr (t : Nat) (h : Thread) : (s.setThr t h).upd = s.upd := rfl
@[simp] theorem bist_setThr (t : Nat) (h : Thread) : (s.setThr t h).bist = s.bist := rfl
@[simp] theorem dbg_setThr (t : Nat) (h : Thread) : (s.setThr t h).dbg = s.dbg := rfl
@[simp] theorem pmc_setThr (t : Nat) (h : Thread) : (s.setThr t h).pmc = s.pmc := rfl
@[simp] theorem power_setThr (t : Nat) (h : Thread) : (s.setThr t h).power = s.power := rfl
@[simp] theorem timers_setThr (t : Nat) (h : Thread) : (s.setThr t h).timers = s.timers := rfl
@[simp] theorem wdg_setThr (t : Nat) (h : Thread) : (s.setThr t h).wdg = s.wdg := rfl
@[simp] theorem pins_setThr (t : Nat) (h : Thread) : (s.setThr t h).pins = s.pins := rfl
@[simp] theorem locked_setThr (t : Nat) (h : Thread) : (s.setThr t h).locked = s.locked := rfl
@[simp] theorem free_setThr (t : Nat) (h : Thread) : (s.setThr t h).free = s.free := rfl
@[simp] theorem out_setThr (t : Nat) (h : Thread) : (s.setThr t h).out = s.out := rfl
@[simp] theorem pending_setThr (t : Nat) (h : Thread) : (s.setThr t h).pending = s.pending := rfl

/-! ### State.onThr -/

@[simp] theorem clk_onThr (t : Nat) (g : Thread → Thread) : (s.onThr t g).clk = s.clk := rfl
@[simp] theorem now_onThr (t : Nat) (g : Thread → Thread) : (s.onThr t g).now = s.now := rfl
@[simp] theorem tb_onThr (t : Nat) (g : Thread → Thread) : (s.onThr t g).tb = s.tb := rfl
@[simp] theorem tbHold_onThr (t : Nat) (g : Thread → Thread) : (s.onThr t g).tbHold = s.tbHold := rfl
@[simp] theorem tbRate_onThr (t : Nat) (g : Thread → Thread) : (s.onThr t g).tbRate = s.tbRate := rfl
@[simp] theorem tbPart_onThr (t : Nat) (g : Thread → Thread) : (s.onThr t g).tbPart = s.tbPart := rfl
@[simp] theorem gen_onThr (t : Nat) (g : Thread → Thread) : (s.onThr t g).gen = s.gen := rfl
@[simp] theorem csr_onThr (t : Nat) (g : Thread → Thread) : (s.onThr t g).csr = s.csr := rfl
@[simp] theorem events_onThr (t : Nat) (g : Thread → Thread) : (s.onThr t g).events = s.events := rfl
@[simp] theorem brought_onThr (t : Nat) (g : Thread → Thread) : (s.onThr t g).brought = s.brought := rfl
@[simp] theorem eventClk_onThr (t : Nat) (g : Thread → Thread) : (s.onThr t g).eventClk = s.eventClk := rfl
@[simp] theorem latches_onThr (t : Nat) (g : Thread → Thread) : (s.onThr t g).latches = s.latches := rfl
@[simp] theorem threads_onThr (t : Nat) (g : Thread → Thread) : (s.onThr t g).threads = s.threads.set t (g (s.thr t)) := rfl
@[simp] theorem mtvs_onThr (t : Nat) (g : Thread → Thread) : (s.onThr t g).mtvs = s.mtvs := rfl
@[simp] theorem stvs_onThr (t : Nat) (g : Thread → Thread) : (s.onThr t g).stvs = s.stvs := rfl
@[simp] theorem mstk_onThr (t : Nat) (g : Thread → Thread) : (s.onThr t g).mstk = s.mstk := rfl
@[simp] theorem sstk_onThr (t : Nat) (g : Thread → Thread) : (s.onThr t g).sstk = s.sstk := rfl
@[simp] theorem ctlWaits_onThr (t : Nat) (g : Thread → Thread) : (s.onThr t g).ctlWaits = s.ctlWaits := rfl
@[simp] theorem undelivered_onThr (t : Nat) (g : Thread → Thread) : (s.onThr t g).undelivered = s.undelivered := rfl
@[simp] theorem jobs_onThr (t : Nat) (g : Thread → Thread) : (s.onThr t g).jobs = s.jobs := rfl
@[simp] theorem fronds_onThr (t : Nat) (g : Thread → Thread) : (s.onThr t g).fronds = s.fronds := rfl
@[simp] theorem ledger_onThr (t : Nat) (g : Thread → Thread) : (s.onThr t g).ledger = s.ledger := rfl
@[simp] theorem mem_onThr (t : Nat) (g : Thread → Thread) : (s.onThr t g).mem = s.mem := rfl
@[simp] theorem matrix_onThr (t : Nat) (g : Thread → Thread) : (s.onThr t g).matrix = s.matrix := rfl
@[simp] theorem spores_onThr (t : Nat) (g : Thread → Thread) : (s.onThr t g).spores = s.spores := rfl
@[simp] theorem io_onThr (t : Nat) (g : Thread → Thread) : (s.onThr t g).io = s.io := rfl
@[simp] theorem fabric_onThr (t : Nat) (g : Thread → Thread) : (s.onThr t g).fabric = s.fabric := rfl
@[simp] theorem host_onThr (t : Nat) (g : Thread → Thread) : (s.onThr t g).host = s.host := rfl
@[simp] theorem fw_onThr (t : Nat) (g : Thread → Thread) : (s.onThr t g).fw = s.fw := rfl
@[simp] theorem upd_onThr (t : Nat) (g : Thread → Thread) : (s.onThr t g).upd = s.upd := rfl
@[simp] theorem bist_onThr (t : Nat) (g : Thread → Thread) : (s.onThr t g).bist = s.bist := rfl
@[simp] theorem dbg_onThr (t : Nat) (g : Thread → Thread) : (s.onThr t g).dbg = s.dbg := rfl
@[simp] theorem pmc_onThr (t : Nat) (g : Thread → Thread) : (s.onThr t g).pmc = s.pmc := rfl
@[simp] theorem power_onThr (t : Nat) (g : Thread → Thread) : (s.onThr t g).power = s.power := rfl
@[simp] theorem timers_onThr (t : Nat) (g : Thread → Thread) : (s.onThr t g).timers = s.timers := rfl
@[simp] theorem wdg_onThr (t : Nat) (g : Thread → Thread) : (s.onThr t g).wdg = s.wdg := rfl
@[simp] theorem pins_onThr (t : Nat) (g : Thread → Thread) : (s.onThr t g).pins = s.pins := rfl
@[simp] theorem locked_onThr (t : Nat) (g : Thread → Thread) : (s.onThr t g).locked = s.locked := rfl
@[simp] theorem free_onThr (t : Nat) (g : Thread → Thread) : (s.onThr t g).free = s.free := rfl
@[simp] theorem out_onThr (t : Nat) (g : Thread → Thread) : (s.onThr t g).out = s.out := rfl
@[simp] theorem pending_onThr (t : Nat) (g : Thread → Thread) : (s.onThr t g).pending = s.pending := rfl

/-! ### State.onLdg -/

@[simp] theorem clk_onLdg (g : Ledger → Ledger) : (s.onLdg g).clk = s.clk := rfl
@[simp] theorem now_onLdg (g : Ledger → Ledger) : (s.onLdg g).now = s.now := rfl
@[simp] theorem tb_onLdg (g : Ledger → Ledger) : (s.onLdg g).tb = s.tb := rfl
@[simp] theorem tbHold_onLdg (g : Ledger → Ledger) : (s.onLdg g).tbHold = s.tbHold := rfl
@[simp] theorem tbRate_onLdg (g : Ledger → Ledger) : (s.onLdg g).tbRate = s.tbRate := rfl
@[simp] theorem tbPart_onLdg (g : Ledger → Ledger) : (s.onLdg g).tbPart = s.tbPart := rfl
@[simp] theorem gen_onLdg (g : Ledger → Ledger) : (s.onLdg g).gen = s.gen := rfl
@[simp] theorem csr_onLdg (g : Ledger → Ledger) : (s.onLdg g).csr = s.csr := rfl
@[simp] theorem events_onLdg (g : Ledger → Ledger) : (s.onLdg g).events = s.events := rfl
@[simp] theorem brought_onLdg (g : Ledger → Ledger) : (s.onLdg g).brought = s.brought := rfl
@[simp] theorem eventClk_onLdg (g : Ledger → Ledger) : (s.onLdg g).eventClk = s.eventClk := rfl
@[simp] theorem latches_onLdg (g : Ledger → Ledger) : (s.onLdg g).latches = s.latches := rfl
@[simp] theorem threads_onLdg (g : Ledger → Ledger) : (s.onLdg g).threads = s.threads := rfl
@[simp] theorem mtvs_onLdg (g : Ledger → Ledger) : (s.onLdg g).mtvs = s.mtvs := rfl
@[simp] theorem stvs_onLdg (g : Ledger → Ledger) : (s.onLdg g).stvs = s.stvs := rfl
@[simp] theorem mstk_onLdg (g : Ledger → Ledger) : (s.onLdg g).mstk = s.mstk := rfl
@[simp] theorem sstk_onLdg (g : Ledger → Ledger) : (s.onLdg g).sstk = s.sstk := rfl
@[simp] theorem ctlWaits_onLdg (g : Ledger → Ledger) : (s.onLdg g).ctlWaits = s.ctlWaits := rfl
@[simp] theorem undelivered_onLdg (g : Ledger → Ledger) : (s.onLdg g).undelivered = s.undelivered := rfl
@[simp] theorem jobs_onLdg (g : Ledger → Ledger) : (s.onLdg g).jobs = s.jobs := rfl
@[simp] theorem fronds_onLdg (g : Ledger → Ledger) : (s.onLdg g).fronds = s.fronds := rfl
@[simp] theorem ledger_onLdg (g : Ledger → Ledger) : (s.onLdg g).ledger = g s.ledger := rfl
@[simp] theorem mem_onLdg (g : Ledger → Ledger) : (s.onLdg g).mem = s.mem := rfl
@[simp] theorem matrix_onLdg (g : Ledger → Ledger) : (s.onLdg g).matrix = s.matrix := rfl
@[simp] theorem spores_onLdg (g : Ledger → Ledger) : (s.onLdg g).spores = s.spores := rfl
@[simp] theorem io_onLdg (g : Ledger → Ledger) : (s.onLdg g).io = s.io := rfl
@[simp] theorem fabric_onLdg (g : Ledger → Ledger) : (s.onLdg g).fabric = s.fabric := rfl
@[simp] theorem host_onLdg (g : Ledger → Ledger) : (s.onLdg g).host = s.host := rfl
@[simp] theorem fw_onLdg (g : Ledger → Ledger) : (s.onLdg g).fw = s.fw := rfl
@[simp] theorem upd_onLdg (g : Ledger → Ledger) : (s.onLdg g).upd = s.upd := rfl
@[simp] theorem bist_onLdg (g : Ledger → Ledger) : (s.onLdg g).bist = s.bist := rfl
@[simp] theorem dbg_onLdg (g : Ledger → Ledger) : (s.onLdg g).dbg = s.dbg := rfl
@[simp] theorem pmc_onLdg (g : Ledger → Ledger) : (s.onLdg g).pmc = s.pmc := rfl
@[simp] theorem power_onLdg (g : Ledger → Ledger) : (s.onLdg g).power = s.power := rfl
@[simp] theorem timers_onLdg (g : Ledger → Ledger) : (s.onLdg g).timers = s.timers := rfl
@[simp] theorem wdg_onLdg (g : Ledger → Ledger) : (s.onLdg g).wdg = s.wdg := rfl
@[simp] theorem pins_onLdg (g : Ledger → Ledger) : (s.onLdg g).pins = s.pins := rfl
@[simp] theorem locked_onLdg (g : Ledger → Ledger) : (s.onLdg g).locked = s.locked := rfl
@[simp] theorem free_onLdg (g : Ledger → Ledger) : (s.onLdg g).free = s.free := rfl
@[simp] theorem out_onLdg (g : Ledger → Ledger) : (s.onLdg g).out = s.out := rfl
@[simp] theorem pending_onLdg (g : Ledger → Ledger) : (s.onLdg g).pending = s.pending := rfl

/-! ### State.onMem -/

@[simp] theorem clk_onMem (g : Memory → Memory) : (s.onMem g).clk = s.clk := rfl
@[simp] theorem now_onMem (g : Memory → Memory) : (s.onMem g).now = s.now := rfl
@[simp] theorem tb_onMem (g : Memory → Memory) : (s.onMem g).tb = s.tb := rfl
@[simp] theorem tbHold_onMem (g : Memory → Memory) : (s.onMem g).tbHold = s.tbHold := rfl
@[simp] theorem tbRate_onMem (g : Memory → Memory) : (s.onMem g).tbRate = s.tbRate := rfl
@[simp] theorem tbPart_onMem (g : Memory → Memory) : (s.onMem g).tbPart = s.tbPart := rfl
@[simp] theorem gen_onMem (g : Memory → Memory) : (s.onMem g).gen = s.gen := rfl
@[simp] theorem csr_onMem (g : Memory → Memory) : (s.onMem g).csr = s.csr := rfl
@[simp] theorem events_onMem (g : Memory → Memory) : (s.onMem g).events = s.events := rfl
@[simp] theorem brought_onMem (g : Memory → Memory) : (s.onMem g).brought = s.brought := rfl
@[simp] theorem eventClk_onMem (g : Memory → Memory) : (s.onMem g).eventClk = s.eventClk := rfl
@[simp] theorem latches_onMem (g : Memory → Memory) : (s.onMem g).latches = s.latches := rfl
@[simp] theorem threads_onMem (g : Memory → Memory) : (s.onMem g).threads = s.threads := rfl
@[simp] theorem mtvs_onMem (g : Memory → Memory) : (s.onMem g).mtvs = s.mtvs := rfl
@[simp] theorem stvs_onMem (g : Memory → Memory) : (s.onMem g).stvs = s.stvs := rfl
@[simp] theorem mstk_onMem (g : Memory → Memory) : (s.onMem g).mstk = s.mstk := rfl
@[simp] theorem sstk_onMem (g : Memory → Memory) : (s.onMem g).sstk = s.sstk := rfl
@[simp] theorem ctlWaits_onMem (g : Memory → Memory) : (s.onMem g).ctlWaits = s.ctlWaits := rfl
@[simp] theorem undelivered_onMem (g : Memory → Memory) : (s.onMem g).undelivered = s.undelivered := rfl
@[simp] theorem jobs_onMem (g : Memory → Memory) : (s.onMem g).jobs = s.jobs := rfl
@[simp] theorem fronds_onMem (g : Memory → Memory) : (s.onMem g).fronds = s.fronds := rfl
@[simp] theorem ledger_onMem (g : Memory → Memory) : (s.onMem g).ledger = s.ledger := rfl
@[simp] theorem mem_onMem (g : Memory → Memory) : (s.onMem g).mem = g s.mem := rfl
@[simp] theorem matrix_onMem (g : Memory → Memory) : (s.onMem g).matrix = s.matrix := rfl
@[simp] theorem spores_onMem (g : Memory → Memory) : (s.onMem g).spores = s.spores := rfl
@[simp] theorem io_onMem (g : Memory → Memory) : (s.onMem g).io = s.io := rfl
@[simp] theorem fabric_onMem (g : Memory → Memory) : (s.onMem g).fabric = s.fabric := rfl
@[simp] theorem host_onMem (g : Memory → Memory) : (s.onMem g).host = s.host := rfl
@[simp] theorem fw_onMem (g : Memory → Memory) : (s.onMem g).fw = s.fw := rfl
@[simp] theorem upd_onMem (g : Memory → Memory) : (s.onMem g).upd = s.upd := rfl
@[simp] theorem bist_onMem (g : Memory → Memory) : (s.onMem g).bist = s.bist := rfl
@[simp] theorem dbg_onMem (g : Memory → Memory) : (s.onMem g).dbg = s.dbg := rfl
@[simp] theorem pmc_onMem (g : Memory → Memory) : (s.onMem g).pmc = s.pmc := rfl
@[simp] theorem power_onMem (g : Memory → Memory) : (s.onMem g).power = s.power := rfl
@[simp] theorem timers_onMem (g : Memory → Memory) : (s.onMem g).timers = s.timers := rfl
@[simp] theorem wdg_onMem (g : Memory → Memory) : (s.onMem g).wdg = s.wdg := rfl
@[simp] theorem pins_onMem (g : Memory → Memory) : (s.onMem g).pins = s.pins := rfl
@[simp] theorem locked_onMem (g : Memory → Memory) : (s.onMem g).locked = s.locked := rfl
@[simp] theorem free_onMem (g : Memory → Memory) : (s.onMem g).free = s.free := rfl
@[simp] theorem out_onMem (g : Memory → Memory) : (s.onMem g).out = s.out := rfl
@[simp] theorem pending_onMem (g : Memory → Memory) : (s.onMem g).pending = s.pending := rfl

/-! ### State.onMtx -/

@[simp] theorem clk_onMtx (g : Matrix → Matrix) : (s.onMtx g).clk = s.clk := rfl
@[simp] theorem now_onMtx (g : Matrix → Matrix) : (s.onMtx g).now = s.now := rfl
@[simp] theorem tb_onMtx (g : Matrix → Matrix) : (s.onMtx g).tb = s.tb := rfl
@[simp] theorem tbHold_onMtx (g : Matrix → Matrix) : (s.onMtx g).tbHold = s.tbHold := rfl
@[simp] theorem tbRate_onMtx (g : Matrix → Matrix) : (s.onMtx g).tbRate = s.tbRate := rfl
@[simp] theorem tbPart_onMtx (g : Matrix → Matrix) : (s.onMtx g).tbPart = s.tbPart := rfl
@[simp] theorem gen_onMtx (g : Matrix → Matrix) : (s.onMtx g).gen = s.gen := rfl
@[simp] theorem csr_onMtx (g : Matrix → Matrix) : (s.onMtx g).csr = s.csr := rfl
@[simp] theorem events_onMtx (g : Matrix → Matrix) : (s.onMtx g).events = s.events := rfl
@[simp] theorem brought_onMtx (g : Matrix → Matrix) : (s.onMtx g).brought = s.brought := rfl
@[simp] theorem eventClk_onMtx (g : Matrix → Matrix) : (s.onMtx g).eventClk = s.eventClk := rfl
@[simp] theorem latches_onMtx (g : Matrix → Matrix) : (s.onMtx g).latches = s.latches := rfl
@[simp] theorem threads_onMtx (g : Matrix → Matrix) : (s.onMtx g).threads = s.threads := rfl
@[simp] theorem mtvs_onMtx (g : Matrix → Matrix) : (s.onMtx g).mtvs = s.mtvs := rfl
@[simp] theorem stvs_onMtx (g : Matrix → Matrix) : (s.onMtx g).stvs = s.stvs := rfl
@[simp] theorem mstk_onMtx (g : Matrix → Matrix) : (s.onMtx g).mstk = s.mstk := rfl
@[simp] theorem sstk_onMtx (g : Matrix → Matrix) : (s.onMtx g).sstk = s.sstk := rfl
@[simp] theorem ctlWaits_onMtx (g : Matrix → Matrix) : (s.onMtx g).ctlWaits = s.ctlWaits := rfl
@[simp] theorem undelivered_onMtx (g : Matrix → Matrix) : (s.onMtx g).undelivered = s.undelivered := rfl
@[simp] theorem jobs_onMtx (g : Matrix → Matrix) : (s.onMtx g).jobs = s.jobs := rfl
@[simp] theorem fronds_onMtx (g : Matrix → Matrix) : (s.onMtx g).fronds = s.fronds := rfl
@[simp] theorem ledger_onMtx (g : Matrix → Matrix) : (s.onMtx g).ledger = s.ledger := rfl
@[simp] theorem mem_onMtx (g : Matrix → Matrix) : (s.onMtx g).mem = s.mem := rfl
@[simp] theorem matrix_onMtx (g : Matrix → Matrix) : (s.onMtx g).matrix = g s.matrix := rfl
@[simp] theorem spores_onMtx (g : Matrix → Matrix) : (s.onMtx g).spores = s.spores := rfl
@[simp] theorem io_onMtx (g : Matrix → Matrix) : (s.onMtx g).io = s.io := rfl
@[simp] theorem fabric_onMtx (g : Matrix → Matrix) : (s.onMtx g).fabric = s.fabric := rfl
@[simp] theorem host_onMtx (g : Matrix → Matrix) : (s.onMtx g).host = s.host := rfl
@[simp] theorem fw_onMtx (g : Matrix → Matrix) : (s.onMtx g).fw = s.fw := rfl
@[simp] theorem upd_onMtx (g : Matrix → Matrix) : (s.onMtx g).upd = s.upd := rfl
@[simp] theorem bist_onMtx (g : Matrix → Matrix) : (s.onMtx g).bist = s.bist := rfl
@[simp] theorem dbg_onMtx (g : Matrix → Matrix) : (s.onMtx g).dbg = s.dbg := rfl
@[simp] theorem pmc_onMtx (g : Matrix → Matrix) : (s.onMtx g).pmc = s.pmc := rfl
@[simp] theorem power_onMtx (g : Matrix → Matrix) : (s.onMtx g).power = s.power := rfl
@[simp] theorem timers_onMtx (g : Matrix → Matrix) : (s.onMtx g).timers = s.timers := rfl
@[simp] theorem wdg_onMtx (g : Matrix → Matrix) : (s.onMtx g).wdg = s.wdg := rfl
@[simp] theorem pins_onMtx (g : Matrix → Matrix) : (s.onMtx g).pins = s.pins := rfl
@[simp] theorem locked_onMtx (g : Matrix → Matrix) : (s.onMtx g).locked = s.locked := rfl
@[simp] theorem free_onMtx (g : Matrix → Matrix) : (s.onMtx g).free = s.free := rfl
@[simp] theorem out_onMtx (g : Matrix → Matrix) : (s.onMtx g).out = s.out := rfl
@[simp] theorem pending_onMtx (g : Matrix → Matrix) : (s.onMtx g).pending = s.pending := rfl

/-! ### State.onSpo -/

@[simp] theorem clk_onSpo (g : Spores → Spores) : (s.onSpo g).clk = s.clk := rfl
@[simp] theorem now_onSpo (g : Spores → Spores) : (s.onSpo g).now = s.now := rfl
@[simp] theorem tb_onSpo (g : Spores → Spores) : (s.onSpo g).tb = s.tb := rfl
@[simp] theorem tbHold_onSpo (g : Spores → Spores) : (s.onSpo g).tbHold = s.tbHold := rfl
@[simp] theorem tbRate_onSpo (g : Spores → Spores) : (s.onSpo g).tbRate = s.tbRate := rfl
@[simp] theorem tbPart_onSpo (g : Spores → Spores) : (s.onSpo g).tbPart = s.tbPart := rfl
@[simp] theorem gen_onSpo (g : Spores → Spores) : (s.onSpo g).gen = s.gen := rfl
@[simp] theorem csr_onSpo (g : Spores → Spores) : (s.onSpo g).csr = s.csr := rfl
@[simp] theorem events_onSpo (g : Spores → Spores) : (s.onSpo g).events = s.events := rfl
@[simp] theorem brought_onSpo (g : Spores → Spores) : (s.onSpo g).brought = s.brought := rfl
@[simp] theorem eventClk_onSpo (g : Spores → Spores) : (s.onSpo g).eventClk = s.eventClk := rfl
@[simp] theorem latches_onSpo (g : Spores → Spores) : (s.onSpo g).latches = s.latches := rfl
@[simp] theorem threads_onSpo (g : Spores → Spores) : (s.onSpo g).threads = s.threads := rfl
@[simp] theorem mtvs_onSpo (g : Spores → Spores) : (s.onSpo g).mtvs = s.mtvs := rfl
@[simp] theorem stvs_onSpo (g : Spores → Spores) : (s.onSpo g).stvs = s.stvs := rfl
@[simp] theorem mstk_onSpo (g : Spores → Spores) : (s.onSpo g).mstk = s.mstk := rfl
@[simp] theorem sstk_onSpo (g : Spores → Spores) : (s.onSpo g).sstk = s.sstk := rfl
@[simp] theorem ctlWaits_onSpo (g : Spores → Spores) : (s.onSpo g).ctlWaits = s.ctlWaits := rfl
@[simp] theorem undelivered_onSpo (g : Spores → Spores) : (s.onSpo g).undelivered = s.undelivered := rfl
@[simp] theorem jobs_onSpo (g : Spores → Spores) : (s.onSpo g).jobs = s.jobs := rfl
@[simp] theorem fronds_onSpo (g : Spores → Spores) : (s.onSpo g).fronds = s.fronds := rfl
@[simp] theorem ledger_onSpo (g : Spores → Spores) : (s.onSpo g).ledger = s.ledger := rfl
@[simp] theorem mem_onSpo (g : Spores → Spores) : (s.onSpo g).mem = s.mem := rfl
@[simp] theorem matrix_onSpo (g : Spores → Spores) : (s.onSpo g).matrix = s.matrix := rfl
@[simp] theorem spores_onSpo (g : Spores → Spores) : (s.onSpo g).spores = g s.spores := rfl
@[simp] theorem io_onSpo (g : Spores → Spores) : (s.onSpo g).io = s.io := rfl
@[simp] theorem fabric_onSpo (g : Spores → Spores) : (s.onSpo g).fabric = s.fabric := rfl
@[simp] theorem host_onSpo (g : Spores → Spores) : (s.onSpo g).host = s.host := rfl
@[simp] theorem fw_onSpo (g : Spores → Spores) : (s.onSpo g).fw = s.fw := rfl
@[simp] theorem upd_onSpo (g : Spores → Spores) : (s.onSpo g).upd = s.upd := rfl
@[simp] theorem bist_onSpo (g : Spores → Spores) : (s.onSpo g).bist = s.bist := rfl
@[simp] theorem dbg_onSpo (g : Spores → Spores) : (s.onSpo g).dbg = s.dbg := rfl
@[simp] theorem pmc_onSpo (g : Spores → Spores) : (s.onSpo g).pmc = s.pmc := rfl
@[simp] theorem power_onSpo (g : Spores → Spores) : (s.onSpo g).power = s.power := rfl
@[simp] theorem timers_onSpo (g : Spores → Spores) : (s.onSpo g).timers = s.timers := rfl
@[simp] theorem wdg_onSpo (g : Spores → Spores) : (s.onSpo g).wdg = s.wdg := rfl
@[simp] theorem pins_onSpo (g : Spores → Spores) : (s.onSpo g).pins = s.pins := rfl
@[simp] theorem locked_onSpo (g : Spores → Spores) : (s.onSpo g).locked = s.locked := rfl
@[simp] theorem free_onSpo (g : Spores → Spores) : (s.onSpo g).free = s.free := rfl
@[simp] theorem out_onSpo (g : Spores → Spores) : (s.onSpo g).out = s.out := rfl
@[simp] theorem pending_onSpo (g : Spores → Spores) : (s.onSpo g).pending = s.pending := rfl

/-! ### State.onIo -/

@[simp] theorem clk_onIo (g : FieldIo → FieldIo) : (s.onIo g).clk = s.clk := rfl
@[simp] theorem now_onIo (g : FieldIo → FieldIo) : (s.onIo g).now = s.now := rfl
@[simp] theorem tb_onIo (g : FieldIo → FieldIo) : (s.onIo g).tb = s.tb := rfl
@[simp] theorem tbHold_onIo (g : FieldIo → FieldIo) : (s.onIo g).tbHold = s.tbHold := rfl
@[simp] theorem tbRate_onIo (g : FieldIo → FieldIo) : (s.onIo g).tbRate = s.tbRate := rfl
@[simp] theorem tbPart_onIo (g : FieldIo → FieldIo) : (s.onIo g).tbPart = s.tbPart := rfl
@[simp] theorem gen_onIo (g : FieldIo → FieldIo) : (s.onIo g).gen = s.gen := rfl
@[simp] theorem csr_onIo (g : FieldIo → FieldIo) : (s.onIo g).csr = s.csr := rfl
@[simp] theorem events_onIo (g : FieldIo → FieldIo) : (s.onIo g).events = s.events := rfl
@[simp] theorem brought_onIo (g : FieldIo → FieldIo) : (s.onIo g).brought = s.brought := rfl
@[simp] theorem eventClk_onIo (g : FieldIo → FieldIo) : (s.onIo g).eventClk = s.eventClk := rfl
@[simp] theorem latches_onIo (g : FieldIo → FieldIo) : (s.onIo g).latches = s.latches := rfl
@[simp] theorem threads_onIo (g : FieldIo → FieldIo) : (s.onIo g).threads = s.threads := rfl
@[simp] theorem mtvs_onIo (g : FieldIo → FieldIo) : (s.onIo g).mtvs = s.mtvs := rfl
@[simp] theorem stvs_onIo (g : FieldIo → FieldIo) : (s.onIo g).stvs = s.stvs := rfl
@[simp] theorem mstk_onIo (g : FieldIo → FieldIo) : (s.onIo g).mstk = s.mstk := rfl
@[simp] theorem sstk_onIo (g : FieldIo → FieldIo) : (s.onIo g).sstk = s.sstk := rfl
@[simp] theorem ctlWaits_onIo (g : FieldIo → FieldIo) : (s.onIo g).ctlWaits = s.ctlWaits := rfl
@[simp] theorem undelivered_onIo (g : FieldIo → FieldIo) : (s.onIo g).undelivered = s.undelivered := rfl
@[simp] theorem jobs_onIo (g : FieldIo → FieldIo) : (s.onIo g).jobs = s.jobs := rfl
@[simp] theorem fronds_onIo (g : FieldIo → FieldIo) : (s.onIo g).fronds = s.fronds := rfl
@[simp] theorem ledger_onIo (g : FieldIo → FieldIo) : (s.onIo g).ledger = s.ledger := rfl
@[simp] theorem mem_onIo (g : FieldIo → FieldIo) : (s.onIo g).mem = s.mem := rfl
@[simp] theorem matrix_onIo (g : FieldIo → FieldIo) : (s.onIo g).matrix = s.matrix := rfl
@[simp] theorem spores_onIo (g : FieldIo → FieldIo) : (s.onIo g).spores = s.spores := rfl
@[simp] theorem io_onIo (g : FieldIo → FieldIo) : (s.onIo g).io = g s.io := rfl
@[simp] theorem fabric_onIo (g : FieldIo → FieldIo) : (s.onIo g).fabric = s.fabric := rfl
@[simp] theorem host_onIo (g : FieldIo → FieldIo) : (s.onIo g).host = s.host := rfl
@[simp] theorem fw_onIo (g : FieldIo → FieldIo) : (s.onIo g).fw = s.fw := rfl
@[simp] theorem upd_onIo (g : FieldIo → FieldIo) : (s.onIo g).upd = s.upd := rfl
@[simp] theorem bist_onIo (g : FieldIo → FieldIo) : (s.onIo g).bist = s.bist := rfl
@[simp] theorem dbg_onIo (g : FieldIo → FieldIo) : (s.onIo g).dbg = s.dbg := rfl
@[simp] theorem pmc_onIo (g : FieldIo → FieldIo) : (s.onIo g).pmc = s.pmc := rfl
@[simp] theorem power_onIo (g : FieldIo → FieldIo) : (s.onIo g).power = s.power := rfl
@[simp] theorem timers_onIo (g : FieldIo → FieldIo) : (s.onIo g).timers = s.timers := rfl
@[simp] theorem wdg_onIo (g : FieldIo → FieldIo) : (s.onIo g).wdg = s.wdg := rfl
@[simp] theorem pins_onIo (g : FieldIo → FieldIo) : (s.onIo g).pins = s.pins := rfl
@[simp] theorem locked_onIo (g : FieldIo → FieldIo) : (s.onIo g).locked = s.locked := rfl
@[simp] theorem free_onIo (g : FieldIo → FieldIo) : (s.onIo g).free = s.free := rfl
@[simp] theorem out_onIo (g : FieldIo → FieldIo) : (s.onIo g).out = s.out := rfl
@[simp] theorem pending_onIo (g : FieldIo → FieldIo) : (s.onIo g).pending = s.pending := rfl

/-! ### State.onFab -/

@[simp] theorem clk_onFab (g : Fabric → Fabric) : (s.onFab g).clk = s.clk := rfl
@[simp] theorem now_onFab (g : Fabric → Fabric) : (s.onFab g).now = s.now := rfl
@[simp] theorem tb_onFab (g : Fabric → Fabric) : (s.onFab g).tb = s.tb := rfl
@[simp] theorem tbHold_onFab (g : Fabric → Fabric) : (s.onFab g).tbHold = s.tbHold := rfl
@[simp] theorem tbRate_onFab (g : Fabric → Fabric) : (s.onFab g).tbRate = s.tbRate := rfl
@[simp] theorem tbPart_onFab (g : Fabric → Fabric) : (s.onFab g).tbPart = s.tbPart := rfl
@[simp] theorem gen_onFab (g : Fabric → Fabric) : (s.onFab g).gen = s.gen := rfl
@[simp] theorem csr_onFab (g : Fabric → Fabric) : (s.onFab g).csr = s.csr := rfl
@[simp] theorem events_onFab (g : Fabric → Fabric) : (s.onFab g).events = s.events := rfl
@[simp] theorem brought_onFab (g : Fabric → Fabric) : (s.onFab g).brought = s.brought := rfl
@[simp] theorem eventClk_onFab (g : Fabric → Fabric) : (s.onFab g).eventClk = s.eventClk := rfl
@[simp] theorem latches_onFab (g : Fabric → Fabric) : (s.onFab g).latches = s.latches := rfl
@[simp] theorem threads_onFab (g : Fabric → Fabric) : (s.onFab g).threads = s.threads := rfl
@[simp] theorem mtvs_onFab (g : Fabric → Fabric) : (s.onFab g).mtvs = s.mtvs := rfl
@[simp] theorem stvs_onFab (g : Fabric → Fabric) : (s.onFab g).stvs = s.stvs := rfl
@[simp] theorem mstk_onFab (g : Fabric → Fabric) : (s.onFab g).mstk = s.mstk := rfl
@[simp] theorem sstk_onFab (g : Fabric → Fabric) : (s.onFab g).sstk = s.sstk := rfl
@[simp] theorem ctlWaits_onFab (g : Fabric → Fabric) : (s.onFab g).ctlWaits = s.ctlWaits := rfl
@[simp] theorem undelivered_onFab (g : Fabric → Fabric) : (s.onFab g).undelivered = s.undelivered := rfl
@[simp] theorem jobs_onFab (g : Fabric → Fabric) : (s.onFab g).jobs = s.jobs := rfl
@[simp] theorem fronds_onFab (g : Fabric → Fabric) : (s.onFab g).fronds = s.fronds := rfl
@[simp] theorem ledger_onFab (g : Fabric → Fabric) : (s.onFab g).ledger = s.ledger := rfl
@[simp] theorem mem_onFab (g : Fabric → Fabric) : (s.onFab g).mem = s.mem := rfl
@[simp] theorem matrix_onFab (g : Fabric → Fabric) : (s.onFab g).matrix = s.matrix := rfl
@[simp] theorem spores_onFab (g : Fabric → Fabric) : (s.onFab g).spores = s.spores := rfl
@[simp] theorem io_onFab (g : Fabric → Fabric) : (s.onFab g).io = s.io := rfl
@[simp] theorem fabric_onFab (g : Fabric → Fabric) : (s.onFab g).fabric = g s.fabric := rfl
@[simp] theorem host_onFab (g : Fabric → Fabric) : (s.onFab g).host = s.host := rfl
@[simp] theorem fw_onFab (g : Fabric → Fabric) : (s.onFab g).fw = s.fw := rfl
@[simp] theorem upd_onFab (g : Fabric → Fabric) : (s.onFab g).upd = s.upd := rfl
@[simp] theorem bist_onFab (g : Fabric → Fabric) : (s.onFab g).bist = s.bist := rfl
@[simp] theorem dbg_onFab (g : Fabric → Fabric) : (s.onFab g).dbg = s.dbg := rfl
@[simp] theorem pmc_onFab (g : Fabric → Fabric) : (s.onFab g).pmc = s.pmc := rfl
@[simp] theorem power_onFab (g : Fabric → Fabric) : (s.onFab g).power = s.power := rfl
@[simp] theorem timers_onFab (g : Fabric → Fabric) : (s.onFab g).timers = s.timers := rfl
@[simp] theorem wdg_onFab (g : Fabric → Fabric) : (s.onFab g).wdg = s.wdg := rfl
@[simp] theorem pins_onFab (g : Fabric → Fabric) : (s.onFab g).pins = s.pins := rfl
@[simp] theorem locked_onFab (g : Fabric → Fabric) : (s.onFab g).locked = s.locked := rfl
@[simp] theorem free_onFab (g : Fabric → Fabric) : (s.onFab g).free = s.free := rfl
@[simp] theorem out_onFab (g : Fabric → Fabric) : (s.onFab g).out = s.out := rfl
@[simp] theorem pending_onFab (g : Fabric → Fabric) : (s.onFab g).pending = s.pending := rfl

/-! ### State.onHost -/

@[simp] theorem clk_onHost (g : HostIf → HostIf) : (s.onHost g).clk = s.clk := rfl
@[simp] theorem now_onHost (g : HostIf → HostIf) : (s.onHost g).now = s.now := rfl
@[simp] theorem tb_onHost (g : HostIf → HostIf) : (s.onHost g).tb = s.tb := rfl
@[simp] theorem tbHold_onHost (g : HostIf → HostIf) : (s.onHost g).tbHold = s.tbHold := rfl
@[simp] theorem tbRate_onHost (g : HostIf → HostIf) : (s.onHost g).tbRate = s.tbRate := rfl
@[simp] theorem tbPart_onHost (g : HostIf → HostIf) : (s.onHost g).tbPart = s.tbPart := rfl
@[simp] theorem gen_onHost (g : HostIf → HostIf) : (s.onHost g).gen = s.gen := rfl
@[simp] theorem csr_onHost (g : HostIf → HostIf) : (s.onHost g).csr = s.csr := rfl
@[simp] theorem events_onHost (g : HostIf → HostIf) : (s.onHost g).events = s.events := rfl
@[simp] theorem brought_onHost (g : HostIf → HostIf) : (s.onHost g).brought = s.brought := rfl
@[simp] theorem eventClk_onHost (g : HostIf → HostIf) : (s.onHost g).eventClk = s.eventClk := rfl
@[simp] theorem latches_onHost (g : HostIf → HostIf) : (s.onHost g).latches = s.latches := rfl
@[simp] theorem threads_onHost (g : HostIf → HostIf) : (s.onHost g).threads = s.threads := rfl
@[simp] theorem mtvs_onHost (g : HostIf → HostIf) : (s.onHost g).mtvs = s.mtvs := rfl
@[simp] theorem stvs_onHost (g : HostIf → HostIf) : (s.onHost g).stvs = s.stvs := rfl
@[simp] theorem mstk_onHost (g : HostIf → HostIf) : (s.onHost g).mstk = s.mstk := rfl
@[simp] theorem sstk_onHost (g : HostIf → HostIf) : (s.onHost g).sstk = s.sstk := rfl
@[simp] theorem ctlWaits_onHost (g : HostIf → HostIf) : (s.onHost g).ctlWaits = s.ctlWaits := rfl
@[simp] theorem undelivered_onHost (g : HostIf → HostIf) : (s.onHost g).undelivered = s.undelivered := rfl
@[simp] theorem jobs_onHost (g : HostIf → HostIf) : (s.onHost g).jobs = s.jobs := rfl
@[simp] theorem fronds_onHost (g : HostIf → HostIf) : (s.onHost g).fronds = s.fronds := rfl
@[simp] theorem ledger_onHost (g : HostIf → HostIf) : (s.onHost g).ledger = s.ledger := rfl
@[simp] theorem mem_onHost (g : HostIf → HostIf) : (s.onHost g).mem = s.mem := rfl
@[simp] theorem matrix_onHost (g : HostIf → HostIf) : (s.onHost g).matrix = s.matrix := rfl
@[simp] theorem spores_onHost (g : HostIf → HostIf) : (s.onHost g).spores = s.spores := rfl
@[simp] theorem io_onHost (g : HostIf → HostIf) : (s.onHost g).io = s.io := rfl
@[simp] theorem fabric_onHost (g : HostIf → HostIf) : (s.onHost g).fabric = s.fabric := rfl
@[simp] theorem host_onHost (g : HostIf → HostIf) : (s.onHost g).host = g s.host := rfl
@[simp] theorem fw_onHost (g : HostIf → HostIf) : (s.onHost g).fw = s.fw := rfl
@[simp] theorem upd_onHost (g : HostIf → HostIf) : (s.onHost g).upd = s.upd := rfl
@[simp] theorem bist_onHost (g : HostIf → HostIf) : (s.onHost g).bist = s.bist := rfl
@[simp] theorem dbg_onHost (g : HostIf → HostIf) : (s.onHost g).dbg = s.dbg := rfl
@[simp] theorem pmc_onHost (g : HostIf → HostIf) : (s.onHost g).pmc = s.pmc := rfl
@[simp] theorem power_onHost (g : HostIf → HostIf) : (s.onHost g).power = s.power := rfl
@[simp] theorem timers_onHost (g : HostIf → HostIf) : (s.onHost g).timers = s.timers := rfl
@[simp] theorem wdg_onHost (g : HostIf → HostIf) : (s.onHost g).wdg = s.wdg := rfl
@[simp] theorem pins_onHost (g : HostIf → HostIf) : (s.onHost g).pins = s.pins := rfl
@[simp] theorem locked_onHost (g : HostIf → HostIf) : (s.onHost g).locked = s.locked := rfl
@[simp] theorem free_onHost (g : HostIf → HostIf) : (s.onHost g).free = s.free := rfl
@[simp] theorem out_onHost (g : HostIf → HostIf) : (s.onHost g).out = s.out := rfl
@[simp] theorem pending_onHost (g : HostIf → HostIf) : (s.onHost g).pending = s.pending := rfl

/-! ### State.onFw -/

@[simp] theorem clk_onFw (g : Firmware → Firmware) : (s.onFw g).clk = s.clk := rfl
@[simp] theorem now_onFw (g : Firmware → Firmware) : (s.onFw g).now = s.now := rfl
@[simp] theorem tb_onFw (g : Firmware → Firmware) : (s.onFw g).tb = s.tb := rfl
@[simp] theorem tbHold_onFw (g : Firmware → Firmware) : (s.onFw g).tbHold = s.tbHold := rfl
@[simp] theorem tbRate_onFw (g : Firmware → Firmware) : (s.onFw g).tbRate = s.tbRate := rfl
@[simp] theorem tbPart_onFw (g : Firmware → Firmware) : (s.onFw g).tbPart = s.tbPart := rfl
@[simp] theorem gen_onFw (g : Firmware → Firmware) : (s.onFw g).gen = s.gen := rfl
@[simp] theorem csr_onFw (g : Firmware → Firmware) : (s.onFw g).csr = s.csr := rfl
@[simp] theorem events_onFw (g : Firmware → Firmware) : (s.onFw g).events = s.events := rfl
@[simp] theorem brought_onFw (g : Firmware → Firmware) : (s.onFw g).brought = s.brought := rfl
@[simp] theorem eventClk_onFw (g : Firmware → Firmware) : (s.onFw g).eventClk = s.eventClk := rfl
@[simp] theorem latches_onFw (g : Firmware → Firmware) : (s.onFw g).latches = s.latches := rfl
@[simp] theorem threads_onFw (g : Firmware → Firmware) : (s.onFw g).threads = s.threads := rfl
@[simp] theorem mtvs_onFw (g : Firmware → Firmware) : (s.onFw g).mtvs = s.mtvs := rfl
@[simp] theorem stvs_onFw (g : Firmware → Firmware) : (s.onFw g).stvs = s.stvs := rfl
@[simp] theorem mstk_onFw (g : Firmware → Firmware) : (s.onFw g).mstk = s.mstk := rfl
@[simp] theorem sstk_onFw (g : Firmware → Firmware) : (s.onFw g).sstk = s.sstk := rfl
@[simp] theorem ctlWaits_onFw (g : Firmware → Firmware) : (s.onFw g).ctlWaits = s.ctlWaits := rfl
@[simp] theorem undelivered_onFw (g : Firmware → Firmware) : (s.onFw g).undelivered = s.undelivered := rfl
@[simp] theorem jobs_onFw (g : Firmware → Firmware) : (s.onFw g).jobs = s.jobs := rfl
@[simp] theorem fronds_onFw (g : Firmware → Firmware) : (s.onFw g).fronds = s.fronds := rfl
@[simp] theorem ledger_onFw (g : Firmware → Firmware) : (s.onFw g).ledger = s.ledger := rfl
@[simp] theorem mem_onFw (g : Firmware → Firmware) : (s.onFw g).mem = s.mem := rfl
@[simp] theorem matrix_onFw (g : Firmware → Firmware) : (s.onFw g).matrix = s.matrix := rfl
@[simp] theorem spores_onFw (g : Firmware → Firmware) : (s.onFw g).spores = s.spores := rfl
@[simp] theorem io_onFw (g : Firmware → Firmware) : (s.onFw g).io = s.io := rfl
@[simp] theorem fabric_onFw (g : Firmware → Firmware) : (s.onFw g).fabric = s.fabric := rfl
@[simp] theorem host_onFw (g : Firmware → Firmware) : (s.onFw g).host = s.host := rfl
@[simp] theorem fw_onFw (g : Firmware → Firmware) : (s.onFw g).fw = g s.fw := rfl
@[simp] theorem upd_onFw (g : Firmware → Firmware) : (s.onFw g).upd = s.upd := rfl
@[simp] theorem bist_onFw (g : Firmware → Firmware) : (s.onFw g).bist = s.bist := rfl
@[simp] theorem dbg_onFw (g : Firmware → Firmware) : (s.onFw g).dbg = s.dbg := rfl
@[simp] theorem pmc_onFw (g : Firmware → Firmware) : (s.onFw g).pmc = s.pmc := rfl
@[simp] theorem power_onFw (g : Firmware → Firmware) : (s.onFw g).power = s.power := rfl
@[simp] theorem timers_onFw (g : Firmware → Firmware) : (s.onFw g).timers = s.timers := rfl
@[simp] theorem wdg_onFw (g : Firmware → Firmware) : (s.onFw g).wdg = s.wdg := rfl
@[simp] theorem pins_onFw (g : Firmware → Firmware) : (s.onFw g).pins = s.pins := rfl
@[simp] theorem locked_onFw (g : Firmware → Firmware) : (s.onFw g).locked = s.locked := rfl
@[simp] theorem free_onFw (g : Firmware → Firmware) : (s.onFw g).free = s.free := rfl
@[simp] theorem out_onFw (g : Firmware → Firmware) : (s.onFw g).out = s.out := rfl
@[simp] theorem pending_onFw (g : Firmware → Firmware) : (s.onFw g).pending = s.pending := rfl

/-! ### State.onUpd -/

@[simp] theorem clk_onUpd (g : Update → Update) : (s.onUpd g).clk = s.clk := rfl
@[simp] theorem now_onUpd (g : Update → Update) : (s.onUpd g).now = s.now := rfl
@[simp] theorem tb_onUpd (g : Update → Update) : (s.onUpd g).tb = s.tb := rfl
@[simp] theorem tbHold_onUpd (g : Update → Update) : (s.onUpd g).tbHold = s.tbHold := rfl
@[simp] theorem tbRate_onUpd (g : Update → Update) : (s.onUpd g).tbRate = s.tbRate := rfl
@[simp] theorem tbPart_onUpd (g : Update → Update) : (s.onUpd g).tbPart = s.tbPart := rfl
@[simp] theorem gen_onUpd (g : Update → Update) : (s.onUpd g).gen = s.gen := rfl
@[simp] theorem csr_onUpd (g : Update → Update) : (s.onUpd g).csr = s.csr := rfl
@[simp] theorem events_onUpd (g : Update → Update) : (s.onUpd g).events = s.events := rfl
@[simp] theorem brought_onUpd (g : Update → Update) : (s.onUpd g).brought = s.brought := rfl
@[simp] theorem eventClk_onUpd (g : Update → Update) : (s.onUpd g).eventClk = s.eventClk := rfl
@[simp] theorem latches_onUpd (g : Update → Update) : (s.onUpd g).latches = s.latches := rfl
@[simp] theorem threads_onUpd (g : Update → Update) : (s.onUpd g).threads = s.threads := rfl
@[simp] theorem mtvs_onUpd (g : Update → Update) : (s.onUpd g).mtvs = s.mtvs := rfl
@[simp] theorem stvs_onUpd (g : Update → Update) : (s.onUpd g).stvs = s.stvs := rfl
@[simp] theorem mstk_onUpd (g : Update → Update) : (s.onUpd g).mstk = s.mstk := rfl
@[simp] theorem sstk_onUpd (g : Update → Update) : (s.onUpd g).sstk = s.sstk := rfl
@[simp] theorem ctlWaits_onUpd (g : Update → Update) : (s.onUpd g).ctlWaits = s.ctlWaits := rfl
@[simp] theorem undelivered_onUpd (g : Update → Update) : (s.onUpd g).undelivered = s.undelivered := rfl
@[simp] theorem jobs_onUpd (g : Update → Update) : (s.onUpd g).jobs = s.jobs := rfl
@[simp] theorem fronds_onUpd (g : Update → Update) : (s.onUpd g).fronds = s.fronds := rfl
@[simp] theorem ledger_onUpd (g : Update → Update) : (s.onUpd g).ledger = s.ledger := rfl
@[simp] theorem mem_onUpd (g : Update → Update) : (s.onUpd g).mem = s.mem := rfl
@[simp] theorem matrix_onUpd (g : Update → Update) : (s.onUpd g).matrix = s.matrix := rfl
@[simp] theorem spores_onUpd (g : Update → Update) : (s.onUpd g).spores = s.spores := rfl
@[simp] theorem io_onUpd (g : Update → Update) : (s.onUpd g).io = s.io := rfl
@[simp] theorem fabric_onUpd (g : Update → Update) : (s.onUpd g).fabric = s.fabric := rfl
@[simp] theorem host_onUpd (g : Update → Update) : (s.onUpd g).host = s.host := rfl
@[simp] theorem fw_onUpd (g : Update → Update) : (s.onUpd g).fw = s.fw := rfl
@[simp] theorem upd_onUpd (g : Update → Update) : (s.onUpd g).upd = g s.upd := rfl
@[simp] theorem bist_onUpd (g : Update → Update) : (s.onUpd g).bist = s.bist := rfl
@[simp] theorem dbg_onUpd (g : Update → Update) : (s.onUpd g).dbg = s.dbg := rfl
@[simp] theorem pmc_onUpd (g : Update → Update) : (s.onUpd g).pmc = s.pmc := rfl
@[simp] theorem power_onUpd (g : Update → Update) : (s.onUpd g).power = s.power := rfl
@[simp] theorem timers_onUpd (g : Update → Update) : (s.onUpd g).timers = s.timers := rfl
@[simp] theorem wdg_onUpd (g : Update → Update) : (s.onUpd g).wdg = s.wdg := rfl
@[simp] theorem pins_onUpd (g : Update → Update) : (s.onUpd g).pins = s.pins := rfl
@[simp] theorem locked_onUpd (g : Update → Update) : (s.onUpd g).locked = s.locked := rfl
@[simp] theorem free_onUpd (g : Update → Update) : (s.onUpd g).free = s.free := rfl
@[simp] theorem out_onUpd (g : Update → Update) : (s.onUpd g).out = s.out := rfl
@[simp] theorem pending_onUpd (g : Update → Update) : (s.onUpd g).pending = s.pending := rfl

/-! ### State.onBist -/

@[simp] theorem clk_onBist (g : Bist → Bist) : (s.onBist g).clk = s.clk := rfl
@[simp] theorem now_onBist (g : Bist → Bist) : (s.onBist g).now = s.now := rfl
@[simp] theorem tb_onBist (g : Bist → Bist) : (s.onBist g).tb = s.tb := rfl
@[simp] theorem tbHold_onBist (g : Bist → Bist) : (s.onBist g).tbHold = s.tbHold := rfl
@[simp] theorem tbRate_onBist (g : Bist → Bist) : (s.onBist g).tbRate = s.tbRate := rfl
@[simp] theorem tbPart_onBist (g : Bist → Bist) : (s.onBist g).tbPart = s.tbPart := rfl
@[simp] theorem gen_onBist (g : Bist → Bist) : (s.onBist g).gen = s.gen := rfl
@[simp] theorem csr_onBist (g : Bist → Bist) : (s.onBist g).csr = s.csr := rfl
@[simp] theorem events_onBist (g : Bist → Bist) : (s.onBist g).events = s.events := rfl
@[simp] theorem brought_onBist (g : Bist → Bist) : (s.onBist g).brought = s.brought := rfl
@[simp] theorem eventClk_onBist (g : Bist → Bist) : (s.onBist g).eventClk = s.eventClk := rfl
@[simp] theorem latches_onBist (g : Bist → Bist) : (s.onBist g).latches = s.latches := rfl
@[simp] theorem threads_onBist (g : Bist → Bist) : (s.onBist g).threads = s.threads := rfl
@[simp] theorem mtvs_onBist (g : Bist → Bist) : (s.onBist g).mtvs = s.mtvs := rfl
@[simp] theorem stvs_onBist (g : Bist → Bist) : (s.onBist g).stvs = s.stvs := rfl
@[simp] theorem mstk_onBist (g : Bist → Bist) : (s.onBist g).mstk = s.mstk := rfl
@[simp] theorem sstk_onBist (g : Bist → Bist) : (s.onBist g).sstk = s.sstk := rfl
@[simp] theorem ctlWaits_onBist (g : Bist → Bist) : (s.onBist g).ctlWaits = s.ctlWaits := rfl
@[simp] theorem undelivered_onBist (g : Bist → Bist) : (s.onBist g).undelivered = s.undelivered := rfl
@[simp] theorem jobs_onBist (g : Bist → Bist) : (s.onBist g).jobs = s.jobs := rfl
@[simp] theorem fronds_onBist (g : Bist → Bist) : (s.onBist g).fronds = s.fronds := rfl
@[simp] theorem ledger_onBist (g : Bist → Bist) : (s.onBist g).ledger = s.ledger := rfl
@[simp] theorem mem_onBist (g : Bist → Bist) : (s.onBist g).mem = s.mem := rfl
@[simp] theorem matrix_onBist (g : Bist → Bist) : (s.onBist g).matrix = s.matrix := rfl
@[simp] theorem spores_onBist (g : Bist → Bist) : (s.onBist g).spores = s.spores := rfl
@[simp] theorem io_onBist (g : Bist → Bist) : (s.onBist g).io = s.io := rfl
@[simp] theorem fabric_onBist (g : Bist → Bist) : (s.onBist g).fabric = s.fabric := rfl
@[simp] theorem host_onBist (g : Bist → Bist) : (s.onBist g).host = s.host := rfl
@[simp] theorem fw_onBist (g : Bist → Bist) : (s.onBist g).fw = s.fw := rfl
@[simp] theorem upd_onBist (g : Bist → Bist) : (s.onBist g).upd = s.upd := rfl
@[simp] theorem bist_onBist (g : Bist → Bist) : (s.onBist g).bist = g s.bist := rfl
@[simp] theorem dbg_onBist (g : Bist → Bist) : (s.onBist g).dbg = s.dbg := rfl
@[simp] theorem pmc_onBist (g : Bist → Bist) : (s.onBist g).pmc = s.pmc := rfl
@[simp] theorem power_onBist (g : Bist → Bist) : (s.onBist g).power = s.power := rfl
@[simp] theorem timers_onBist (g : Bist → Bist) : (s.onBist g).timers = s.timers := rfl
@[simp] theorem wdg_onBist (g : Bist → Bist) : (s.onBist g).wdg = s.wdg := rfl
@[simp] theorem pins_onBist (g : Bist → Bist) : (s.onBist g).pins = s.pins := rfl
@[simp] theorem locked_onBist (g : Bist → Bist) : (s.onBist g).locked = s.locked := rfl
@[simp] theorem free_onBist (g : Bist → Bist) : (s.onBist g).free = s.free := rfl
@[simp] theorem out_onBist (g : Bist → Bist) : (s.onBist g).out = s.out := rfl
@[simp] theorem pending_onBist (g : Bist → Bist) : (s.onBist g).pending = s.pending := rfl

/-! ### State.onDbg -/

@[simp] theorem clk_onDbg (g : Debug → Debug) : (s.onDbg g).clk = s.clk := rfl
@[simp] theorem now_onDbg (g : Debug → Debug) : (s.onDbg g).now = s.now := rfl
@[simp] theorem tb_onDbg (g : Debug → Debug) : (s.onDbg g).tb = s.tb := rfl
@[simp] theorem tbHold_onDbg (g : Debug → Debug) : (s.onDbg g).tbHold = s.tbHold := rfl
@[simp] theorem tbRate_onDbg (g : Debug → Debug) : (s.onDbg g).tbRate = s.tbRate := rfl
@[simp] theorem tbPart_onDbg (g : Debug → Debug) : (s.onDbg g).tbPart = s.tbPart := rfl
@[simp] theorem gen_onDbg (g : Debug → Debug) : (s.onDbg g).gen = s.gen := rfl
@[simp] theorem csr_onDbg (g : Debug → Debug) : (s.onDbg g).csr = s.csr := rfl
@[simp] theorem events_onDbg (g : Debug → Debug) : (s.onDbg g).events = s.events := rfl
@[simp] theorem brought_onDbg (g : Debug → Debug) : (s.onDbg g).brought = s.brought := rfl
@[simp] theorem eventClk_onDbg (g : Debug → Debug) : (s.onDbg g).eventClk = s.eventClk := rfl
@[simp] theorem latches_onDbg (g : Debug → Debug) : (s.onDbg g).latches = s.latches := rfl
@[simp] theorem threads_onDbg (g : Debug → Debug) : (s.onDbg g).threads = s.threads := rfl
@[simp] theorem mtvs_onDbg (g : Debug → Debug) : (s.onDbg g).mtvs = s.mtvs := rfl
@[simp] theorem stvs_onDbg (g : Debug → Debug) : (s.onDbg g).stvs = s.stvs := rfl
@[simp] theorem mstk_onDbg (g : Debug → Debug) : (s.onDbg g).mstk = s.mstk := rfl
@[simp] theorem sstk_onDbg (g : Debug → Debug) : (s.onDbg g).sstk = s.sstk := rfl
@[simp] theorem ctlWaits_onDbg (g : Debug → Debug) : (s.onDbg g).ctlWaits = s.ctlWaits := rfl
@[simp] theorem undelivered_onDbg (g : Debug → Debug) : (s.onDbg g).undelivered = s.undelivered := rfl
@[simp] theorem jobs_onDbg (g : Debug → Debug) : (s.onDbg g).jobs = s.jobs := rfl
@[simp] theorem fronds_onDbg (g : Debug → Debug) : (s.onDbg g).fronds = s.fronds := rfl
@[simp] theorem ledger_onDbg (g : Debug → Debug) : (s.onDbg g).ledger = s.ledger := rfl
@[simp] theorem mem_onDbg (g : Debug → Debug) : (s.onDbg g).mem = s.mem := rfl
@[simp] theorem matrix_onDbg (g : Debug → Debug) : (s.onDbg g).matrix = s.matrix := rfl
@[simp] theorem spores_onDbg (g : Debug → Debug) : (s.onDbg g).spores = s.spores := rfl
@[simp] theorem io_onDbg (g : Debug → Debug) : (s.onDbg g).io = s.io := rfl
@[simp] theorem fabric_onDbg (g : Debug → Debug) : (s.onDbg g).fabric = s.fabric := rfl
@[simp] theorem host_onDbg (g : Debug → Debug) : (s.onDbg g).host = s.host := rfl
@[simp] theorem fw_onDbg (g : Debug → Debug) : (s.onDbg g).fw = s.fw := rfl
@[simp] theorem upd_onDbg (g : Debug → Debug) : (s.onDbg g).upd = s.upd := rfl
@[simp] theorem bist_onDbg (g : Debug → Debug) : (s.onDbg g).bist = s.bist := rfl
@[simp] theorem dbg_onDbg (g : Debug → Debug) : (s.onDbg g).dbg = g s.dbg := rfl
@[simp] theorem pmc_onDbg (g : Debug → Debug) : (s.onDbg g).pmc = s.pmc := rfl
@[simp] theorem power_onDbg (g : Debug → Debug) : (s.onDbg g).power = s.power := rfl
@[simp] theorem timers_onDbg (g : Debug → Debug) : (s.onDbg g).timers = s.timers := rfl
@[simp] theorem wdg_onDbg (g : Debug → Debug) : (s.onDbg g).wdg = s.wdg := rfl
@[simp] theorem pins_onDbg (g : Debug → Debug) : (s.onDbg g).pins = s.pins := rfl
@[simp] theorem locked_onDbg (g : Debug → Debug) : (s.onDbg g).locked = s.locked := rfl
@[simp] theorem free_onDbg (g : Debug → Debug) : (s.onDbg g).free = s.free := rfl
@[simp] theorem out_onDbg (g : Debug → Debug) : (s.onDbg g).out = s.out := rfl
@[simp] theorem pending_onDbg (g : Debug → Debug) : (s.onDbg g).pending = s.pending := rfl

/-! ### State.onPmc -/

@[simp] theorem clk_onPmc (g : Pmc → Pmc) : (s.onPmc g).clk = s.clk := rfl
@[simp] theorem now_onPmc (g : Pmc → Pmc) : (s.onPmc g).now = s.now := rfl
@[simp] theorem tb_onPmc (g : Pmc → Pmc) : (s.onPmc g).tb = s.tb := rfl
@[simp] theorem tbHold_onPmc (g : Pmc → Pmc) : (s.onPmc g).tbHold = s.tbHold := rfl
@[simp] theorem tbRate_onPmc (g : Pmc → Pmc) : (s.onPmc g).tbRate = s.tbRate := rfl
@[simp] theorem tbPart_onPmc (g : Pmc → Pmc) : (s.onPmc g).tbPart = s.tbPart := rfl
@[simp] theorem gen_onPmc (g : Pmc → Pmc) : (s.onPmc g).gen = s.gen := rfl
@[simp] theorem csr_onPmc (g : Pmc → Pmc) : (s.onPmc g).csr = s.csr := rfl
@[simp] theorem events_onPmc (g : Pmc → Pmc) : (s.onPmc g).events = s.events := rfl
@[simp] theorem brought_onPmc (g : Pmc → Pmc) : (s.onPmc g).brought = s.brought := rfl
@[simp] theorem eventClk_onPmc (g : Pmc → Pmc) : (s.onPmc g).eventClk = s.eventClk := rfl
@[simp] theorem latches_onPmc (g : Pmc → Pmc) : (s.onPmc g).latches = s.latches := rfl
@[simp] theorem threads_onPmc (g : Pmc → Pmc) : (s.onPmc g).threads = s.threads := rfl
@[simp] theorem mtvs_onPmc (g : Pmc → Pmc) : (s.onPmc g).mtvs = s.mtvs := rfl
@[simp] theorem stvs_onPmc (g : Pmc → Pmc) : (s.onPmc g).stvs = s.stvs := rfl
@[simp] theorem mstk_onPmc (g : Pmc → Pmc) : (s.onPmc g).mstk = s.mstk := rfl
@[simp] theorem sstk_onPmc (g : Pmc → Pmc) : (s.onPmc g).sstk = s.sstk := rfl
@[simp] theorem ctlWaits_onPmc (g : Pmc → Pmc) : (s.onPmc g).ctlWaits = s.ctlWaits := rfl
@[simp] theorem undelivered_onPmc (g : Pmc → Pmc) : (s.onPmc g).undelivered = s.undelivered := rfl
@[simp] theorem jobs_onPmc (g : Pmc → Pmc) : (s.onPmc g).jobs = s.jobs := rfl
@[simp] theorem fronds_onPmc (g : Pmc → Pmc) : (s.onPmc g).fronds = s.fronds := rfl
@[simp] theorem ledger_onPmc (g : Pmc → Pmc) : (s.onPmc g).ledger = s.ledger := rfl
@[simp] theorem mem_onPmc (g : Pmc → Pmc) : (s.onPmc g).mem = s.mem := rfl
@[simp] theorem matrix_onPmc (g : Pmc → Pmc) : (s.onPmc g).matrix = s.matrix := rfl
@[simp] theorem spores_onPmc (g : Pmc → Pmc) : (s.onPmc g).spores = s.spores := rfl
@[simp] theorem io_onPmc (g : Pmc → Pmc) : (s.onPmc g).io = s.io := rfl
@[simp] theorem fabric_onPmc (g : Pmc → Pmc) : (s.onPmc g).fabric = s.fabric := rfl
@[simp] theorem host_onPmc (g : Pmc → Pmc) : (s.onPmc g).host = s.host := rfl
@[simp] theorem fw_onPmc (g : Pmc → Pmc) : (s.onPmc g).fw = s.fw := rfl
@[simp] theorem upd_onPmc (g : Pmc → Pmc) : (s.onPmc g).upd = s.upd := rfl
@[simp] theorem bist_onPmc (g : Pmc → Pmc) : (s.onPmc g).bist = s.bist := rfl
@[simp] theorem dbg_onPmc (g : Pmc → Pmc) : (s.onPmc g).dbg = s.dbg := rfl
@[simp] theorem pmc_onPmc (g : Pmc → Pmc) : (s.onPmc g).pmc = g s.pmc := rfl
@[simp] theorem power_onPmc (g : Pmc → Pmc) : (s.onPmc g).power = s.power := rfl
@[simp] theorem timers_onPmc (g : Pmc → Pmc) : (s.onPmc g).timers = s.timers := rfl
@[simp] theorem wdg_onPmc (g : Pmc → Pmc) : (s.onPmc g).wdg = s.wdg := rfl
@[simp] theorem pins_onPmc (g : Pmc → Pmc) : (s.onPmc g).pins = s.pins := rfl
@[simp] theorem locked_onPmc (g : Pmc → Pmc) : (s.onPmc g).locked = s.locked := rfl
@[simp] theorem free_onPmc (g : Pmc → Pmc) : (s.onPmc g).free = s.free := rfl
@[simp] theorem out_onPmc (g : Pmc → Pmc) : (s.onPmc g).out = s.out := rfl
@[simp] theorem pending_onPmc (g : Pmc → Pmc) : (s.onPmc g).pending = s.pending := rfl

/-! ### State.onPwr -/

@[simp] theorem clk_onPwr (g : Power → Power) : (s.onPwr g).clk = s.clk := rfl
@[simp] theorem now_onPwr (g : Power → Power) : (s.onPwr g).now = s.now := rfl
@[simp] theorem tb_onPwr (g : Power → Power) : (s.onPwr g).tb = s.tb := rfl
@[simp] theorem tbHold_onPwr (g : Power → Power) : (s.onPwr g).tbHold = s.tbHold := rfl
@[simp] theorem tbRate_onPwr (g : Power → Power) : (s.onPwr g).tbRate = s.tbRate := rfl
@[simp] theorem tbPart_onPwr (g : Power → Power) : (s.onPwr g).tbPart = s.tbPart := rfl
@[simp] theorem gen_onPwr (g : Power → Power) : (s.onPwr g).gen = s.gen := rfl
@[simp] theorem csr_onPwr (g : Power → Power) : (s.onPwr g).csr = s.csr := rfl
@[simp] theorem events_onPwr (g : Power → Power) : (s.onPwr g).events = s.events := rfl
@[simp] theorem brought_onPwr (g : Power → Power) : (s.onPwr g).brought = s.brought := rfl
@[simp] theorem eventClk_onPwr (g : Power → Power) : (s.onPwr g).eventClk = s.eventClk := rfl
@[simp] theorem latches_onPwr (g : Power → Power) : (s.onPwr g).latches = s.latches := rfl
@[simp] theorem threads_onPwr (g : Power → Power) : (s.onPwr g).threads = s.threads := rfl
@[simp] theorem mtvs_onPwr (g : Power → Power) : (s.onPwr g).mtvs = s.mtvs := rfl
@[simp] theorem stvs_onPwr (g : Power → Power) : (s.onPwr g).stvs = s.stvs := rfl
@[simp] theorem mstk_onPwr (g : Power → Power) : (s.onPwr g).mstk = s.mstk := rfl
@[simp] theorem sstk_onPwr (g : Power → Power) : (s.onPwr g).sstk = s.sstk := rfl
@[simp] theorem ctlWaits_onPwr (g : Power → Power) : (s.onPwr g).ctlWaits = s.ctlWaits := rfl
@[simp] theorem undelivered_onPwr (g : Power → Power) : (s.onPwr g).undelivered = s.undelivered := rfl
@[simp] theorem jobs_onPwr (g : Power → Power) : (s.onPwr g).jobs = s.jobs := rfl
@[simp] theorem fronds_onPwr (g : Power → Power) : (s.onPwr g).fronds = s.fronds := rfl
@[simp] theorem ledger_onPwr (g : Power → Power) : (s.onPwr g).ledger = s.ledger := rfl
@[simp] theorem mem_onPwr (g : Power → Power) : (s.onPwr g).mem = s.mem := rfl
@[simp] theorem matrix_onPwr (g : Power → Power) : (s.onPwr g).matrix = s.matrix := rfl
@[simp] theorem spores_onPwr (g : Power → Power) : (s.onPwr g).spores = s.spores := rfl
@[simp] theorem io_onPwr (g : Power → Power) : (s.onPwr g).io = s.io := rfl
@[simp] theorem fabric_onPwr (g : Power → Power) : (s.onPwr g).fabric = s.fabric := rfl
@[simp] theorem host_onPwr (g : Power → Power) : (s.onPwr g).host = s.host := rfl
@[simp] theorem fw_onPwr (g : Power → Power) : (s.onPwr g).fw = s.fw := rfl
@[simp] theorem upd_onPwr (g : Power → Power) : (s.onPwr g).upd = s.upd := rfl
@[simp] theorem bist_onPwr (g : Power → Power) : (s.onPwr g).bist = s.bist := rfl
@[simp] theorem dbg_onPwr (g : Power → Power) : (s.onPwr g).dbg = s.dbg := rfl
@[simp] theorem pmc_onPwr (g : Power → Power) : (s.onPwr g).pmc = s.pmc := rfl
@[simp] theorem power_onPwr (g : Power → Power) : (s.onPwr g).power = g s.power := rfl
@[simp] theorem timers_onPwr (g : Power → Power) : (s.onPwr g).timers = s.timers := rfl
@[simp] theorem wdg_onPwr (g : Power → Power) : (s.onPwr g).wdg = s.wdg := rfl
@[simp] theorem pins_onPwr (g : Power → Power) : (s.onPwr g).pins = s.pins := rfl
@[simp] theorem locked_onPwr (g : Power → Power) : (s.onPwr g).locked = s.locked := rfl
@[simp] theorem free_onPwr (g : Power → Power) : (s.onPwr g).free = s.free := rfl
@[simp] theorem out_onPwr (g : Power → Power) : (s.onPwr g).out = s.out := rfl
@[simp] theorem pending_onPwr (g : Power → Power) : (s.onPwr g).pending = s.pending := rfl

/-! ### State.onFrd -/

@[simp] theorem clk_onFrd (k : Nat) (g : Frond → Frond) : (s.onFrd k g).clk = s.clk := rfl
@[simp] theorem now_onFrd (k : Nat) (g : Frond → Frond) : (s.onFrd k g).now = s.now := rfl
@[simp] theorem tb_onFrd (k : Nat) (g : Frond → Frond) : (s.onFrd k g).tb = s.tb := rfl
@[simp] theorem tbHold_onFrd (k : Nat) (g : Frond → Frond) : (s.onFrd k g).tbHold = s.tbHold := rfl
@[simp] theorem tbRate_onFrd (k : Nat) (g : Frond → Frond) : (s.onFrd k g).tbRate = s.tbRate := rfl
@[simp] theorem tbPart_onFrd (k : Nat) (g : Frond → Frond) : (s.onFrd k g).tbPart = s.tbPart := rfl
@[simp] theorem gen_onFrd (k : Nat) (g : Frond → Frond) : (s.onFrd k g).gen = s.gen := rfl
@[simp] theorem csr_onFrd (k : Nat) (g : Frond → Frond) : (s.onFrd k g).csr = s.csr := rfl
@[simp] theorem events_onFrd (k : Nat) (g : Frond → Frond) : (s.onFrd k g).events = s.events := rfl
@[simp] theorem brought_onFrd (k : Nat) (g : Frond → Frond) : (s.onFrd k g).brought = s.brought := rfl
@[simp] theorem eventClk_onFrd (k : Nat) (g : Frond → Frond) : (s.onFrd k g).eventClk = s.eventClk := rfl
@[simp] theorem latches_onFrd (k : Nat) (g : Frond → Frond) : (s.onFrd k g).latches = s.latches := rfl
@[simp] theorem threads_onFrd (k : Nat) (g : Frond → Frond) : (s.onFrd k g).threads = s.threads := rfl
@[simp] theorem mtvs_onFrd (k : Nat) (g : Frond → Frond) : (s.onFrd k g).mtvs = s.mtvs := rfl
@[simp] theorem stvs_onFrd (k : Nat) (g : Frond → Frond) : (s.onFrd k g).stvs = s.stvs := rfl
@[simp] theorem mstk_onFrd (k : Nat) (g : Frond → Frond) : (s.onFrd k g).mstk = s.mstk := rfl
@[simp] theorem sstk_onFrd (k : Nat) (g : Frond → Frond) : (s.onFrd k g).sstk = s.sstk := rfl
@[simp] theorem ctlWaits_onFrd (k : Nat) (g : Frond → Frond) : (s.onFrd k g).ctlWaits = s.ctlWaits := rfl
@[simp] theorem undelivered_onFrd (k : Nat) (g : Frond → Frond) : (s.onFrd k g).undelivered = s.undelivered := rfl
@[simp] theorem jobs_onFrd (k : Nat) (g : Frond → Frond) : (s.onFrd k g).jobs = s.jobs := rfl
@[simp] theorem fronds_onFrd (k : Nat) (g : Frond → Frond) : (s.onFrd k g).fronds = s.fronds.set k (g (s.fronds.get k)) := rfl
@[simp] theorem ledger_onFrd (k : Nat) (g : Frond → Frond) : (s.onFrd k g).ledger = s.ledger := rfl
@[simp] theorem mem_onFrd (k : Nat) (g : Frond → Frond) : (s.onFrd k g).mem = s.mem := rfl
@[simp] theorem matrix_onFrd (k : Nat) (g : Frond → Frond) : (s.onFrd k g).matrix = s.matrix := rfl
@[simp] theorem spores_onFrd (k : Nat) (g : Frond → Frond) : (s.onFrd k g).spores = s.spores := rfl
@[simp] theorem io_onFrd (k : Nat) (g : Frond → Frond) : (s.onFrd k g).io = s.io := rfl
@[simp] theorem fabric_onFrd (k : Nat) (g : Frond → Frond) : (s.onFrd k g).fabric = s.fabric := rfl
@[simp] theorem host_onFrd (k : Nat) (g : Frond → Frond) : (s.onFrd k g).host = s.host := rfl
@[simp] theorem fw_onFrd (k : Nat) (g : Frond → Frond) : (s.onFrd k g).fw = s.fw := rfl
@[simp] theorem upd_onFrd (k : Nat) (g : Frond → Frond) : (s.onFrd k g).upd = s.upd := rfl
@[simp] theorem bist_onFrd (k : Nat) (g : Frond → Frond) : (s.onFrd k g).bist = s.bist := rfl
@[simp] theorem dbg_onFrd (k : Nat) (g : Frond → Frond) : (s.onFrd k g).dbg = s.dbg := rfl
@[simp] theorem pmc_onFrd (k : Nat) (g : Frond → Frond) : (s.onFrd k g).pmc = s.pmc := rfl
@[simp] theorem power_onFrd (k : Nat) (g : Frond → Frond) : (s.onFrd k g).power = s.power := rfl
@[simp] theorem timers_onFrd (k : Nat) (g : Frond → Frond) : (s.onFrd k g).timers = s.timers := rfl
@[simp] theorem wdg_onFrd (k : Nat) (g : Frond → Frond) : (s.onFrd k g).wdg = s.wdg := rfl
@[simp] theorem pins_onFrd (k : Nat) (g : Frond → Frond) : (s.onFrd k g).pins = s.pins := rfl
@[simp] theorem locked_onFrd (k : Nat) (g : Frond → Frond) : (s.onFrd k g).locked = s.locked := rfl
@[simp] theorem free_onFrd (k : Nat) (g : Frond → Frond) : (s.onFrd k g).free = s.free := rfl
@[simp] theorem out_onFrd (k : Nat) (g : Frond → Frond) : (s.onFrd k g).out = s.out := rfl
@[simp] theorem pending_onFrd (k : Nat) (g : Frond → Frond) : (s.onFrd k g).pending = s.pending := rfl

/-! ### State.emit -/

@[simp] theorem clk_emit (o : Out) : (s.emit o).clk = s.clk := rfl
@[simp] theorem now_emit (o : Out) : (s.emit o).now = s.now := rfl
@[simp] theorem tb_emit (o : Out) : (s.emit o).tb = s.tb := rfl
@[simp] theorem tbHold_emit (o : Out) : (s.emit o).tbHold = s.tbHold := rfl
@[simp] theorem tbRate_emit (o : Out) : (s.emit o).tbRate = s.tbRate := rfl
@[simp] theorem tbPart_emit (o : Out) : (s.emit o).tbPart = s.tbPart := rfl
@[simp] theorem gen_emit (o : Out) : (s.emit o).gen = s.gen := rfl
@[simp] theorem csr_emit (o : Out) : (s.emit o).csr = s.csr := rfl
@[simp] theorem events_emit (o : Out) : (s.emit o).events = s.events := rfl
@[simp] theorem brought_emit (o : Out) : (s.emit o).brought = s.brought := rfl
@[simp] theorem eventClk_emit (o : Out) : (s.emit o).eventClk = s.eventClk := rfl
@[simp] theorem latches_emit (o : Out) : (s.emit o).latches = s.latches := rfl
@[simp] theorem threads_emit (o : Out) : (s.emit o).threads = s.threads := rfl
@[simp] theorem mtvs_emit (o : Out) : (s.emit o).mtvs = s.mtvs := rfl
@[simp] theorem stvs_emit (o : Out) : (s.emit o).stvs = s.stvs := rfl
@[simp] theorem mstk_emit (o : Out) : (s.emit o).mstk = s.mstk := rfl
@[simp] theorem sstk_emit (o : Out) : (s.emit o).sstk = s.sstk := rfl
@[simp] theorem ctlWaits_emit (o : Out) : (s.emit o).ctlWaits = s.ctlWaits := rfl
@[simp] theorem undelivered_emit (o : Out) : (s.emit o).undelivered = s.undelivered := rfl
@[simp] theorem jobs_emit (o : Out) : (s.emit o).jobs = s.jobs := rfl
@[simp] theorem fronds_emit (o : Out) : (s.emit o).fronds = s.fronds := rfl
@[simp] theorem ledger_emit (o : Out) : (s.emit o).ledger = s.ledger := rfl
@[simp] theorem mem_emit (o : Out) : (s.emit o).mem = s.mem := rfl
@[simp] theorem matrix_emit (o : Out) : (s.emit o).matrix = s.matrix := rfl
@[simp] theorem spores_emit (o : Out) : (s.emit o).spores = s.spores := rfl
@[simp] theorem io_emit (o : Out) : (s.emit o).io = s.io := rfl
@[simp] theorem fabric_emit (o : Out) : (s.emit o).fabric = s.fabric := rfl
@[simp] theorem host_emit (o : Out) : (s.emit o).host = s.host := rfl
@[simp] theorem fw_emit (o : Out) : (s.emit o).fw = s.fw := rfl
@[simp] theorem upd_emit (o : Out) : (s.emit o).upd = s.upd := rfl
@[simp] theorem bist_emit (o : Out) : (s.emit o).bist = s.bist := rfl
@[simp] theorem dbg_emit (o : Out) : (s.emit o).dbg = s.dbg := rfl
@[simp] theorem pmc_emit (o : Out) : (s.emit o).pmc = s.pmc := rfl
@[simp] theorem power_emit (o : Out) : (s.emit o).power = s.power := rfl
@[simp] theorem timers_emit (o : Out) : (s.emit o).timers = s.timers := rfl
@[simp] theorem wdg_emit (o : Out) : (s.emit o).wdg = s.wdg := rfl
@[simp] theorem pins_emit (o : Out) : (s.emit o).pins = s.pins := rfl
@[simp] theorem locked_emit (o : Out) : (s.emit o).locked = s.locked := rfl
@[simp] theorem free_emit (o : Out) : (s.emit o).free = s.free := rfl
@[simp] theorem out_emit (o : Out) : (s.emit o).out = o :: s.out := rfl
@[simp] theorem pending_emit (o : Out) : (s.emit o).pending = s.pending := rfl

end Sys2Proof.Machine
end

