-- ==== Sys2Proof/Laws/Regs.lean ====
section
/-! SUPPORT. The bit fields of a word and of a register: what a field reads as after a field or a bit was set, there and
elsewhere, and what the shared operations over registers leave alone. -/

namespace Sys2Proof.Machine

/-! ### Fields of numbers -/

/-- A number with a field replaced, as three parts. -/
theorem putBits_parts (v x : Nat) {hi lo : Nat} (h : lo ≤ hi) :
    putBits v hi lo x = 2 ^ lo * (2 ^ (hi - lo + 1) * (v / 2 ^ (hi + 1)) + x % 2 ^ (hi - lo + 1)) + v % 2 ^ lo := by
  unfold putBits bits
  have e1 : 2 ^ (hi + 1) = 2 ^ lo * 2 ^ (hi - lo + 1) := by rw [← Nat.pow_add]; congr 1; omega
  have e2 : v / 2 ^ (hi + 1) = v / 2 ^ lo / 2 ^ (hi - lo + 1) := by rw [e1, Nat.div_div_eq_div_mul]
  have e3 := Nat.div_add_mod v (2 ^ lo)
  have e4 := Nat.div_add_mod (v / 2 ^ lo) (2 ^ (hi - lo + 1))
  rw [e2]
  generalize v / 2 ^ lo / 2 ^ (hi - lo + 1) = q at *
  generalize v / 2 ^ lo % 2 ^ (hi - lo + 1) = r at *
  generalize v % 2 ^ lo = m at *
  generalize v / 2 ^ lo = p at *
  generalize x % 2 ^ (hi - lo + 1) = y
  generalize 2 ^ (hi - lo + 1) = w at *
  generalize 2 ^ lo = l at *
  subst e4
  have : v = l * (w * q) + r * l + m := by rw [← e3]; ring
  rw [this, show l * (w * q) + r * l + m - r * l = l * (w * q) + m by omega]
  ring

/-- A bit of a number with a field replaced. -/
theorem testBit_putBits (v x : Nat) {hi lo : Nat} (h : lo ≤ hi) (i : Nat) :
    (putBits v hi lo x).testBit i = if lo ≤ i ∧ i ≤ hi then x.testBit (i - lo) else v.testBit i := by
  rw [putBits_parts v x h, Nat.testBit_two_pow_mul_add _ (Nat.mod_lt _ (Nat.two_pow_pos lo))]
  by_cases h1 : i < lo
  · rw [if_pos h1, if_neg (by omega), Nat.testBit_mod_two_pow]; simp [h1]
  · rw [if_neg h1, Nat.testBit_two_pow_mul_add _ (Nat.mod_lt _ (Nat.two_pow_pos _))]
    by_cases h2 : i ≤ hi
    · rw [if_pos (by omega), if_pos (by omega), Nat.testBit_mod_two_pow]; simp; omega
    · rw [if_neg (by omega), if_neg (by omega), Nat.testBit_div_two_pow]; congr 1; omega

/-- A bit of a field. -/
theorem testBit_bits (v hi lo i : Nat) : (bits v hi lo).testBit i = (decide (i < hi - lo + 1) && v.testBit (lo + i)) := by
  unfold bits; rw [Nat.testBit_mod_two_pow, Nat.testBit_div_two_pow, Nat.add_comm i lo]

/-- A field is smaller than its width. -/
theorem bits_lt (v hi lo : Nat) : bits v hi lo < 2 ^ (hi - lo + 1) := Nat.mod_lt _ (Nat.two_pow_pos _)

/-! ### Fields of words -/

/-- A field of a word is smaller than its width. -/
theorem fld_lt (v : Word) (hi lo : Nat) : fld v hi lo < 2 ^ (hi - lo + 1) := bits_lt _ _ _

/-- A bit of a word with a field replaced. -/
theorem getLsbD_setFld (v : Word) (x : Nat) {hi lo : Nat} (h : lo ≤ hi) (h2 : hi < 32) (i : Nat) :
    (setFld v hi lo x).getLsbD i = if lo ≤ i ∧ i ≤ hi then x.testBit (i - lo) else v.getLsbD i := by
  unfold setFld
  rw [BitVec.getLsbD_ofNat, testBit_putBits _ _ h]
  by_cases h3 : i < 32
  · simp only [h3, decide_true, Bool.true_and]; rfl
  · simp only [h3, decide_false, Bool.false_and]
    rw [if_neg (by omega), BitVec.getLsbD_of_ge v i (by omega)]

/-- A field reads as set. -/
theorem fld_setFld_same (v : Word) (x : Nat) {hi lo : Nat} (h : lo ≤ hi) (h2 : hi < 32) :
    fld (setFld v hi lo x) hi lo = x % 2 ^ (hi - lo + 1) := by
  apply Nat.eq_of_testBit_eq
  intro i
  unfold fld
  rw [testBit_bits, Nat.testBit_mod_two_pow]
  by_cases h3 : i < hi - lo + 1
  · have e := getLsbD_setFld v x h h2 (lo + i)
    rw [if_pos (by omega)] at e
    simp only [h3, decide_true, Bool.true_and]
    rw [show lo + i - lo = i by omega] at e
    exact e
  · simp [h3]

/-- A field that does not meet the one set reads as before. -/
theorem fld_setFld_other (v : Word) (x : Nat) {hi lo : Nat} (h : lo ≤ hi) (h2 : hi < 32) {a b : Nat} (h3 : a < lo ∨ hi < b)
    (h4 : b ≤ a) : fld (setFld v hi lo x) a b = fld v a b := by
  apply Nat.eq_of_testBit_eq
  intro i
  unfold fld
  rw [testBit_bits, testBit_bits]
  by_cases h5 : i < a - b + 1
  · have e := getLsbD_setFld v x h h2 (b + i)
    rw [if_neg (by omega)] at e
    simp only [h5, decide_true, Bool.true_and]
    exact e
  · simp [h5]

/-- One bit as a number has that bit. -/
theorem testBit_b2n (b : Bool) : (b2n b).testBit 0 = b := by cases b <;> rfl

/-! ### Fields of registers -/

/-- What an event brings to a register leaves every register as the plain write does (R6). -/
theorem rd_bring (s : State) (off r : Nat) (v amount : Word) : (s.bring off v amount).rd r = (s.wr off v).rd r := rfl

/-- A bit of a register after a bit was set. -/
theorem b_setB (s : State) (off off' i j : Nat) (v : Bool) (h : i < 32) :
    (s.setB off i v).b off' j = if off' = off ∧ j = i then v else s.b off' j := by
  unfold State.setB State.b
  rw [rd_bring, rd_wr]
  by_cases h1 : off' = off
  · subst h1
    rw [if_pos rfl, getLsbD_setFld _ _ (Nat.le_refl i) h]
    by_cases h2 : j = i
    · subst h2; rw [if_pos ⟨Nat.le_refl j, Nat.le_refl j⟩, if_pos ⟨rfl, rfl⟩, Nat.sub_self, testBit_b2n]
    · rw [if_neg (by omega), if_neg (by simp [h2])]
  · rw [if_neg h1, if_neg (by simp [h1])]

/-- The bit that was set. -/
theorem b_setB_same (s : State) (off i : Nat) (v : Bool) (h : i < 32) : (s.setB off i v).b off i = v := by
  rw [b_setB s off off i i v h, if_pos ⟨rfl, rfl⟩]

/-- A field of a register that was set. -/
theorem f_putF_same (s : State) (off x : Nat) {hi lo : Nat} (h : lo ≤ hi) (h2 : hi < 32) :
    (s.putF off hi lo x).f off hi lo = x % 2 ^ (hi - lo + 1) := by
  unfold State.putF State.f; rw [rd_wr_same, fld_setFld_same _ _ h h2]

/-- A field that does not meet the one set. -/
theorem f_putF_other (s : State) (off x : Nat) {hi lo : Nat} (h : lo ≤ hi) (h2 : hi < 32) {a b : Nat} (h3 : a < lo ∨ hi < b)
    (h4 : b ≤ a) : (s.putF off hi lo x).f off a b = s.f off a b := by
  unfold State.putF State.f; rw [rd_wr_same, fld_setFld_other _ _ h h2 h3 h4]

/-- A field beside a bit that was set. -/
theorem f_setB_other (s : State) (off i : Nat) (v : Bool) (h : i < 32) {a b : Nat} (h3 : a < i ∨ i < b) (h4 : b ≤ a) :
    (s.setB off i v).f off a b = s.f off a b := f_putF_other s off _ (Nat.le_refl i) h h3 h4

/-- A bit beside a field that was set. -/
theorem b_putF_other (s : State) (off x : Nat) {hi lo : Nat} (h : lo ≤ hi) (h2 : hi < 32) {j : Nat} (h3 : j < lo ∨ hi < j) :
    (s.putF off hi lo x).b off j = s.b off j := by
  unfold State.putF State.b; rw [rd_wr_same, getLsbD_setFld _ _ h h2, if_neg (by omega)]

/-- Setting a bit writes its register alone. -/
theorem rd_setB_other (s : State) {off r : Nat} (i : Nat) (v : Bool) (h : r ≠ off) : (s.setB off i v).rd r = s.rd r :=
  rd_wr_other s _ h

/-- Setting a field writes its register alone. -/
theorem rd_putF_other (s : State) {off r : Nat} (hi lo x : Nat) (h : r ≠ off) : (s.putF off hi lo x).rd r = s.rd r :=
  rd_wr_other s _ h

/-- Counting writes its register alone. -/
theorem rd_count_other (s : State) {off r : Nat} (w n : Nat) (h : r ≠ off) : (s.count off w n).rd r = s.rd r :=
  rd_wr_other s _ h

/-- A counter counts and stays at its largest value. -/
theorem f_count (s : State) (off n : Nat) {w : Nat} (h : 0 < w) (h2 : w ≤ 32) :
    (s.count off w n).f off (w - 1) 0 = satAdd w (s.f off (w - 1) 0) n := by
  unfold State.count State.f
  rw [rd_bring, rd_wr_same, fld_setFld_same _ _ (Nat.zero_le _) (by omega)]
  apply Nat.mod_eq_of_lt
  unfold satAdd
  rw [show w - 1 - 0 + 1 = w by omega]
  have := Nat.two_pow_pos w
  omega

/-- A whole register as its field. -/
theorem f_whole (s : State) (off : Nat) : s.f off 31 0 = (s.rd off).toNat := by
  unfold State.f fld bits; simp; exact (s.rd off).isLt

end Sys2Proof.Machine
end

