-- ==== Sys2Proof/Laws/Stem.lean ====
section
/-! SUPPORT. What the shared operations of the Stem do: an instruction that is ready issues, and how each way of ending turns
into the next state. -/

namespace Sys2Proof.Machine

/-- A ready instruction runs its body and ends as the body says. -/
theorem issue_ready {s : State} {t : Tid} {op : Nat} {f : Operand} {i : Instr} (h : StemReady s t op f i)
    (body : State → State × Fate) :
    s.issue t op f i body =
      .next (s.finish t.val i (((s.thr t.val).pc.toNat + if f.mode = 6 then 8 else 4) % 2 ^ 32) (body s)) := by
  obtain ⟨h1, h2, h3, h4⟩ := h
  unfold State.issue
  dsimp only
  rw [if_neg (by simp [h1]), h2]
  dsimp only
  rw [if_neg (by simp), if_neg (by simp [h3])]
  by_cases hm : f.mode = 6
  · rw [if_neg (not_not.mpr hm), h4 hm, if_pos hm]
    dsimp only
    rw [if_pos rfl]
  · rw [if_pos hm, if_neg hm]

/-- An instruction that cannot issue leaves the state as it was. -/
theorem issue_waits {s : State} {t : Tid} {op : Nat} {f : Operand} {i : Instr} (h : s.canIssue t.val i = false)
    (body : State → State × Fate) : s.issue t op f i body = .next s := by
  unfold State.issue; simp [h]

/-- Every issue answers a next state. -/
theorem issue_next (s : State) (t : Tid) (op : Nat) (f : Operand) (i : Instr) (body : State → State × Fate) :
    ∃ u, s.issue t op f i body = .next u := by
  unfold State.issue
  dsimp only
  repeat' split
  all_goals exact ⟨_, rfl⟩

/-- The end in sequence. -/
theorem finish_next (s s1 : State) (t : Tid) (f : Operand) (i : Instr) (pc : Word) :
    s.finish t.val i ((pc.toNat + if f.mode = 6 then 8 else 4) % 2 ^ 32) (s1, .next) = s1.inSequence t f pc := rfl

/-- The end with a taken transfer. -/
theorem finish_jump (s s1 : State) (t : Tid) (i : Instr) (next target : Nat) :
    s.finish t.val i next (s1, .jump target) = s1.jumpedTo t target := rfl

/-- The end with a trap. -/
theorem finish_trap (s s1 : State) (t : Tid) (i : Instr) (next num fa d : Nat) :
    s.finish t.val i next (s1, .trap num fa d) = s.trapEnd s1 t i num fa d := rfl

/-- The end of a step of a long instruction. -/
theorem finish_step (s s1 : State) (t : Tid) (i : Instr) (next : Nat) :
    s.finish t.val i next (s1, .step) = s1.retired t.val false := rfl

/-- Registers and flags at completion. -/
theorem done_eq (s : State) (t : Nat) (f : Operand) (g : Thread → Thread) :
    s.done t f g = (s.onThr t (fun h => g (h.bump f)), .next) := rfl

/-- The rest of an instruction after an access that answered. -/
theorem gotThen_ok {α : Type} {r : State × Got α} {s1 : State} {a : α} (h : r = (s1, .ok a)) (k : State → α → State × Fate) :
    gotThen r k = k s1 a := by subst h; rfl

end Sys2Proof.Machine
end

