-- ==== Sys2Proof/Tests/Slice0.lean ====
section
/-! SUPPORT. Tests: ill-formed commands are refused, words decode as the spec encodes them, single steps with results from the
spec's tables, and for each statement a concrete state that meets its hypotheses. -/

namespace Sys2Proof.Tests

-- Each closed fact is its own kernel check; one thread is enough for them.
set_option Elab.async false

open Sys2Proof Sys2Proof.Machine

/-! ### Helpers: small states built from the state after reset -/

/-- The state after reset, in a mode. -/
def inMode (m : Nat) : State := State.reset.putF R.PWR_MODE 2 0 m

/-- Config and Run. -/
def cfg : State := inMode 2
def run : State := inMode 3

/-- The whole of B16 as a segment. -/
def b16 : SegReg :=
  { sel := 8, desc := { base := bankHome 16, limit := 0x1FFFFF, r := true, w := true, x := true, minpl := 0, present := true } }

/-- Bytes placed in B16. -/
def put (s : State) (off : Nat) (b : List Byte) : State := s.setBytes (bankHome 16 + off) b

/-- T0 in Config, at offset 0, its data segments in B16, its registers set. -/
def core (g : Thread → Thread) : State :=
  cfg.onThr 0 (fun h => g { h with pc := 0, sg := ((h.sg.set 1 b16).set 2 b16).set 7 b16 })

/-- T0's fetch buffer holds the words of an instruction at its PC. -/
def fed (op : Nat) (f : Operand) (s : State) : State :=
  s.onThr 0 (fun h => { h with fbuf := [.word h.pc.toNat (encodeWord op f), .word (h.pc.toNat + 4) f.long] })

/-- Operand fields of a word. -/
def opf (s m z d : Nat) (l : Word := 0) : Operand :=
  { seg := BitVec.ofNat 3 s, mode := BitVec.ofNat 3 m, size := BitVec.ofNat 2 z, disp := BitVec.ofNat 16 d, long := l }

/-- A signed immediate, a word of SG1, a relative or absolute jump, a small operand, no operand. -/
def imm (d : Nat) : Operand := opf 0 0 2 d
def word1 (d : Nat) : Operand := opf 1 1 2 d
def jump (m d : Nat) : Operand := opf 0 m 0 d
def small (d : Nat) : Operand := opf 0 0 0 d
def none1 : Operand := opf 0 0 0 0

/-- No request and no response waits in the matrix. -/
def noOlder (s : State) : Bool := s.matrix.waiting.isEmpty && s.matrix.held.isEmpty && s.matrix.responses.isEmpty

theorem flushMaster_noOlder {s : State} (h : noOlder s = true) (m : Nat) : s.flushMaster m = some s := by
  obtain ⟨hw, hh, hr⟩ : s.matrix.waiting = [] ∧ s.matrix.held = [] ∧ s.matrix.responses = [] := by
    simpa [noOlder, and_assoc] using h
  have hx : ({ s.matrix with waiting := [], held := [], responses := [] } : Matrix) = s.matrix := by
    cases hm : s.matrix; simp_all
  simp only [State.flushMaster, State.onMtx, hw, hh, hr, List.filter_nil, List.append_nil, State.performAll, hx]

theorem oct_set_get {α : Type} (o : Oct α) (i : Fin 8) : o.set i.val (o.get i.val) = o := by
  obtain ⟨a, b, c, d, e, f, g, h⟩ := o; fin_cases i <;> rfl

theorem drainAll_noOlder {s : State} {t : Tid} (h : (s.thr t).sbuf = []) (g : noOlder s = true) : s.drainAll t = some s := by
  have hs : s.onThr t (fun h => { h with sbuf := [] }) = s := by
    have : ({ s.thr t with sbuf := [] } : Thread) = s.thr t := by rw [← h]
    simp only [State.onThr, State.setThr, this]
    exact congrArg (fun x => { s with threads := x }) (oct_set_get s.threads t)
  simp [State.drainAll, hs, h, State.drainList, flushMaster_noOlder g]

/-- The conditions of Reaches where no older request waits: of a thread whose store buffer is empty, and of the debug port. -/
theorem reachT {s : State} {t : Tid} {off : Nat} (g : s.running = true ∧ noOlder s = true ∧ (s.thr t).sbuf = []) : Reaches s (.thread t) off := by
  refine ⟨g.1, rfl, ?_, .inl rfl⟩
  simp only [State.olderDone, drainAll_noOlder g.2.2 g.2.1, Option.bind_some, flushMaster_noOlder g.2.1]

theorem reachD {s : State} {off : Nat} (g : noOlder s = true ∧ s.reaches .debug = true ∧ s.dbgDenies .debug off = false ∧
    (s.ctlOpen .debug = true ∨ openReg off = true)) : Reaches s .debug off :=
  ⟨g.2.1, g.2.2.1, flushMaster_noOlder g.1 15, g.2.2.2.imp id (fun h => ⟨rfl, h⟩)⟩

/-- A value that a register takes, by evaluation. -/
theorem takes {off : Nat} {v : Word} (h : (match regRow off with | some r => r.accepts v | none => false) = true) : Takes off v := by
  unfold Takes; split at h
  · exact ⟨_, by assumption, h⟩
  · cases h

/-- A job of two elements that stores a broadcast value in B0. -/
def words : List Word :=
  [0x0400000B, 2] ++ List.replicate 6 0 ++ [0x00040000, 5] ++ List.replicate 14 0 ++ [0x00010008, 0, 1] ++ List.replicate 5 0

/-! ### Witnesses: the hypotheses of each statement met by a concrete state -/

theorem witness_StepRunsFrontCommand : ({ State.reset with pending := [.vinLoss] } : State).pending = [.vinLoss] ∧
    State.reset.pending = [] := by decide +kernel

theorem witness_StemRoundTrip : wellFormed (.ld 1 (imm 0xFFFF)) = true ∧ stemParts (.ld 1 (imm 0xFFFF)) = some (1, 1, imm 0xFFFF) ∧
    wellFormed (.ld 1 (opf 0 6 2 0 7)) = true ∧ wellFormed (.illegal 1 0xFFFFFFFF) = true := by decide +kernel

theorem witness_StepKeepsCanonical : State.reset.canonical ∧
  ∃ u, step State.reset = .next u := ⟨by unfold State.canonical; decide +kernel, _, rfl⟩

/-- Loads of -1, stores at an offset of 8 and LEA of an offset. -/
theorem witness_LoadsAndStores :
    (∀ e ∈ [(0x01, Instr.ld 0 (imm 0xFFFF), false), (0x02, .lds 0 (imm 0xFFFF), true), (0x04, .ldx 0 (imm 0xFFFF), false),
        (0x05, .ldy 0 (imm 0xFFFF), false)],
      StemReady (fed e.1 (imm 0xFFFF) (core id)) 0 e.1 (imm 0xFFFF) e.2.1 ∧
      ((fed e.1 (imm 0xFFFF) (core id)).operandR 0 (imm 0xFFFF) e.2.2).2 = .ok 0xFFFFFFFF) ∧
    (∀ e ∈ [(0x03, Instr.st 0 (word1 8)), (0x06, .stx 0 (word1 8)), (0x07, .sty 0 (word1 8))],
      StemReady (fed e.1 (word1 8) (core id)) 0 e.1 (word1 8) e.2 ∧
      ((fed e.1 (word1 8) (core id)).stemStore 0 1 8 (leBytes 4 0)).2 = .ok ()) ∧
    (∀ e ∈ [(0x08, Instr.leax 0 (jump 1 0xFFFF)), (0x09, .leay 0 (jump 1 0xFFFF))],
      StemReady (fed e.1 (jump 1 0xFFFF) (core id)) 0 e.1 (jump 1 0xFFFF) e.2) := by
  unfold StemReady; and_intros <;> decide +kernel

theorem witness_StoreIsBuffered :
    let s := core id
    let d := leBytes 4 0x12345678
    ((s.thr 0).sg.get 1).allows 3 5 4 false true = true ∧ s.unbuffered (bankHome 16 + 5) = false ∧
    s.checkMem (s.who 0) (bankHome 16 + 5) 4 true = none ∧ (s.thr 0).sbuf = [] ∧ (storeHalves 5 (bankHome 16 + 5) d).length = 2 := by
  decide +kernel

/-- An operand of -1 with and without overflow traps. -/
theorem witness_AddSubtract : ∀ p ∈ [(0x3000, false), (0x3400, true)],
    ∀ e ∈ [(0x10, Instr.add 0 (imm 0xFFFF)), (0x11, .adc 0 (imm 0xFFFF)), (0x12, .sub 0 (imm 0xFFFF)), (0x13, .sbc 0 (imm 0xFFFF))],
      let s := fed e.1 (imm 0xFFFF) (core (fun h => { h with acc := 0x80000000, psw := BitVec.ofNat 32 p.1 }))
      StemReady s 0 e.1 (imm 0xFFFF) e.2 ∧ (s.operandR 0 (imm 0xFFFF) false).2 = .ok 0xFFFFFFFF ∧
      ((s.operandR 0 (imm 0xFFFF) false).1.thr 0).flag pswVTE = p.2 := by
  unfold StemReady; decide +kernel

theorem witness_CompareAndLogic :
    (∀ e ∈ [(0x17, Instr.cmp 0 (imm 1)), (0x1B, .cmpx 0 (imm 1)), (0x1C, .cmpy 0 (imm 1)), (0x18, .tst 0 (imm 1)), (0x19, .addx 0 (imm 1)),
        (0x1A, .addy 0 (imm 1)), (0x14, .and 0 (imm 1)), (0x15, .or 0 (imm 1)), (0x16, .xor 0 (imm 1))],
      StemReady (fed e.1 (imm 1) (core id)) 0 e.1 (imm 1) e.2 ∧ ((fed e.1 (imm 1) (core id)).operandR 0 (imm 1) false).2 = .ok 1) ∧
    (∀ e ∈ [(0x36, Instr.not 0 none1), (0x3D, .swapb 0 none1), (0x3E, .clz 0 none1), (0x39, .txa 0 none1), (0x3B, .tya 0 none1),
        (0x38, .tax 0 none1), (0x3A, .tay 0 none1), (0x3C, .txy 0 none1)], StemReady (fed e.1 none1 (core id)) 0 e.1 none1 e.2) := by
  unfold StemReady; and_intros <;> decide +kernel

/-- The edges of R148, with an operand of -1 and of 0, their traps on and off. -/
theorem witness_MultiplyDivideNegate :
    (∀ p ∈ [(0x3000, false), (0x3600, true)],
      (∀ e ∈ [(0x20, Instr.mul 0 (imm 0xFFFF)), (0x21, .mulu 0 (imm 0xFFFF)), (0x24, .mull 0 (imm 0xFFFF)), (0x22, .div 0 (imm 0xFFFF)),
          (0x23, .divu 0 (imm 0xFFFF))],
        let s := fed e.1 (imm 0xFFFF) (core (fun h => { h with acc := 0x80000000, psw := BitVec.ofNat 32 p.1 }))
        StemReady s 0 e.1 (imm 0xFFFF) e.2 ∧ (s.operandR 0 (imm 0xFFFF) false).2 = .ok 0xFFFFFFFF ∧
        ((s.operandR 0 (imm 0xFFFF) false).1.thr 0).flag pswVTE = p.2) ∧
      (∀ e ∈ [(0x22, Instr.div 0 (imm 0)), (0x23, .divu 0 (imm 0))],
        let s := fed e.1 (imm 0) (core (fun h => { h with acc := 7, psw := BitVec.ofNat 32 p.1 }))
        StemReady s 0 e.1 (imm 0) e.2 ∧ (s.operandR 0 (imm 0) false).2 = .ok 0 ∧ (s.thr 0).flag pswDZE = p.2) ∧
      (∀ e ∈ [(0x35, Instr.neg 0 none1), (0x37, .abs 0 none1)],
        let s := fed e.1 none1 (core (fun h => { h with acc := 0x80000000, psw := BitVec.ofNat 32 p.1 }))
        StemReady s 0 e.1 none1 e.2 ∧ (s.thr 0).flag pswVTE = p.2)) ∧
    (0x80000000 : Word).toInt * (0xFFFFFFFF : Word).toInt ≠ (BitVec.ofInt 32 ((0x80000000 : Word).toInt * (0xFFFFFFFF : Word).toInt)).toInt := by
  unfold StemReady; and_intros <;> decide +kernel

/-- Counts 0, 32 and 63. -/
theorem witness_ShiftsAndRotates : ∀ c ∈ [0, 32, 63],
    ∀ e ∈ [(0x30, Instr.shl 0 (imm c)), (0x31, .shr 0 (imm c)), (0x32, .sar 0 (imm c)), (0x33, .rol 0 (imm c)), (0x34, .ror 0 (imm c))],
      StemReady (fed e.1 (imm c) (core id)) 0 e.1 (imm c) e.2 ∧ ((fed e.1 (imm c) (core id)).operandR 0 (imm c) false).2 = .ok (BitVec.ofNat 32 c) := by
  unfold StemReady; decide +kernel

/-- Each jump with its condition met and not met, to an aligned target and, in mode 1, to one that is not. -/
theorem witness_ConditionalJumps :
    let f := jump 0 0xFFFF
    let u := jump 1 2
    let s := core (fun h => { h with pc := 0x100, psw := 0x3000 })
    let w := core (fun h => { h with pc := 0x100, psw := 0x300F, x := 1 })
    let n := core (fun h => { h with pc := 0x100, psw := 0x3004 })
    (∀ e ∈ [(0x40, Instr.jmp 0), (0x41, .jeq 0), (0x42, .jne 0), (0x43, .jlt 0), (0x44, .jge 0), (0x45, .jltu 0), (0x46, .jgeu 0),
        (0x47, .jvs 0), (0x48, .jvc 0), (0x49, .jmi 0), (0x4A, .jpl 0), (0x4D, .jxnz 0)],
      StemReady (fed e.1 f s) 0 e.1 f (e.2 f) ∧ StemReady (fed e.1 u s) 0 e.1 u (e.2 u) ∧ StemReady (fed e.1 f w) 0 e.1 f (e.2 f)) ∧
    (s.thr 0).ea u % 4 ≠ 0 ∧ (s.thr 0).x - 1 ≠ 0 ∧ (w.thr 0).x - 1 = 0 ∧
      (0x100 + 4 * (f.disp.signExtend 32).toNat) % 2 ^ 32 = 0xFC ∧
    (∀ e ∈ [(0x43, Instr.jlt 0), (0x44, .jge 0)], StemReady (fed e.1 f n) 0 e.1 f (e.2 f)) ∧
    (n.thr 0).flag pswN ≠ (n.thr 0).flag pswV := by
  unfold StemReady; intros; and_intros <;> decide +kernel

theorem witness_CallsAndLoops :
    let f := jump 0 1
    let s := put (core (fun h => { h with y := 0x1000, acc := 2, le := 0x40 })) 0x1000 (leBytes 4 0x80)
    let z := core (fun h => { h with acc := 0 })
    (StemReady (fed 0x4B f s) 0 0x4B f (.call 0 f) ∧ ((fed 0x4B f s).stemStore 0 7 0xFFC (leBytes 4 4)).2 = .ok ()) ∧
    (StemReady (fed 0x4C none1 s) 0 0x4C none1 (.ret 0 none1) ∧
      ((fed 0x4C none1 s).stemLoad 0 7 0x1000 4).2 = .ok (leBytes 4 0x80)) ∧
    leVal (leBytes 4 0x80) % 4 = 0 ∧ StemReady (fed 0x50 (small 0xFFFF) s) 0 0x50 (small 0xFFFF) (.loop 0 (small 0xFFFF)) ∧
    StemReady (fed 0x50 (small 1) z) 0 0x50 (small 1) (.loop 0 (small 1)) ∧ (s.thr 0).flag pswLA = false ∧
    StemReady (fed 0x51 none1 s) 0 0x51 none1 (.lexit 0 none1) ∧ (s.thr 0).le.toNat % 4 = 0 := by
  unfold StemReady; intros; and_intros <;> decide +kernel

/-- A thread at the end of an iteration: one more to go, the last, and at no end. -/
theorem witness_CallsAndLoops_end :
    let h : Thread := { psw := 0xB000, lc := 2, le := 0x40 }
    (h.flag pswLA = true ∧ h.le.toNat = 0x40 ∧ h.lc - 1 ≠ 0) ∧ ({ h with lc := 1 } : Thread).lc - 1 = 0 ∧
      h.le.toNat ≠ 0x44 := by decide +kernel

/-- The machine trap stack and vectors in B16, TSP_M at 0x1000, vectors 1, 9 and 0x0A at 0x200. -/
def trapCore : State :=
  let s := core (fun h => { h with tspM := 0x1000, tspS := 0x1000 })
  let s1 := put (put (put s 4 (leBytes 4 0x200)) 0x24 (leBytes 4 0x200)) 0x28 (leBytes 4 0x200)
  { (((s1.wr R.TRP_MSTK 8).wr R.TRP_SSTK 8).wr R.TRP_MTVS 8).wr R.TRP_STVS 8 with
    mstk := b16.desc, sstk := b16.desc, mtvs := b16.desc, stvs := b16.desc }

theorem witness_TrapEntry :
    let s := trapCore
    let s1 := s.onThr 0 (fun k => { k with resv := none })
    let q := s1.pushFrame 0 3 ((0x1000 + 2 ^ 32 - 48) % 2 ^ 32) (pairUp ((s.thr 0).frame 0 0 0x0A 0))
    (s.drainAll 0).isSome = true ∧ (s1.stackSeg 3).sel ≠ 0 ∧ ((s.thr 0).tsp 3).toNat % 16 = 0 ∧ q.2 = .ok true ∧
    (q.1.vector 0 3 0x0A).2 = .ok (some 0x200) := by
  intros; and_intros <;> decide +kernel

/-- The words of an instruction in the buffer, their fetch failed, or not there yet. -/
theorem witness_TrapsAtIssue :
    let f := small 0xFFFF
    let g := opf 0 6 2 0 7
    let slots := fun (l : List FetchSlot) => trapCore.onThr 0 (fun h => { h with fbuf := l })
    ((slots []).onThr 0 (fun h => { h with st := .waiting })).canIssue 0 (.syscall 0 f) = false ∧
    (slots []).canIssue 0 (.syscall 0 f) = true ∧ ((slots []).thr 0).fetched 0 = .absent ∧
    ((slots [.fault 0 5 20]).thr 0).fetched 0 = .failed 5 20 ∧
    (((slots [.word 0 (encodeWord 0 none1)]).thr 0).fetched 0 = .word (encodeWord 0 none1) ∧ operandOk 0 none1 = false) ∧
    (operandOk 1 g = true ∧ g.mode = 6 ∧ ((slots [.word 0 (encodeWord 1 g)]).thr 0).fetched 4 = .absent ∧
      ((slots [.word 0 (encodeWord 1 g), .fault 4 3 1]).thr 0).fetched 4 = .failed 3 1) := by
  decide +kernel

theorem witness_TrapsAtIssue_own :
    let f := small 0xFFFF
    let d := (trapCore.setB R.DBG_CTL 1 true).putF R.DBG_STAT 1 0 2
    (let s := fed 0x60 f trapCore
     StemReady s 0 0x60 f (.syscall 0 f) ∧ ((s.onThr 0 (fun k => k.advance 4)).enterTrap 0 0x0A 0xFFFF 0 1 4).2 = .step) ∧
    (let s := trapCore.onThr 0 (fun h => { h with fbuf := [.word 0 0xFFFFFFFF] })
     s.canIssue 0 (.illegal 0 0xFFFFFFFF) = true ∧ (s.thr 0).fetched 0 = .word 0xFFFFFFFF ∧
     operandOk (opcodeOf 0xFFFFFFFF) (fieldsOf 0xFFFFFFFF) = false ∧ (s.instrTrap 0 1 0 0).2 = .step) ∧
    (let s := fed 0xF0 f trapCore
     StemReady s 0 0xF0 f (.bkpt 0 f) ∧ (s.b R.DBG_CTL 1 && s.mayHalt 0) = false ∧ (s.instrTrap 0 9 0xFFFF 0).2 = .step) ∧
    (StemReady (fed 0xF0 f d) 0 0xF0 f (.bkpt 0 f) ∧ (d.b R.DBG_CTL 1 && d.mayHalt 0) = true) := by
  unfold StemReady; intros; and_intros <;> decide +kernel

/-- A frame at TSP_M = 0x1000 whose PSW is Task level and whose code selector is 8, and a descriptor table that holds it. -/
def frameCore : State :=
  let s := put (core (fun h => { h with tspM := 0x1000 })) 0x1000 ([0x40, 0, 1, 2, 3, 4, 5, 6, 7, 0, 0x80000, 0].flatMap (leBytes 4))
  let s1 := put s 0x2008 ([bankHome 16 % 2 ^ 32, bankHome 16 / 2 ^ 32, 0x1FFFFF, 0x87].flatMap (leBytes 4))
  let s2 := put s1 0x2010 ([bankHome 16 % 2 ^ 32, bankHome 16 / 2 ^ 32, 0x1FFFFF, 0x87].flatMap (leBytes 4))
  { (((s2.wr R.STM_DTCOUNT 4).wr R.STM_DTBASE_LO (BitVec.ofNat 32 (bankHome 16 + 0x2000))).wr R.STM_DTBASE_HI 1).wr R.TRP_MSTK 8 with mstk := b16.desc }

theorem witness_ReturnFromTrap :
    let s := fed 0x61 none1 frameCore
    let task := fed 0x61 none1 (core (fun h => { h with psw := 0, sg := h.sg.set 0 b16 }))
    StemReady s 0 0x61 none1 (.tret 0 none1) ∧ (s.stackSeg 3).allows 3 0x1000 48 true false = true ∧
    (let q := s.readFrame 0 (s.stackSeg 3).desc.base [0x1000, 0x1008, 0x1010, 0x1018, 0x1020, 0x1028] []
     q.2 = .ok ([0x40, 0, 1, 2, 3, 4, 5, 6, 7, 0, 0x80000, 0].flatMap (leBytes 4)) ∧
     (q.1.segLoad 0 8 0 8 32 true).2 = .ok b16.desc) ∧ (s.drainAll 0).isSome = true ∧
    (StemReady task 0 0x61 none1 (.tret 0 none1) ∧ (task.thr 0).pl = 0) := by
  unfold StemReady; intros; and_intros <;> decide +kernel

theorem witness_SpecialRegisters :
    (∀ r ∈ [0, 1, 2, 3, 4, 5, 6, 7, 8, 15], StemReady (fed 0x64 (small r) (core id)) 0 0x64 (small r) (.rdsr 0 (small r))) ∧
    (∀ a ∈ [0x3F1F, 0x20], ∀ r ∈ [0, 1, 2, 3, 4, 5, 6],
      StemReady (fed 0x65 (small r) (core (fun h => { h with acc := BitVec.ofNat 32 a }))) 0 0x65 (small r) (.wrsr 0 (small r))) ∧
    (let t := core (fun h => { h with psw := 0, sg := h.sg.set 0 b16 })
     (t.thr 0).pl = 0 ∧ StemReady (fed 0x64 (small 5) t) 0 0x64 (small 5) (.rdsr 0 (small 5)) ∧
     StemReady (fed 0x65 (small 6) t) 0 0x65 (small 6) (.wrsr 0 (small 6)) ∧ fld 0x20 7 5 ≠ 0 ∧ fld 0x3F1F 7 5 = 0) ∧
    (let f := opf 7 0 0 0
     let s := fed 0x66 f (frameCore.onThr 0 (fun h => { h with acc := 8 }))
     StemReady s 0 0x66 f (.lseg 0 f) ∧ (s.segLoad 0 8 3 8 39 false).2 = .ok b16.desc) := by
  unfold StemReady; and_intros <;> decide +kernel

theorem witness_WaitingAndFence :
    (let p := fed 0x62 none1 ((core id).setB (R.SPC_TI_STAT 0) 0 true)
     0 < p.pend 0 ∧ StemReady p 0 0x62 none1 (.wait 0 none1)) ∧
    (let p := fed 0x62 none1 (core id)
     p.pend 0 = 0 ∧ StemReady p 0 0x62 none1 (.wait 0 none1)) ∧
    (∀ v ∈ [0, 1], let p := fed 0x67 (imm v) (core id)
      StemReady p 0 0x67 (imm v) (.sleep 0 (imm v)) ∧ (p.operandR 0 (imm v) false).2 = .ok (BitVec.ofNat 32 v)) ∧
    (let p := fed 0x63 none1 (core id)
     StemReady p 0 0x63 none1 (.fence 0 none1) ∧ ((p.drainAll 0).bind (fun s => s.flushMaster 8)).isSome = true) := by
  unfold StemReady; and_intros <;> decide +kernel

theorem witness_LockedSequences :
    let f := word1 0x40
    let s := fun (op : Nat) => fed op f (core (fun h => { h with resv := some (bankHome 16 + 0x40) }))
    let a := bankHome 16 + 0x40
    (∀ e ∈ [(0x0A, Instr.xch 0 f), (0x70, .ldl 0 f), (0x71, .stc 0 f)], StemReady (s e.1) 0 e.1 f e.2 ∧ (s e.1).physOf 0 f = a ∧
      ∀ w r, (s e.1).lockedCheck 0 f w r = none) ∧
    ((s 0x71).drainAll 0).isSome = true ∧ (let q := (s 0x0A).busRead 0 a 4
      q.2 = .ok [0, 0, 0, 0] ∧ (q.1.busWrite 0 a (leBytes 4 0)).2 = .ok []) ∧
    (s 0x71).inBanks a = true ∧ (s 0x71).locate a = .bank 16 0x40 ∧ (s 0x71).checkMem ((s 0x71).who 0) a 4 true = none ∧
    (((s 0x71).enter ((s 0x71).who 0) a 4 ((s 0x71).onPortA a)).map (fun u => ((u.thr 0).resv, (u.busWrite 0 a (leBytes 4 0)).2))) =
      some (some ((s 0x71).storage a / 64 * 64), .ok []) ∧
    ((core id).thr 0).resv ≠ some ((core id).storage a / 64 * 64) := by
  unfold StemReady; intros; and_intros <;> decide +kernel

/-- 31 digits at X, 31 at Y, an invalid sign, and an operand that may only be read. -/
theorem witness_StringsAndDecimal :
    let f := opf 1 0 0 2
    let g := opf 2 0 0 0
    let s := put (put (core (fun h => { h with acc := 8, x := 0x100, y := 0x200 })) 0x100 (leBytes 16 0x1C)) 0x200 (leBytes 16 0x2D)
    let z := core (fun h => { h with acc := 0 })
    (StemReady (fed 0x93 f s) 0 0x93 f (.movb 0 f) ∧ StemReady (fed 0x93 f z) 0 0x93 f (.movb 0 f) ∧
      StemReady (fed 0x94 g s) 0 0x94 g (.fill 0 g) ∧ StemReady (fed 0x94 g z) 0 0x94 g (.fill 0 g)) ∧
    (let u := fed 0x93 f s
     (u.stemLoad 0 1 0x100 8).2 = .ok [0x1C, 0, 0, 0, 0, 0, 0, 0] ∧
     ((u.stemLoad 0 1 0x100 8).1.stemStore 0 2 0x200 [0x1C, 0, 0, 0, 0, 0, 0, 0]).2 = .ok ()) ∧
    ((fed 0x94 g s).stemStore 0 2 0x200 (List.replicate 8 0)).2 = .ok () ∧
    (∀ e ∈ [(0x90, Instr.dadd 0 f), (0x91, .dsub 0 f), (0x92, .dcmp 0 f)], StemReady (fed e.1 f s) 0 e.1 f e.2) ∧
    (let q := (fed 0x90 f s).readDecimal 0 1 0x100
     let q2 := q.1.readDecimal 0 2 0x200
     q.2 = .ok 0x1C ∧ q2.2 = .ok 0x2D ∧ decVal 31 0x1C = some 1 ∧ decVal 31 0x2D = some (-2) ∧
     (q2.1.stemStore 0 1 0x100 (leBytes 16 (decPack 31 1 true))).2 = .ok ()) ∧
    (b16.allows 3 0x100 8 true false = true ∧ b16.allows 3 0x200 8 false true = true ∧
      s.checkMem (s.who 0) (bankHome 16 + 0x200) 8 true = none ∧
      (s.home (bankHome 16 + 0x100) + 8 ≤ s.home (bankHome 16 + 0x200)) ∧ (z.thr 0).acc = 0 ∧ (s.thr 0).acc ≠ 0) ∧
        decVal 31 0x1B = none ∧
    (b16.allows 3 0x100 16 true true = true ∧ (let ro : SegReg := { b16 with desc := { b16.desc with w := false } }
      ro.allows 3 0x100 16 true false = true ∧ ro.allows 3 0x100 16 true true = false)) := by
  unfold StemReady; intros; and_intros <;> decide +kernel

/-- No job at the VJD, one in flight, one whose last element has committed; VISSUE of a VJD whose words are 0. -/
theorem witness_VectorJobInstructions :
    let f := opf 1 1 0 0x40
    let s := fun (op : Nat) => fed op f (core id)
    let j : Job := { vjd := bankHome 16 + 0x40 }
    let w := fun (op : Nat) => { s op with jobs := [j] }
    ((∀ e ∈ [(0x80, Instr.vissue 0 f), (0x81, .vwait 0 f), (0x82, .vpoll 0 f), (0x83, .vcancel 0 f)],
      StemReady (s e.1) 0 e.1 f e.2 ∧ StemReady (w e.1) 0 e.1 f e.2)) ∧
    (((s 0x81).vjdOf 0 f).2 = .ok (bankHome 16 + 0x40) ∧ ((s 0x81).vjdOf 0 f).1.jobAt (bankHome 16 + 0x40) = none ∧
      (((s 0x81).vjdOf 0 f).1.statAt 0 (bankHome 16 + 0x40) 0x40).2 = .ok 0) ∧
    (((w 0x83).drainAll 0).isSome = true ∧ ((w 0x83).vjdOf 0 f).2 = .ok (bankHome 16 + 0x40) ∧
      ((w 0x83).vjdOf 0 f).1.jobAt (bankHome 16 + 0x40) = some j ∧ j.finished = false) ∧
    ({ j with st := .running, ri := 2, words := words } : Job).finished = true := by
  unfold StemReady; intros; and_intros <;> decide +kernel

/-! Power and modes -/

/-- Power is up in the state after power-up. -/
def up (s : State) : State := s.onPwr (fun p => { p with up := true })

/-- What power-up meets. -/
def env (sel : Nat) (test : Bool) (late : Option (BitVec 8)) (fail : Option (BitVec 8 × BitVec 8)) : PowerEnv :=
  { bootSel := BitVec.ofNat 2 sel, testEn := test, vinMv := 1710, lateUnit := late, bistFail := fail, bistUs := 1, flashMiB := 32
    dimms := [], trained := true, convertOk := true }

theorem witness_ResetsAndPowerUp :
    run.running = true ∧ (up cfg).power.up = true ∧ cfg.power.testHold = false ∧
    (cfg.onPwr (fun p => { p with testHold := true })).power.testHold = true ∧
    Reaches cfg (.thread 0) R.PWR_RST ∧ cfg.machineOrigin (.thread 0) = true ∧
    (State.reset.power.up = false ∧ State.reset.power.testHold = false ∧ 1710 ≤ (env 0 true none none).vinMv) ∧
    ((env 0 true none none).testEn = true ∧ (env 0 false none none).testEn = false ∧ (env 0 false none none).lateUnit = none ∧
      (env 0 false (some 3) none).lateUnit = some 3 ∧ (env 0 false none (some (1, 2))).bistFail = some (1, 2)) ∧
    (∀ k ∈ [0, 1, 2, 3], (env k false none none).bootSel.toNat = k) ∧
    (let s0 := ((State.reset.railsUp (env 0 false none none)).powerUpBist none 1).trainAll [] true
     s0.mem.flashSize ≠ 0 ∧ (s0.onMem (fun m => { m with flashSize := 0 })).mem.flashSize = 0) := by
  (repeat' with_reducible apply And.intro) <;> first | (with_reducible refine reachT ?_; decide +kernel) | decide +kernel

theorem witness_ModesAndTemperature :
    (Reaches cfg (.thread 0) R.PWR_MODEREQ ∧ Reaches run (.thread 0) R.PWR_MODEREQ ∧ Reaches cfg (.thread 0) R.PWR_CLKDIV ∧
      Reaches run (.thread 0) R.PWR_CLKDIV) ∧
    (∀ s ∈ [cfg, run], s.machineOrigin (.thread 0) = true ∧ s.b R.PWR_MODEREQ 3 = false) ∧
    run.mode = 3 ∧ run.inFrame = true ∧ cfg.mode = 2 ∧ run.transitionListed 1 = false ∧
    (let d := fun (b : Bool) (n : Nat) => ((((cfg.setB R.DDRC_CFG 3 b).putF R.PWR_MODEREQ 6 4 0).wr R.PWR_CLKDIV 0).transitionChecks n).2
     d true 1 = 0 ∧ d true 3 = 0 ∧ d true 4 = 0 ∧ d false 3 = 2) ∧
    (let s := run.onPwr (fun p => { p with safePending := some 3 })
     s.power.safePending = some 3 ∧ s.inFrame = true) ∧
    (let d := cfg.onPwr (fun p => { p with request := some (1, 0) })
     d.power.request = some (1, 0) ∧ d.mode = 2 ∧ d.check4 = true ∧ ({ d with jobs := [{}] } : State).check4 = false) ∧
    (let w := ((inMode 1).wr R.PWR_WAKEEN 9).wr R.PWR_WAKETMR 1
     w.mode = 1 ∧ w.wakes .wakeBall = true ∧ w.wakes .timer = true) ∧
    (let t := run.wr R.PWR_THERM 0x786E69
     t.running = true ∧ t.f R.PWR_THERM 7 0 = 105 ∧ t.f R.PWR_THERM 15 8 = 110 ∧ t.f R.PWR_THERM 23 16 = 120 ∧ t.power.level < 1) := by
  (repeat' with_reducible apply And.intro) <;> first | (with_reducible refine reachT ?_; decide +kernel) | decide +kernel

/-! Ticks -/

/-- Run with a frame open since clk 0, and a tick source. -/
def frame (src : Nat) : State := (run.putF R.LDG_CTL 1 0 src).onLdg (fun l => { l with open_ := true })

/-- A lost edge source whose next instant lies on the generated one, or 1 us beside it. -/
theorem witness_TickSources :
    (run.src = 0 ∧ run.keystoneOf 0 = false ∧ run.holdover = false) ∧
    (let s := run.putF R.LDG_CTL 1 0 1
     s.src = 1 ∧ false = s.b R.LDG_CTL 3 ∧ s.edgeInWindow = true ∧ s.ledger.lost = false ∧ s.keystoneOf 1 = false ∧
       true ≠ s.b R.LDG_CTL 3) ∧
    ((frame 1).src = 1 ∧ (frame 1).edgeInWindow = false ∧ (frame 1).holdover = false ∧ (frame 1).ledger.open_ = true ∧
      (frame 1).ledger.tickDue = false ∧ (frame 1).ledger.lost = false) ∧
    ((frame 1).b R.LDG_CTL 2 = true ∧ ((frame 1).setB R.LDG_CTL 2 false).b R.LDG_CTL 2 = false) ∧
    (∀ b ∈ [0, 16000], let s := (frame 1).onLdg (fun l => { l with lost := true, back := some b })
     s.ledger.lost = true ∧ s.src = 1 ∧ s.running = true ∧
       decide (320 < (s.sourceAhead s.ledger.genBase).natAbs) = decide (b = 16000)) ∧
    (let s := ((frame 1).onLdg (fun l => { l with lost := true })).setB R.LDG_STAT 2 true
     s.holdover = true ∧ s.src = 1 ∧ s.edgeInWindow = false) := by
  and_intros <;> decide +kernel

/-- A due tick with no request, with one of Config, and in Config with one of Run that the checks refuse. -/
theorem witness_TickOfEachMode :
    (∀ m ∈ [3, 4], let s := (inMode m).onLdg (fun l => { l with tickDue := true })
      let w := s.outputTime
      s.running = true ∧ s.ledger.tickDue = true ∧ w.ledger.tickDue = true ∧ w.src ≠ 2 ∧ w.bist.fatal = false ∧ w.inFrame = true ∧
      w.power.request = none ∧ (w.dueRequest).2 = none) ∧
    (∀ r ∈ [2, 4], let s := run.onLdg (fun l => { l with tickDue := true })
      let w := (s.onPwr (fun p => { p with request := some (r, 0) })).outputTime
      w.ledger.tickDue = true ∧ w.inFrame = true ∧ w.dueRequest.2 = some r) ∧
    (∀ m ∈ [5, 2], let s := (inMode m).onLdg (fun l => { l with tickDue := true })
      s.running = true ∧ s.ledger.tickDue = true ∧ s.src ≠ 2 ∧ s.bist.fatal = false ∧ s.power.request = none ∧ s.mode = m) ∧
    run.mem.refNext = 0 := by
  and_intros <;> decide +kernel

theorem witness_LedgerAtTick : (∀ r ∈ [0, 23, 147], r < 148 ∧ acctAssigned r = true) ∧
    (([(0, 5), (80, 7)] : SMap Nat).map Prod.fst).Nodup := by decide

/-- A job that has used 2 of the 5 credits of account 0, and accounts that do and do not balance. -/
theorem witness_AuditIdentity :
    let j : Job := { charges := [(0, 5)], used := [(0, 2)] }
    let s := run.onAcct 0 (fun a => { a with granted := 10, consumed := 2, pool := 5 })
    (j.charges.map Prod.fst).Nodup ∧
    (((s.acct 0).granted : Int) = (s.acct 0).consumed + (s.acct 0).refunded + (s.acct 0).expired + (s.acct 0).pool +
      (j.charge 0 - j.use 0 : Nat) + 0) ∧
    (((run.acct 0).granted : Int) = (run.acct 0).consumed + (run.acct 0).refunded + (run.acct 0).expired + (run.acct 0).pool) ∧
    (∀ k, k < 148 → acctAssigned k = true → (run.acct k).balanced = true) ∧ (s.acct 0).balanced = false := by decide

theorem witness_FramePhases :
    let s := frame 0
    let d := s.onLdg (fun l => { l with cutDone := true, dlDone := true, outDone := true })
    s.inFrame = true ∧ s.ledger.open_ = true ∧ s.ledger.cutDone = false ∧ s.ledger.dlDone = false ∧ s.ledger.outDone = false ∧
    s.b R.SIM_STAT 2 = false ∧ s.io.holdEnded = false ∧ s.ledger.lost = false ∧
    d.ledger.cutDone = true ∧ d.ledger.dlDone = true ∧ d.ledger.outDone = true ∧ d.inFrame = true := by decide

/-- The job of `words` in Run, in one state of its life, its W segment at a base. -/
def jobAt (base limit : Nat) (g : Job → Job) : State :=
  { run with jobs := [g { vjd := 0x100000040, words := words, pl := 3, charged := false
                          segs := [(8, { base := base, limit := limit, r := true, w := true, present := true })] }] }

/-- Its W segment in B0. -/
def withJob (g : Job → Job) : State := jobAt (bankHome 0) 0xFFFF g

/-- The only job of a state. -/
def only (s : State) : Job := s.jobs.headD {}

theorem witness_FrondJobs : ∃ v, parseVjd words = some v ∧
    (withJob id).startable 0 = some (only (withJob id)) ∧
    (let s := withJob (fun j => { j with st := .running })
     let j := only s
     s.runningOn 0 = some j ∧ s.frondsStopped j = false ∧ j.ri < v.n ∧ j.stall = none ∧ j.rwait = [] ∧ j.preempt = false ∧
       j.overrun = false ∧
     j.atBoundary v = true ∧ j.strip v = (0, 2, 0)) ∧
    (let s := withJob (fun j => { j with st := .running, ri := 2 })
     s.runningOn 0 = some (only s) ∧ v.n ≤ (only s).ri) ∧
    (let s := withJob (fun j => { j with st := .running, preempt := true, overrun := true })
     s.runningOn 0 = some (only s) ∧ (only s).atBoundary v = true ∧ (only s).preempt = true ∧ (only s).overrun = true) ∧
    (let s := withJob (fun j => { j with st := .running, stall := some 0 })
     s.runningOn 0 = some (only s) ∧ (only s).stall = some 0 ∧ (s.useOne (only s) 0 1).isSome = true) := by
  refine ⟨_, rfl, ?_⟩; and_intros <;> decide +kernel

/-- How a strip ends: at its bound; at a segment whose limit is 0; at an empty account; at a remote line; at a bank being cleared. -/
def stripStop (s : State) : Option Stop :=
  match parseVjd words with
  | none => none
  | some v => (s.runElems v 0 0 2 { only s with inStrip := true }).2.2

theorem witness_FrondJobs_stops :
    stripStop (withJob (fun j => { j with st := .running })) = none ∧
    (match stripStop (jobAt (bankHome 0) 0 (fun j => { j with st := .running })) with | some (.fault ..) => true | _ => false) = true ∧
    (match stripStop (withJob (fun j => { j with st := .running, charged := true })) with | some (.stall _) => true | _ => false) = true ∧
    stripStop ((withJob (fun j => { j with st := .running })).onBank 0 (fun b => { b with clearing := true })) = some .wait := by
  and_intros <;> decide +kernel

theorem witness_PlanEntriesAndFlush :
    (∀ c ∈ [0, 1000], ∀ full ∈ [false, true],
      let s : State := { (frame 0).onLdg (fun l => { l with planActive := true, slot0 := [{ lso := 1, pend := 1 }] }) with
        clk := c, jobs := { st := .armed, plan := some (0, 0) } ::
          (if full then (List.range 16).map (fun i => { vjd := i + 1, st := .queued }) else []) }
      let j := only s
      s.inFrame = true ∧ s.ledger.planActive = true ∧ s.ledger.open_ = true ∧
      s.jobs.find? (fun j => decide (j.st = .armed) && j.plan == some (0, 0)) = some j ∧ j.roomWait = false ∧
      ((s.slot 0).getD 0 {}).pend ≠ 0 ∧ decide (s.phase ≤ ((s.slot 0).getD 0 {}).lso * 16) = decide (c = 0) ∧
      s.hasRoom j.base j.gang = !full) ∧
    Reaches run (.thread 0) (R.FRD_CTL 7) ∧ Takes (R.FRD_CTL 7) 2 ∧ Takes (R.FRD_CTL 7) 0 := by
  (repeat' with_reducible apply And.intro) <;> first
    | (with_reducible refine reachT ?_; decide +kernel)
    | (with_reducible refine takes ?_; decide +kernel)
    | decide +kernel

theorem witness_SporesAndTaskInputs :
    let soft : Event := { kind := 0x30, chan := some 255 }
    let far : Event := { kind := 0x18, param := 5, chan := some 255, hop := 1 }
    let s := run.wr (R.CH_PROD 255 0) 0x30
    let r := run.wr (R.CH_PROD 255 0) 0x518
    run.running = true ∧ (run.chSecure 255 && !false || run.slotsFor 255 far == 0) = true ∧
    (r.chSecure 255 && !true || r.slotsFor 255 far == 0) = false ∧
    Reaches run (.thread 0) R.SPC_TRIG ∧ run.chanRights (.thread 0) 255 = true ∧ run.slotsFor 255 soft = 0 ∧
      s.slotsFor 255 soft ≠ 0 ∧
    Reaches run (.thread 2) R.SPC_TRIG ∧ run.chanRights (.thread 2) 255 = false ∧ Takes R.SPC_TRIG 255 := by
  intros; (repeat' with_reducible apply And.intro) <;> first
    | (with_reducible refine reachT ?_; decide +kernel)
    | (with_reducible refine takes ?_; decide +kernel)
    | decide +kernel

theorem witness_RelaysAndReleases :
    (let s := run.setB (R.SPC_TI_STAT 151) 0 true
     0 < s.pend (136 + 15) ∧ s.running = true ∧ s.mode ≠ 5) ∧
    (let s := (((run.setB (R.SPC_TI_STAT 152) 0 true).setB (R.FAB_RT 0) 2 true).putF R.SPC_CTL 3 0 2).onLnk 0 (fun l =>
        { l with vc := l.vc.set 0 { cr := 1 } })
     0 < s.pend 152 ∧ s.remoteReady 152 = true ∧ 0 + 1 < s.f R.SPC_CTL 3 0 ∧ (s.putF R.SPC_CTL 3 0 1).f R.SPC_CTL 3 0 ≤ 0 + 1 ∧
     (s.hopsAt 152).headD (0, 0) = (0, 0)) ∧
    (∀ m ∈ [2, 3], let s := (inMode m).setB (R.SPC_TI_STAT 135) 0 true
     0 < s.pend (72 + 63) ∧ s.mode = m) ∧ (inMode 5).mode = 5 ∧
    (∀ o ∈ [0, 100000], let s := ((frame 0).onTmpl 511 (fun m => { m with en := true, sched := true, relofs := o })).setB R.EGR_CTL 0 true
     (s.tmpl 511).en = true ∧ (s.tmpl 511).sched = true ∧ (s.tmpl 511).released = false ∧ s.b R.EGR_CTL 0 = true ∧
       s.inFrame = true ∧
     s.ledger.open_ = true ∧ decide (s.toutClk + o * 16 < s.periodClk) = decide (o = 0)) := by
  and_intros <;> decide +kernel

/-! Memory and threads -/

theorem witness_BankService :
    cfg.running = true ∧ (cfg.bank 17).actual ≠ .off ∧ ((cfg.onMtx (fun x => { x with
      waiting := x.waiting.filter (fun q => !(q.target == 17)), held := x.held.filter (fun q => !(q.target == 17)) })).performAll
        (cfg.matrix.waiting.filter (fun q => q.target == 17) ++ cfg.matrix.held.filter (fun q => q.target == 17))).isSome = true ∧
    (cfg.bank 17).actual = powerOf (cfg.f (R.BANK_PWR 17) 1 0) ∧
    ((cfg.setB (R.BANK_PWR 17) 1 true).bank 17).actual ≠ powerOf ((cfg.setB (R.BANK_PWR 17) 1 true).f (R.BANK_PWR 17) 1 0) ∧
    ((cfg.onBank 17 (fun b => { b with actual := .off })).bank 17).actual = .off ∧
    ((cfg.onBank 17 (fun b => { b with clearing := true })).bank 17).clearing = true ∧
    (cfg.idleWindow = true ∧ (cfg.bank 17).actual = .on ∧ (cfg.bank 17).clearing = false ∧ cfg.waitingAt 17 = 0 ∧
      cfg.inConfig = true) ∧
    (let s : State := { frame 0 with clk := (frame 0).toutClk }
     s.idleWindow = true ∧ s.waitingAt 17 = 0 ∧ (s.bank 17).scrubbed ≠ s.scrubWindow) ∧
    Reaches cfg (.thread 0) (R.BANK_ERRINJ 17) := by
  (repeat' with_reducible apply And.intro) <;> first | (with_reducible refine reachT ?_; decide +kernel) | decide +kernel

theorem witness_DdrService :
    (run.running = true ∧ run.b R.DDRC_CFG 3 = false) ∧
    (let s := (cfg.setB R.DDRC_CFG 3 true).setB (R.DDR_STAT 11) 0 true
     let p := s.putF R.LDG_DERATE 25 16 0
     s.b R.DDRC_CFG 3 = true ∧ s.b R.DDRC_CFG 4 = true ∧ s.f (R.DDR_STAT 11) 1 0 ≠ 0 ∧ s.mem.hot = false ∧
       85 < (86 : BitVec 8).toInt ∧
     s.mem.selfRefresh = false ∧ s.scrubShare ≠ 0 ∧ p.scrubShare = 0 ∧ s.mem.retraining.any (fun e => e.1 == 23 / 2) = false ∧
     ((s.patrolBack 23).patrolMove 23).lineError (ddrBase + ddrLine 23 (0 % (s.rd R.DDRC_SUBLINES).toNat)) = none) ∧
    (let s := ((frame 0).setB R.DDRC_CFG 3 true).onMem (fun m => { m with retrainReq := [11] })
     let u : State := { s with clk := s.toutClk }
     u.inFrame = true ∧ u.idleWindow = true ∧ u.phase = u.toutClk ∧ u.mem.retraining = [] ∧ u.retrainDue 11 = true) ∧
    ((cfg.onMem (fun m => { m with retraining := [(11, 0)] })).mem.retraining.any (fun e => e.1 == 11) = true) ∧
    Reaches cfg (.thread 0) (R.DDR_CTL 11) ∧ Takes (R.DDR_CTL 11) 1 := by
  (repeat' with_reducible apply And.intro) <;> first
    | (with_reducible refine reachT ?_; decide +kernel)
    | (with_reducible refine takes ?_; decide +kernel)
    | decide +kernel

/-- A request granted, one whose bank is being cleared, held ones, a charged one in the window and an aged one outside it. -/
theorem witness_MatrixGrants :
    let q : MatrixReq := { master := 15, target := 33, addr := bankHome 16, data := [1], line := bankHome 16 / 64 }
    let s := cfg.onMtx (fun x => { x with waiting := [q] })
    (s.running = true ∧ s.choose 33 = some q ∧ (s.perform q).isSome = true ∧ cfg.choose 33 = none ∧
      ((s.onBank 16 (fun b => { b with clearing := true })).perform q).isSome = false) ∧
    ((cfg.onMtx (fun x => { x with responses := [q.response] })).matrix.responses.find? (fun r => r.master == 15)).isSome = true ∧
    (let h := cfg.onMtx (fun x => { x with held := [q] })
     h.matrix.held.find? (fun q => q.master == 15) = some q ∧ cfg.conflicts q = false) ∧
    ((cfg.onMtx (fun x => { x with waiting := [{ q with target := 16 }] })).conflicts q = true) ∧
    (let c := { q with charged := true, master := 14 }
     let w := (frame 0).onMtx (fun x => { x with waiting := [q, c] })
     w.computeWindow = true ∧ w.choose 33 = some c ∧
     w.matrix.waiting.find? (fun x => x.target == 33 && x.master == c.master) = some c ∧ c.charged = true) ∧
    (let w : State := { s with clk := 1024 }
     w.computeWindow = false ∧ w.choose 33 = some q ∧ q.charged = false ∧ q.since + (w.rd R.MTX_AGE).toNat ≤ w.clk) := by
  intros; and_intros <;> decide +kernel

theorem witness_ThreadEvents :
    let s := frameCore.wr (R.STM_CSEL 7) 8
    Reaches s (.thread 0) (R.STM_CTL 7) ∧ Takes (R.STM_CTL 7) 1 ∧ Takes (R.STM_CTL 7) 2 ∧ Takes (R.STM_CTL 7) 0x21 ∧
    s.machineOrigin (.thread 0) = true ∧ (s.thr 7).st = .stopped ∧ s.descAsk (.thread 0) (R.STM_CTL 7) 1 = none ∧
    (let w := (s.putF (R.STM_CTL 7) 5 4 0).setB (R.TRP_LK 7) 31 false
     (w.engineSeg s.ctlAns 8 0 true).2 = some b16.desc ∧ (w.engineSeg s.ctlAns 0 0 true).2 = none) ∧
    (fld 0x21 5 4 = 2 ∧ fld 0x31 5 4 = 3) := by
  intros; (repeat' with_reducible apply And.intro) <;> first
    | (with_reducible refine reachT ?_; decide +kernel)
    | (with_reducible refine takes ?_; decide +kernel)
    | decide +kernel

theorem witness_ThreadEvents_waits :
    (let d := cfg.onThr 7 (fun h => { h with sbuf := [{ addr := bankHome 16, bytes := [1] }] })
     d.running = true ∧ (d.thr 7).sbuf ≠ [] ∧ d.outstandingOf 8 < 8 ∧ (d.thr 7).stopReq = false ∧
     ((d.onThr 7 (fun k => { k with sbuf := (oldestStore (d.thr 7).sbuf).2 })).drainList 7 (oldestStore (d.thr 7).sbuf).1).map
       (fun s1 => (s1.thr 7).stopReq) = some false) ∧
    (let w := (cfg.onThr 7 (fun h => { h with st := .waiting, waitFor := .wake })).setB (R.SPC_TI_STAT 7) 0 true
     (w.thr 7).st = .waiting ∧ (w.thr 7).waitFor = .wake ∧ (w.thr 7).haltReq = false ∧ 0 < w.pend 7) ∧
    (let w := cfg.onThr 7 (fun h => { h with st := .waiting, waitFor := .sleep 16 })
     (w.thr 7).st = .waiting ∧ (w.thr 7).waitFor = .sleep 16) ∧
    (cfg.thr 0).atEventBoundary (.trapEntry 0) = true ∧
    State.fetchThread { cfg with threads := ⟨{}, {}, {}, {}, {}, {}, {}, {}⟩ } = none := by
  (repeat' with_reducible apply And.intro) <;> decide +kernel

theorem witness_ThreadEvents_redeliver : cfg.redeliver = cfg := rfl

/-! Field I/O and counters -/

/-- Both Ethernet ports up. -/
def eth : State := (run.setB (R.ETH_STAT 0) 0 true).setB (R.ETH_STAT 1) 0 true

theorem witness_FrameReception :
    eth.ethUp 1 = true ∧ eth.running = true ∧ (eth.eth 1).rxBytes + 64 ≤ 131072 ∧
    131072 < ((eth.onEth 1 (fun q => { q with rxBytes := 131072 })).eth 1).rxBytes + 1 ∧
    (∀ n ∈ [63, 64, 1536, 1537], ∀ g ∈ [true, false], let f : RxFrame := { port := 1, bytes := List.replicate n 0, fcsGood := g, stream := some 5 }
      let s := eth.onEth 1 (fun q => { q with rx := [f] })
      (s.eth 1).rx = [f] ∧ f.bytes.length = n ∧ (parseFrame f.bytes).etype ≠ 0x88F7 ∧ s.mode ≠ 5) ∧
    (let f : RxFrame := { port := 1, bytes := List.replicate 12 0 ++ [0x88, 0xF7] ++ List.replicate 50 0, fcsGood := true, stream := some 5 }
     f.bytes.length = 64 ∧ (parseFrame f.bytes).etype = 0x88F7) ∧ ({} : RxFrame).stream = none ∧ (inMode 5).mode = 5 ∧
    (let s := eth.onEth 1 (fun q => { q with rx := [], rxBytes := 0 })
     (∃ s2, s.eliminate 5 none = (s2, true)) ∧
     let known := s.onIo (fun i =>
       { i with
         streams := [(5, { elim := true, hist := 1 })]
         recovery := [(5, { take := false, seq := 9, history := [true] })] })
     ∃ s2, known.eliminate 5 (some 9) = (s2, false)) := by
  refine ⟨?_, ?_, ?_, ?_, ?_, ?_, rfl, rfl, ⟨_, rfl⟩, _, rfl⟩ <;> decide +kernel

/-- A history of one place and of 32, just after a reset and with a last number of 65535. -/
theorem witness_FrameElimination :
    (1 ≤ 32 ∧ ({ take := true, history := List.replicate 32 false } : Recovery).history.length = 32) ∧
    (let r : Recovery := { take := false, seq := 65535, history := [true] }
     r.history.length = 1 ∧ r.take = false ∧ (1 : Int) ≤ (toSigned 16 (0 + 65536 - r.seq)).natAbs ∧
       toSigned 16 (65535 + 65536 - r.seq) = 0) ∧
    (let r : Recovery := { take := false, seq := 65535, history := List.replicate 32 false }
     toSigned 16 (30 + 65536 - r.seq) = 31 ∧ toSigned 16 (65504 + 65536 - r.seq) = -31 ∧
       toSigned 16 (31 + 65536 - r.seq) = 32) := by decide

theorem witness_SignalImage :
    (let s := run.onIo (fun i => { i with commits := [{}] })
     s.b R.SIM_STAT 2 = false ∧ s.running = true ∧ s.io.commits = [{}]) ∧
    (run.setB R.SIM_STAT 2 true).b R.SIM_STAT 2 = true ∧ (run.setB R.SIM_STAT 1 true).b R.SIM_STAT 1 = true ∧
      run.b R.SIM_STAT 1 = false ∧
    Reaches cfg (.thread 0) R.SIM_CTL ∧ Reaches run (.thread 0) R.SIM_CTL ∧ cfg.mode = 2 ∧ run.mode ≠ 2 := by
  (repeat' with_reducible apply And.intro) <;> first | (with_reducible refine reachT ?_; decide +kernel) | decide +kernel

theorem witness_SignalImage_takes : Takes R.SIM_CTL 1 := takes (by decide +kernel)

theorem witness_EndStationAndGates :
    (let s := (eth.setB (R.ETH_PTPCFG 1) 0 true).onIo (fun i => { i with synced := true, slave := 1 })
     s.ptpOn 1 = true ∧
     (∀ ofs ∈ [-1000001, -1000000, 1000000, 1000001],
       (match exec (.syncReceive 1 ofs 0) s with | .next u => u.io.slave | _ => 0) = 1) ∧
     s.io.slave = 1 ∧ s.io.synced = true ∧ eth.ptpOn 1 = false ∧ s.src ≠ 3 ∧
     (s.putF R.LDG_CTL 1 0 3).src = 3) ∧
    ((eth.putF (R.ETH_CTL 1) 1 0 1).f (R.ETH_CTL 1) 1 0 ≠ 0 ∧ eth.ethUp 1 ≠ false ∧
      (eth.setB (R.ETH_CTL 1) 5 true).b (R.ETH_CTL 1) 5 = true) ∧
    (let s := run.onIo (fun i => { i with streams := [(511, { elim := true })], recovery := [(511, { take := false })] })
     (s.stream 511).elim = true ∧ (s.recoveryOf 511).take = false) ∧
    (Reaches run (.thread 0) (R.ETH_GCLCTL 1) ∧ run.b (R.ETH_GCLCTL 1) 10 = false ∧ fld 0x300 8 0 ≤ 256 ∧ fld 0x200 8 0 = 0 ∧
      100 ≤ run.f (R.ETH_GCLCYC 1) 23 0 ∧ run.f (R.ETH_GCLCYC 1) 23 0 ≤ 10000000) ∧
    (run.setB (R.ETH_GCLCTL 1) 10 true).b (R.ETH_GCLCTL 1) 10 = true ∧
    (let s := run.onEth 1 (fun q => { q with oper := [(1, 100), (2, 100)], operCycle := 200, sending := some {} })
     (s.eth 1).oper ≠ [] ∧ (s.eth 1).operIdx + 1 < (s.eth 1).oper.length ∧ (s.eth 1).operSum < (s.eth 1).operCycle ∧
       (s.eth 1).sending = some {} ∧
     (let u := s.onEth 1 (fun q => { q with operIdx := 1 })
      (u.eth 1).oper.length ≤ (u.eth 1).operIdx + 1)) := by
  (repeat' with_reducible apply And.intro) <;> first | (with_reducible refine reachT ?_; decide +kernel) | decide +kernel

theorem witness_EndStationAndGates_takes : Takes (R.ETH_GCLCTL 1) 0x300 ∧ Takes (R.ETH_GCLCTL 1) 0x200 :=
  ⟨takes (by decide +kernel), takes (by decide +kernel)⟩

theorem witness_PerformanceCounters :
    (let s := (run.setB R.PMC_CTL 0 true).wr (R.PMC_CFG 63) 0x40001
     s.pmcCounts 63 = true ∧ s.pmcSteady 63 = true) ∧ (2 ^ 48 - 1 < 2 ^ 48) ∧ run.running = true ∧
    0 < (run.setB (R.SPC_TI_STAT 185) 0 true).pend 185 ∧ (run.setB R.PMC_BWCTL 20 true).b R.PMC_BWCTL 20 = true ∧
    Reaches run (.thread 0) R.PMC_CTL ∧ Reaches run (.thread 0) (R.PMC_LO 63) ∧ Reaches run (.thread 0) (R.PMC_HI 63) ∧
    (run.fresh R.PMC_STAT).getLsbD 0 = false ∧ run.debugRights (.thread 0) = true ∧ fld 0x8000FFFF 30 16 = 0 := by
  (repeat' with_reducible apply And.intro) <;> first | (with_reducible refine reachT ?_; decide +kernel) | decide +kernel

theorem witness_PerformanceCounters_takes : Takes R.PMC_CTL 4 := takes (by decide +kernel)

/-! The Lichen fabric -/

/-- Port 3 of the Lichen fabric in a state. -/
def port (st : Nat) : State := run.putF (R.LNK_STAT 3) 2 0 st

/-- A data packet of 64 bytes to a bank of this device. -/
def pkt (op vc dst : Nat) : Packet :=
  { op := BitVec.ofNat 4 op, vc := BitVec.ofNat 2 vc, dst := BitVec.ofNat 6 dst, src := 1, late := false, morg := true, sub := 0, hi := false,
    len := 64, tag := 7, addr := BitVec.ofNat 41 (bankHome 0), payload := if op = 1 then List.replicate 64 1 else [] }

/-- A link header with the expected SEQ. -/
def hdr : LinkHeader := { seq := 0, ack := 4095, nak := false, crcnt := 0, crvc := 0 }

theorem witness_LinkStates :
    (let s := port 0
     s.running = true ∧ s.lnkState 3 = 0 ∧ (s.putF (R.LNK_CTL 3) 1 0 1).f (R.LNK_CTL 3) 1 0 ≠ 0 ∧ s.linkUp 3 = false) ∧
    (∀ k ∈ [1, 2, 3, 4, 5], (port k).lnkState 3 = k) ∧ (port 4).fabric.outstanding = [] ∧ (port 4).linkUp 3 = true ∧
    ((port 5).lnk 3).resyncSent = false ∧ (((port 5).onLnk 3 (fun l => { l with resyncSent := true })).lnk 3).resyncSent = true ∧
    (let fec := fun (s : State) => ((s.lnk 3).fecAt.filter (fun t => decide (s.now ≤ t + usTime 1000))).length
     1 + fec (port 4) < 8 ∧ 8 ≤ 1 + fec ((port 4).onLnk 3 (fun l => { l with fecAt := List.replicate 7 0 }))) ∧
    (let met := ((port 5).sendResync 3).takeHeader 3 { hdr with nak := false }
     (met.resyncOk 3 [] 0).isSome = true ∧ (met.resyncOk 3 [(0, 1), (0, 0), (0, 0), (0, 0)] 0).isSome = false) ∧
    Reaches cfg (.thread 0) (R.LNK_CTL 3) ∧ Reaches run (.thread 0) (R.LNK_CTL 3) ∧
    (let m := cfg.f (R.LNK_CTL 3) 1 0
     fld 0x105 1 0 = 1 ∧ fld 0x105 15 8 ≠ 0 ∧ (0x105 : Word).getLsbD 2 = true ∧ (0x105 : Word).getLsbD 3 = false ∧
     (0x109 : Word).getLsbD 2 = false ∧ (0x109 : Word).getLsbD 3 = true ∧ fld 0x103 1 0 = 3 ∧ cfg.mode = 2 ∧ m < 3) := by
  (repeat' with_reducible apply And.intro) <;> first | (with_reducible refine reachT ?_; decide +kernel) | decide +kernel

theorem witness_LinkStates_takes : Takes (R.LNK_CTL 3) 0x105 ∧ Takes (R.LNK_CTL 3) 0x109 ∧ Takes (R.LNK_CTL 3) 0x103 := by
  (repeat' with_reducible apply And.intro) <;> (with_reducible refine takes ?_; decide +kernel)

/-- Port 3 up in a domain with a packet to send and credit for it. -/
def sender : State := ((port 4).setB R.FAB_CTL 0 true).onLnk 3 (fun l => { l with txq := [pkt 1 1 0], vc := l.vc.set 1 { cr := 100 } })

theorem witness_LinkPackets_send :
    let l := sender.lnk 3
    let o := ((port 4).setB R.FAB_CTL 0 true).onLnk 3 (fun l => { l with vc := l.vc.set 1 { pend := 1 } })
    let full := sender.onLnk 3 (fun l => { l with retry := List.replicate 1023 (0, pkt 0 2 0) })
    let flits := fun (s : State) => ((s.lnk 3).retry.map (fun e => pktFlits e.2)).sum
    sender.lnkState 3 = 4 ∧ sender.b R.FAB_CTL 0 = true ∧ l.resend = [] ∧ (sender.nextPacket 3).map Prod.fst = some (pkt 1 1 0) ∧
    flits sender + pktFlits (pkt 1 1 0) ≤ 1024 ∧ l.retry.length < 2047 ∧
    ((full.lnk 3).resend = [] ∧ (full.nextPacket 3).map Prod.fst = some (pkt 1 1 0) ∧ 1024 < flits full + pktFlits (pkt 1 1 0) ∧
      0 < ((full.onLnk 3 (fun l => { l with vc := l.vc.set 2 { pend := 1 } })).lnk 3).owed.2) ∧
    ((sender.onLnk 3 (fun l => { l with resend := [(5, pkt 1 1 0)] })).lnk 3).resend = [(5, pkt 1 1 0)] ∧
    ((o.lnk 3).resend = [] ∧ o.nextPacket 3 = none ∧ 0 < (o.lnk 3).owed.2) ∧ (port 4).b R.FAB_CTL 0 = false := by
  intros; (repeat' with_reducible apply And.intro) <;> decide +kernel

/-- The bytes of a packet; those with a bit of the payload changed, with a reserved bit of the header, and of KIND 6. -/
def wire : List Byte := wireBytes hdr (pkt 1 1 0)
def resealed (b : List Byte) : List Byte := let n := wireCrcAt b; b.take n ++ leBytes 4 (crc32 (b.take n)) ++ b.drop (n + 4)

theorem witness_LinkPackets_receive :
    let s := port 4
    let bad := wire.set 30 0
    let resv := resealed (wire.set 10 0x88)
    let kind6 := resealed (wire.set 3 0x0C)
    s.lnkState 3 = 4 ∧ (s.lnk 3).nakSent = false ∧ ((s.onLnk 3 (fun l => { l with nakSent := true })).lnk 3).nakSent = true ∧
    wireGood bad = false ∧ (wireGood wire = true ∧ wireKind wire = 0 ∧ (wireLink wire).nak = false ∧
      (wireLink wire).seq.toNat = (s.lnk 3).rxNext ∧ (s.lnk 3).audit = none ∧ wireValid wire = true) ∧
    (wireGood resv = true ∧ wireKind resv = 0 ∧ (wireLink resv).nak = false ∧ (wireLink resv).seq.toNat = (s.lnk 3).rxNext ∧
      wireValid resv = false) ∧
    (wireGood kind6 = true ∧ wireKind kind6 = 6) ∧
    (let r := (s.setB R.FAB_CTL 0 true).onLnk 3 (fun l => { l with retry := [(0, pkt 1 1 0)] })
     r.b R.FAB_CTL 0 = true ∧ (r.lnk 3).retry.filter (fun e => !decide ((4095 + 4096 - e.1) % 4096 < 2048)) ≠ []) := by
  intros; (repeat' with_reducible apply And.intro) <;> decide +kernel

theorem witness_LinkPackets_audit :
    let s := (port 4).onLnk 3 (fun l => { l with vc := ⟨{ cr := vcBuffer 0 }, { cr := vcBuffer 1 }, { cr := vcBuffer 2 }, { cr := vcBuffer 3 }⟩ })
    let s1 := s.takeHeader 3 hdr
    let good := (List.range 4).map (fun v => (0, 0, vcBuffer v))
    s.lnkState 3 = 4 ∧ hdr.nak = false ∧ ((s.lnk 3).ackSeq + 4096 - (s.lnk 3).ackSeq) % 4096 < 2048 ∧
    2048 ≤ ((s.lnk 3).ackSeq + 4096 - ((s.lnk 3).ackSeq + 1) % 4096) % 4096 ∧
    (∀ v, v < 4 → ((s1.lnk 3).vc.get v).auditOk v (good.getD v (0, 0, 0)) = true) ∧
    (∃ v, v < 4 ∧ ((s1.lnk 3).vc.get v).auditOk v (([] : List (Nat × Nat × Nat)).getD v (0, 0, 0)) = false) ∧
    (s.lnk 3).delayT1 = none ∧ ((s.onLnk 3 (fun l => { l with delayT1 := some 0 })).lnk 3).delayT1 = some 0 := by
  intros; (repeat' with_reducible apply And.intro) <;> decide +kernel

/-- A member of a domain with port 3 up. -/
def member (key : Bool) : State := ((port 4).setB R.FAB_CTL 0 true).setB R.FAB_STAT 7 key

/-- The keystone's partner on port 3 has sent its ADVERT with a UID. -/
def partner (uid : Word) : State := ((member true).onLnk 3 (fun l => { l with advSeen := true })).wr (R.LNK_PEERUID_LO 3) uid

/-- The keystone's reports once one that names its own UID came in. -/
def gatheredBy (s : State) (i : MemberInfo) : State :=
  let s1 := s.takeTyped 3 6 2 (memberBytes i)
  s1.onFab (fun f => { f with members := s1.keptReports (s.fabric.members.filter (fun x => x.uid != i.uid) ++ [i]) })

/-- All its links lead to reported members: it has none. One leads to a member that has not reported: of two UIDs, that which is
not its own. -/
theorem witness_DomainEpochs_members : let own : MemberInfo := { uid := Config.otpUid }
    (gatheredBy (member true) own).membersComplete = true ∧
    ((gatheredBy (partner 0) own).membersComplete = false ∨ (gatheredBy (partner 1) own).membersComplete = false) := by
  have all : ∀ (s t : State), s.takeTyped 3 6 2 (memberBytes { uid := Config.otpUid }) = t → s.fabric.members = [] →
      (gatheredBy s { uid := Config.otpUid }).membersComplete = t.ownMember.links.all (fun k => Config.otpUid == k.2) := by
    intro s t h g
    simp [gatheredBy, h, g, State.keptReports, State.membersComplete, State.onFab, reachable, State.ownMember]
  refine ⟨(all _ (member true) rfl rfl).trans rfl, ?_⟩
  rw [all _ (partner 0) rfl rfl, all _ (partner 1) rfl rfl, show (partner 0).ownMember.links = [(3, 0)] by decide +kernel,
    show (partner 1).ownMember.links = [(3, 1)] by decide +kernel]
  by_cases h : Config.otpUid = 0#64 <;> simp [h]

theorem witness_DomainEpochs :
    let s := member true
    let known := s.onFab (fun f => { f with members := [{ uid := 1, links := [(0, 2)] }] })
    (s.running = true ∧ s.fabEn = true ∧ s.linkUp 3 = true ∧ (s.lnk 3).advSeen = false ∧ s.isKeystone = true) ∧
    ((partner 0).lnk 3).advSeen = true ∧ s.now ≤ (s.lnk 3).advAt + usTime 20 ∧
    ((known.fabric.members.find? (fun x => x.uid == 1)).map (fun m => m.links)) = some [(0, 2)] ∧
    s.fabric.members.find? (fun x => x.uid == 1) = none ∧ (known.setB R.FAB_STAT 14 true).fabUp = true ∧
    (member false).isKeystone = false ∧ ((member false).onFab (fun f => { f with bestPort := some 3 })).fabric.bestPort = some 3 ∧
    ((1 : DWord) ≠ (member false).fabric.epoch ∧ (0 : DWord) = (member false).fabric.epoch ∧
      (member false).fabric.decision = none) ∧
    ((member false).setB R.FAB_STAT 6 true).ownId = some 0 ∧ (member false).ownId ≠ some 0 := by
  intros; (repeat' with_reducible apply And.intro) <;> decide +kernel

theorem witness_DomainService :
    let m := member false
    let asked := fun (st : Nat) => (((({ frame 0 with clk := (frame 0).toutClk } : State).setB R.FAB_STAT 14 true).setB (R.FAB_RT 5) 2 true).onFab (fun f =>
      { f with copyState := sput (fun _ => 0) f.copyState (256 * 5 + 15) st }))
    (m.fabEn = true ∧ m.linkUp 3 = true ∧ m.f R.LDG_PERIOD 23 0 ≠ 0 ∧ (m.putF R.LDG_CTL 1 0 2).src = 2 ∧ m.ledger.lost = false) ∧
    run.fabEn = false ∧ cfg.mode ≠ 3 ∧ (m.setB R.FAB_STAT 6 true).ownId = some 0 ∧ m.ownId ≠ some 0 ∧
    (run.setB R.FAB_TWIN 0 true).b R.FAB_TWIN 0 = true ∧
    (sget (fun _ => 0) (asked 1).fabric.copyState (256 * 5 + 15) = 1 ∧ (asked 1).mode = 3 ∧ (asked 1).idleWindow = true ∧
      (asked 1).fabUp = true ∧ (asked 1).b (R.FAB_RT 5) 2 = true ∧ blocks (bankHome 0) 64 = [(bankHome 0, 64)] ∧
      ((asked 1).readMem { master := 11, machine := true } (bankHome 0) 64).2 = .ok (List.replicate 64 0)) ∧
    sget (fun _ => 0) (asked 0).fabric.copyState (256 * 5 + 15) ≠ 1 := by
  intros; (repeat' with_reducible apply And.intro) <;> decide +kernel

/-- The engine as device 0 of a domain. -/
def dev0 : State := (run.setB R.FAB_CTL 0 true).setB R.FAB_STAT 6 true

theorem witness_RemoteRequestsServed :
    (∀ o ∈ [0, 1, 3, 7], pktValid { pkt o (opVc o) 0 with payload := if o = 0 then [] else List.replicate 64 0 } = true) ∧
    pktValid { pkt 4 (opVc 4) 0 with addr := 0x1FFF, len := 0 } = true ∧
    pktValid { pkt 2 (opVc 2) 0 with len := 4, payload := [1, 0, 0, 0] } = true ∧
    dev0.fabEn = true ∧ dev0.running = true ∧ dev0.isMine (pkt 0 2 0) = true ∧ dev0.isMine (pkt 0 2 63) = false ∧
      (pkt 0 2 0).op = 0 ∧
    ((dev0.takeRx 3 (pkt 0 2 0)).serveReads true (pieces (bankHome 0) 64) 0 []).2.1 = 0 ∧
    ((dev0.takeRx 3 (pkt 1 1 0)).serveWrites true (pieces (bankHome 0) 64) (List.replicate 64 0) 0).2 = 0 ∧
    (dev0.atomicAt true (bankHome 0) 0 false [1, 0, 0, 0]).2.1 = 0 ∧
    ((dev0.takeRx 3 (pkt 0 2 63)).sendOn (pkt 0 2 63)).isSome = false ∧
    (((dev0.setB (R.FAB_RT 63) 2 true).takeRx 3 (pkt 0 2 63)).sendOn (pkt 0 2 63)).isSome = true ∧
    pktValid { pkt 0 2 0 with len := 0 } = false ∧ run.fabEn = false := by
  (repeat' with_reducible apply And.intro) <;> decide +kernel

/-- A request outstanding under TAG 0. -/
theorem witness_RemoteRequestsServed_tag :
    let s := (dev0.request (.posted 15) 0 5 64 0 [] false false 0).1
    (s.fabric.outstanding.find? (fun o => o.tag == 0)).isSome = true ∧ dev0.fabric.outstanding.find? (fun o => o.tag == 7) = none := by
  intros; (repeat' with_reducible apply And.intro) <;> decide +kernel

theorem witness_RemoteRequestsMade :
    let s := ((((member false).putF R.FAB_STAT 22 16 2).setB R.FAB_STAT 6 true).wr (R.FAB_ATOM_ADDR_HI 7) 0x8000)
    let d := ((dev0.setB R.FAB_STAT 14 true).setB (R.FAB_RT 0) 2 true).wr (R.FAB_ATOM_ADDR_HI 7) (BitVec.ofNat 32 (remoteBase / 2 ^ 32))
    run.fabric.outstanding.length < 4096 ∧ Reaches s (.thread 0) (R.FAB_ATOM_CTL 7) ∧ s.machineOrigin (.thread 0) = true ∧
    fld 0xE 1 0 ≠ 3 ∧ (0xE : Word).getLsbD 3 = true ∧ (6 : Word).getLsbD 3 = false ∧
    ((d.stored (R.FAB_ATOM_CTL 7) 0xE).locate remoteBase = .remote 0 0 ∧ remoteBase % 8 = 0 ∧
      (d.stored (R.FAB_ATOM_CTL 7) 0xE).remoteOk 0 = true ∧
      (d.rd (R.FAB_ATOM_ADDR_LO 7)).toNat + d.f (R.FAB_ATOM_ADDR_HI 7) 15 0 * 2 ^ 32 = remoteBase) ∧
    s.b (R.FAB_ATOM_CTL 7) 4 = false ∧ (s.setB (R.FAB_ATOM_CTL 7) 4 true).b (R.FAB_ATOM_CTL 7) 4 = true ∧
    (run.atomGo (.thread 0) 7 0xE).2 = some 7 := by
  intros; (repeat' with_reducible apply And.intro) <;> first | (with_reducible refine reachT ?_; decide +kernel) | decide +kernel

theorem witness_RemoteRequestsMade_takes : Takes (R.FAB_ATOM_CTL 7) 0xE ∧ Takes (R.FAB_ATOM_CTL 7) 6 := by
  (repeat' with_reducible apply And.intro) <;> (with_reducible refine takes ?_; decide +kernel)

/-! The host -/

/-- The PCIe tunnel up, with aperture 15 on B0 for reading, and for writing. -/
def host : State := (run.setB R.HIF_LINK 3 true).wr (R.HIF_AP 15) 0x80000040
def hostw : State := host.wr (R.HIF_AP 15) 0xC0000040

theorem witness_HostWindow :
    let off := 15 * 2 ^ 26
    run.running = true ∧ host.hostUp = true ∧ host.barRefuses 0 false = some 0 ∧ host.barRefuses off true = some 1 ∧
    host.barRefuses off false = none ∧ host.hostDrain.hostRemote (host.barAddr off) = none ∧
    (host.hostDrain.readNow hostWho (host.barAddr off) 4).2 = .ok [0, 0, 0, 0] ∧
    hostw.barRefuses off true = none ∧
    (hostw.outstandingOf 12 + (hostw.lineWrites hostWho (pieces (hostw.barAddr off) 4) [1, 2, 3, 4]).length ≤ 32) ∧
    host.b R.HIF_WINERR 31 = false ∧ (host.setB R.HIF_WINERR 31 true).b R.HIF_WINERR 31 = true := by
  intros; (repeat' with_reducible apply And.intro) <;> decide +kernel

theorem witness_DoorbellsAndCommandArea :
    host.hostUp = true ∧ fld 0xFFFF 31 16 = 0 ∧ fld 0x10000 31 16 ≠ 0 ∧ host.outstandingOf 12 = 0 ∧ host.inProgress 15 = false ∧
    fld 0xFFFF 15 0 ≠ host.f (R.MBX_SEQ 15) 15 0 ∧ fld 0 15 0 = host.f (R.MBX_SEQ 15) 15 0 ∧
    (host.setB (R.MBX_DBSTAT 15) 9 true).inProgress 15 = true := by
  (repeat' with_reducible apply And.intro) <;> decide +kernel

theorem witness_MailboxPublish :
    let s := host.setB (R.MBX_DBSTAT 15) 9 true
    s.machineOrigin (.thread 0) = true ∧ Reaches s (.thread 0) (R.MBX_PUB 15) ∧ s.inProgress 15 = true ∧
      host.inProgress 15 = false ∧
    Reaches s (.thread 0) R.HIF_MSIREQ ∧
    (let e := s.onHost (fun h => { h with msixEn := true })
     e.host.msixEn = true ∧ (e.msixWord 63).getLsbD 0 = true ∧
     ((e.writeMsix 63 0).msixWord 63).getLsbD 0 = false) ∧ s.host.msixEn = false := by
  intros; (repeat' with_reducible apply And.intro) <;> first | (with_reducible refine reachT ?_; decide +kernel) | decide +kernel

theorem witness_MailboxPublish_takes : Takes (R.MBX_PUB 15) 0xFF ∧ Takes R.HIF_MSIREQ 3 := by
  (repeat' with_reducible apply And.intro) <;> (with_reducible refine takes ?_; decide +kernel)

theorem witness_UsbRequests :
    let h := fun (n a : Nat) => ({ mbx := 15, tag := 1, len := BitVec.ofNat 32 n, word2 := BitVec.ofNat 32 a, word3 := 1 } : UsbHeader)
    run.host.usb = none ∧ (h 64 0).len.toNat = 64 ∧ (h 128 0).len.toNat = 128 ∧ (h 0 0).len.toNat ≠ 64 ∧
    UsbHeader.memOk (h 8 0x04000000) = true ∧ UsbHeader.memOk (h 65536 0x04000000) = true ∧ UsbHeader.memOk (h 65544 0) = false ∧
    UsbHeader.memOk (h 4 0) = false := by
  intros; (repeat' with_reducible apply And.intro) <;> decide +kernel

theorem witness_RegisterAccess :
    let o := Origin.thread 0
    let waits := (run.onThr 0 (fun h => { h with sbuf := [{ addr := bankHome 16, bytes := [1] }] })).onBank 16 (fun b => { b with clearing := true })
    Reaches run o R.MTX_AGE ∧ run.descAsk o R.MTX_AGE 64 = none ∧ (run.csWrite o R.MTX_AGE 4 64).2 = none ∧
    (run.csWrite o R.MTX_AGE 4 63).2 = some 7 ∧ (run.csRead o R.MTX_HOLDCNT 4).2 = .ok 0 ∧ o ≠ .debug ∧
    Reaches run o 0x3FFFFFC ∧ regRow 0x3FFFFFC = none ∧ (run.csRead o 0x3FFFFFC 4).2 = .err 0 ∧
    (run.reaches o = true ∧ run.dbgDenies o R.MTX_AGE = false ∧ (waits.olderDone o).isSome = false) := by
  intros; (repeat' with_reducible apply And.intro) <;> first | (with_reducible refine reachT ?_; decide +kernel) | decide +kernel

/-- A store of the thread that waits, and the state once it is done. -/
theorem witness_RegisterAccess_older :
    let s := run.onThr 0 (fun h => { h with sbuf := [{ addr := bankHome 16, bytes := [1] }] })
    (s.olderDone (.thread 0)).map (fun u => u.running && noOlder u && (u.thr 0).sbuf.isEmpty) = some true := by
  decide +kernel

theorem witness_RegisterAccess_host :
    host.hostUp = true ∧ (match regRow (R.MBX_DOORBELL 15) with | some r => r.accepts 0xFFFFFFFF | none => true) = false := by
  (repeat' with_reducible apply And.intro) <;> decide +kernel

theorem witness_RegisterAccess_codes :
    let r : RegRow := { off := 0x10, s1 := 0, n1 := 1, s2 := 0, n2 := 1, rst := 0, rw := 0x1, w1c := 0x2, w1s := 0x4, wl := 0x80000000 }
    let e := run.setB 0x10 1 true
    let w := (run.accessDone).wr R.MTX_AGE 65
    r.rw &&& r.w1c = 0 ∧ r.rw &&& r.w1s = 0 ∧ r.w1c &&& r.w1s = 0 ∧ (r.rw ||| r.w1c ||| r.w1s) &&& r.wl = 0 ∧
      r.rw.testBit 0 = true ∧
    r.w1c.testBit 1 = true ∧ r.w1s.testBit 2 = true ∧ r.wl.testBit 31 = true ∧
    (r.rw ||| r.w1c ||| r.w1s ||| r.wl).testBit 3 = false ∧
    ((run.before 0x10).getLsbD 1 = run.b 0x10 1 ∧ (run.fresh 0x10).getLsbD 1 = false) ∧ (e.fresh 0x10).getLsbD 1 = true ∧
    ((w.before R.MTX_AGE).getLsbD 0 ≠ w.b R.MTX_AGE 0 ∧ r.wl.testBit 0 = false) ∧
    run.b R.MTX_ERR 31 = false ∧ (run.setB R.MTX_ERR 31 true).b R.MTX_ERR 31 = true := by
  intros; (repeat' with_reducible apply And.intro) <;> decide +kernel

/-! Firmware's commands -/

/-- Mailbox 15 in progress with a command code and its argument words, in a mode. -/
def mail (m code : Nat) (args : List (Nat × Nat)) : State :=
  args.foldl (fun s e => s.wr (R.MBX_CMD 15 e.1) (BitVec.ofNat 32 e.2))
    (((inMode m).setB (R.MBX_DBSTAT 15) 9 true).wr (R.MBX_CMD 15 0) (BitVec.ofNat 32 code))

/-- DDR5 mapped with 64 lines in each subchannel. -/
def ddr (s : State) : State := (s.setB R.DDRC_CFG 3 true).wr R.DDRC_SUBLINES 0x100000

/-- The words of the first DDR5 address as arguments i and i + 1. -/
def ddrArg (i : Nat) : List (Nat × Nat) := [(i, ddrBase % 2 ^ 32), (i + 1, ddrBase / 2 ^ 32)]

theorem witness_FirmwareChecksAndReports :
    (∀ c ∈ [0x01, 0x02, 0x11, 0x32, 0x60, 0x80], ∀ m ∈ [2, 5], Served (mail m c []) 15 c [2, 3, 4, 5] 0) ∧
    run.toServe 15 = false ∧ (mail 2 0xFF []).toServe 15 = true ∧ 0xFF ∉ assignedCodes ∧ 2 ∈ assignedCodes ∧
    fld ((mail 2 0x10001 []).cmdWord 15 0) 31 16 ≠ 0 ∧ (mail 2 1 [(15, 1)]).cmdWord 15 15 ≠ 0 ∧ (mail 3 0x40 []).mode ≠ 2 ∧
    (let s := (mail 5 0x11 []).onFw (fun f => { f with fiddlehead := true })
     s.toServe 15 = true ∧ s.fw.fiddlehead = true ∧ s.recovering = false) := by
  unfold Served; and_intros <;> decide +kernel

/-- A plan of one entry that is zero: its VJD cannot be read; a region command on B0. -/
theorem witness_ModePlanAndRegionCommands :
    (∀ t ∈ [0, 1, 5, 6], Served (mail 2 0x10 [(1, t)]) 15 0x10 [2, 3, 4, 5] 1 ∧ (mail 2 0x10 [(1, t)]).b R.PWR_MODEREQ 3 = false ∧
      (mail 2 0x10 [(1, t)]).power.safePending = none ∧
        (mail 2 0x10 [(1, t)]).waiting (fun w => match w with | .setMode _ => true | _ => false) = []) ∧
    (∀ m ∈ [2, 3], Served (mail m 0x31 []) 15 0x31 [2, 3, 4] 0 ∧ (mail m 0x31 []).taken 15 = false ∧
      (mail m 0x31 []).slot (1 - (mail m 0x31 []).ledger.actSlot) = [] ∧
      ((mail m 0x31 []).onLdg (fun l => { l with slot1 := [{}] })).slot 1 ≠ []) ∧
    (let s := ddr (mail 2 0x30 (ddrArg 1 ++ [(3, 1), (4, 7)]))
     let a := s.onThr 7 (fun h => { h with st := .active })
     Served s 15 0x30 [2, 3, 4] 4 ∧ s.argAddr 15 1 = some ddrBase ∧ s.inDdr ddrBase 16 = true ∧ ddrBase % 4 = 0 ∧
       (s.thr 7).st = .stopped ∧
     (a.thr 7).st = .active ∧ a.ledger.swapPending = false ∧ a.taken 15 = false ∧
     (a.fwTable fwWho 15 16 16 1 ddrBase []).2 = .ok [List.replicate 16 0]) ∧
    (∀ k < 3, let s := mail 3 (0x20 + k) [(1, bankHome 0 % 2 ^ 32), (2, 1), (3, bankHome 1 % 2 ^ 32), (4, 1), (5, 8)]
      let w := s.regionOf 15 k (bankHome 0) (bankHome 1)
      Served s 15 (0x20 + k) [2, 3, 4, 5] 6 ∧ s.host.waits.find? (fun e => e.1 == 15) = none ∧ s.argAddr 15 1 = some (bankHome 0) ∧
      s.argAddr 15 3 = some (bankHome 1) ∧ fld (s.cmdWord 15 6) 15 4 = 0 ∧ s.regionCheck { w with len := 7 } = 4 ∧
      w.done < w.len ∧ s.regionLate w = false ∧ s.regionLate { w with limit := 0 } = true) ∧
    (let w : RegionWork := { kind := 2, len := 8, done := 8 }
     let s := (mail 3 0x22 []).onHost (fun h => { h with waits := [(15, .region w)] })
     w.len ≤ w.done ∧ s.host.waits.find? (fun e => e.1 == 15) = some (15, .region w) ∧ s.running = true ∧ s.host.asked.contains 15 = false) := by
  unfold Served; and_intros <;> decide +kernel

/-- The reset values of TICK_CONFIG's registers as its arguments, and a period that is too short. -/
def ticks (period : Nat) : State :=
  mail 2 0x40 [(1, 4), (2, period), (3, 1000), (4, 2000), (5, 3000), (6, 200), (7, 0), (8, 0), (9, 8), (10, 0x384)]

theorem witness_LoadsAndSubcommands :
    (Served (ticks 100000) 15 0x40 [2] 15 ∧ (ticks 100000).tickArgs 15 = none ∧ (ticks 100000).extraArg 15 10 = none ∧
      (ticks 4999).tickArgs 15 = some 2) ∧
    (let s := ddr (mail 2 0x51 (ddrArg 1 ++ [(3, 1)]))
     Served s 15 0x51 [2] 3 ∧ s.argAddr 15 1 = some ddrBase ∧ s.arg 15 3 ≤ 16384 ∧ s.inDdr ddrBase 32 = true ∧
     (s.fwTable sorterWho 15 32 32 1 ddrBase []).2 = .ok [List.replicate 32 0] ∧
       (s.rulesBad [List.replicate 32 0] 0 []).isSome = true ∧
     s.rulesBad [] 0 [] = none) ∧
    (∀ e ∈ [(0, 0, 1), (1, 0, 3), (2, 0, 1), (3, 0, 1)],
      Served (mail 3 0xD0 [(1, e.1 * 0x100 + 0xFF)]) 15 0xD0 [2, 3, 4] e.2.2 ∧
        fld ((mail 3 0xD0 [(1, e.1 * 0x100 + 0xFF)]).cmdWord 15 1) 15 8 = e.1) ∧
    ((mail 3 0xD0 []).f (R.CH_CFG 255) 1 0 ≠ 1 ∧ ((mail 3 0xD0 []).putF (R.CH_CFG 255) 1 0 1).f (R.CH_CFG 255) 1 0 = 1 ∧
      (mail 3 0xD0 []).fwRegOk (R.CH_PROD 255 3) 0x30 = true ∧ spcKinds.contains (fld 0x30 7 0) = true) ∧
    (∀ e ∈ [(0, 5), (1, 2), (2, 2), (3, 4), (4, 4)], Served (ddr (mail 2 0x61 ([(1, e.1)] ++ (if 3 ≤ e.1 then ddrArg 2 else [])))) 15 0x61 [2] e.2) ∧
    ((mail 2 0x61 []).fwRegOk R.FAB_CTL 0xFFFFFFFF = false ∧ (mail 2 0x61 []).fwRegOk R.FAB_CTL 1 = true ∧
      (mail 2 0x61 []).fwRegOk R.FAB_PRIO 1 = true ∧
      (mail 2 0x61 []).fwRegOk R.FAB_VOTE 1 = true ∧ (mail 2 0x61 []).fwRegOk R.FAB_WITNESS 1 = true ∧
      (mail 2 0x61 []).fwRegOk R.FAB_TWIN 1 = true) ∧
    ((ddr (mail 2 0x61 [])).inDdr ddrBase 0 = true ∧ firstBad (fun b => (run.parseRegion b).isSome) [] 0 = none ∧ overTotal [] 0 0 = none) := by
  unfold Served; and_intros <;> decide +kernel

theorem witness_TasksAndCounters :
    (Served (mail 2 0x81 [(1, 7), (2, 255)]) 15 0x81 [2] 2) ∧
    (let s := mail 5 0x90 [(1, 0x1013F)]
     Served s 15 0x90 [2, 3, 4, 5] 1 ∧ fld (s.cmdWord 15 1) 7 6 = 0 ∧ fld (s.cmdWord 15 1) 15 12 = 0 ∧
       fld (s.cmdWord 15 1) 31 17 = 0 ∧
     fld (s.cmdWord 15 1) 11 8 ≠ 0 ∧ fld (s.cmdWord 15 1) 5 0 + fld (s.cmdWord 15 1) 11 8 ≤ 64) ∧
    (∀ k ∈ [0, 1, 7, 8], Served (mail 3 0xC0 [(2, k)]) 15 0xC0 [2, 3, 4, 5] 2) ∧
    (∀ c ∈ [0xA1, 0xA2], ∀ t ∈ [1, 2, 7], Served (mail 3 c [(1, t)]) 15 c [2, 3, 4] 1 ∧ (mail 3 c [(1, t)]).taken 15 = false ∧
      ((mail 3 c [(1, t)]).thr t).st = .stopped) ∧
    (((mail 3 0xA2 [(1, 7)]).onThr 7 (fun h => { h with st := .active })).thr 7).st ≠ .stopped ∧
    (mail 3 0xA1 [(1, 7)]).descAsk (.lichen true) (R.STM_CTL 7) (setFld 1 5 4 ((mail 3 0xA1 [(1, 7)]).f (R.STM_CTL 7) 5 4)) = none ∧
    (let s := ddr (mail 3 0xA0 (ddrArg 2 ++ ddrArg 8 ++ [(1, 7), (4, 4), (10, 0)]))
     Served s 15 0xA0 [2, 3, 4] 10 ∧ s.taken 15 = false ∧ s.argAddr 15 2 = some ddrBase ∧ s.argAddr 15 8 = some ddrBase ∧
       (s.thr 7).st = .stopped ∧
     0 < s.arg 15 4 ∧ s.arg 15 4 % 4 = 0 ∧ s.arg 15 4 ≤ bankSize 16 ∧ s.arg 15 5 % 64 = 0 ∧ s.fw.fwArea ≤ s.arg 15 5 ∧
       s.arg 15 6 < s.arg 15 4 ∧
     s.arg 15 7 ≤ 1 ∧ s.arg 15 10 = 0 ∧ s.fabricAway ddrBase = false ∧ (s.fwRead 15 ddrBase 4).2 = .ok [0, 0, 0, 0]) := by
  unfold Served; and_intros <;> decide +kernel

theorem witness_UpdateAndSettings :
    (∀ m ∈ [2, 5], let s := ddr (mail m 0x70 (ddrArg 1))
      Served s 15 0x70 [2, 3, 4, 5] 2 ∧ s.argAddr 15 1 = some ddrBase ∧ s.taken 15 = false ∧ s.fabricAway ddrBase = false ∧
      (s.fwRead 15 ddrBase 512).2 = .ok (List.replicate 512 0)) ∧
    imgWellFormed (List.replicate 512 0) = false ∧
    (let s := ddr (mail 3 0x71 (ddrArg 1 ++ [(3, 0), (4, 1)]))
     let h := s.onUpd (fun u => { u with holder := some .host })
     Served s 15 0x71 [2, 3, 4, 5] 4 ∧ s.taken 15 = false ∧ s.attached .host = false ∧ h.attached .host = true ∧
       h.upd.failedHost = false ∧
     (h.fwRead 15 ddrBase 1).2 = .ok [0]) ∧
    (∀ c ∈ [0x72, 0x73, 0x74, 0x75], let s := mail 3 c []
      Served s 15 c [2, 3, 4, 5] 0 ∧ s.taken 15 = false ∧ s.attached .host = false ∧ s.upd.holder ≠ some .host) ∧
    (let s := (mail 3 0x72 []).onUpd (fun u => { u with holder := some .host, plen := 256 })
     let u := s.onUpd (fun u => { u with units := [0] })
     s.attached .host = true ∧ s.upd.holder = some .host ∧ (s.commitStaging).2 = some 0 ∧ u.attached .host = true ∧
       (u.commitStaging).2 = none) ∧
    (let s := ddr (mail 2 0xB0 ([(1, 9)] ++ ddrArg 2 ++ [(4, 1)]))
     let r : SettingsRec := { key := 9, schema := 1, data := [7] }
     let k := s.onFw (fun f => { f with settings := [r] })
     Served s 15 0xB0 [2, 3, 4, 5] 4 ∧ s.argAddr 15 2 = some ddrBase ∧ s.arg 15 1 < 65536 ∧ s.taken 15 = false ∧
     s.fw.settings.find? (fun r => r.key == s.arg 15 1) = none ∧ k.fw.settings.find? (fun r => r.key == k.arg 15 1) = some r ∧
     (k.fwWrite 15 ddrBase [7]).2 = .ok []) ∧
    (∀ x ∈ [0, 1], let s := ddr (mail 2 0xB1 ([(1, 65534)] ++ ddrArg 2 ++ [(4, x), (5, 0)]))
      Served s 15 0xB1 [2] 5 ∧ s.argAddr 15 2 = some ddrBase ∧ s.taken 15 = false ∧ s.fw.schMin ≤ s.arg 15 5 ∧
        s.arg 15 5 ≤ s.fw.schMax ∧
      s.fabricAway ddrBase = false ∧ (s.fwRead 15 ddrBase 1).2 = .ok [0]) ∧ (1 : Nat) > run.fw.schMax := by
  unfold Served; and_intros <;> decide +kernel

/-- Another mailbox of the staging with its command carried out. -/
theorem witness_UpdateAndSettings_taken :
    (((((ddr (mail 2 0x70 (ddrArg 1))).setB (R.MBX_DBSTAT 3) 9 true).wr (R.MBX_CMD 3 0) 0x71).onHost (fun h => { h with asked := [3] })).taken 15) = true := by
  decide +kernel

/-! Updates, self-test and debug -/

/-- A relay packet of a subcommand. -/
def relay (sub : Nat) : Packet := { pkt 5 (opVc 5) 0 with addr := BitVec.ofNat 41 sub, len := 0, payload := [] }

/-- A staging of 256 bytes held by the fabric, one unit of it received or not. -/
def staged (units : List Nat) : State :=
  dev0.onUpd (fun u => { u with holder := some .fabric, plen := 256, units := units })

theorem witness_UpdateEvents :
    let s0 := dev0.takeRx 3 (relay 1)
    run.running = true ∧ dev0.running = true ∧ dev0.fabEn = true ∧ (staged []).upd.holder.isSome = true ∧
    (∀ x ∈ [1, 2, 3, 4], relaySub (relay x) = x) ∧ (relay 1).addr.toNat / 16 % 16 = 0 ∧
    (run.setB R.UPD_CTL 1 false).b R.UPD_CTL 1 = false ∧ (run.setB R.UPD_CTL 1 true).b R.UPD_CTL 1 = true ∧
    ((s0.setB R.UPD_INT 1 true).lockFor .fabric []).isSome = true ∧
    (((s0.onUpd (fun u => { u with holder := some .host, header := [1] })).setB R.UPD_INT 1 true).lockFor .fabric []).isSome = false ∧
    ((staged []).stageBlock .fabric 0 []).2 ≠ .failed ∧ ((staged [0]).stageBlock .fabric 0 (List.replicate 256 1)).2 = .failed ∧
      (staged []).attached .fabric = true ∧ (staged []).upd.failedFab = false ∧
    ((staged []).commitStaging).2 = some 0 ∧ ((staged [0]).commitStaging).2 = none ∧ dev0.isMine (relay 4) = true ∧
    Reaches run (.thread 0) R.UPD_FUSE ∧ Reaches run (.thread 0) R.UPD_KEYLOCK ∧ run.machineOrigin (.thread 0) = true ∧
      fld 64 6 0 ≤ 64 ∧
    run.b R.UPD_FUSE 7 = false ∧ (run.setB R.UPD_FUSE 7 true).b R.UPD_FUSE 7 = true ∧ run.upd.fuseTarget ≤ 64 := by
  intros; (repeat' with_reducible apply And.intro) <;> first | (with_reducible refine reachT ?_; decide +kernel) | decide +kernel

theorem witness_UpdateEvents_fuses : fld 0 6 0 ≤ run.arbCount := Nat.zero_le _

/-- Slot B on trial: boot-control copy 0 with GEN 1 and STATEB 2. -/
def trialBoot : State := (run.setB R.UPD_STAT 7 true).setBoot (fun b => { b with stateB := 2, runmin := 28 })

theorem witness_UpdateEvents_trial :
    trialBoot.trialSlot = some 1 ∧ trialBoot.mode = 3 ∧ trialBoot.b R.UPD_STAT 7 = true ∧ trialBoot.boot.runmin = 28 ∧
    (trialBoot.setBoot (fun b => { b with runmin := 30 })).boot.runmin = 30 := by
  (repeat' with_reducible apply And.intro) <;> decide +kernel

theorem witness_UpdateEvents_takes : Takes R.UPD_FUSE 64 ∧ Takes R.UPD_KEYLOCK 1 := by
  (repeat' with_reducible apply And.intro) <;> (with_reducible refine takes ?_; decide +kernel)

/-- The idle window of a frame. -/
def idle : State := { frame 0 with clk := (frame 0).toutClk }

theorem witness_SelfTest :
    idle.bankSliceFits = true ∧ idle.nextRegion = some 0 ∧ run.bankSliceFits = false ∧
    (idle.storageOf (bankHome 0)).map (fun n => n / 0x10000) = some (regionHome 0 / 0x10000) ∧
    (idle.sliceFits 19200 = true ∧ idle.b R.BST_CTL 1 = true ∧ idle.depth 7 = 0 ∧ idle.retryOf 2 = none ∧
      idle.bist.doneFrond = false ∧
      idle.bist.doneAna = false ∧ idle.bist.fatal = false) ∧
    (idle.setB R.LDG_TESTRES 7 true).testFrond 7 = true ∧
    (idle.sliceFits 32000 = true ∧ idle.b R.BST_CTL 2 = true ∧ anaItems.contains (0x63, 9) = true ∧ idle.retryOf 3 = none) ∧
    sget (fun _ => 0) idle.bist.aborts 0 + 1 < 8 := by
  (repeat' with_reducible apply And.intro) <;> decide +kernel

/-- T7 halted, and the debugger with Full rights. -/
def dbg2 : State := (run.putF R.DBG_STAT 1 0 2).onThr 7 (fun h => { h with st := .halted })

/-- T7 and one of its registers selected. -/
def picked (r : Nat) : State := (dbg2.putF R.DBG_TSEL 2 0 7).putF R.DBG_TSEL 7 3 r

theorem witness_DebugAccess :
    run.portAlive = true ∧ run.dbg.status ≠ 3 ∧ (run.onDbg (fun d => { d with status := 3 })).dbg.status = 3 ∧
    run.debugAllows (bankHome 0) = false ∧ dbg2.debugAllows (bankHome 0) = true ∧
      (run.setB R.DBG_STAT 4 true).b R.DBG_STAT 4 = true ∧
    run.b R.DBG_STAT 4 = false ∧ (run.onDbg (fun d => { d with fresh := true })).dbg.fresh = true ∧ run.power.lockout = false ∧
      run.dbg.fresh = false ∧
    dbg2.machineOrigin (.thread 0) = true ∧ dbg2.debugRights .debug = true ∧ (dbg2.thr 7).st = .halted ∧
      (dbg2.thr 7).waitFor = .nothing ∧
    dbg2.mayName .debug 7 = true ∧ (dbg2.fresh R.DBG_RESUME).getLsbD 7 = false ∧
    (let h := (run.onDbg (fun d => { d with halting := true })).onThr 7 (fun h => { h with haltReq := true, stepDone := true })
     h.dbg.halting = true ∧ (h.thr 7).remote = none ∧ (h.thr 7).stepDone = true ∧ (run.thr 7).stepDone = false) ∧
    (∀ r ∈ [16, 17, 18, 19], (picked r).f R.DBG_TSEL 7 3 = r ∧ ((picked r).tregRead (.thread 0)).isSome = true) ∧
    dbg2.f R.DBG_TSEL 2 0 = 0 ∧ (dbg2.thr 0).st ≠ .halted ∧ dbg2.machineOrigin (.thread 2) = false ∧
    ((run.onDbg (fun d => { d with trace := [1] })).dbg.trace ≠ [] ∧ run.b R.DBG_TRCCTL 1 = false) := by
  (repeat' with_reducible apply And.intro) <;> decide +kernel

theorem witness_DebugAccess_olderDone : run.olderDone .debug = some run := flushMaster_noOlder (by decide +kernel) 15

theorem witness_DebugAccess_reaches :
    Reaches dbg2 (.thread 0) R.DBG_HALT ∧ Reaches dbg2 .debug R.DBG_HALT ∧ Reaches dbg2 .debug R.DBG_RESUME ∧
      Reaches dbg2 .debug R.DBG_STEP ∧
    Reaches dbg2 .debug R.DBG_TREG ∧ Reaches dbg2 .debug (R.DBG_SP 31) ∧ Reaches dbg2 (.thread 2) (R.DBG_SP 16) := by
  (repeat' with_reducible apply And.intro) <;> first | (with_reducible refine reachT ?_; decide +kernel) | (with_reducible refine reachD ?_; decide +kernel)

theorem witness_DebugAccess_takes : Takes R.DBG_HALT 0x80 ∧ Takes R.DBG_RESUME 0x80 ∧ Takes R.DBG_STEP 7 := by
  (repeat' with_reducible apply And.intro) <;> (with_reducible refine takes ?_; decide +kernel)

theorem witness_Supervision :
    let w := run.setB R.WDG_CTL 0 true
    Reaches run (.thread 0) R.WDG_CTL ∧ Reaches run (.thread 0) R.WDG_SVC ∧ Reaches run (.thread 0) (R.TMR_CTL 3) ∧
    run.debugRights (.thread 0) = true ∧ run.machineOrigin (.thread 0) = true ∧
    run.supervisorOrigin (.thread 0) = true ∧ run.locked.contains R.WDG_CTL = false ∧
    (({ run with locked := [R.WDG_CTL] } : State).locked.contains R.WDG_CTL = true) ∧
    (w.b R.WDG_CTL 0 = true ∧ w.wdgRuns = true ∧ w.wdg.prebitten = false ∧
      ({ w with wdg := { w.wdg with prebitten := true } } : State).wdgRuns = true ∧
      ({ w with wdg := { w.wdg with left := 1 } } : State).wdg.left ≠ 0 ∧ w.wdg.left = 0) ∧
    ((run.rd (R.TMR_LOAD 3)).toNat = 0 ∧ ((run.wr (R.TMR_LOAD 3) 5).rd (R.TMR_LOAD 3)).toNat ≠ 0) ∧
    ((run.setTmr 3 { run := true, left := 800 }).tmr 3).run = true ∧ run.b R.GLB_GPIO_DIR 15 = false ∧ (up run).power.up = true ∧
    (up run).pins.gpio.testBit 15 ≠ true ∧ run.pins.ptr ≠ 6 := by
  intros; (repeat' with_reducible apply And.intro) <;> first | (with_reducible refine reachT ?_; decide +kernel) | decide +kernel

theorem witness_Supervision_takes : Takes R.WDG_CTL 1 ∧ Takes (R.TMR_CTL 3) 1 ∧ Takes (R.TMR_CTL 3) 8 := by
  (repeat' with_reducible apply And.intro) <;> (with_reducible refine takes ?_; decide +kernel)

/-! ### WellFormed: one ill-formed term for each check -/

/-- Conditions 4 to 7 of R215, for each class that has one, and a second word without mode 6 (R212). -/
theorem test_ill_formed_stem : ∀ i ∈ [
    Instr.ld 0 (opf 0 7 2 0), .st 0 (opf 0 0 2 0), .xch 0 (opf 0 4 2 0), .jmp 0 (opf 0 4 0 0), .syscall 0 (opf 0 1 0 0),
    .ld 0 (opf 0 1 3 0), .ld 0 (opf 0 0 1 0), .st 0 (opf 0 1 3 0), .xch 0 (opf 0 1 1 0), .jmp 0 (opf 0 0 2 0),
    .ld 0 (opf 1 0 2 0), .leax 0 (opf 1 1 0 0), .rdsr 0 (opf 1 0 0 0),
    .loop 0 (opf 0 0 0 0), .rdsr 0 (opf 0 0 0 16), .wrsr 0 (opf 0 0 0 7), .lseg 0 (opf 1 0 0 1), .tax 0 (opf 0 0 0 1), .movb 0 (opf 1 0 0 8),
    .ld 0 (opf 0 4 2 1), .ld 0 (opf 0 0 2 0 1)],
    wellFormed i = false := by decide +kernel

/-- A legal word is not ILLEGAL; a register access of the wrong size, alignment or place; an empty frame; a packet that is not 1 to
33 flits; a BAR2 request that is empty, too long or crosses an aperture. -/
theorem test_ill_formed_requests : ∀ i ∈ [
    Instr.illegal 0 0x01020005, .registerWrite .bar0 0x10 2 0, .registerWrite .bar0 0x12 4 0, .registerWrite .bar0 0x4000000 4 0,
    .readClear .bar0 0x12, .ethFrameReceive 0 [], .dataPacketReceive 0 [] [] [], .dataPacketReceive 0 [0] (List.replicate 64 0) [],
    .dataPacketReceive 0 [] (List.replicate 2176 0) [],
    .bar2Read 0 0, .bar2Read 0 4097, .bar2Read 0x3FFFFFC 8, .bar2Write 0x3FFFFFFF [1, 2]],
    wellFormed i = false := by decide +kernel

theorem test_well_formed : ∀ i ∈ [
    Instr.ld 0 (opf 0 0 2 5), .st 0 (opf 1 1 2 8), .loop 0 (opf 0 0 0 1), .rdsr 0 (opf 0 0 0 15), .wrsr 0 (opf 0 0 0 6), .ld 0 (opf 0 6 2 0 1),
    .illegal 0 0xFFFFFFFF, .registerWrite .bar0 0x3FFFFF8 8 0, .bar2Read 0x3FFFFFC 4,
    .ethFrameReceive 0 [0], .dataPacketReceive 0 [0] (List.replicate 2110 0) [0], .vinLoss], wellFormed i = true := by decide +kernel

/-! ### Decoding: words written out from R210, R212 and R214 -/

/-- Opcode in [31:24], s in [23:21], m in [20:18], z in [17:16], disp16 in [15:0]. -/
theorem test_decode_words : ∀ e ∈ [
    ((0x01020005 : Word), Instr.ld 3 (opf 0 0 2 5)), (0x03260008, .st 3 (opf 1 1 2 8)), (0x10020001, .add 3 (opf 0 0 2 1)),
    (0x22020000, .div 3 (opf 0 0 2 0)), (0x30020020, .shl 3 (opf 0 0 2 32)), (0x38000000, .tax 3 (opf 0 0 0 0)),
    (0x4000FFFF, .jmp 3 (opf 0 0 0 0xFFFF)), (0x50000003, .loop 3 (opf 0 0 0 3)), (0x6000FFFF, .syscall 3 (opf 0 0 0 0xFFFF)),
    (0x64000005, .rdsr 3 (opf 0 0 0 5)), (0x66E00000, .lseg 3 (opf 7 0 0 0)), (0x70260040, .ldl 3 (opf 1 1 2 0x40)),
    (0x80240040, .vissue 3 (opf 1 1 0 0x40)), (0x93200002, .movb 3 (opf 1 0 0 2)), (0xF0000007, .bkpt 3 (opf 0 0 0 7)),
    (0xFFFFFFFF, .illegal 3 0xFFFFFFFF), (0x00000000, .illegal 3 0)], decodeStem 3 e.1 0x12345678 = e.2 := by decide +kernel

/-- Mode 6 takes the second word; the bytes of a word are little-endian (R211, R212). -/
theorem test_decode_long : decodeStem 3 0x011A0000 0x12345678 = .ld 3 (opf 0 6 2 0 0x12345678) ∧
    encodeStem (.ld 3 (opf 0 6 2 0 0x12345678)) = [0x011A0000, 0x12345678] ∧
      wordBytes 0x01020005 = [0x05, 0x00, 0x02, 0x01] := by decide +kernel
/-! ### Single steps, with results from the spec's tables -/

/-- The state that a command answers. -/
def after (i : Instr) (s : State) : State :=
  match exec i s with
  | .next u => u
  | _ => s

/-- R205: 0xFFFFFFFF + 1 is 0 with C and Z. -/
theorem test_add_wraps : let h := (after (.add 0 (imm 1)) (fed 0x10 (imm 1) (core (fun h => { h with acc := 0xFFFFFFFF })))).thr 0
    h.acc = 0 ∧ h.psw = 0x3003 ∧ h.pc = 4 := by decide +kernel

/-- R148: a dividend of 7 by 0 gives 0x7FFFFFFF, remainder 7, V. -/
theorem test_div_by_zero : let h := (after (.div 0 (imm 0)) (fed 0x22 (imm 0) (core (fun h => { h with acc := 7 })))).thr 0
    h.acc = 0x7FFFFFFF ∧ h.acx = 7 ∧ h.flag pswV = true := by decide +kernel

/-- R149: SHL by 32 gives 0 and C = bit 0 of the operand. -/
theorem test_shl_32 : let h := (after (.shl 0 (imm 32)) (fed 0x30 (imm 32) (core (fun h => { h with acc := 0x80000001 })))).thr 0
    h.acc = 0 ∧ h.flag pswC = true ∧ h.flag pswZ = true := by decide +kernel

/-- R207: JXNZ with X = 1 counts to 0 and goes on; with X = 2 it jumps one word back from 0x100. -/
theorem test_jxnz : let at_ := fun (x : Word) => fed 0x4D (jump 0 0xFFFF) (core id |>.onThr 0 (fun h => { h with pc := 0x100, x := x }))
    ((after (.jxnz 0 (jump 0 0xFFFF)) (at_ 1)).thr 0).pc = 0x104 ∧
    ((after (.jxnz 0 (jump 0 0xFFFF)) (at_ 2)).thr 0).pc = 0xFC := by decide +kernel

/-- R197: the last word of a body goes back to LS while LC is above 1. -/
theorem test_loop_back :
    let s := core (fun h => { h with psw := 0xB000, lc := 2, ls := 0, le := 4 })
    let h := (after (.tax 0 none1) (fed 0x38 none1 s)).thr 0
    h.pc = 0 ∧ h.lc = 1 := by decide +kernel

/-- R179, R218: with nothing in its fetch buffer a thread does not issue; another word there decides what it issues. -/
theorem test_fetch_buffer : let s := core (fun h => { h with acc := 1 })
    ((after (.add 0 (imm 1)) s).thr 0) = s.thr 0 ∧
      ((after (.add 0 (imm 1)) (fed 0x10 (imm 2) s)).thr 0).acc ≠ 2 := by decide +kernel

/-- R229: a system call at the machine trap stack: 48 bytes pushed, the vector of trap 0x0A, the next PC saved. -/
theorem test_syscall_entry : let u := after (.syscall 0 (small 3)) (fed 0x60 (small 3) trapCore)
    (u.thr 0).pc = 0x200 ∧ (u.thr 0).tspM = 0xFD0 ∧ u.bytesAt (bankHome 16 + 0xFD0) 4 = [4, 0, 0, 0] := by decide +kernel

/-- R231: TRET restores PC and ACC from the frame and returns to Task level. -/
theorem test_tret : let h := (after (.tret 0 none1) (fed 0x61 none1 frameCore)).thr 0
    h.pc = 0x40 ∧ h.acc = 1 ∧ h.pl = 0 ∧ h.tspM = 0x1030 := by decide +kernel

/-- R201: 1 + (-2) in packed decimal is -1, sign 0xD, N set. -/
theorem test_dadd : let s := put (put (core (fun h => { h with x := 0x100, y := 0x200 })) 0x100 (leBytes 16 0x1C)) 0x200 (leBytes 16 0x2D)
    let u := after (.dadd 0 (opf 1 0 0 2)) (fed 0x90 (opf 1 0 0 2) s)
    ((u.thr 0).sbuf.flatMap (fun e => e.bytes)) = leBytes 16 0x1D ∧ (u.thr 0).flag pswN = true := by decide +kernel

/-- R431: a divider of 4 in Config; in Run the write is a bus error with CAUSE 7. -/
theorem test_clkdiv : (after (.clkdivChange (.thread 0) 2) cfg).rd R.PWR_CLKDIV = 2 ∧
    (after (.clkdivChange (.thread 0) 2) run).rd R.PWR_CLKDIV = 0 ∧ (after (.clkdivChange (.thread 0) 2) run).f R.MTX_ERR 13 11 = 7 := by
  decide +kernel

/-- R336: a doorbell while the mailbox is in progress is BUSY. -/
theorem test_doorbell_busy : let u := after (.doorbell 15 2) (after (.doorbell 15 1) host)
    u.f (R.MBX_DBSTAT 15) 7 0 = 2 ∧ u.rd (R.MBX_DOORBELL 15) = 1 := by decide +kernel

/-- R417: a timer started from 5 units of 10 ns sets EXP at zero. -/
theorem test_timer : (after (.timerExpire 3) (after (.timerStart (.thread 0) 3 1) (run.wr (R.TMR_LOAD 3) 5))).b (R.TMR_STAT 3) 0 = true := by
  decide +kernel

/-- R248: two spores at a count of 254 stay at 255 with OVF. -/
theorem test_task_input_saturates : let u := (run.putF (R.SPC_TI_STAT 185) 7 0 254).arrive 185 2 0 0
    u.pend 185 = 255 ∧ u.b (R.SPC_TI_STAT 185) 8 = true ∧ u.rd (R.SPC_TI_SATCNT 185) = 1 := by decide +kernel

/-- R6: an event of the same clk prevails over a write of 1 that clears its bit. -/
theorem test_event_prevails : let s := (run.setB R.MTX_ERR 31 true)
    ((after (.registerWrite (.control (.thread 0)) R.MTX_ERR 4 0x80000000) s).b R.MTX_ERR 31) = true ∧
    ((after (.registerWrite (.control (.thread 0)) R.MTX_ERR 4 0x80000000) { s with clk := 1 }).b R.MTX_ERR 31) = false := by decide +kernel

/-- R86: a job of two int64 elements writes the magnitude of its broadcast value to both. -/
theorem test_job_strip : let u := after (.stripStart 0) (withJob (fun j => { j with st := .running }))
    (only u).ri = 2 ∧ u.bytesAt (bankHome 0) 16 = [5, 0, 0, 0, 0, 0, 0, 0, 5, 0, 0, 0, 0, 0, 0, 0] := by decide +kernel

/-- R296, R294: a packet launched leaves the credit of its channel by its flits. -/
theorem test_packet_send : (((after (.packetSend 3) sender).lnk 3).vc.get 1).cr = 100 - pktFlits (pkt 1 1 0) := by decide +kernel

/-- R292, R293, R294: a packet of 64 bytes of payload takes 2 flits, and the fields of its bytes are those it was formed from;
CRC-32 of the nine digits is the check value of its polynomial. -/
theorem test_wire : wire.length = 128 ∧ wirePacket wire = pkt 1 1 0 ∧ wireLink wire = hdr ∧
    crc32 [0x31, 0x32, 0x33, 0x34, 0x35, 0x36, 0x37, 0x38, 0x39] = 0xCBF43926 := by decide +kernel

end Sys2Proof.Tests
end

/-! ## The canonical form is kept (O4)

The register file and memory change in a few named updates alone; each keeps the canonical form, and so does whatever is
composed of them. One lemma for each function of the model that answers a state follows, in the order of the model's files, so
that the proof about a function cites the lemmas of the functions it calls. Where a match stands over a call at a fixed address,
the kernel would try to compute that call when it compares the unfolded definition with its name; there the proof first gives the
function, or what it answers, a name of its own (generalize, delta). -/

namespace Sys2Proof.Machine

/-! ### What it is for an answer to be canonical -/

/-- The state that an operation answers, if it answers one, is canonical. -/
def CanonicalIf (o : Option State) : Prop := ∀ u, o = some u → u.canonical

/-- The next state of a command, if it has one, is canonical. -/
def CanonicalNext (r : Res) : Prop := ∀ u, r = .next u → u.canonical

/-- The state in which a part of an element goes on or stops is canonical. -/
def CanonicalStep : EStep → Prop
  | .go e => e.s.canonical
  | .stop s _ => s.canonical

theorem CanonicalIf.none : CanonicalIf none := fun _ hu => nomatch hu

theorem CanonicalIf.some {s : State} (h : s.canonical) : CanonicalIf (some s) := fun _ hu => Option.some.inj hu ▸ h

theorem CanonicalIf.ite {c : Prop} [Decidable c] {a b : Option State} (ha : CanonicalIf a) (hb : CanonicalIf b) :
    CanonicalIf (if c then a else b) := by split <;> assumption

theorem CanonicalIf.bind {o : Option State} {k : State → Option State} (ho : CanonicalIf o)
    (hk : ∀ s, s.canonical → CanonicalIf (k s)) : CanonicalIf (o.bind k) := by
  cases o with
  | none => exact .none
  | some u => exact hk u (ho u rfl)

theorem CanonicalNext.next {s : State} (h : s.canonical) : CanonicalNext (.next s) :=
  fun _ hu => Host.Outcome.next.inj hu ▸ h

theorem CanonicalNext.ite {c : Prop} [Decidable c] {a b : Res} (ha : CanonicalNext a) (hb : CanonicalNext b) :
    CanonicalNext (if c then a else b) := by split <;> assumption

theorem CanonicalStep.go {e : Elem} (h : e.s.canonical) : CanonicalStep (.go e) := h

theorem CanonicalStep.stop {s : State} {w : Stop} (h : s.canonical) : CanonicalStep (.stop s w) := h

theorem CanonicalStep.ite {c : Prop} [Decidable c] {a b : EStep} (ha : CanonicalStep a) (hb : CanonicalStep b) :
    CanonicalStep (if c then a else b) := by split <;> assumption

namespace State.canonical

theorem ite {c : Prop} [Decidable c] {a b : State} (ha : a.canonical) (hb : b.canonical) :
    (if c then a else b).canonical := by split <;> assumption

/-- An answer by a name of its own, so that a let in it can be named before it is taken apart. -/
theorem fst_of_eq {α : Type} {r : State × α} (h : ∀ q, r = q → q.1.canonical) : r.1.canonical := h r rfl

theorem pair {α : Type} {s : State} {a : α} (h : s.canonical) : (s, a).1.canonical := h

theorem fst_ite {α : Type} {c : Prop} [Decidable c] {a b : State × α} (ha : a.1.canonical) (hb : b.1.canonical) :
    (if c then a else b).1.canonical := by split <;> assumption

/-- The state of an answer that is a pair. -/
theorem of_fst_eq {α : Type} {r : State × α} {s : State} {a : α} (he : r = (s, a)) (h : r.1.canonical) : s.canonical := by
  subst he; exact h

/-- The state of an answer that there is. -/
theorem of_some_eq {o : Option State} {s : State} (he : o = some s) (h : CanonicalIf o) : s.canonical := h s he

/-- The element of a part that went on. -/
theorem of_go_eq {r : EStep} {e : Elem} (he : r = .go e) (h : CanonicalStep r) : e.s.canonical := by subst he; exact h

/-- The state in which a part stopped. -/
theorem of_stop_eq {r : EStep} {s : State} {w : Stop} (he : r = .stop s w) (h : CanonicalStep r) : s.canonical := by
  subst he; exact h

theorem getD {o : Option State} {s : State} (ho : CanonicalIf o) (h : s.canonical) : (o.getD s).canonical := by
  cases o with
  | none => exact h
  | some u => exact ho u rfl

theorem foldl {α : Type} {s : State} {l : List α} {g : State → α → State} (h : s.canonical)
    (hg : ∀ s a, s.canonical → (g s a).canonical) : (l.foldl g s).canonical := by
  induction l generalizing s with
  | nil => exact h
  | cons a t ih => exact ih (hg s a h)

theorem fst_foldl {α β : Type} {r : State × β} {l : List α} {g : State × β → α → State × β} (h : r.1.canonical)
    (hg : ∀ r a, r.1.canonical → (g r a).1.canonical) : (l.foldl g r).1.canonical := by
  induction l generalizing r with
  | nil => exact h
  | cons a t ih => exact ih (hg r a h)

end State.canonical

/-- The reset state lists neither a register nor a byte. -/
theorem canonical_reset : State.reset.canonical := ⟨rfl, rfl⟩

/-- The fields beside the register file and memory play no part. -/
theorem State.canonical.updated {s : State} {clk now tb tbHold tbPart gen eventClk undelivered free : Nat} {tbRate : Int}
    {events brought : SMap Word} {latches : List (Nat × Nat × Word)} {threads : Oct Thread} {mtvs stvs mstk sstk : SegDesc}
    {ctlWaits : List CtlWait} {jobs : List Job} {fronds : Oct Frond} {ledger : Ledger} {matrix : Matrix} {spores : Spores} {io :
    FieldIo} {fabric : Fabric} {host : HostIf} {fw : Firmware} {upd : Update} {bist : Bist} {dbg : Debug} {pmc : Pmc} {power :
    Power} {timers : Quad Timer} {wdg : Watchdog} {pins : Pins} {locked : List Nat} {out : List Out} {pending : List Instr}
    (h : s.canonical) : State.canonical ⟨clk, now, tb, tbHold, tbRate, tbPart, gen, s.csr, events, brought, eventClk, latches,
    threads, mtvs, stvs, mstk, sstk, ctlWaits, undelivered, jobs, fronds, ledger, s.mem, matrix, spores, io, fabric, host, fw,
    upd, bist, dbg, pmc, power, timers, wdg, pins, locked, free, out, pending⟩ := h

theorem State.canonical.wr {s : State} {off : Nat} {v : Word} (h : s.canonical) : (s.wr off v).canonical :=
  ⟨swf_csr_wr h.1 off v, h.2⟩

theorem State.canonical.setReg {s : State} {off : Nat} {v : Word} (h : s.canonical) : (s.setReg off v).canonical :=
  ⟨swf_sput h.1 off v, h.2⟩

theorem State.canonical.onMem {s : State} {g : Memory → Memory} (h : s.canonical)
    (hg : ∀ m : Memory, m.wf = true → (g m).wf = true) : (s.onMem g).canonical := ⟨h.1, hg s.mem h.2⟩

theorem State.canonical.setBytes {s : State} {a : Nat} {l : List Byte} (h : s.canonical) : (s.setBytes a l).canonical :=
  ⟨h.1, wf_setBytes h.2 a l⟩

theorem State.canonical.clearBytes {s : State} {a n : Nat} (h : s.canonical) : (s.clearBytes a n).canonical :=
  ⟨h.1, wf_clearBytes h.2 a n⟩

theorem State.canonical.setFlash {s : State} {a : Nat} {l : List Byte} (h : s.canonical) : (s.setFlash a l).canonical :=
  ⟨h.1, wf_setFlash h.2 a l⟩

theorem State.canonical.eraseFlash {s : State} {a n : Nat} (h : s.canonical) : (s.eraseFlash a n).canonical :=
  ⟨h.1, wf_eraseFlash h.2 a n⟩

theorem State.canonical.each {α : Type} {s : State} {l : List α} {g : State → α → State} (h : s.canonical)
    (hg : ∀ s a, s.canonical → (g s a).canonical) : (s.each l g).canonical := .foldl h hg


/-! ### The functions of Sys2Proof/Machine/Ops.lean -/

theorem State.canonical.bring {s : State} {off : Nat} {v amount : Word} (h : s.canonical) : (s.bring off v amount).canonical :=
  h.wr.updated

theorem State.canonical.soft {s : State} {off : Nat} {v : Word} (h : s.canonical) : (s.soft off v).canonical := h.setReg

theorem State.canonical.clears {s : State} {off : Nat} {m : Word} (h : s.canonical) : (s.clears off m).canonical := h.soft

theorem State.canonical.accessDone {s : State} (h : s.canonical) : s.accessDone.canonical := h.updated

theorem State.canonical.putF {s : State} {off hi lo x : Nat} (h : s.canonical) : (s.putF off hi lo x).canonical := h.wr

theorem State.canonical.setB {s : State} {off i : Nat} {v : Bool} (h : s.canonical) : (s.setB off i v).canonical := h.bring

theorem State.canonical.count {s : State} {off w n : Nat} (h : s.canonical) : (s.count off w n).canonical := h.bring

theorem State.canonical.countW {s : State} {off n : Nat} (h : s.canonical) : (s.countW off n).canonical := h.bring

theorem State.canonical.setThr {s : State} {t : Nat} {th : Thread} (h : s.canonical) : (s.setThr t th).canonical := h.updated

theorem State.canonical.onThr {s : State} {t : Nat} {g : Thread → Thread} (h : s.canonical) : (s.onThr t g).canonical :=
  h.setThr

theorem State.canonical.onLdg {s : State} {g : Ledger → Ledger} (h : s.canonical) : (s.onLdg g).canonical := h.updated

theorem State.canonical.onCtl {s : State} {g : List CtlWait → List CtlWait} (h : s.canonical) : (s.onCtl g).canonical :=
  h.updated

theorem State.canonical.onMtx {s : State} {g : Matrix → Matrix} (h : s.canonical) : (s.onMtx g).canonical := h.updated

theorem State.canonical.onSpo {s : State} {g : Spores → Spores} (h : s.canonical) : (s.onSpo g).canonical := h.updated

theorem State.canonical.onIo {s : State} {g : FieldIo → FieldIo} (h : s.canonical) : (s.onIo g).canonical := h.updated

theorem State.canonical.onEth {s : State} {e : Nat} {g : EthPort → EthPort} (h : s.canonical) : (s.onEth e g).canonical :=
  h.onIo

theorem State.canonical.onFab {s : State} {g : Fabric → Fabric} (h : s.canonical) : (s.onFab g).canonical := h.updated

theorem State.canonical.onLnk {s : State} {p : Nat} {g : LichenPort → LichenPort} (h : s.canonical) : (s.onLnk p g).canonical :=
  h.onFab

theorem State.canonical.onHost {s : State} {g : HostIf → HostIf} (h : s.canonical) : (s.onHost g).canonical := h.updated

theorem State.canonical.onFw {s : State} {g : Firmware → Firmware} (h : s.canonical) : (s.onFw g).canonical := h.updated

theorem State.canonical.onUpd {s : State} {g : Update → Update} (h : s.canonical) : (s.onUpd g).canonical := h.updated

theorem State.canonical.onBist {s : State} {g : Bist → Bist} (h : s.canonical) : (s.onBist g).canonical := h.updated

theorem State.canonical.onDbg {s : State} {g : Debug → Debug} (h : s.canonical) : (s.onDbg g).canonical := h.updated

theorem State.canonical.onPmc {s : State} {g : Pmc → Pmc} (h : s.canonical) : (s.onPmc g).canonical := h.updated

theorem State.canonical.onPwr {s : State} {g : Power → Power} (h : s.canonical) : (s.onPwr g).canonical := h.updated

theorem State.canonical.onFrd {s : State} {k : Nat} {g : Frond → Frond} (h : s.canonical) : (s.onFrd k g).canonical := h.updated

theorem State.canonical.emit {s : State} {o : Out} (h : s.canonical) : (s.emit o).canonical := h.updated

theorem State.canonical.produce {s : State} {kind param : Nat} (h : s.canonical) : (s.produce kind param).canonical := h.onSpo

theorem State.canonical.produceOn {s : State} {e : Event} (h : s.canonical) : (s.produceOn e).canonical := h.onSpo

theorem State.canonical.raiseMachine {s : State} {m : Nat} (h : s.canonical) : (s.raiseMachine m).canonical :=
  .ite h.onThr (.ite h.onThr h.setB.updated)

theorem State.canonical.busError {s : State} {master target : Nat} {write : Bool} {cause addr : Nat} (h : s.canonical) :
    (s.busError master target write cause addr).canonical :=
  .ite h.count h.count.wr.wr.wr

theorem State.canonical.guard {s : State} {i : Nat} (h : s.canonical) : (s.guard i).canonical := h.setB.onFw

/-! ### The functions of Sys2Proof/Machine/Pmc.lean -/

theorem State.canonical.setPmc {s : State} {n v : Nat} (h : s.canonical) : (s.setPmc n v).canonical := h.wr.putF

theorem State.canonical.pmcAdd {s : State} {n k : Nat} (h : s.canonical) : (s.pmcAdd n k).canonical :=
  .ite h.setPmc h.setPmc.setB

theorem State.canonical.pmcEdge {s : State} {n clks : Nat} (h : s.canonical) : (s.pmcEdge n clks).canonical :=
  .ite h.onPmc h.onPmc.pmcAdd

theorem State.canonical.pmcHit {s : State} {n k clks : Nat} (h : s.canonical) : (s.pmcHit n k clks).canonical := by
  unfold State.pmcHit
  split
  · exact h.pmcAdd
  · exact h.pmcEdge

theorem State.canonical.eventOver {s : State} {code unit k clks : Nat} (h : s.canonical) :
    (s.eventOver code unit k clks).canonical :=
  .ite (.each h fun _ _ h1 => .ite h1.pmcHit h1) h

theorem State.canonical.event {s : State} {code unit k : Nat} (h : s.canonical) : (s.event code unit k).canonical := h.eventOver

theorem State.canonical.occupancy {s : State} {code unit level clks : Nat} (h : s.canonical) :
    (s.occupancy code unit level clks).canonical := by
  unfold State.occupancy
  refine .each h (fun _ _ h1 => ?_)
  refine .ite ?_ h1
  extract_lets +onlyGivenNames thr
  split
  · exact .ite h1.pmcAdd h1
  · exact .ite h1.pmcAdd h1
  · exact .ite h1.pmcEdge h1
  · exact h1

theorem State.canonical.moved {s : State} {kind id n : Nat} (h : s.canonical) : (s.moved kind id n).canonical :=
  .ite (.each h fun _ _ h1 => .ite h1.onPmc h1) h

theorem State.canonical.openWindow {s : State} (h : s.canonical) : s.openWindow.canonical := h.onPmc

theorem State.canonical.closeWindow {s : State} (h : s.canonical) : s.closeWindow.canonical :=
  .openWindow <| .setB <| .each h fun _ _ h1 => h1.wr.wr

theorem State.canonical.snapshot {s : State} (h : s.canonical) : s.snapshot.canonical := .ite (.each h fun _ _ h1 => h1.wr.wr) h

/-! ### The functions of Sys2Proof/Machine/Clock.lean -/

theorem State.canonical.passTb {s : State} {d : Nat} (h : s.canonical) : (s.passTb d).canonical := h.updated

theorem State.canonical.showWdg {s : State} (h : s.canonical) : s.showWdg.canonical := h.wr

theorem State.canonical.wdgReload {s : State} (h : s.canonical) : s.wdgReload.canonical := h.updated.showWdg

theorem State.canonical.wdgCheck {s : State} (h : s.canonical) : s.wdgCheck.canonical :=
  .ite h.setB (.ite (.ite h.setB.wdgReload h.setB) h)

theorem State.canonical.showHalted {s : State} (h : s.canonical) : s.showHalted.canonical := h.setB.wdgCheck

theorem State.canonical.passTime {s : State} {d : Nat} (h : s.canonical) : (s.passTime d).canonical :=
  .ite h.passTb.updated.updated.showWdg h.passTb.updated

theorem State.canonical.sample {s : State} {n : Nat} (h : s.canonical) : (s.sample n).canonical := by
  unfold State.sample
  refine .ite ?_ h
  extract_lets +onlyGivenNames s1 s2 s3 s4 s5
  have h1 : s1.canonical := h.eventOver
  have h2 : s2.canonical := .each h1 fun _ _ h3 => .ite h3.eventOver h3
  have h4 : s3.canonical := .each h2 fun _ _ h5 => h5.occupancy
  have h6 : s4.canonical := .each h4 fun _ _ h7 => h7.occupancy
  have h8 : s5.canonical := .each h6 fun _ _ h9 => h9.occupancy
  exact .each h8 fun _ _ h10 => h10.occupancy

theorem State.canonical.advance {s : State} {n : Nat} (h : s.canonical) : (s.advance n).canonical := h.updated.passTime.sample

theorem State.canonical.until {s : State} {c : Nat} (h : s.canonical) : (s.until c).canonical := .ite h.advance h

theorem State.canonical.untilTime {s : State} {t : Nat} (h : s.canonical) : (s.untilTime t).canonical := .ite h.advance h

theorem State.canonical.idle {s : State} (h : s.canonical) : s.idle.canonical := .ite h (.ite h.passTb h.advance)

/-! ### The functions of Sys2Proof/Machine/Mem.lean -/

theorem State.canonical.onBank {s : State} {b : Nat} {g : Bank → Bank} (h : s.canonical) : (s.onBank b g).canonical :=
  .onMem h fun _ h1 => h1

theorem State.canonical.setEcc {s : State} {a : Nat} {e : Option EccState} (h : s.canonical) : (s.setEcc a e).canonical :=
  .onMem h fun _ h1 => h1

theorem State.canonical.bankCorrected {s : State} {b a : Nat} (h : s.canonical) : (s.bankCorrected b a).canonical :=
  .ite h.count.setB.wr h.count.setB.wr.onBank.putF

theorem State.canonical.bankUncorrectable {s : State} {b a : Nat} (h : s.canonical) : (s.bankUncorrectable b a).canonical :=
  h.count.setB.wr.guard

theorem State.canonical.bankCheck {s : State} {b : Nat} {x : List Nat} (h : s.canonical) : (s.bankCheck b x).1.canonical := by
  induction x generalizing s with
  | nil =>
    unfold State.bankCheck
    exact h
  | cons a t ih =>
    unfold State.bankCheck
    split
    · exact ih h
    · exact ih h.bankCorrected
    · exact h.bankUncorrectable

theorem State.canonical.noteRewritten {s : State} {b a n : Nat} (h : s.canonical) : (s.noteRewritten b a n).canonical :=
  .ite h h.onBank

theorem State.canonical.eccWrite {s : State} {b a n : Nat} (h : s.canonical) : (s.eccWrite b a n).canonical := by
  unfold State.eccWrite
  refine .each h.noteRewritten (fun _ _ h1 => ?_)
  refine .ite (.ite h1.setEcc.wr h1.setEcc) ?_
  split
  · exact h1
  · exact h1.setEcc
  · exact h1.setEcc

theorem State.canonical.clearReservations {s : State} {thread : Option Nat} {a n : Nat} (h : s.canonical) :
    (s.clearReservations thread a n).canonical := by
  unfold State.clearReservations
  refine .each h (fun _ _ h1 => ?_)
  split
  · exact h1
  · exact .ite h1.onThr h1

theorem State.canonical.ddrLog {s : State} {p : Nat} {ue patrol : Bool} {device : Nat} (h : s.canonical) :
    (s.ddrLog p ue patrol device).canonical :=
  .ite (.ite h.count.setB (.onMem h.count.setB fun _ h1 => h1)) (.wr <| .wr <| .ite h.count.setB
    (.onMem h.count.setB fun _ h2 => h2))

theorem State.canonical.ddrCheck {s : State} {p : Nat} (h : s.canonical) : (s.ddrCheck p).1.canonical := by
  unfold State.ddrCheck
  split
  · exact h
  · exact h.ddrLog
  · exact h.ddrLog.guard
  · exact h.ddrLog.guard

theorem State.canonical.countAccess {s : State} {w : Who} {l : Loc} {n : Nat} (h : s.canonical) :
    (s.countAccess w l n).canonical := by
  unfold State.countAccess
  refine .ite h ?_
  split
  · exact .ite h.event (.ite h.event.event.moved h.event.event.moved.moved)
  · exact h.event.event.moved.moved
  · exact h.event.moved.moved

theorem State.canonical.portOpen {s : State} {b : Nat} {portA : Bool} (h : s.canonical) : (s.portOpen b portA).canonical :=
  .onMem h fun _ h1 => h1

theorem State.canonical.portNote {s : State} {b : Nat} {portA : Bool} {a : Nat} {old : List Byte} (h : s.canonical) :
    (s.portNote b portA a old).canonical :=
  .onMem h fun _ h1 => h1

theorem State.canonical.portRead {s : State} {b : Nat} {portA : Bool} {a n : Nat} (h : s.canonical) :
    (s.portRead b portA a n).1.canonical :=
  h.portNote

theorem State.canonical.portWrite {s : State} {b : Nat} {portA : Bool} {a : Nat} {d : List Byte} (h : s.canonical) :
    (s.portWrite b portA a d).canonical :=
  h.setBytes.portNote

theorem State.canonical.readParts {s : State} {w : Who} {b : Nat} {x : List (Nat × Nat × Nat)} {x1 : List Byte}
    (h : s.canonical) : (s.readParts w b x x1).1.canonical := by
  induction x generalizing s x1 with
  | nil =>
    unfold State.readParts
    exact h
  | cons a t ih =>
    obtain ⟨a1, a2, a3⟩ := a
    unfold State.readParts
    split
    next s1 heq =>
      have h1 : s1.canonical := .of_fst_eq heq h.bankCheck
      split
      next s2 _ heq1 =>
        have h2 : s2.canonical := .of_fst_eq heq1 (.fst_ite h1 h1.portRead)
        exact ih h2
    next s1 heq =>
      exact .of_fst_eq heq h.bankCheck

theorem State.canonical.writeParts {s : State} {w : Who} {b : Nat} {x : List (Nat × Nat × Nat)} {x1 : List Byte}
    (h : s.canonical) : (s.writeParts w b x x1).1.canonical := by
  induction x generalizing s x1 with
  | nil =>
    unfold State.writeParts
    exact h
  | cons a t ih =>
    obtain ⟨a1, a2, a3⟩ := a
    unfold State.writeParts
    exact .fst_ite (ih h) (ih h.eccWrite.portWrite.clearReservations)

theorem State.canonical.refuse {s : State} {w : Who} {l : Loc} {write : Bool} {cause a : Nat} (h : s.canonical) :
    (s.refuse w l write cause a).canonical := by
  unfold State.refuse
  extract_lets +onlyGivenNames s1 t
  have h1 : s1.canonical := by
    unfold s1
    split
    · exact .ite h.setB h
    · exact h
  exact h1.busError

theorem State.canonical.readPiece {s : State} {w : Who} {l : Loc} {n : Nat} (h : s.canonical) :
    (s.readPiece w l n).1.canonical := by
  unfold State.readPiece
  extract_lets +onlyGivenNames s1
  have h1 : s1.canonical := h.countAccess
  split
  · exact .readParts <| .ite h1 h1.portOpen
  · split
    next s2 _ heq =>
      exact .of_fst_eq heq h1.ddrCheck
  · exact h1
  · exact h1
  · exact h1

theorem State.canonical.writePiece {s : State} {w : Who} {l : Loc} {d : List Byte} (h : s.canonical) :
    (s.writePiece w l d).canonical := by
  unfold State.writePiece
  extract_lets +onlyGivenNames s1
  have h1 : s1.canonical := h.countAccess
  split
  · split
    next s11 heq =>
      have h2 : s11.canonical := .of_fst_eq heq (.writeParts <| .ite h1 h1.portOpen)
      exact h2.setB.setB.count
    next s11 heq =>
      exact .of_fst_eq heq (.writeParts <| .ite h1 h1.portOpen)
  · exact .onMem (.setBytes <| .each h1 fun _ _ h4 => .ite h4.setEcc h4) fun _ h5 => h5
  · exact h1

theorem State.canonical.readPieces {s : State} {w : Who} {l : List (Nat × Nat)} {acc : List Byte} (h : s.canonical) :
    (s.readPieces w l acc).1.canonical := by
  induction l generalizing s acc with
  | nil => exact h
  | cons a t ih =>
    unfold State.readPieces
    generalize s.route w a.1 = r
    obtain ⟨w1, l, own⟩ := r
    dsimp only
    split
    · exact h
    · split
      · exact .pair h.refuse
      · exact h
    · split
      · exact .pair h.refuse
      · refine .fst_ite h ?_
        split
        next s1 d heq => exact ih (.of_fst_eq heq h.readPiece)
        next s1 heq =>
          have h1 : s1.canonical := .of_fst_eq heq h.readPiece
          exact .pair h1.busError

theorem State.canonical.readMem {s : State} {w : Who} {a n : Nat} (h : s.canonical) : (s.readMem w a n).1.canonical :=
  h.readPieces

theorem State.canonical.writePieces {s : State} {w : Who} {l : List (Nat × Nat)} {d : List Byte} (h : s.canonical) :
    (s.writePieces w l d).1.canonical := by
  induction l generalizing s d with
  | nil => exact h
  | cons a t ih =>
    unfold State.writePieces
    generalize s.route w a.1 = r
    obtain ⟨w1, l, own⟩ := r
    dsimp only
    split
    · exact h
    · split
      · exact .pair h.refuse
      · exact h
    · split
      · exact .pair h.refuse
      · exact .fst_ite h (ih h.writePiece)

theorem State.canonical.writeMem {s : State} {w : Who} {a : Nat} {d : List Byte} (h : s.canonical) :
    (s.writeMem w a d).1.canonical :=
  h.writePieces

theorem State.canonical.finishClear {s : State} {b : Nat} (h : s.canonical) : (s.finishClear b).canonical :=
  .setB <| .setB <| .onBank <| .onMem h.clearBytes fun _ h1 => h1

theorem State.canonical.endRetrain {s : State} {c : Nat} (h : s.canonical) : (s.endRetrain c).canonical :=
  .setB <| .onMem h fun _ h1 => h1

theorem State.canonical.settle {s : State} {a : Nat} (h : s.canonical) : (s.settle a).canonical := by
  unfold State.settle
  split
  · exact .ite h.finishClear h
  · exact .ite h.endRetrain h
  · exact h

theorem State.canonical.settleAll {s : State} {a n : Nat} (h : s.canonical) : (s.settleAll a n).canonical :=
  .each h fun _ _ h1 => h1.settle

/-! ### The functions of Sys2Proof/Machine/Remote.lean -/

theorem State.canonical.queuePacket {s : State} {port : Nat} {p : Packet} (h : s.canonical) :
    (s.queuePacket port p).canonical :=
  .ite h.onLnk h

theorem State.canonical.request {s : State} {user : RemoteUser} {op dev len w : Nat} {payload : List Byte} {morg hi : Bool}
    {sub : Nat} (h : s.canonical) : (s.request user op dev len w payload morg hi sub).1.canonical :=
  h.onFab.queuePacket

theorem State.canonical.remoteFail {s : State} {status : Nat} (h : s.canonical) : (s.remoteFail status).1.canonical := by
  unfold State.remoteFail
  split
  · exact h
  · exact h
  · exact h.updated

theorem State.canonical.readOne {s : State} {w : Who} {ans : List RemoteAnswer} {a n : Nat} (h : s.canonical) :
    (s.readOne w ans a n).1.canonical := by
  unfold State.readOne
  split
  next s1 _ heq =>
    exact .of_fst_eq heq h.readMem
  next s1 _ heq =>
    exact .of_fst_eq heq h.readMem
  next s1 heq =>
    exact .of_fst_eq heq h.readMem
  next s1 _ heq =>
    exact .of_fst_eq heq h.readMem
  next s1 _ _ heq =>
    have h5 : s1.canonical := .of_fst_eq heq h.readMem
    split
    · exact h5
    · refine .fst_ite h5 ?_
      split
      next s2 _ heq2 =>
        have h6 : s2.canonical := .of_fst_eq heq2 h5.remoteFail
        exact h6.busError

theorem State.canonical.readSome {s : State} {w : Who} {ans : List RemoteAnswer} {x : List (Nat × Nat)} {x1 : List Byte}
    (h : s.canonical) : (s.readSome w ans x x1).1.canonical := by
  induction x generalizing s x1 with
  | nil =>
    unfold State.readSome
    exact h
  | cons a t ih =>
    obtain ⟨a1, a2⟩ := a
    unfold State.readSome
    split
    next s1 _ heq =>
      have h1 : s1.canonical := .of_fst_eq heq h.readOne
      exact ih h1
    · exact h.readOne

theorem State.canonical.readAns {s : State} {w : Who} {ans : List RemoteAnswer} {a n : Nat} (h : s.canonical) :
    (s.readAns w ans a n).1.canonical :=
  h.readSome

theorem State.canonical.writeOne {s : State} {w : Who} {ans : List RemoteAnswer} {a : Nat} {d : List Byte} (h : s.canonical) :
    (s.writeOne w ans a d).1.canonical := by
  unfold State.writeOne
  split
  next s1 _ heq =>
    exact .of_fst_eq heq h.writeMem
  next s1 _ heq =>
    exact .of_fst_eq heq h.writeMem
  next s1 heq =>
    exact .of_fst_eq heq h.writeMem
  next s1 _ heq =>
    exact .of_fst_eq heq h.writeMem
  next s1 _ _ heq =>
    have h5 : s1.canonical := .of_fst_eq heq h.writeMem
    split
    · exact h5
    · refine .fst_ite h5 ?_
      split
      next s2 _ heq2 =>
        have h6 : s2.canonical := .of_fst_eq heq2 h5.remoteFail
        exact h6.busError

theorem State.canonical.writeSome {s : State} {w : Who} {ans : List RemoteAnswer} {x : List (Nat × Nat)} {x1 : List Byte}
    (h : s.canonical) : (s.writeSome w ans x x1).1.canonical := by
  induction x generalizing s x1 with
  | nil =>
    unfold State.writeSome
    exact h
  | cons a t ih =>
    obtain ⟨a1, a2⟩ := a
    unfold State.writeSome
    split
    next s1 _ heq =>
      have h1 : s1.canonical := .of_fst_eq heq h.writeOne
      exact ih h1
    · exact h.writeOne

theorem State.canonical.writeAns {s : State} {w : Who} {ans : List RemoteAnswer} {a : Nat} {d : List Byte} (h : s.canonical) :
    (s.writeAns w ans a d).1.canonical :=
  h.writeSome

theorem State.canonical.postPieces {s : State} {user : RemoteUser} {w : Who} {x : List (Nat × Nat)} {x1 : List Byte}
    (h : s.canonical) : (s.postPieces user w x x1).1.canonical := by
  induction x generalizing s x1 with
  | nil =>
    unfold State.postPieces
    exact h
  | cons a t ih =>
    obtain ⟨a1, a2⟩ := a
    unfold State.postPieces
    split
    next s1 _ _ heq =>
      have h1 : s1.canonical := .of_fst_eq heq h.writeMem
      exact ih h1.request
    next s1 _ heq =>
      have h2 : s1.canonical := .of_fst_eq heq h.writeMem
      exact ih h2
    next s1 heq =>
      have h3 : s1.canonical := .of_fst_eq heq h.writeMem
      exact ih h3.settle.writeMem
    next s1 _ heq =>
      have h4 : s1.canonical := .of_fst_eq heq h.writeMem
      exact h4.busError
    next s1 _ heq =>
      exact .of_fst_eq heq h.writeMem

theorem State.canonical.post {s : State} {w : Who} {a : Nat} {d : List Byte} (h : s.canonical) : (s.post w a d).1.canonical :=
  h.postPieces

/-! ### The functions of Sys2Proof/Machine/Ledger.lean -/

theorem State.canonical.onAcct {s : State} {r : Nat} {g : Acct → Acct} (h : s.canonical) : (s.onAcct r g).canonical := h.onLdg

theorem State.canonical.deduct {s : State} {charges : SMap Nat} (h : s.canonical) : (s.deduct charges).canonical :=
  .each h fun _ _ h1 => h1.onAcct

theorem State.canonical.refund {s : State} {j : Job} (h : s.canonical) : (s.refund j).canonical :=
  .each h fun _ _ h1 => .ite h1 h1.onAcct

theorem State.canonical.useOne {s u : State} {j k : Job} {r a : Nat} (h : s.canonical) (he : s.useOne j r a = some (u, k)) :
    u.canonical := by
  unfold State.useOne at he
  split at he
  · rw [Option.some.injEq, Prod.mk.injEq] at he
    exact he.1 ▸ h
  · extract_lets _ _ _ _ _ _ s1 at he
    have h1 : s1.canonical := h.onAcct
    split at he
    · rw [Option.some.injEq, Prod.mk.injEq] at he
      exact he.1 ▸ h1
    · split at he
      · rw [Option.some.injEq, Prod.mk.injEq] at he
        exact he.1 ▸ h1.event
      · cases he

theorem State.canonical.useAll {s : State} {j : Job} {l : List (Nat × Nat)} (h : s.canonical) : (s.useAll j l).1.canonical := by
  induction l generalizing s j with
  | nil => exact h
  | cons a t ih =>
    unfold State.useAll
    split
    · exact h
    next s1 j1 heq => exact ih (h.useOne heq)

theorem State.canonical.putJob {s : State} {j : Job} (h : s.canonical) : (s.putJob j).canonical := h.updated

theorem State.canonical.dropJob {s : State} {vjd : Nat} (h : s.canonical) : (s.dropJob vjd).canonical := h.updated

theorem State.canonical.denied {s : State} (h : s.canonical) : s.denied.canonical := h.count.event

theorem State.canonical.overrunSpore {s : State} (h : s.canonical) : s.overrunSpore.canonical := h.count.produce

/-! ### The functions of Sys2Proof/Machine/Spores.lean -/

theorem State.canonical.carry {s : State} {n hop origin k : Nat} (h : s.canonical) : (s.carry n hop origin k).canonical :=
  h.onSpo.setB.countW

theorem State.canonical.produceAt {s : State} {e : Event} (h : s.canonical) : (s.produceAt e).canonical :=
  .each h fun _ _ h1 => .ite h1 h1.carry

theorem State.canonical.produceNow {s : State} (h : s.canonical) : s.produceNow.canonical :=
  .each h.onSpo fun _ _ h1 => h1.produceAt

theorem State.canonical.sporeProduce {s : State} (h : s.canonical) : s.sporeProduce.canonical :=
  .ite h (.each h.produceNow.onIo fun _ _ h1 => h1.produceAt)

theorem canonical_execSporeProduce {s : State} (h : s.canonical) : CanonicalNext (execSporeProduce s) := .next h.sporeProduce

theorem State.canonical.arrive {s : State} {i k hop origin : Nat} (h : s.canonical) : (s.arrive i k hop origin).canonical :=
  .onSpo <| .ite h.putF.countW.countW.setB h.putF.countW

theorem State.canonical.take {s : State} {i k : Nat} (h : s.canonical) : (s.take i k).canonical := h.putF.countW.onSpo

theorem State.canonical.deliver {s : State} {n : Nat} (h : s.canonical) : (s.deliver n).canonical :=
  .ite (.each h.onSpo fun _ _ h1 => .each h1 fun _ _ h2 => h2.arrive) (.onLdg <| .each h.onSpo fun _ _ h3 => .each h3 fun _ _ h4
    => h4.arrive)

theorem State.canonical.loopDrop {s : State} {origin n : Nat} (h : s.canonical) : (s.loopDrop origin n).canonical :=
  h.count.setB

theorem State.canonical.emitRelay {s : State} {n : Nat} {last : Nat × Nat} (h : s.canonical) : (s.emitRelay n last).canonical :=
  .ite h.loopDrop h.produceOn

theorem State.canonical.countRelay {s : State} {n : Nat} (h : s.canonical) : (s.countRelay n).canonical :=
  .ite h (.each h.take.putF.onSpo fun _ _ h1 => h1.emitRelay)

theorem canonical_execCountRelay {input : Fin 16} {s : State} (h : s.canonical) : CanonicalNext (execCountRelay input s) :=
  .next h.countRelay

theorem State.canonical.remoteSend {s : State} {n : Nat} (h : s.canonical) : (s.remoteSend n).canonical :=
  .ite h (.ite h.take.loopDrop h.take.onLnk)

theorem canonical_execRemoteSend {input : Fin 32} {s : State} (h : s.canonical) : CanonicalNext (execRemoteSend input s) :=
  .next h.remoteSend

theorem State.canonical.remoteArrive {s : State} {chan hop : Nat} {sec : Bool} {dev : Nat} (h : s.canonical) :
    (s.remoteArrive chan hop sec dev).canonical :=
  .ite h (.ite h.count h.produceOn)

theorem canonical_execRemoteSporeArrive {chan : Fin 256} {hop : BitVec 4} {sec : Bool} {dev : BitVec 6} {s : State}
    (h : s.canonical) : CanonicalNext (execRemoteSporeArrive chan hop sec dev s) :=
  .next h.remoteArrive

theorem State.canonical.softTrigger {s : State} {n : Nat} (h : s.canonical) : (s.softTrigger n).canonical :=
  .ite h.setB h.produceOn

/-! ### The functions of Sys2Proof/Machine/Egress.lean -/

theorem State.canonical.onTmpl {s : State} {t : Nat} {g : Template → Template} (h : s.canonical) : (s.onTmpl t g).canonical :=
  h.onIo

theorem State.canonical.freeSlot {s : State} (h : s.canonical) : s.freeSlot.1.canonical := h.updated

theorem State.canonical.safeOf {s : State} {f : FieldEntry} (h : s.canonical) : (s.safeOf f).1.canonical :=
  .fst_ite h.freeSlot h

theorem State.canonical.readSlot {s : State} {k : Nat} (h : s.canonical) : (s.readSlot k).1.canonical := by
  unfold State.readSlot
  extract_lets +onlyGivenNames s0
  have h1 : s0.canonical := h.settle
  split
  next s1 _ heq =>
    exact .of_fst_eq heq h1.readMem
  next s1 _ _ heq =>
    exact .of_fst_eq heq h1.readMem

theorem State.canonical.composeField {s : State} {t : Template} {hold : Bool} {f : FieldEntry} (h : s.canonical) :
    (s.composeField t hold f).1.canonical := by
  unfold State.composeField
  refine .fst_ite ?_ ?_
  · refine .fst_ite h.safeOf ?_
    split
    · exact h
    · exact h.safeOf
  · split
    next s1 _ _ heq =>
      exact .of_fst_eq heq h.readSlot
    next s1 heq =>
      have h2 : s1.canonical := .of_fst_eq heq h.readSlot
      exact h2.freeSlot

theorem State.canonical.composeOne {s : State} {t : Nat} (h : s.canonical) : (s.composeOne t).canonical := by
  unfold State.composeOne
  extract_lets +onlyGivenNames hold s1
  have h1 : s1.canonical := by
    unfold s1
    refine .each h (fun _ _ h2 => ?_)
    split
    next s21 _ heq =>
      have h3 : s21.canonical := .of_fst_eq heq h2.composeField
      exact h3.onTmpl
  exact .ite h1 h1.onTmpl

theorem State.canonical.safeFill {s : State} {t : Nat} (h : s.canonical) : (s.safeFill t).canonical := by
  unfold State.safeFill
  refine .each h (fun _ _ h1 => ?_)
  split
  next s2 _ heq =>
    have h2 : s2.canonical := .of_fst_eq heq h1.safeOf
    exact h2.onTmpl

theorem State.canonical.compose {s : State} (h : s.canonical) : s.compose.canonical :=
  .ite (.each h fun _ _ h1 => h1.composeOne) h

theorem State.canonical.beginTx {s : State} {e : Nat} {f : TxFrame} (h : s.canonical) : (s.beginTx e f).canonical :=
  .ite h.onEth h.onEth.emit

theorem State.canonical.startTx {s : State} {e : Nat} (h : s.canonical) : (s.startTx e).canonical := by
  unfold State.startTx
  refine .ite h ?_
  split
  · exact h
  · split
    · exact h.beginTx
    · exact .ite h.onEth.count.beginTx h

theorem State.canonical.dropQueued {s : State} (h : s.canonical) : s.dropQueued.canonical := .each h fun _ _ h1 => h1.onEth

theorem State.canonical.sendTemplate {s : State} {t tc : Nat} {express muted : Bool} {due : Option Nat} (h : s.canonical) :
    (s.sendTemplate t tc express muted due).canonical :=
  .ite h.onTmpl.count (.each h.onTmpl fun _ _ h1 => h1.onEth.count.startTx)

theorem State.canonical.fiuSend {s : State} {t : Nat} (h : s.canonical) : (s.fiuSend t).canonical :=
  .sendTemplate <| .ite h h.count

theorem State.canonical.releaseOne {s : State} {t : Nat} (h : s.canonical) : (s.releaseOne t).canonical :=
  .ite h.onTmpl.setB.count h.onTmpl.until.sendTemplate

theorem State.canonical.egressTake {s : State} {n : Nat} (h : s.canonical) : (s.egressTake n).canonical :=
  .ite h (.ite h.take.count h.take.sendTemplate)

theorem canonical_execEgressTake {input : Fin 64} {s : State} (h : s.canonical) : CanonicalNext (execEgressTake input s) :=
  .next h.egressTake

theorem State.canonical.txEnd {s : State} {e : Nat} (h : s.canonical) : (s.txEnd e).canonical := by
  unfold State.txEnd
  split
  · exact h
  · exact h.onEth.count.startTx

theorem canonical_execEthTransmitEnd {port : Fin 2} {s : State} (h : s.canonical) : CanonicalNext (execEthTransmitEnd port s) :=
  .next h.txEnd

theorem State.canonical.writeGclCtl {s : State} {e : Nat} {v : Word} (h : s.canonical) : (s.writeGclCtl e v).canonical :=
  .ite h.putF (.ite h.putF.setB h.putF.setB)

theorem State.canonical.gclActivate {s : State} {e : Nat} (h : s.canonical) : (s.gclActivate e).canonical :=
  .ite h.advance.setB.onEth.startTx h

theorem canonical_execGclActivate {port : Fin 2} {s : State} (h : s.canonical) : CanonicalNext (execGclActivate port s) :=
  .next h.gclActivate

theorem State.canonical.gclIntervalEnd {s : State} {e : Nat} (h : s.canonical) : (s.gclIntervalEnd e).canonical :=
  .ite h (.ite h.advance.onEth.startTx h.advance.onEth.startTx)

theorem canonical_execGclIntervalEnd {port : Fin 2} {s : State} (h : s.canonical) : CanonicalNext (execGclIntervalEnd port s) :=
  .next h.gclIntervalEnd

/-! ### The functions of Sys2Proof/Machine/Ingress.lean -/

theorem State.canonical.onRule {s : State} {k : Nat} {g : FiuRule → FiuRule} (h : s.canonical) : (s.onRule k g).canonical :=
  h.onIo

theorem State.canonical.fiuSpore {s : State} {chan : Nat} (h : s.canonical) : (s.fiuSpore chan).canonical :=
  .ite h.count.setB h.onIo

theorem State.canonical.fiuAction {s : State} {k : Nat} {asserts : Bool} {sends : List Nat} (h : s.canonical) :
    (s.fiuAction k asserts sends).1.canonical :=
  .ite (.onTmpl <| .ite h.onRule.count.event.fiuSpore h.onRule.count.event) (.ite h.onRule.count.event.fiuSpore
    h.onRule.count.event)

theorem State.canonical.fiuCommit {s : State} {l : List SlotWrite} (h : s.canonical) : (s.fiuCommit l).canonical :=
  .ite (.each (.fst_foldl h fun _ _ h1 => .fst_ite h1.onRule (.fst_ite h1.onRule.fiuAction h1.onRule)) fun _ _ h2 => h2.fiuSend)
    h

theorem State.canonical.ethReceive {s : State} {e : Nat} {b : List Byte} (h : s.canonical) : (s.ethReceive e b).canonical :=
  .ite h (.ite h.count.setB h.onEth)

theorem canonical_execEthFrameReceive {port : Fin 2} {bytes : List Byte} {s : State} (h : s.canonical) :
    CanonicalNext (execEthFrameReceive port bytes s) :=
  .next h.ethReceive

theorem State.canonical.eliminate {s : State} {n : Nat} {q : Option Nat} (h : s.canonical) : (s.eliminate n q).1.canonical := by
  unfold State.eliminate
  extract_lets +onlyGivenNames e
  split
  · exact h.onIo
  · exact h

theorem State.canonical.acceptFrame {s : State} {f : RxFrame} {n : Nat} (h : s.canonical) : (s.acceptFrame f n).canonical :=
  .fiuCommit <| .ite h.count.countW.event.onIo.produce.setB h.count.countW.event.onIo.produce

theorem State.canonical.frameAccept {s : State} {e : Nat} (h : s.canonical) : (s.frameAccept e).canonical := by
  unfold State.frameAccept
  split
  · exact h
  · extract_lets +onlyGivenNames s1 n
    have h1 : s1.canonical := h.onEth
    refine .ite (.count <| .ite h1 h1.count) ?_
    refine .ite h1.count ?_
    refine .ite h1.count ?_
    refine .ite h1.count ?_
    split
    · exact h1.count
    · split
      next s11 heq2 =>
        have h2 : s11.canonical := .of_fst_eq heq2 h1.eliminate
        exact h2.acceptFrame
      next s11 heq2 =>
        have h3 : s11.canonical := .of_fst_eq heq2 h1.eliminate
        exact h3.count

theorem canonical_execFrameAccept {port : Fin 2} {s : State} (h : s.canonical) : CanonicalNext (execFrameAccept port s) :=
  .next <| .ite h.frameAccept h

theorem State.canonical.recoveryReset {s : State} {n : Nat} (h : s.canonical) : (s.recoveryReset n).canonical :=
  .ite h.untilTime.onIo h

theorem canonical_execRecoveryResetTimeout {stream : Fin 512} {s : State} (h : s.canonical) :
    CanonicalNext (execRecoveryResetTimeout stream s) :=
  .next h.recoveryReset

theorem State.canonical.commitField {s : State} {f : RxFrame} {w : SlotWrite} {again : Bool} (h : s.canonical) :
    (s.commitField f w again).canonical := by
  generalize hg : State.commitField = g
  delta State.commitField at hg
  subst hg
  beta_reduce
  split
  next s1 _ heq =>
    have h1 : s1.canonical := .of_fst_eq heq h.writeMem
    exact h1.onIo

theorem State.canonical.commitFrame {s : State} {f : RxFrame} (h : s.canonical) : (s.commitFrame f).canonical :=
  .each h.settle fun _ _ h1 => h1.commitField

theorem State.canonical.slotCommit {s : State} (h : s.canonical) : s.slotCommit.canonical := by
  unfold State.slotCommit
  refine .ite h ?_
  split
  · exact h
  · exact h.onIo.commitFrame

theorem canonical_execSlotCommit {s : State} (h : s.canonical) : CanonicalNext (execSlotCommit s) := .next h.slotCommit

theorem State.canonical.clearFresh {s : State} {k : Nat} (h : s.canonical) : (s.clearFresh k).canonical := h.setBytes

theorem State.canonical.copySlot {s : State} {k : Nat} (h : s.canonical) : (s.copySlot k).canonical := by
  generalize hg : State.copySlot = g
  delta State.copySlot at hg
  subst hg
  beta_reduce
  extract_lets +onlyGivenNames src dst
  split
  next s1 good heq =>
    have h1 : s1.canonical := .of_fst_eq heq h.bankCheck
    exact .ite h1.eccWrite.setBytes.clearReservations (.each h1.eccWrite.setBytes.clearReservations fun _ _ h => h.setEcc)

theorem State.canonical.copyLines {s : State} {l : List Nat} (h : s.canonical) : (s.copyLines l).canonical := h.event

theorem State.canonical.imageCopy {s : State} (h : s.canonical) : s.imageCopy.canonical :=
  .ite (.setB <| .onIo <| .each (.each h.copyLines fun _ _ h1 => h1.copySlot) fun _ _ h2 => h2.clearFresh) h

theorem canonical_execImageCopy {s : State} (h : s.canonical) : CanonicalNext (execImageCopy s) := .next h.imageCopy

theorem State.canonical.flipImage {s : State} (h : s.canonical) : s.flipImage.canonical := h.imageCopy.putF.setB.setB.onIo

theorem State.canonical.loseSource {s : State} (h : s.canonical) : s.loseSource.canonical :=
  .ite h.setB.onLdg.setB.putF h.setB.onLdg

theorem State.canonical.showSync {s : State} (h : s.canonical) : s.showSync.canonical := .each h.onIo fun _ _ h1 => h1.setB.setB

theorem State.canonical.discipline {s : State} {offset : Int} (h : s.canonical) : (s.discipline offset).canonical :=
  .ite h.updated (.ite h.updated h.updated)

theorem State.canonical.syncReceive {s : State} {e : Nat} {offset : Int} {interval : Nat} (h : s.canonical) :
    (s.syncReceive e offset interval).canonical :=
  .ite h (.ite h.onEth.showSync.wr.discipline.onIo.showSync h.onEth.showSync)

theorem canonical_execSyncReceive {port : Fin 2} {offset : Int} {interval : Nat} {s : State} (h : s.canonical) :
    CanonicalNext (execSyncReceive port offset interval s) :=
  .next h.syncReceive

theorem State.canonical.measurePeer {s : State} {e delay : Nat} (h : s.canonical) : (s.measurePeer e delay).canonical :=
  .ite h.onEth.emit h

theorem canonical_execPeerDelay {port : Fin 2} {delay : Nat} {s : State} (h : s.canonical) :
    CanonicalNext (execPeerDelay port delay s) :=
  .next h.measurePeer

theorem State.canonical.syncLoss {s : State} (h : s.canonical) : s.syncLoss.canonical := by
  unfold State.syncLoss
  refine .ite h ?_
  extract_lets +onlyGivenNames due s0 s1 s2 s3
  have h1 : s0.canonical := h.untilTime.showSync
  have h2 : s1.canonical := h1.untilTime.onIo
  have h3 : s2.canonical := .each h2 fun _ _ h4 => h4.onEth
  have h5 : s3.canonical := h3.setB.showSync
  exact .ite h5.loseSource h5

theorem canonical_execSyncLoss {s : State} (h : s.canonical) : CanonicalNext (execSyncLoss s) := .next h.syncLoss

theorem State.canonical.ethLink {s : State} {e : Nat} {up anDone : Bool} (h : s.canonical) :
    (s.ethLink e up anDone).canonical :=
  .ite h (.ite h.setB.setB.putF.setB.startTx h.setB.setB.putF.setB.setB.onEth.showSync)

theorem canonical_execEthLinkChange {port : Fin 2} {up anDone : Bool} {s : State} (h : s.canonical) :
    CanonicalNext (execEthLinkChange port up anDone s) :=
  .next h.ethLink

theorem State.canonical.verifyDone {s : State} {e : Nat} {ok : Bool} (h : s.canonical) : (s.verifyDone e ok).canonical :=
  .ite (.ite h.setB h.setB.setB) h

theorem canonical_execPreemptionVerify {port : Fin 2} {ok : Bool} {s : State} (h : s.canonical) :
    CanonicalNext (execPreemptionVerify port ok s) :=
  .next h.verifyDone

theorem State.canonical.writeEthCtl {s : State} {e : Nat} {v : Word} (h : s.canonical) : (s.writeEthCtl e v).canonical :=
  .ite (.ethLink <| .ite h.wr h.wr.setB) (.ite h.wr h.wr.setB)

/-! ### The functions of Sys2Proof/Machine/Matrix.lean -/

theorem State.canonical.winError {s : State} {cause addr : Nat} {write : Bool} (h : s.canonical) :
    (s.winError cause addr write).canonical :=
  .ite (.emit <| .ite h h.wr.wr.wr) (.ite h h.wr.wr.wr)

theorem State.canonical.perform {s : State} {q : MatrixReq} (h : s.canonical) : CanonicalIf (s.perform q) := by
  unfold State.perform
  split
  · exact .none
  next s1 _ heq =>
    have h1 : s1.canonical := .of_fst_eq heq h.writeMem
    exact .some h1
  next s1 _ heq =>
    have h2 : s1.canonical := .of_fst_eq heq h.writeMem
    exact .some <| .ite h2.winError h2
  next s1 _ heq =>
    have h3 : s1.canonical := .of_fst_eq heq h.writeMem
    exact .some <| .ite h3.busError.winError h3.busError
  next s1 _ _ heq =>
    have h4 : s1.canonical := .of_fst_eq heq h.writeMem
    exact .some h4.request

theorem State.canonical.enqueue {s : State} {q : MatrixReq} (h : s.canonical) : (s.enqueue q).canonical :=
  .ite (.getD h.perform h) (.ite h.count.event.onMtx (.ite h.onMtx h.onMtx))

theorem State.canonical.grant {s : State} {target : Nat} (h : s.canonical) : (s.grant target).canonical := by
  unfold State.grant
  split
  · exact h
  · split
    · exact h
    next s1 heq1 =>
      have h1 : s1.canonical := .of_some_eq heq1 h.perform
      exact h1.onMtx

theorem canonical_execMatrixGrant {target : Fin 34} {s : State} (h : s.canonical) : CanonicalNext (execMatrixGrant target s) :=
  .next <| .ite h.grant h

theorem State.canonical.takeResponse {s : State} {m : Nat} (h : s.canonical) : (s.takeResponse m).canonical := by
  unfold State.takeResponse
  split
  · exact h
  · exact h.onMtx

theorem canonical_execMatrixResponse {master : Fin 16} {s : State} (h : s.canonical) :
    CanonicalNext (execMatrixResponse master s) :=
  .next <| .ite h.takeResponse h

theorem State.canonical.holdbackRelease {s : State} {m : Nat} (h : s.canonical) : (s.holdbackRelease m).canonical := by
  unfold State.holdbackRelease
  split
  · exact h
  · exact .ite h h.onMtx.onMtx

theorem canonical_execHoldbackRelease {master : Fin 16} {s : State} (h : s.canonical) :
    CanonicalNext (execHoldbackRelease master s) :=
  .next <| .ite h.holdbackRelease h

theorem State.canonical.performAll {s : State} {x : List MatrixReq} (h : s.canonical) : CanonicalIf (s.performAll x) := by
  induction x generalizing s with
  | nil =>
    unfold State.performAll
    exact .some h
  | cons a t ih =>
    unfold State.performAll
    split
    · exact .none
    next s1 heq =>
      have h1 : s1.canonical := .of_some_eq heq h.perform
      exact ih h1

theorem State.canonical.flushMaster {s : State} {m : Nat} (h : s.canonical) : CanonicalIf (s.flushMaster m) :=
  h.onMtx.performAll

theorem State.canonical.enter {s : State} {w : Who} {a n : Nat} {direct : Bool} (h : s.canonical) :
    CanonicalIf (s.enter w a n direct) :=
  .ite (.some <| .ite h.count.event h) (State.canonical.flushMaster <| .ite h.count.event h)

/-! ### The functions of Sys2Proof/Machine/Pub.lean -/

theorem State.canonical.sendMsi {s : State} {v : Nat} (h : s.canonical) : (s.sendMsi v).canonical :=
  .ite h (.ite h.onHost h.emit)

theorem State.canonical.writeMsix {s : State} {k : Nat} {v : Word} (h : s.canonical) : (s.writeMsix k v).canonical :=
  .ite h.onHost.onHost.emit h.onHost

theorem State.canonical.signalHost {s : State} {k : Nat} (h : s.canonical) : (s.signalHost k).canonical := h.onHost.sendMsi

theorem State.canonical.msiRequest {s : State} {v : Nat} (h : s.canonical) : (s.msiRequest v).canonical :=
  .each h fun _ _ h1 => .ite h1.signalHost h1

theorem State.canonical.fabInt {s : State} {i : Nat} (h : s.canonical) : (s.fabInt i).canonical := h.setB.onFab.signalHost

theorem State.canonical.setStaging {s : State} {n w : Nat} {v : Word} (h : s.canonical) : (s.setStaging n w v).canonical :=
  h.onHost

theorem State.canonical.ring {s : State} {n : Nat} {v : Word} (h : s.canonical) : (s.ring n v).canonical :=
  .ite h.putF (.ite h.putF h.putF.setB.wr.wr.setB)

theorem State.canonical.publish {s : State} {n code : Nat} (h : s.canonical) : (s.publish n code).canonical :=
  .sendMsi <| .onHost <| .setB <| .wr <| .wr <| .each h fun _ _ h1 => h1.wr

theorem State.canonical.answer {s : State} {n code : Nat} {res : List Nat} (h : s.canonical) :
    (s.answer n code res).canonical :=
  .publish <| .each h fun _ _ h1 => h1.setStaging

theorem State.canonical.endWait {s : State} {n code : Nat} {res : List Nat} (h : s.canonical) :
    (s.endWait n code res).canonical :=
  h.answer

theorem State.canonical.logEvent {s : State} {src : Nat} (h : s.canonical) : (s.logEvent src).canonical :=
  .ite h h.updated.onFw.signalHost

/-! ### The functions of Sys2Proof/Machine/Link.lean -/

theorem State.canonical.onVc {s : State} {p v : Nat} {g : VcAcct → VcAcct} (h : s.canonical) : (s.onVc p v g).canonical :=
  h.onLnk

theorem State.canonical.setLnkState {s : State} {p n : Nat} (h : s.canonical) : (s.setLnkState p n).canonical :=
  .ite h.putF.setB h.putF

theorem State.canonical.dropPacket {s : State} {p n : Nat} (h : s.canonical) : (s.dropPacket p n).canonical :=
  .ite h h.count.setB

theorem State.canonical.lateOperand {s : State} {vjd : Nat} (h : s.canonical) : (s.lateOperand vjd).canonical := by
  unfold State.lateOperand
  split
  · exact .ite h.guard h
  · exact h

theorem State.canonical.complete {s : State} {o : Outstanding} {status : Nat} {data : List Byte} {late : Bool} (h : s.canonical)
    : (s.complete o status data late).canonical := by
  unfold State.complete
  extract_lets +onlyGivenNames s0
  have h1 : s0.canonical := h.onFab
  split
  · exact h1.onThr
  · exact h1.updated
  · exact .ite (.busError <| .updated <| .ite h1.setB.putF.wr.wr h1.setB.putF) (.ite h1.setB.putF.wr.wr h1.setB.putF)
  · exact .updated <| .onHost <| .ite h1.lateOperand h1
  · exact .ite h1 h1.onHost
  · refine .ite h1.onHost ?_
    split
    next s2 _ heq1 =>
      have h2 : s2.canonical := .of_fst_eq heq1 h1.remoteFail
      exact h2.busError.onHost
  · refine .ite h1.onDbg ?_
    split
    next s2 _ heq1 =>
      have h3 : s2.canonical := .of_fst_eq heq1 h1.remoteFail
      exact h3.busError.onDbg
  · refine .ite h1.emit ?_
    split
    next s2 _ heq1 =>
      have h4 : s2.canonical := .of_fst_eq heq1 h1.remoteFail
      exact h4.busError.winError.emit
  · extract_lets +onlyGivenNames s1
    have h5 : s1.canonical := .ite h1.lateOperand h1
    refine .ite h5 ?_
    split
    next s2 _ heq1 =>
      have h6 : s2.canonical := .of_fst_eq heq1 h5.remoteFail
      exact h6.busError
  · refine .ite h1 ?_
    split
    next s2 _ heq1 =>
      have h7 : s2.canonical := .of_fst_eq heq1 h1.remoteFail
      exact .ite h7.busError.winError h7.busError

theorem State.canonical.failRoute {s : State} {p : Nat} (h : s.canonical) : (s.failRoute p).canonical :=
  .each h fun _ _ h1 => h1.complete

theorem State.canonical.linkGuard {s : State} {p : Nat} (h : s.canonical) : (s.linkGuard p).canonical := .ite h.guard h

theorem State.canonical.beginRetrain {s : State} {p : Nat} (h : s.canonical) : (s.beginRetrain p).canonical :=
  h.setB.count.linkGuard.onLnk

theorem State.canonical.enterRetrain {s : State} {p : Nat} (h : s.canonical) : (s.enterRetrain p).canonical :=
  .ite h h.setLnkState.beginRetrain

theorem State.canonical.portDown {s : State} {p : Nat} (h : s.canonical) : (s.portDown p).canonical :=
  .ite h h.setLnkState.dropPacket.onLnk.putF.failRoute

theorem State.canonical.retrainFails {s : State} {p : Nat} (h : s.canonical) : (s.retrainFails p).1.canonical :=
  .fst_ite h.onLnk.beginRetrain h.portDown

theorem State.canonical.resyncOk {s : State} {p : Nat} {acct : List (Nat × Nat)} {next : Nat} (h : s.canonical) :
    CanonicalIf (s.resyncOk p acct next) :=
  .ite (.some <| .setLnkState <| .onLnk <| .each h fun _ _ h1 => h1.onVc) .none

theorem State.canonical.resendAll {s : State} {p : Nat} (h : s.canonical) : (s.resendAll p).canonical :=
  .ite h.onLnk.linkGuard.enterRetrain h.onLnk.linkGuard

theorem State.canonical.takeHeader {s : State} {p : Nat} {th : LinkHeader} (h : s.canonical) : (s.takeHeader p th).canonical :=
  .ite h.onLnk.onVc.resendAll h.onLnk.onVc

theorem State.canonical.sendControl {s : State} {p kind : Nat} {nak : Bool} {fields : List Nat} (h : s.canonical) :
    (s.sendControl p kind nak fields).canonical :=
  h.onVc.emit

theorem State.canonical.sendAck {s : State} {p : Nat} {nak : Bool} (h : s.canonical) : (s.sendAck p nak).canonical :=
  h.sendControl

theorem State.canonical.sendResync {s : State} {p : Nat} (h : s.canonical) : (s.sendResync p).canonical :=
  .ite h h.onLnk.onVc.emit

theorem State.canonical.freeFlits {s : State} {p : Nat} {k : Packet} (h : s.canonical) : (s.freeFlits p k).canonical := h.onVc

theorem State.canonical.takeRx {s : State} {p : Nat} {k : Packet} (h : s.canonical) : (s.takeRx p k).canonical :=
  .ite h.onLnk.freeFlits h

theorem State.canonical.judgeAudit {s : State} {p : Nat} (h : s.canonical) : (s.judgeAudit p).canonical := by
  unfold State.judgeAudit
  split
  · exact h
  · exact .ite (.ite h.onLnk h.onLnk.setB.count.enterRetrain) h

theorem State.canonical.launch {s : State} {p seq : Nat} {k : Packet} (h : s.canonical) : (s.launch p seq k).canonical :=
  h.onVc.emit.event.moved

theorem State.canonical.ackIfOwed {s : State} {p : Nat} (h : s.canonical) : (s.ackIfOwed p).canonical := .ite h.sendAck h

theorem State.canonical.packetSend {s : State} {p : Nat} (h : s.canonical) : (s.packetSend p).canonical := by
  unfold State.packetSend
  refine .ite h ?_
  refine .ite h.ackIfOwed ?_
  extract_lets +onlyGivenNames l
  split
  · exact h.onLnk.launch.count.event
  · split
    · exact h.onLnk.onVc.launch
    · exact h.ackIfOwed

theorem canonical_execPacketSend {port : Fin 4} {s : State} (h : s.canonical) : CanonicalNext (execPacketSend port s) :=
  .next h.packetSend

theorem State.canonical.nakOnce {s : State} {p : Nat} (h : s.canonical) : (s.nakOnce p).canonical := .ite h h.onLnk.sendAck

theorem State.canonical.acceptPacket {s : State} {p : Nat} {b : List Byte} (h : s.canonical) : (s.acceptPacket p b).canonical :=
  .judgeAudit <| .ite h.onLnk.onVc.onLnk h.onLnk.onVc.dropPacket

theorem State.canonical.bySeq {s : State} {p : Nat} {b : List Byte} (h : s.canonical) : (s.bySeq p b).canonical :=
  .ite h.acceptPacket (.ite h.nakOnce h.sendAck)

theorem State.canonical.dataReceive {s : State} {p : Nat} {b : List Byte} (h : s.canonical) : (s.dataReceive p b).canonical :=
  .ite h (.ite h.count.nakOnce (.ite h.takeHeader.bySeq (.ite h.takeHeader.dropPacket h.takeHeader)))

theorem canonical_execDataPacketReceive {port : Fin 4} {hdr body tail : List Byte} {s : State} (h : s.canonical) :
    CanonicalNext (execDataPacketReceive port hdr body tail s) :=
  .next h.dataReceive

theorem canonical_execAck {port : Fin 4} {hdr : LinkHeader} {s : State} (h : s.canonical) :
    CanonicalNext (execAck port hdr s) :=
  .next <| .ite h.takeHeader h

theorem canonical_execNakReceive {port : Fin 4} {hdr : LinkHeader} {s : State} (h : s.canonical) :
    CanonicalNext (execNakReceive port hdr s) :=
  .next <| .ite h.takeHeader h

theorem State.canonical.retryTimeout {s : State} {p : Nat} (h : s.canonical) : (s.retryTimeout p).canonical :=
  .ite h.until.resendAll h

theorem canonical_execRetryTimeout {port : Fin 4} {s : State} (h : s.canonical) : CanonicalNext (execRetryTimeout port s) :=
  .next h.retryTimeout

theorem State.canonical.auditSend {s : State} {p : Nat} (h : s.canonical) : (s.auditSend p).canonical := .ite h.sendControl h

theorem canonical_execAuditSend {port : Fin 4} {s : State} (h : s.canonical) : CanonicalNext (execAuditSend port s) :=
  .next h.auditSend

theorem canonical_execAudit {port : Fin 4} {hdr : LinkHeader} {state : List (Nat × Nat × Nat) × BitVec 12} {s : State}
    (h : s.canonical) : CanonicalNext (execAudit port hdr state s) :=
  .next <| .ite h.takeHeader.onLnk.judgeAudit h

theorem canonical_execDelayMeasure {port : Fin 4} {s : State} (h : s.canonical) : CanonicalNext (execDelayMeasure port s) :=
  .next <| .ite h.onLnk.sendControl h

theorem State.canonical.noteDelay {s : State} {p d : Nat} (h : s.canonical) : (s.noteDelay p d).canonical := h.onLnk.putF

theorem State.canonical.delayPacket {s : State} {p : Nat} {reply : Bool} {t2 t3 : Nat} (h : s.canonical) :
    (s.delayPacket p reply t2 t3).canonical := by
  unfold State.delayPacket
  refine .ite h.sendControl ?_
  split
  · exact h.noteDelay
  · exact h

theorem canonical_execDelay {port : Fin 4} {hdr : LinkHeader} {reply : Bool} {_t1 t2 t3 : Nat} {s : State} (h : s.canonical) :
    CanonicalNext (execDelay port hdr reply _t1 t2 t3 s) :=
  .next <| .ite h.takeHeader.delayPacket h

/-! ### The functions of Sys2Proof/Machine/Domain.lean -/

theorem State.canonical.queueDomain {s : State} {port dst op sub : Nat} {payload : List Byte} (h : s.canonical) :
    (s.queueDomain port dst op sub payload).canonical :=
  h.queuePacket

theorem State.canonical.takeTyped {s : State} {p op sub : Nat} {payload : List Byte} (h : s.canonical) :
    (s.takeTyped p op sub payload).canonical := by
  unfold State.takeTyped
  split
  · exact h.takeRx
  · exact h

theorem State.canonical.sendAdverts {s : State} (h : s.canonical) : s.sendAdverts.canonical :=
  .ite (.each h fun _ _ h1 => h1.queueDomain) h

theorem State.canonical.sendOn {s : State} {k : Packet} (h : s.canonical) : CanonicalIf (s.sendOn k) :=
  .ite (.some h.queuePacket) .none

theorem State.canonical.passOn {s : State} {p : Nat} {k : Packet} (h : s.canonical) : (s.passOn p k).canonical :=
  .getD h.sendOn h.dropPacket

theorem State.canonical.forgetPairs {s : State} (h : s.canonical) : s.forgetPairs.canonical := .each h fun _ _ h1 => h1.onLnk

theorem State.canonical.applyRoute {s : State} {t : List Word} (h : s.canonical) : (s.applyRoute t).canonical :=
  .setB <| .onFab <| .each (.each h fun _ _ h1 => h1.wr) fun _ _ h2 => h2.setB.setB

theorem State.canonical.takeRoute {s : State} {frame : DWord} {t : List Word} (h : s.canonical) :
    (s.takeRoute frame t).canonical :=
  .ite h.onFab h.applyRoute

theorem State.canonical.enterEpoch {s : State} (h : s.canonical) : s.enterEpoch.canonical := h.onFab.setB.fabInt

theorem State.canonical.takeAssign {s : State} {epoch : DWord} {ids : List (DWord × Nat)} (h : s.canonical) :
    (s.takeAssign epoch ids).canonical := by
  unfold State.takeAssign
  extract_lets +onlyGivenNames had id ks s0 s1 s2 s3
  have h1 : s0.canonical := .ite h h.enterEpoch
  have h2 : s1.canonical := h1.onFab.wr
  have h3 : s2.canonical := h2.putF.putF.setB.setB
  have h4 : s3.canonical := h3.putF
  exact .ite h4.fabInt h4

theorem State.canonical.statedLead {s : State} {q : QuorumDecision} (h : s.canonical) : (s.statedLead q).canonical :=
  .ite h (.ite h.onFab.setB h.onFab)

theorem State.canonical.takeDecision {s : State} {q : QuorumDecision} (h : s.canonical) : (s.takeDecision q).canonical :=
  .ite (.ite h.onFab.putF.statedLead h.onFab.putF) (.fabInt <| .ite h.onFab.putF.statedLead h.onFab.putF)

theorem State.canonical.floodDomain {s : State} {notOn sub : Nat} {payload : List Byte} (h : s.canonical) :
    (s.floodDomain notOn sub payload).canonical :=
  .each h fun _ _ h1 => h1.queueDomain

theorem State.canonical.sendQuorum {s : State} (h : s.canonical) : s.sendQuorum.canonical := h.takeDecision.floodDomain

theorem State.canonical.sendRejoin {s : State} {dst region st : Nat} (h : s.canonical) :
    (s.sendRejoin dst region st).canonical :=
  .ite h h.queueDomain

theorem State.canonical.copyFails {s : State} (h : s.canonical) : s.copyFails.canonical := h.setB.setB.sendRejoin

theorem State.canonical.memberDone {s : State} {id : Nat} (h : s.canonical) : (s.memberDone id).canonical :=
  .ite (.each h.onFab.onFab.takeDecision fun _ _ h1 => h1.queueDomain) h.onFab

theorem State.canonical.allDone {s : State} (h : s.canonical) : s.allDone.canonical :=
  .ite h.setB.onFab.memberDone h.setB.onFab.sendRejoin

theorem State.canonical.beginRegion {s : State} {i : Nat} (h : s.canonical) : (s.beginRegion i).canonical :=
  .ite h.allDone (.ite h.setB.putF.onFab.copyFails h.setB.putF.onFab.sendRejoin)

theorem State.canonical.hearRejoin {s : State} {norun : Bool} (h : s.canonical) : (s.hearRejoin norun).canonical :=
  .ite h (.ite h.setB.fabInt h.beginRegion)

theorem State.canonical.tellHold {s : State} (h : s.canonical) : s.tellHold.canonical :=
  .ite (.each h.onFab fun _ _ h1 => .ite h1.hearRejoin h1.sendRejoin) h

theorem State.canonical.planRejoin {s : State} {q : QuorumDecision} (h : s.canonical) : (s.planRejoin q).canonical :=
  .ite h.onFab h.onFab

theorem State.canonical.form {s : State} (h : s.canonical) : s.form.canonical :=
  .tellHold <| .planRejoin <| .sendQuorum <| .takeRoute <| .each h.takeAssign.floodDomain fun _ _ h1 => h1.queueDomain

theorem State.canonical.collect {s : State} {l : List MemberInfo} (h : s.canonical) : (s.collect l).canonical :=
  .ite h.onFab.form h.onFab

theorem State.canonical.takeOverTick {s : State} (h : s.canonical) : s.takeOverTick.canonical :=
  .ite (.ite h.onLdg.setB.putF h.onLdg.setB.putF.onLdg.onFab) h

theorem State.canonical.newEpoch {s : State} (h : s.canonical) : s.newEpoch.canonical := by
  unfold State.newEpoch
  refine .ite h ?_
  split
  · extract_lets +onlyGivenNames u changed s1 s2 s3
    have h1 : s1.canonical := h.onFab.fabInt
    have h2 : s2.canonical := .setB <| .ite h1.fabInt h1
    have h3 : s3.canonical := h2.setB.sendAdverts
    exact .ite (.collect <| .ite h3 h3.takeOverTick) h3.onFab.queueDomain

theorem State.canonical.reelect {s : State} (h : s.canonical) : s.reelect.canonical :=
  .ite h.newEpoch (.ite h h.onFab.sendAdverts)

theorem State.canonical.partnerGone {s : State} {p : Nat} (h : s.canonical) : (s.partnerGone p).canonical :=
  .newEpoch <| .onLnk <| .ite h.forgetPairs h

theorem State.canonical.advertTime {s : State} (h : s.canonical) : s.advertTime.canonical :=
  .ite (.sendAdverts <| .each h fun _ _ h1 => h1.partnerGone) h

theorem canonical_execAdvertSend {s : State} (h : s.canonical) : CanonicalNext (execAdvertSend s) :=
  .next <| .ite h.advertTime h

theorem State.canonical.advert {s : State} {p : Nat} {a : Advert} (h : s.canonical) : (s.advert p a).canonical := by
  unfold State.advert
  extract_lets +onlyGivenNames s0
  have h1 : s0.canonical := h.takeTyped
  exact .ite h1 (.ite (.newEpoch <| .ite h1.onLnk.putF.setB.forgetPairs.onLnk h1.onLnk.putF.setB) (.reelect <| .ite
      h1.onLnk.putF.setB.forgetPairs.onLnk h1.onLnk.putF.setB))

theorem canonical_execAdvert {port : Fin 4} {a : Advert} {s : State} (h : s.canonical) : CanonicalNext (execAdvert port a s) :=
  .next h.advert

theorem State.canonical.addHold {s : State} {id : Nat} (h : s.canonical) : (s.addHold id).canonical :=
  .ite h.onFab.hearRejoin h.onFab.sendRejoin

theorem State.canonical.memberHeard {s : State} {i : MemberInfo} (h : s.canonical) : (s.memberHeard i).canonical := by
  unfold State.memberHeard
  extract_lets +onlyGivenNames others
  split
  · refine .ite ?_ h.collect
    extract_lets +onlyGivenNames s1
    have h1 : s1.canonical := h.onFab
    split
    · exact .ite h1.addHold h1
    · exact h1
  · exact h.collect

theorem State.canonical.memberReport {s : State} {p : Nat} {m : MemberReport} (h : s.canonical) :
    (s.memberReport p m).canonical := by
  unfold State.memberReport
  extract_lets +onlyGivenNames i s1
  have h1 : s1.canonical := h.takeTyped
  refine .ite h1 ?_
  refine .ite h1.memberHeard ?_
  split
  · exact h1.queueDomain
  · exact h1

theorem canonical_execMember {port : Fin 4} {m : MemberReport} {s : State} (h : s.canonical) :
    CanonicalNext (execMember port m s) :=
  .next h.memberReport

theorem State.canonical.assignPacket {s : State} {p : Nat} {epoch : DWord} {ids : List (DWord × Nat)} (h : s.canonical) :
    (s.assignPacket p epoch ids).canonical :=
  .ite h.takeTyped h.takeTyped.takeAssign.floodDomain

theorem canonical_execAssign {port : Fin 4} {epoch : BitVec 64} {ids : List (BitVec 64 × BitVec 8)} {s : State}
    (h : s.canonical) : CanonicalNext (execAssign port epoch ids s) :=
  .next h.assignPacket

theorem State.canonical.routePacket {s : State} {p dst : Nat} {epoch frame : DWord} {t : List Word} (h : s.canonical) :
    (s.routePacket p dst epoch frame t).canonical :=
  .ite h.takeTyped (.ite h.takeTyped.passOn (.ite h.takeTyped h.takeTyped.takeRoute))

theorem canonical_execRoute {port : Fin 4} {dst : BitVec 6} {at_ : BitVec 64 × BitVec 64} {table : List Word} {s : State}
    (h : s.canonical) : CanonicalNext (execRoute port dst at_ table s) :=
  .next h.routePacket

theorem State.canonical.quorumPacket {s : State} {p : Nat} {q : QuorumDecision} (h : s.canonical) :
    (s.quorumPacket p q).canonical :=
  .ite h.takeTyped h.takeTyped.takeDecision.floodDomain

theorem canonical_execQuorum {port : Fin 4} {q : QuorumDecision} {s : State} (h : s.canonical) :
    CanonicalNext (execQuorum port q s) :=
  .next h.quorumPacket

theorem State.canonical.signalDetect {s : State} {p : Nat} (h : s.canonical) : (s.signalDetect p).canonical :=
  .ite h.setLnkState.onLnk h

theorem canonical_execLinkSignalDetect {port : Fin 4} {s : State} (h : s.canonical) :
    CanonicalNext (execLinkSignalDetect port s) :=
  .next h.signalDetect

theorem State.canonical.linkTrained {s : State} {p : Nat} {ok : Bool} (h : s.canonical) : (s.linkTrained p ok).canonical :=
  .ite h (.ite h.setLnkState h.untilTime.setLnkState)

theorem canonical_execLinkTrained {port : Fin 4} {ok : Bool} {s : State} (h : s.canonical) :
    CanonicalNext (execLinkTrained port ok s) :=
  .next h.linkTrained

theorem State.canonical.linkAligned {s : State} {p : Nat} (h : s.canonical) : (s.linkAligned p).canonical :=
  .ite h.setLnkState.sendControl (.ite h.sendResync h)

theorem canonical_execLinkAligned {port : Fin 4} {s : State} (h : s.canonical) : CanonicalNext (execLinkAligned port s) :=
  .next h.linkAligned

theorem State.canonical.linkInit {s : State} {p : Nat} {th : LinkHeader} {uid : DWord} {id : Nat} (h : s.canonical) :
    (s.linkInit p th uid id).canonical :=
  .ite h h.onLnk.wr.wr.putF.setB.setLnkState.takeHeader.newEpoch

theorem canonical_execLinkInit {port : Fin 4} {hdr : LinkHeader} {uid : BitVec 64} {prioId : BitVec 8 × BitVec 8} {s : State}
    (h : s.canonical) : CanonicalNext (execLinkInit port hdr uid prioId s) :=
  .next h.linkInit

theorem State.canonical.linkDown {s : State} {p : Nat} (h : s.canonical) : (s.linkDown p).canonical :=
  .ite h (.ite h.portDown.partnerGone h.portDown)

theorem State.canonical.linkRetrain {s : State} {p fec : Nat} (h : s.canonical) : (s.linkRetrain p fec).canonical :=
  .ite h (.ite h.enterRetrain (.ite h.count.setB.onLnk.enterRetrain h.count.setB.onLnk))

theorem canonical_execLinkRetrain {port : Fin 4} {fecWords : Nat} {s : State} (h : s.canonical) :
    CanonicalNext (execLinkRetrain port fecWords s) :=
  .next h.linkRetrain

theorem State.canonical.failRetrain {s : State} {p : Nat} (h : s.canonical) : (s.failRetrain p).canonical := by
  unfold State.failRetrain
  split
  next s2 _ heq =>
    have h1 : s2.canonical := .of_fst_eq heq h.retrainFails
    exact .ite h1.partnerGone h1

theorem State.canonical.writeLnkCtl {s : State} {p : Nat} {v : Word} (h : s.canonical) : (s.writeLnkCtl p v).canonical :=
  .ite (.linkDown <| .ite h.wr.enterRetrain h.wr) (.ite h.wr.enterRetrain h.wr)

theorem State.canonical.writeFabCtl {s : State} {v : Word} (h : s.canonical) : (s.writeFabCtl v).canonical :=
  .ite (.ite h.wr h.wr.newEpoch) (.wr <| .setB <| .each (.each h.wr.onFab fun _ _ h1 => h1.dropPacket.onLnk.putF) fun _ _ h2 =>
    h2.wr)

theorem State.canonical.keystoneSend {s : State} {src : Nat} (h : s.canonical) : (s.keystoneSend src).canonical :=
  .ite (.ite (.onLdg <| .sendQuorum <| .onFab <| .each h fun _ _ h1 => h1.queueDomain) (.sendQuorum <| .onFab <| .each h fun _ _
    h2 => h2.queueDomain)) h

theorem State.canonical.tickPacket {s : State} {p : Nat} {d : DWord} {acc period lat uid : Nat} (h : s.canonical) :
    (s.tickPacket p d acc period lat uid).canonical := by
  unfold State.tickPacket
  extract_lets +onlyGivenNames s0
  have h1 : s0.canonical := h.takeTyped
  refine .ite h1 ?_
  extract_lets +onlyGivenNames total s1 mine
  have h2 : s1.canonical := .each h1 fun _ _ h3 => h3.queueDomain
  exact .ite (.ite h2.fabInt.loseSource h2.fabInt) (.ite (.onLdg <| .onFab <| .ite h2.fabInt h2) (.onFab <| .ite h2.fabInt h2))

theorem canonical_execTickPacket {port : Fin 4} {dframe : BitVec 64} {acc period lat : Nat} {uid : BitVec 64} {s : State}
    (h : s.canonical) : CanonicalNext (execTickPacket port dframe acc period lat uid s) :=
  .next h.tickPacket

theorem State.canonical.rejoinReport {s : State} {src region st : Nat} (h : s.canonical) :
    (s.rejoinReport src region st).canonical :=
  .ite (.ite (.ite h.memberDone h) (.ite h.hearRejoin h)) (.ite h.onFab.sendRejoin (.ite h.onFab.copyFails h.onFab))

theorem State.canonical.rejoinPacket {s : State} {dst src region st : Nat} (h : s.canonical) :
    (s.rejoinPacket dst src region st).canonical :=
  .ite h.takeTyped (.ite h.takeTyped.rejoinReport h.takeTyped.passOn)

theorem canonical_execRejoin {dst src : BitVec 6} {copy : BitVec 8 × BitVec 8} {s : State} (h : s.canonical) :
    CanonicalNext (execRejoin dst src copy s) :=
  .next h.rejoinPacket

theorem State.canonical.rejoinCopy {s : State} {region member dst len src : Nat} (h : s.canonical) :
    (s.rejoinCopy region member dst len src).canonical := by
  unfold State.rejoinCopy
  refine .ite h ?_
  refine .ite h.sendRejoin ?_
  refine .ite ?_ h
  refine .each h (fun _ _ h1 => ?_)
  split
  next s11 _ heq =>
    have h2 : s11.canonical := .of_fst_eq heq h1.readMem
    exact h2.queuePacket
  next s11 _ _ heq =>
    exact .of_fst_eq heq h1.readMem

theorem canonical_execRejoinCopy {region : Fin 16} {member : BitVec 6} {dst len src : Nat} {s : State} (h : s.canonical) :
    CanonicalNext (execRejoinCopy region member dst len src s) :=
  .next h.rejoinCopy

theorem State.canonical.copyProgress {s : State} {n : Nat} (h : s.canonical) : (s.copyProgress n).canonical :=
  .ite h (.ite h.onFab.sendRejoin.beginRegion h.onFab)

theorem State.canonical.checkSource {s : State} (h : s.canonical) : s.checkSource.canonical := .ite h.copyFails h

theorem State.canonical.writeTwin {s : State} {v : Word} (h : s.canonical) : (s.writeTwin v).canonical := h.wr.onFab

theorem State.canonical.twinFail {s : State} {bit : Nat} {policy : Bool} (h : s.canonical) :
    (s.twinFail bit policy).canonical :=
  .ite h.fabInt.count.onFab h.fabInt.count

theorem State.canonical.judgeDigest {s : State} (h : s.canonical) : s.judgeDigest.canonical := by
  unfold State.judgeDigest
  split
  · exact .ite h (.ite h.onFab.onFab h.onFab.twinFail)
  · exact h

theorem State.canonical.twinDigest {s : State} (h : s.canonical) : s.twinDigest.canonical :=
  .ite (.judgeDigest <| .ite h.onFab.wr.wr.queueDomain h.onFab.wr.wr) h

theorem State.canonical.digestPacket {s : State} {dst : Nat} {frame d : DWord} (h : s.canonical) :
    (s.digestPacket dst frame d).canonical :=
  .ite h.takeTyped (.ite h.takeTyped.passOn (.ite h.takeTyped h.takeTyped.onFab.wr.wr.judgeDigest))

theorem canonical_execDigest {dst : BitVec 6} {of_ : BitVec 64 × BitVec 64} {s : State} (h : s.canonical) :
    CanonicalNext (execDigest dst of_ s) :=
  .next h.digestPacket

theorem State.canonical.twinAbsent {s : State} (h : s.canonical) : s.twinAbsent.canonical := .ite h.onFab.twinFail h

theorem State.canonical.applyDecision {s : State} {q : QuorumDecision} (h : s.canonical) : (s.applyDecision q).canonical :=
  .ite h (.raiseMachine <| .ite h.onFab h.onFab.setB.fabInt)

theorem State.canonical.leadTick {s : State} (h : s.canonical) : s.leadTick.canonical := by
  unfold State.leadTick
  extract_lets +onlyGivenNames quorate gone
  refine .ite ?_ h.onFab
  split
  · exact h.onFab
  · exact h.onFab
  · exact h.setB.onFab

theorem State.canonical.judged {s : State} (h : s.canonical) : s.judged.1.canonical := by
  unfold State.judged
  split
  · exact h.applyDecision.statedLead
  · exact h.onFab

theorem State.canonical.loseQuorum {s : State} (h : s.canonical) : s.loseQuorum.canonical := by
  unfold State.loseQuorum
  extract_lets +onlyGivenNames s1
  have h1 : s1.canonical := h.setB.onFab
  refine .ite h1 ?_
  refine .ite h1.memberHeard ?_
  split
  · exact h1.queueDomain
  · exact h1

theorem State.canonical.fabricTick {s : State} (h : s.canonical) : s.fabricTick.1.canonical := by
  unfold State.fabricTick
  refine .fst_ite h ?_
  extract_lets +onlyGivenNames d s0 s1
  have h1 : s0.canonical := h.wr.wr.onFab
  have h2 : s1.canonical := by
    unfold s1
    split
    · exact .ite h1.applyRoute h1
    · exact h1
  split
  next s2 _ heq =>
    have h3 : s2.canonical := .of_fst_eq heq h2.judged
    exact .fst_ite h3.leadTick.loseQuorum
        (.fst_ite h3.leadTick.onFab (.fst_ite h3.leadTick.onFab.fabInt h3.leadTick.checkSource.tellHold))

/-! ### The functions of Sys2Proof/Machine/Issue.lean -/

theorem State.canonical.chkBind {α β : Type} {r : State × Chk α} {k : State → α → State × Chk β} (h : r.1.canonical)
    (hk : ∀ (u : State) (x : α), u.canonical → (k u x).1.canonical) : (chkBind r k).1.canonical := by
  unfold Machine.chkBind
  split
  · exact hk _ _ h
  · exact h
  · exact h
  · exact h

theorem State.canonical.accChk {r : State × AccRes} {w : Who} {a fsel faddr : Nat} (h : r.1.canonical) :
    (accChk r w a fsel faddr).1.canonical := by
  unfold Machine.accChk
  split
  · exact h
  · exact h
  · exact h
  · exact .busError h
  · exact h

theorem State.canonical.segment {s : State} {w : Who} {ans : List RemoteAnswer} {pl sel operand : Nat} {off : Int}
    {needR needW : Bool} (h : s.canonical) : (s.segment w ans pl sel operand off needR needW).1.canonical :=
  .fst_ite h (.chkBind h.readAns.accChk fun _ _ h1 => .fst_ite h1 h1)

theorem State.canonical.segments {s : State} {w : Who} {ans : List RemoteAnswer} {pl : Nat}
    {x : List (Nat × Nat × Int × Bool × Bool)} {x1 : List (Nat × SegDesc)} (h : s.canonical) :
    (s.segments w ans pl x x1).1.canonical := by
  induction x generalizing s x1 with
  | nil =>
    unfold State.segments
    exact h
  | cons a t ih =>
    obtain ⟨a1, a2, a3, a4, a5⟩ := a
    unfold State.segments
    exact .chkBind h.segment fun _ _ h1 => ih h1

theorem State.canonical.readPri {s : State} {w : Who} {ans : List RemoteAnswer} {v : VJob} {segs : List (Nat × SegDesc)}
    (h : s.canonical) : (s.readPri w ans v segs).1.canonical :=
  .fst_ite h (.fst_ite h (.chkBind h.readAns.accChk fun _ _ h1 => h1))

theorem State.canonical.readPrev {s : State} {w : Who} {ans : List RemoteAnswer} {v : VJob} {segs : List (Nat × SegDesc)}
    (h : s.canonical) : (s.readPrev w ans v segs).1.canonical :=
  .fst_ite h (.fst_ite h (.chkBind h.readAns.accChk fun _ _ h1 => h1))

theorem State.canonical.readCtx {s : State} {w : Who} {ans : List RemoteAnswer} {v : VJob} {vjd pl sg1 : Nat}
    {segs : List (Nat × SegDesc)} (h : s.canonical) : (s.readCtx w ans v vjd pl sg1 segs).1.canonical := by
  unfold State.readCtx
  extract_lets +onlyGivenNames ctxp fsel
  refine .fst_ite h ?_
  refine .chkBind h.segment (fun _ _ h1 => ?_)
  extract_lets +onlyGivenNames segs1
  refine .fst_ite h1 ?_
  refine .fst_ite h1 ?_
  refine .fst_ite h1 ?_
  refine .chkBind h1.readAns.accChk (fun _ _ h2 => ?_)
  split <;> exact h2

theorem State.canonical.checkJob {s : State} {w : Who} {ans : List RemoteAnswer} {ws : List Word} {acc vjd pl sg1 : Nat}
    {vsegs : List (Nat × SegDesc)} (h : s.canonical) : (s.checkJob w ans ws acc vjd pl sg1 vsegs).1.canonical := by
  unfold State.checkJob
  split
  · exact h
  · refine .fst_ite h ?_
    refine .chkBind h.segments (fun _ _ h1 => ?_)
    split
    · exact h1
    · exact .chkBind h1.readCtx fun _ _ h2 => .chkBind h2.readPrev fun _ _ h3 => .fst_ite h3 (.chkBind h3.readPri fun _ _ h4 =>
        .fst_ite h4 h4)

theorem State.canonical.readVjd {s : State} {w : Who} {ans : List RemoteAnswer} {pl sel off : Nat} (h : s.canonical) :
    (s.readVjd w ans pl sel off).1.canonical :=
  .fst_ite h (.chkBind h.segment fun _ _ h1 => .fst_ite h1 (.chkBind h1.readAns.accChk fun _ _ h2 => h2))

theorem State.canonical.logFrond {s : State} {k code operand vjd elem : Nat} (h : s.canonical) :
    (s.logFrond k code operand vjd elem).canonical :=
  .ite h h.wr.wr.wr.wr

theorem State.canonical.writeVjd {s : State} {master vjd word : Nat} {vals : List Nat} {frond ri : Nat} (h : s.canonical) :
    (s.writeVjd master vjd word vals frond ri).canonical := by
  unfold State.writeVjd
  extract_lets +onlyGivenNames d
  split
  next s1 heq =>
    exact .of_fst_eq heq h.post
  next s1 heq =>
    have h2 : s1.canonical := .of_fst_eq heq h.post
    exact h2.logFrond

theorem State.canonical.writeStat {s : State} {j : Job} {st : Nat} (h : s.canonical) : (s.writeStat j st).canonical :=
  h.writeVjd

theorem State.canonical.writeStop {s : State} {j : Job} {st code frond ri faddr fsel : Nat} (h : s.canonical) :
    (s.writeStop j st code frond ri faddr fsel).canonical :=
  h.writeVjd

theorem State.canonical.completionSpore {s : State} {ws : List Word} {pl : Nat} (h : s.canonical) :
    (s.completionSpore ws pl).canonical :=
  h.produceOn

theorem State.canonical.enrol {s : State} {j : Job} {charges : SMap Nat} {charged : Bool} (h : s.canonical) :
    (s.enrol j charges charged).canonical :=
  .writeStat <| .event <| .each (.updated <| .onLdg <| .ite h.deduct h) fun _ _ h1 => h1.putJob

theorem State.canonical.askLedger {s : State} {c : Checked} {acc vjd sg1 pl : Nat} {owner : Option Nat} (h : s.canonical) :
    (s.askLedger c acc vjd sg1 pl owner).1.canonical :=
  .fst_ite h (.fst_ite h.denied (.fst_ite h.enrol (.fst_ite h.enrol (.fst_ite h.onLdg.updated.writeStat h.denied))))

/-! ### The functions of Sys2Proof/Machine/Frond.lean -/

theorem State.canonical.frdPiece {s : State} {j : Job} {who : Nat → Who} {a n : Nat} (h : s.canonical) :
    (s.frdPiece j who a n).1.canonical := by
  unfold State.frdPiece
  split
  next s1 _ heq =>
    exact .of_fst_eq heq h.readMem
  next s1 _ heq =>
    exact .of_fst_eq heq h.readMem
  next s1 heq =>
    exact .of_fst_eq heq h.readMem
  next s1 _ heq =>
    have h4 : s1.canonical := .of_fst_eq heq h.readMem
    exact h4.busError
  next s1 _ _ heq =>
    have h5 : s1.canonical := .of_fst_eq heq h.readMem
    extract_lets +onlyGivenNames line status
    refine .fst_ite ?_ ?_
    · split
      next s2 _ heq1 =>
        have h6 : s2.canonical := .of_fst_eq heq1 h5.remoteFail
        exact h6.busError
    · split <;> exact h5

theorem State.canonical.frdSome {s : State} {j : Job} {who : Nat → Who} {x : List (Nat × Nat)} {x1 : List Byte}
    (h : s.canonical) : (s.frdSome j who x x1).1.canonical := by
  induction x generalizing s x1 with
  | nil =>
    unfold State.frdSome
    exact h
  | cons a t ih =>
    obtain ⟨a1, a2⟩ := a
    unfold State.frdSome
    split
    next s1 _ heq =>
      have h1 : s1.canonical := .of_fst_eq heq h.frdPiece
      exact ih h1
    · exact h.frdPiece

theorem State.canonical.frdRead {s : State} {j : Job} {who : Nat → Who} {a n : Nat} (h : s.canonical) :
    (s.frdRead j who a n).1.canonical :=
  h.frdSome

theorem CanonicalStep.bind {r : EStep} {k : Elem → EStep} (hr : CanonicalStep r)
    (hk : ∀ e, e.s.canonical → CanonicalStep (k e)) : CanonicalStep (r.bind k) := by
  cases r with
  | go e => exact hk e hr
  | stop s w => exact hr

theorem State.canonical.elemRead {e : Elem} {v : VJob} {key operand sel fr : Nat} {o : Int} {n : Nat} {each : Bool}
    {k : Elem → List Byte → EStep} (h : e.s.canonical)
    (hk : ∀ (u : Elem) (x : List Byte), u.s.canonical → CanonicalStep (k u x)) :
    CanonicalStep (e.read v key operand sel fr o n each k) := by
  unfold Elem.read
  extract_lets +onlyGivenNames d fsel
  refine .ite (.stop h) ?_
  extract_lets +onlyGivenNames a
  split
  next s1 _ heq =>
    have h1 : s1.canonical := .of_fst_eq heq h.frdRead
    exact hk _ _ h1
  next s1 heq =>
    have h2 : s1.canonical := .of_fst_eq heq h.frdRead
    exact .stop h2
  next s1 _ heq =>
    have h3 : s1.canonical := .of_fst_eq heq h.frdRead
    exact .stop h3
  next s1 heq =>
    have h4 : s1.canonical := .of_fst_eq heq h.frdRead
    exact .stop h4

theorem State.canonical.elemIndexes {e : Elem} {v : VJob} {fr i : Nat} {x : List Nat} (h : e.s.canonical) :
    CanonicalStep (e.indexes v fr i x) := by
  induction x generalizing e with
  | nil =>
    unfold Elem.indexes
    exact .go h
  | cons a t ih =>
    unfold Elem.indexes
    exact State.canonical.elemRead h fun _ _ h1 => ih h1

theorem State.canonical.elemIndexAt {e : Elem} {v : VJob} {fr k p : Nat} {next : Elem → EStep} (h : e.s.canonical)
    (hnext : ∀ u : Elem, u.s.canonical → CanonicalStep (next u)) : CanonicalStep (e.indexAt v fr k p next) := by
  unfold Elem.indexAt
  exact State.canonical.elemRead h fun _ _ h1 => hnext _ h1

theorem State.canonical.elemNextIndex {e : Elem} {v : VJob} {fr i : Nat} (h : e.s.canonical) :
    CanonicalStep (e.nextIndex v fr i) :=
  .ite (.go h) (State.canonical.elemRead h fun _ _ h1 => .go h1)

theorem State.canonical.elemMask {e : Elem} {v : VJob} {fr i : Nat} {k : Elem → Bool → EStep} (h : e.s.canonical)
    (hk : ∀ (u : Elem) (x : Bool), u.s.canonical → CanonicalStep (k u x)) : CanonicalStep (e.mask v fr i k) :=
  .ite (hk _ _ h) (State.canonical.elemRead h fun _ _ h1 => hk _ _ h1)

theorem State.canonical.elemPut {e : Elem} {k x : Nat} (h : e.s.canonical) : (e.put k x).s.canonical := h

theorem State.canonical.elemRecords {e : Elem} {v : VJob} {fr b : Nat} {k : Elem → EStep} {x : List Nat} (h : e.s.canonical)
    (hk : ∀ u : Elem, u.s.canonical → CanonicalStep (k u)) : CanonicalStep (e.records v fr b k x) := by
  induction x generalizing e with
  | nil =>
    unfold Elem.records
    exact hk _ h
  | cons a t ih =>
    unfold Elem.records
    exact State.canonical.elemRead h fun _ _ h1 => ih h1

theorem State.canonical.elemSourcesOf {e : Elem} {v : VJob} {fr i : Nat} {active : Bool} {x : List Nat} (h : e.s.canonical) :
    CanonicalStep (e.sourcesOf v fr i active x) := by
  induction x generalizing e with
  | nil =>
    unfold Elem.sourcesOf
    exact .go h
  | cons a t ih =>
    unfold Elem.sourcesOf
    extract_lets +onlyGivenNames o n
    refine .ite (.ite (.ite (State.canonical.elemRecords h fun _ h1 => ih h1) (ih h)) (.stop h)) ?_
    refine .ite ?_ ?_
    · extract_lets +onlyGivenNames get
      refine .ite (.ite (State.canonical.elemIndexAt h fun _ h2 => State.canonical.elemRead h2 fun _ _ h3 => ih h3.elemPut)
          (State.canonical.elemRead h fun _ _ h4 => ih h4.elemPut)) (ih h)
    · extract_lets +onlyGivenNames byP off
      refine .ite ?_ (.ite (ih h) (.stop h))
      split
      · exact .ite (ih (.elemPut h)) (.stop h)
      · exact State.canonical.elemRead h fun _ _ h5 => ih h5.elemPut

theorem State.canonical.elemOldByte {e : Elem} {v : VJob} {fr fsel a faddr : Nat} {k : State → Nat → EStep} (h : e.s.canonical)
    (hk : ∀ (u : State) (x : Nat), u.canonical → CanonicalStep (k u x)) : CanonicalStep (e.oldByte v fr fsel a faddr k) := by
  unfold Elem.oldByte
  split
  · refine .ite (hk _ _ h) ?_
    split
    next s1 _ heq1 =>
      have h1 : s1.canonical := .of_fst_eq heq1 h.frdPiece
      exact hk _ _ h1
    next s1 heq1 =>
      have h2 : s1.canonical := .of_fst_eq heq1 h.frdPiece
      exact .stop h2
    next s1 _ heq1 =>
      have h3 : s1.canonical := .of_fst_eq heq1 h.frdPiece
      exact .stop h3
    next s1 heq1 =>
      have h4 : s1.canonical := .of_fst_eq heq1 h.frdPiece
      exact .stop h4
  · exact hk _ _ h

theorem State.canonical.postGathered {s : State} {j : Job} {fr : Nat} (h : s.canonical) : (s.postGathered j fr).1.canonical :=
  .each h fun _ _ h1 => h1.postPieces

theorem State.canonical.elemWrite {e : Elem} {v : VJob} {fr p value idx : Nat} {k : Elem → EStep} (h : e.s.canonical)
    (hk : ∀ u : Elem, u.s.canonical → CanonicalStep (k u)) : CanonicalStep (e.write v fr p value idx k) := by
  unfold Elem.write
  extract_lets +onlyGivenNames o off d n fsel
  refine .ite (.stop h) ?_
  extract_lets +onlyGivenNames a
  split
  · exact .stop h.refuse
  · exact State.canonical.elemOldByte h fun _ _ h1 => .ite (.stop h1)
      (hk _ (.onFrd <| .fst_foldl h1 fun _ _ h2 => .fst_ite h2 h2.postPieces))

theorem State.canonical.elemDraw {e : Elem} {s0 : State} {v : VJob} {fr i start : Nat} (h : e.s.canonical) (hs0 : s0.canonical)
    : CanonicalStep (e.draw s0 v fr i start) := by
  unfold Elem.draw
  extract_lets +onlyGivenNames frond
  split
  next s1 _ heq =>
    have h1 : s1.canonical := .of_fst_eq heq h.useAll
    exact .go h1
  · exact .stop hs0

theorem State.canonical.element {s : State} {j : Job} {v : VJob} {fr i start : Nat} (h : s.canonical) :
    CanonicalStep (s.element j v fr i start) := by
  unfold State.element
  extract_lets +onlyGivenNames e0 r traps op stream
  have h0 : e0.s.canonical := h
  refine .bind h0.elemIndexes fun e1 h1 => .bind h1.elemNextIndex fun e2 h2 => ?_
  refine State.canonical.elemMask h2 fun e3 active h3 => .bind h3.elemSourcesOf fun e5 h4 => ?_
  split
  extract_lets +onlyGivenNames newSeg _ ctx0 ends a _ b red fls1 p other settle
  have hsettle : ∀ k : Elem → EStep, (∀ e : Elem, e.s.canonical → CanonicalStep (k e)) → CanonicalStep (settle k) :=
    fun k hk => .ite (State.canonical.elemIndexAt h4 hk) (hk e5 h4)
  refine hsettle _ fun e6 h5 => ?_
  split
  · exact .stop h5
  extract_lets +onlyGivenNames fl count cfl _ ctx1 finish
  have hfinish : ∀ e : Elem, e.s.canonical → CanonicalStep (finish e) :=
    fun e he => .bind (State.canonical.elemDraw he h) fun e9 h6 => .go h6.event
  refine .ite (hfinish e6 h5) (.ite (State.canonical.elemWrite h5 hfinish) ?_)
  exact .ite (.stop h5) (hfinish e6 h5)

theorem State.canonical.wakeVwait {s : State} {vjd : Nat} (h : s.canonical) : (s.wakeVwait vjd).canonical :=
  .each h fun _ _ h1 => .ite h1.onThr h1

theorem State.canonical.frondEvents {s : State} {j : Job} {b : Nat} (h : s.canonical) : (s.frondEvents j b).canonical :=
  .each h fun _ _ h1 => h1.setB

theorem State.canonical.faultQueue {s : State} {owner : Option Nat} {vjd code : Nat} (h : s.canonical) :
    (s.faultQueue owner vjd code).canonical := by
  unfold State.faultQueue
  split
  · exact h
  · exact .ite h (.ite h.setB h.onThr)

theorem State.canonical.enterQueue {s : State} {j : Job} (h : s.canonical) : (s.enterQueue j).canonical :=
  .writeStat <| .each h.putJob fun _ _ h1 => h1.putJob

theorem State.canonical.enterWaiting {s : State} (h : s.canonical) : s.enterWaiting.canonical :=
  .each h fun _ _ h1 => .ite h1.enterQueue h1

theorem State.canonical.endJob {s : State} {j : Job} (h : s.canonical) : (s.endJob j).canonical :=
  h.refund.dropJob.wakeVwait.enterWaiting

theorem State.canonical.saveCtx {s : State} {j : Job} (h : s.canonical) : (s.saveCtx j).1.canonical := by
  unfold State.saveCtx
  split
  · exact h
  · exact .fst_ite h h.post

theorem State.canonical.faultJob {s : State} {j : Job} {code fsel faddr frond : Nat} (h : s.canonical) :
    (s.faultJob j code fsel faddr frond).canonical :=
  .endJob <| .faultQueue <| .completionSpore <| .each h.writeStop.logFrond.frondEvents fun _ _ h1 => h1.produce

theorem State.canonical.ctxRefused {s : State} {j : Job} (h : s.canonical) : (s.ctxRefused j).canonical := h.faultJob

theorem State.canonical.stopFault {s : State} {j : Job} {code fsel faddr frond : Nat} (h : s.canonical) :
    (s.stopFault j code fsel faddr frond).canonical := by
  unfold State.stopFault
  split
  next s1 heq =>
    have h1 : s1.canonical := .of_fst_eq heq h.saveCtx
    exact h1.faultJob
  next s1 heq =>
    have h2 : s1.canonical := .of_fst_eq heq h.saveCtx
    exact h2.logFrond.ctxRefused

theorem State.canonical.completeJob {s : State} {j : Job} (h : s.canonical) : (s.completeJob j).canonical :=
  .endJob <| .completionSpore <| .each h.writeStop.frondEvents fun _ _ h1 => h1.count.produce.event

theorem State.canonical.cancelJob {s : State} {j : Job} (h : s.canonical) : (s.cancelJob j).canonical := by
  unfold State.cancelJob
  refine .ite h.completeJob ?_
  split
  next s2 _ heq =>
    have h1 : s2.canonical := .of_fst_eq heq (.fst_ite h.saveCtx h)
    exact .ite h1.logFrond.ctxRefused (.endJob <| .completionSpore <| .ite h1.writeStop.frondEvents h1.writeStop)

theorem State.canonical.carryJob {s : State} {j : Job} (h : s.canonical) : (s.carryJob j).canonical := by
  unfold State.carryJob
  split
  next s0 heq =>
    have h1 : s0.canonical := .of_fst_eq heq h.saveCtx
    exact h1.logFrond.ctxRefused
  next s0 heq =>
    have h2 : s0.canonical := .of_fst_eq heq h.saveCtx
    exact .ite h2.writeStop.frondEvents.refund.putJob h2.writeStop.frondEvents.refund.putJob.overrunSpore

theorem State.canonical.runElems {s : State} {v : VJob} {fr start x : Nat} {x1 : Job} (h : s.canonical) :
    (s.runElems v fr start x x1).1.canonical := by
  induction x generalizing s x1 with
  | zero =>
    unfold State.runElems
    exact h
  | succ n ih =>
    unfold State.runElems
    split
    next e heq =>
      have h1 : e.s.canonical := .of_go_eq heq h.element
      exact ih h1
    next s1 _ heq =>
      exact .of_stop_eq heq h.element

theorem State.canonical.noteForward {s : State} {before after : Job} (h : s.canonical) :
    (s.noteForward before after).canonical :=
  .ite (.each h.frondEvents fun _ _ h1 => h1.count) h

theorem State.canonical.askLines {s : State} {j : Job} {l : List Nat} (h : s.canonical) : (s.askLines j l).canonical := by
  unfold State.askLines
  extract_lets +onlyGivenNames line
  split
  · exact h.request.putJob
  · exact h.putJob

theorem State.canonical.stripStart {s : State} {k : Nat} (h : s.canonical) : (s.stripStart k).canonical := by
  unfold State.stripStart
  split
  · exact h
  · split
    · exact h
    · refine .ite h ?_
      refine .ite h ?_
      split
      · split
        next s0 _ _ heq3 =>
          have h1 : s0.canonical := .of_fst_eq heq3 h.runElems
          split
          next s1 _ heq4 =>
            have h2 : s1.canonical := .of_fst_eq heq4 h1.postGathered
            extract_lets +onlyGivenNames s1'
            have h3 : s1'.canonical := h2.noteForward
            split
            · exact h3.putJob
            · exact h3.stopFault
            · exact h3.guard.putJob
            · exact h3.askLines
            · exact h3.putJob

theorem canonical_execStripStart {frond : Fin 8} {s : State} (h : s.canonical) : CanonicalNext (execStripStart frond s) :=
  .next h.stripStart

theorem State.canonical.jobStart {s : State} {k : Nat} (h : s.canonical) : (s.jobStart k).canonical := by
  unfold State.jobStart
  split
  · exact h
  · split
    · exact h
    · extract_lets +onlyGivenNames slots vals wkey lat j1
      split
      next s1 _ _ heq2 =>
        have h1 : s1.canonical := .of_fst_eq heq2 (.fst_ite h h.updated.useAll)
        exact .writeStat <| .putJob <| .each h1 fun _ _ h2 => h2.onFrd

theorem canonical_execJobStart {frond : Fin 8} {s : State} (h : s.canonical) : CanonicalNext (execJobStart frond s) :=
  .next h.jobStart

theorem State.canonical.jobComplete {s : State} {k : Nat} (h : s.canonical) : (s.jobComplete k).canonical := by
  unfold State.jobComplete
  split
  · exact .ite h.completeJob h
  · exact h

theorem canonical_execJobComplete {frond : Fin 8} {s : State} (h : s.canonical) : CanonicalNext (execJobComplete frond s) :=
  .next h.jobComplete

theorem State.canonical.preempt {s : State} {k : Nat} (h : s.canonical) : (s.preempt k).canonical := by
  unfold State.preempt
  split
  · exact .ite h.frondEvents.putJob.writeStat h
  · exact h

theorem canonical_execPreempt {frond : Fin 8} {s : State} (h : s.canonical) : CanonicalNext (execPreempt frond s) :=
  .next h.preempt

theorem State.canonical.jobCarry {s : State} {k : Nat} (h : s.canonical) : (s.jobCarry k).canonical := by
  unfold State.jobCarry
  split
  · exact .ite h.carryJob h
  · exact h

theorem canonical_execJobCarry {frond : Fin 8} {s : State} (h : s.canonical) : CanonicalNext (execJobCarry frond s) :=
  .next h.jobCarry

theorem State.canonical.topupResume {s : State} {k : Nat} (h : s.canonical) : (s.topupResume k).canonical := by
  unfold State.topupResume
  split
  · split
    · exact .ite h.putJob h
    · exact h
  · exact h

theorem canonical_execTopupResume {frond : Fin 8} {s : State} (h : s.canonical) : CanonicalNext (execTopupResume frond s) :=
  .next h.topupResume

theorem State.canonical.flushQueue {s : State} {k : Nat} (h : s.canonical) : (s.flushQueue k).canonical :=
  .each h fun _ _ h1 => h1.cancelJob

/-! ### The functions of Sys2Proof/Machine/LedgerTick.lean -/

theorem State.canonical.setSlot {s : State} {k : Nat} {l : List PlanEntry} (h : s.canonical) : (s.setSlot k l).canonical :=
  h.onLdg

theorem State.canonical.replacePlan {s : State} {k : Nat} {l : List PlanEntry} (h : s.canonical) :
    (s.replacePlan k l).canonical :=
  h.count.onSpo.setSlot

theorem State.canonical.onEntry {s : State} {k i : Nat} {g : PlanEntry → PlanEntry} (h : s.canonical) :
    (s.onEntry k i g).canonical :=
  h.setSlot

theorem State.canonical.dropInstance {s : State} {j : Job} (h : s.canonical) : (s.dropInstance j).canonical :=
  h.refund.dropJob.writeStat.wakeVwait.enterWaiting

theorem State.canonical.planSkip {s : State} (h : s.canonical) : s.planSkip.canonical := h.guard.onLdg

theorem State.canonical.planLate {s : State} (h : s.canonical) : s.planLate.canonical := h.guard.onLdg

theorem State.canonical.startEntry {s : State} {k i : Nat} (h : s.canonical) : (s.startEntry k i).canonical := by
  unfold State.startEntry
  extract_lets +onlyGivenNames e
  split
  · exact h
  · exact .ite (.ite h.enterQueue h)
      (.ite h (.ite h.onEntry.dropInstance.planLate.overrunSpore (.ite h.onEntry.enterQueue h.onEntry.updated)))

theorem State.canonical.planEntryStart {s : State} {i : Nat} (h : s.canonical) : (s.planEntryStart i).canonical :=
  .ite h.startEntry h

theorem canonical_execPlanEntryStart {entry : Fin 1024} {s : State} (h : s.canonical) :
    CanonicalNext (execPlanEntryStart entry s) :=
  .next h.planEntryStart

theorem State.canonical.tickRefund {s : State} (h : s.canonical) : s.tickRefund.canonical :=
  .each (.each h fun _ _ h1 => h1.dropInstance) fun _ _ h2 => h2.refund

theorem State.canonical.tickExpire {s : State} (h : s.canonical) : s.tickExpire.canonical := .each h fun _ _ h1 => h1.onAcct

theorem State.canonical.tickAudit {s : State} (h : s.canonical) : s.tickAudit.canonical := by
  unfold State.tickAudit
  extract_lets +onlyGivenNames s1
  have h1 : s1.canonical := by
    unfold s1
    split
    · exact h
    · exact h.setB.putF.raiseMachine
  exact .each h1 fun _ _ h2 => h2.onAcct

theorem State.canonical.tickGrant {s : State} (h : s.canonical) : s.tickGrant.canonical := .each h fun _ _ h1 => h1.onAcct

theorem State.canonical.chargeStrip {s : State} {j : Job} (h : s.canonical) : (s.chargeStrip j).canonical := by
  unfold State.chargeStrip
  split
  · exact h
  · exact .putJob <| .each h fun _ _ h1 => h1.onAcct

theorem State.canonical.readmit {s : State} {j : Job} (h : s.canonical) : (s.readmit j).canonical :=
  .ite (.ite h.deduct.putJob h.deduct.putJob.event.enterQueue) (.ite h.putJob.overrunSpore (.ite h.overrunSpore h.carryJob))

theorem State.canonical.tickCarried {s : State} {before : List Job} (h : s.canonical) : (s.tickCarried before).canonical :=
  .each (.each (.each h fun _ _ h1 => h1.chargeStrip) fun _ _ h2 => h2.putJob) fun _ _ h3 => h3.readmit

theorem State.canonical.swapPlan {s : State} (h : s.canonical) : s.swapPlan.canonical := .ite h.onLdg h

theorem State.canonical.armEntry {s : State} {k i : Nat} (h : s.canonical) : (s.armEntry k i).canonical :=
  .ite h.planSkip (.ite (.ite h.deduct.onLdg.updated.event.writeStat.enterQueue h.deduct.onLdg.updated.event.writeStat.putJob)
    h.deduct.onLdg.updated.event.writeStat.startEntry)

theorem State.canonical.tickPlan {s : State} (h : s.canonical) : s.tickPlan.canonical :=
  .ite (.each h.swapPlan fun _ _ h1 => h1.armEntry) h.swapPlan

theorem State.canonical.tickHeld {s : State} (h : s.canonical) : s.tickHeld.canonical := .each h fun _ _ h1 => .ite h1.enrol h1

theorem State.canonical.tickClose {s : State} (h : s.canonical) : s.tickClose.canonical := h.tickRefund.tickExpire.tickAudit

theorem State.canonical.tickCapture {s : State} (h : s.canonical) : s.tickCapture.canonical := .onLdg <| .ite h h.putF

theorem State.canonical.tickOpen {s : State} {before : List Job} (h : s.canonical) : (s.tickOpen before).canonical :=
  h.tickGrant.tickCarried.tickPlan.tickHeld

theorem State.canonical.deadlineJobs {s : State} (h : s.canonical) : s.deadlineJobs.canonical :=
  .each (.each h fun _ _ h1 => .ite h1.carryJob h1.putJob) fun _ _ h2 => h2.carryJob

/-! ### The functions of Sys2Proof/Machine/Threads.lean -/

theorem State.canonical.drainEntry {s : State} {t : Nat} {e : StoreEntry} (h : s.canonical) :
    CanonicalIf (s.drainEntry t e) := by
  unfold State.drainEntry
  refine .ite ?_ (.some <| .each h fun _ _ h1 => h1.enqueue)
  split
  · exact .none
  next s1 heq =>
    have h2 : s1.canonical := .of_some_eq heq h.enter
    split
    · exact .none
    next s11 _ _ heq1 =>
      have h3 : s11.canonical := .of_fst_eq heq1 h2.writeMem
      exact .some h3

theorem State.canonical.drainList {s : State} {t : Nat} {x : List StoreEntry} (h : s.canonical) :
    CanonicalIf (s.drainList t x) := by
  induction x generalizing s with
  | nil =>
    unfold State.drainList
    exact .some h
  | cons a t' ih =>
    unfold State.drainList
    split
    · exact .none
    next s1 heq =>
      have h1 : s1.canonical := .of_some_eq heq h.drainEntry
      exact ih h1

theorem State.canonical.storeDrain {s : State} {t : Nat} (h : s.canonical) : (s.storeDrain t).canonical := by
  unfold State.storeDrain
  split
  · refine .ite h ?_
    refine .ite h ?_
    split
    · exact h
    next s1 heq1 =>
      exact .of_some_eq heq1 h.onThr.drainList

theorem State.canonical.drainAll {s : State} {t : Nat} (h : s.canonical) : CanonicalIf (s.drainAll t) := by
  unfold State.drainAll
  extract_lets +onlyGivenNames l s0
  have h1 : s0.canonical := h.onThr
  refine .ite ?_ h1.drainList
  split
  · exact .none
  next s1 heq =>
    have h2 : s1.canonical := .of_some_eq heq h1.flushMaster
    exact h2.drainList

theorem State.canonical.engineSeg {s : State} {ans : List RemoteAnswer} {sel pl : Nat} {code : Bool} (h : s.canonical) :
    (s.engineSeg ans sel pl code).1.canonical := by
  unfold State.engineSeg
  refine .fst_ite h ?_
  split
  next s1 _ heq =>
    exact .of_fst_eq heq h.settleAll.readAns
  next s1 _ _ heq =>
    exact .of_fst_eq heq h.settleAll.readAns

theorem State.canonical.taskStopped {s : State} {t : Nat} (h : s.canonical) : (s.taskStopped t).canonical :=
  .each h fun _ _ h1 => h1.endWait

theorem State.canonical.stopThread {s : State} {t : Nat} (h : s.canonical) : (s.stopThread t).canonical := by
  unfold State.stopThread
  split
  · exact h.onThr
  next s1 heq =>
    have h1 : s1.canonical := .of_some_eq heq h.drainAll
    exact .taskStopped <| .ite (.showHalted <| .ite h1.onThr h1.onThr.onPwr) (.ite h1.onThr h1.onThr.onPwr)

theorem canonical_execStoreDrain {t : Tid} {s : State} (h : s.canonical) : CanonicalNext (execStoreDrain t s) :=
  .next <| .ite (.ite h.storeDrain.stopThread h.storeDrain) h

theorem State.canonical.startThread {s : State} {ans : List RemoteAnswer} {t : Nat} (h : s.canonical) :
    (s.startThread ans t).canonical := by
  unfold State.startThread
  refine .ite h ?_
  extract_lets +onlyGivenNames pl sel fresh s1
  have h1 : s1.canonical := h.setB
  split
  next s2 _ heq =>
    have h2 : s2.canonical := .of_fst_eq heq h1.engineSeg
    exact h2.setThr
  next s2 _ _ heq =>
    have h3 : s2.canonical := .of_fst_eq heq h1.engineSeg
    exact h3.setB

theorem State.canonical.stopRequest {s : State} {t : Nat} (h : s.canonical) : (s.stopRequest t).canonical :=
  .ite h (.ite h.onThr h.stopThread)

theorem State.canonical.writeStmCtl {s : State} {ans : List RemoteAnswer} {t : Nat} {v : Word} (h : s.canonical) :
    (s.writeStmCtl ans t v).canonical :=
  .ite h.putF.stopRequest (.ite h.putF.startThread h.putF)

theorem State.canonical.requestHalt {s : State} {threads fronds : List Nat} (h : s.canonical) :
    (s.requestHalt threads fronds).canonical :=
  .produce <| .onDbg <| .bring <| .each (.each h fun _ _ h1 => .ite h1.onThr h1) fun _ _ h2 => h2.onFrd

/-! ### The functions of Sys2Proof/Machine/Trace.lean -/

theorem State.canonical.tracePush {s : State} {b : List Byte} (h : s.canonical) : (s.tracePush b).canonical :=
  .ite h.onDbg h.onDbg.setB

theorem State.canonical.traceSync {s : State} (h : s.canonical) : s.traceSync.canonical := h.tracePush.onDbg

theorem State.canonical.traceOvf {s : State} (h : s.canonical) : s.traceOvf.canonical := .ite h h.tracePush.onDbg.traceSync

theorem State.canonical.tracePacket {s : State} {type sub : Nat} {payload : List Byte} (h : s.canonical) :
    (s.tracePacket type sub payload).canonical :=
  .ite h (.ite h.traceOvf.tracePush.traceSync h.traceOvf.tracePush)

theorem State.canonical.traceTick {s : State} (h : s.canonical) : s.traceTick.canonical := .ite h.tracePacket h

theorem State.canonical.traceMode {s : State} {mode : Nat} (h : s.canonical) : (s.traceMode mode).canonical :=
  .ite h.tracePacket h

theorem State.canonical.traceHalt {s : State} {sub threads fronds : Nat} (h : s.canonical) :
    (s.traceHalt sub threads fronds).canonical :=
  .ite h.tracePacket h

/-! ### The functions of Sys2Proof/Machine/Modes.lean -/

theorem State.canonical.showAlert {s : State} (h : s.canonical) : s.showAlert.canonical := h.setB

theorem State.canonical.modeReached {s : State} (h : s.canonical) : s.modeReached.canonical := .each h fun _ _ h1 => h1.endWait

theorem State.canonical.modeRefused {s : State} {reason : Nat} (h : s.canonical) : (s.modeRefused reason).canonical :=
  .each h fun _ _ h1 => .ite h1.endWait h1.endWait

theorem State.canonical.activatePublished {s : State} {res : List Nat} (h : s.canonical) :
    (s.activatePublished res).canonical :=
  .each h fun _ _ h1 => h1.endWait

theorem State.canonical.enterMode {s : State} {m cause : Nat} (h : s.canonical) : (s.enterMode m cause).canonical :=
  .modeReached <| .sendAdverts <| .traceMode <| .signalHost <| .ite (.onUpd <| .onFw <| .onPwr <| .setB <| .wr <| .ite h.wr h)
    (.onFw <| .onPwr <| .setB <| .wr <| .ite h.wr h)

theorem State.canonical.driveSafe {s : State} {asserted : Bool} (h : s.canonical) : (s.driveSafe asserted).canonical :=
  h.setB.onPwr

theorem State.canonical.safeEntry {s : State} {cause : Nat} (h : s.canonical) : (s.safeEntry cause).canonical :=
  .ite h.onPwr (.modeRefused <| .each h.dropQueued.driveSafe.enterMode.putF.onPwr fun _ _ h1 => h1.stopRequest)

theorem canonical_execSafeEntry {s : State} (h : s.canonical) : CanonicalNext (execSafeEntry s) := by
  unfold execSafeEntry
  refine .next ?_
  split
  · exact .ite (.safeEntry <| .ite h.wr h) h
  · exact h

theorem State.canonical.jobsToConfig {s : State} (h : s.canonical) : s.jobsToConfig.canonical :=
  .each (.each (.each h fun _ _ h1 => h1.dropInstance) fun _ _ h2 => .ite h2.putJob.writeStat h2.putJob) fun _ _ h3 => .ite
    h3.enrol h3

theorem State.canonical.toConfig {s : State} {cause : Nat} (h : s.canonical) : (s.toConfig cause).canonical :=
  h.tickClose.jobsToConfig.onLdg.dropQueued.setB.driveSafe.enterMode.activatePublished

theorem State.canonical.planCheck {s : State} (h : s.canonical) : s.planCheck.1.canonical :=
  .fst_foldl h fun _ _ h1 => .fst_ite h1 h1.replacePlan.onLdg.setB

theorem State.canonical.check1 {s : State} (h : s.canonical) : s.check1.1.canonical := by
  unfold State.check1
  split
  next s2 _ heq =>
    have h1 : s2.canonical := .of_fst_eq heq h.planCheck
    exact .fst_ite h1 h1.setB

theorem State.canonical.transitionChecks {s : State} {target : Nat} (h : s.canonical) :
    (s.transitionChecks target).1.canonical := by
  unfold State.transitionChecks
  refine .fst_ite ?_ (.fst_ite h (.fst_ite h h))
  split
  next s2 _ heq =>
    exact .of_fst_eq heq h.check1

theorem State.canonical.requestMode {s : State} {target : Nat} (h : s.canonical) : (s.requestMode target).canonical := by
  unfold State.requestMode
  extract_lets +onlyGivenNames s0
  have h1 : s0.canonical := h.putF
  refine .ite h1.modeReached ?_
  refine .ite h1.putF.modeRefused ?_
  extract_lets +onlyGivenNames s1
  have h2 : s1.canonical := .ite h1.wr h1
  split
  next s2 heq =>
    have h3 : s2.canonical := .of_fst_eq heq h2.transitionChecks
    exact .ite h3.onPwr.setB (.ite h3.toConfig h3.onPwr.setB)
  next s2 _ _ heq =>
    have h4 : s2.canonical := .of_fst_eq heq h2.transitionChecks
    exact h4.putF.modeRefused

theorem State.canonical.writeModeReq {s : State} {v : Word} (h : s.canonical) : (s.writeModeReq v).1.canonical :=
  .fst_ite h h.requestMode

theorem State.canonical.dueRequest {s : State} (h : s.canonical) : s.dueRequest.1.canonical := by
  unfold State.dueRequest
  split
  · exact h
  · split
    next s2 heq1 =>
      exact .of_fst_eq heq1 h.transitionChecks
    next s2 _ _ heq1 =>
      have h2 : s2.canonical := .of_fst_eq heq1 h.transitionChecks
      exact h2.onPwr.setB.putF.modeRefused

theorem State.canonical.showTemp {s : State} {tj : Int} {sensor : Nat} (h : s.canonical) : (s.showTemp tj sensor).canonical :=
  h.onPwr.wr

theorem State.canonical.setLevel {s : State} {l : Nat} (h : s.canonical) : (s.setLevel l).canonical := h.onPwr.putF.showAlert

theorem State.canonical.thermalRise {s : State} {tj : Int} {sensor : Nat} (h : s.canonical) :
    (s.thermalRise tj sensor).canonical :=
  .ite h (.ite h.showTemp.setLevel.setB.guard h.showTemp)

theorem canonical_execThermalRise {tj : Int} {sensor : Fin 24} {s : State} (h : s.canonical) :
    CanonicalNext (execThermalRise tj sensor s) :=
  .next h.thermalRise

theorem State.canonical.thermalFall {s : State} (h : s.canonical) : s.thermalFall.canonical := .ite h.setLevel.setB h

theorem State.canonical.thermalTrip {s : State} {tj : Int} {sensor : Nat} (h : s.canonical) :
    (s.thermalTrip tj sensor).canonical :=
  .ite h h.thermalRise.safeEntry

theorem canonical_execThermalTrip {tj : Int} {sensor : Fin 24} {s : State} (h : s.canonical) :
    CanonicalNext (execThermalTrip tj sensor s) :=
  .next h.thermalTrip

/-! ### The functions of Sys2Proof/Machine/Bist.lean -/

theorem State.canonical.warn {s : State} {unit : Nat} (h : s.canonical) : (s.warn unit).canonical := h.onBist.setB

theorem State.canonical.cycleEnd {s : State} (h : s.canonical) : s.cycleEnd.canonical :=
  .ite h (.onBist <| .wr <| .setB <| .countW <| .each h fun _ _ h1 => .ite h1 h1.warn)

theorem State.canonical.bistTick {s : State} (h : s.canonical) : s.bistTick.canonical := .ite h.onBist.setB h.onBist

theorem State.canonical.bistLast {s : State} {unit code item : Nat} {fatal : Bool} (h : s.canonical) :
    (s.bistLast unit code item fatal).canonical :=
  h.wr

theorem State.canonical.bistCorrectable {s : State} {unit code item : Nat} (h : s.canonical) :
    (s.bistCorrectable unit code item).canonical :=
  h.count.bistLast.setB.produce

theorem State.canonical.bistFatal {s : State} {unit code item : Nat} (h : s.canonical) :
    (s.bistFatal unit code item).canonical :=
  h.count.bistLast.raiseMachine.onBist

theorem State.canonical.bistPass {s : State} {kind unit item : Nat} (h : s.canonical) : (s.bistPass kind unit item).canonical :=
  h.onBist

theorem State.canonical.bistResult {s : State} {kind unit item : Nat} {r : SliceResult} (h : s.canonical) :
    (s.bistResult kind unit item r).canonical := by
  unfold State.bistResult
  split
  · split
    · exact h.bistPass
    · exact h.onBist
  · extract_lets +onlyGivenNames code s1
    have h1 : s1.canonical := h.onBist
    split
    · exact h1.bistPass.bistCorrectable
    · exact .ite h1.bistFatal (.bistCorrectable <| .ite h1.count h1)

theorem State.canonical.sliceEnd {s : State} (h : s.canonical) : s.sliceEnd.canonical := h.produce.cycleEnd

theorem State.canonical.saveRegion {s : State} {i : Nat} (h : s.canonical) : (s.saveRegion i).canonical := by
  unfold State.saveRegion
  extract_lets +onlyGivenNames b a
  refine .each h (fun _ _ h1 => ?_)
  split
  · exact h1.bankCorrected.setEcc
  · exact h1.bankUncorrectable.setEcc

theorem State.canonical.bankSlice {s : State} {r : SliceResult} (h : s.canonical) : (s.bankSlice r).canonical := by
  unfold State.bankSlice
  refine .ite h ?_
  split
  · exact h
  · exact h.saveRegion.onBist.bistResult.sliceEnd

theorem canonical_execBankSlice {result : SliceResult} {s : State} (h : s.canonical) : CanonicalNext (execBankSlice result s) :=
  .next h.bankSlice

theorem State.canonical.sliceAbort {s : State} {addr : Nat} (h : s.canonical) : (s.sliceAbort addr).canonical := by
  unfold State.sliceAbort
  split
  · exact .ite h (.sliceEnd <| .ite h.saveRegion.count.onBist h.saveRegion.count.onBist.onBist.warn)
  · exact h

theorem canonical_execSliceAbort {addr : Nat} {s : State} (h : s.canonical) : CanonicalNext (execSliceAbort addr s) :=
  .next h.sliceAbort

theorem State.canonical.frondSlice {s : State} {k : Nat} {r : SliceResult} (h : s.canonical) : (s.frondSlice k r).canonical :=
  .ite h.onFrd.onBist.bistResult.sliceEnd h

theorem canonical_execFrondSlice {frond : Fin 8} {result : SliceResult} {s : State} (h : s.canonical) :
    CanonicalNext (execFrondSlice frond result s) :=
  .next h.frondSlice

theorem State.canonical.analogueSlice {s : State} {unit item : Nat} {r : SliceResult} (h : s.canonical) :
    (s.analogueSlice unit item r).canonical :=
  .ite h.onBist.bistResult.sliceEnd h

theorem canonical_execAnalogueSlice {unit : BitVec 8} {item : Nat} {result : SliceResult} {s : State} (h : s.canonical) :
    CanonicalNext (execAnalogueSlice unit item result s) :=
  .next h.analogueSlice

theorem State.canonical.powerUpBist {s : State} {fail : Option (Nat × Nat)} {us : Nat} (h : s.canonical) :
    (s.powerUpBist fail us).canonical := by
  unfold State.powerUpBist
  extract_lets +onlyGivenNames s1
  have h1 : s1.canonical := h.wr
  split
  · exact h1
  · exact h1.wr.count.bistLast

/-! ### The functions of Sys2Proof/Machine/Memctl.lean -/

theorem State.canonical.setBankPower {s : State} {b : Nat} {p : BankPower} (h : s.canonical) : (s.setBankPower b p).canonical :=
  .ite h (.putF <| .setB <| .setB <| .onBank <| .ite h.finishClear h)

theorem State.canonical.bankPowerChange {s : State} {b : Nat} (h : s.canonical) : (s.bankPowerChange b).canonical := by
  unfold State.bankPowerChange
  extract_lets +onlyGivenNames p
  refine .ite h ?_
  extract_lets +onlyGivenNames mine s1
  have h1 : s1.canonical := h.onMtx
  split
  · exact h
  next s11 heq =>
    have h2 : s11.canonical := .of_some_eq heq h1.performAll
    exact h2.setBankPower

theorem canonical_execBankPowerChange {bank : Fin 18} {s : State} (h : s.canonical) :
    CanonicalNext (execBankPowerChange bank s) :=
  .next h.bankPowerChange

theorem State.canonical.bankClear {s : State} {b : Nat} (h : s.canonical) : (s.bankClear b).canonical := .ite h.finishClear h

theorem canonical_execBankClear {bank : Fin 18} {s : State} (h : s.canonical) : CanonicalNext (execBankClear bank s) :=
  .next h.bankClear

theorem State.canonical.writeBack {s : State} {a : Nat} (h : s.canonical) : (s.writeBack a).canonical := by
  unfold State.writeBack
  split
  · exact h.setEcc
  · exact h

theorem State.canonical.bankScrub {s : State} {b : Nat} (h : s.canonical) : (s.bankScrub b).canonical := by
  unfold State.bankScrub
  extract_lets +onlyGivenNames done
  refine .ite h ?_
  extract_lets +onlyGivenNames home k s1 s2
  have h1 : s1.canonical := .each h fun _ _ h2 => h2.writeBack
  have h3 : s2.canonical := h1.onBank.putF
  refine .ite h3 ?_
  extract_lets +onlyGivenNames lines pos n hit s3
  have h4 : s3.canonical := by
    unfold s3
    refine .each h3 (fun _ _ h5 => ?_)
    split
    · exact h5.count.setB.wr.writeBack
    · exact h5.bankUncorrectable
  exact h4.putF

theorem canonical_execBankScrub {bank : Fin 18} {s : State} (h : s.canonical) : CanonicalNext (execBankScrub bank s) :=
  .next h.bankScrub

theorem State.canonical.detect {s : State} {l : List Dimm} {c : Nat} {trained : Bool} (h : s.canonical) :
    (s.detect l c trained).canonical := by
  unfold State.detect
  extract_lets +onlyGivenNames m present s1
  have h1 : s1.canonical := h.putF.setB
  split <;> exact h1.wr

theorem State.canonical.trainAll {s : State} {l : List Dimm} {trained : Bool} (h : s.canonical) :
    (s.trainAll l trained).canonical :=
  .ite (.putF <| .onMem (.putF <| .wr <| .setB <| .setB <| .each h fun _ _ h1 => h1.detect) fun _ h2 => h2) (.putF <| .wr <|
    .setB <| .setB <| .each h fun _ _ h3 => h3.detect)

theorem canonical_execDdrTraining {dimms : List Dimm} {trained : Bool} {s : State} (h : s.canonical) :
    CanonicalNext (execDdrTraining dimms trained s) :=
  .next <| .ite h.trainAll h

theorem canonical_execDdrRefresh {chan : Fin 12} {s : State} (h : s.canonical) : CanonicalNext (execDdrRefresh chan s) :=
  .next <| .ite (.onMem h fun _ h1 => h1) h

theorem State.canonical.dimmTemp {s : State} {c : Nat} {t : BitVec 8} (h : s.canonical) : (s.dimmTemp c t).canonical := by
  unfold State.dimmTemp
  refine .ite h (.ite h.wr (.ite (.guard <| .showAlert <| .each (.onMem h.wr fun _ h1 => h1) fun _ _ h2 => h2.setB)
      (.showAlert <| .each (.onMem h.wr fun _ h3 => h3) fun _ _ h4 => h4.setB)))

theorem canonical_execDimmTempChange {chan : Fin 12} {temp : BitVec 8} {s : State} (h : s.canonical) :
    CanonicalNext (execDimmTempChange chan temp s) :=
  .next h.dimmTemp

theorem State.canonical.ddrRetrain {s : State} {c : Nat} (h : s.canonical) : (s.ddrRetrain c).canonical :=
  .ite h.endRetrain (.ite (.guard <| .setB <| .onMem h fun _ h1 => h1) h)

theorem canonical_execDdrRetrain {chan : Fin 12} {s : State} (h : s.canonical) : CanonicalNext (execDdrRetrain chan s) :=
  .next h.ddrRetrain

theorem State.canonical.readNow {s : State} {w : Who} {a n : Nat} (h : s.canonical) : (s.readNow w a n).1.canonical :=
  h.settleAll.readAns

theorem State.canonical.writeNow {s : State} {w : Who} {a : Nat} {d : List Byte} (h : s.canonical) :
    (s.writeNow w a d).1.canonical :=
  h.settleAll.writeAns

theorem State.canonical.writeDdrCtl {s : State} {c : Nat} {v : Word} (h : s.canonical) : (s.writeDdrCtl c v).canonical :=
  .ite (.onMem h fun _ h1 => h1) h

theorem State.canonical.patrolPass {s : State} (h : s.canonical) : s.patrolPass.canonical :=
  .ite (.countW <| .onMem h fun _ h1 => h1) h

theorem State.canonical.patrolMove {s : State} {sub : Nat} (h : s.canonical) : (s.patrolMove sub).canonical :=
  h.event.event.moved

theorem State.canonical.patrolBack {s : State} {sub : Nat} (h : s.canonical) : (s.patrolBack sub).canonical := by
  unfold State.patrolBack
  split
  · exact h
  · exact .patrolMove <| .onMem (.foldl h fun _ _ h1 => h1.writeBack) fun _ h2 => h2

theorem State.canonical.patrol {s : State} {sub : Nat} {wrong : List (Fin 10)} (h : s.canonical) :
    (s.patrol sub wrong).canonical := by
  unfold State.patrol
  refine .ite h ?_
  extract_lets +onlyGivenNames s0 k p a found _ s1 fix s2
  have h1 : s0.canonical := h.patrolBack.patrolMove
  have h2 : s1.canonical := .updated <| .onMem h1 fun _ h3 => h3
  have h4 : s2.canonical := by
    unfold s2
    clear_value found
    split
    · exact h2.ddrLog
    · exact h2.ddrLog
    · exact h2.ddrLog.setEcc
    · exact .onMem h2.ddrLog fun _ h5 => h5
    · exact .onMem h2.ddrLog.setEcc fun _ h6 => h6
    · exact h2
  exact h4.patrolPass

theorem canonical_execPatrolScrub {sub : Fin 24} {wrong : List (Fin 10)} {s : State} (h : s.canonical) :
    CanonicalNext (execPatrolScrub sub wrong s) :=
  .next h.patrol

/-! ### The functions of Sys2Proof/Machine/Debug.lean -/

theorem State.canonical.authNew {s : State} (h : s.canonical) : s.authNew.canonical :=
  .ite h (.onDbg <| .each h.updated fun _ _ h1 => h1.wr)

theorem State.canonical.showFails {s : State} (h : s.canonical) : s.showFails.canonical := h.putF.setB

theorem State.canonical.authFails {s : State} (h : s.canonical) : s.authFails.canonical :=
  .ite h.onPwr.showFails.setB.setB.onDbg h.onPwr.showFails.setB

theorem State.canonical.authSubmit {s : State} {level : Nat} (h : s.canonical) : (s.authSubmit level).canonical :=
  .ite (.ite h.onDbg h.onDbg.putF) h.onDbg.authFails

theorem State.canonical.authEnd {s : State} (h : s.canonical) : s.authEnd.canonical := h.putF

theorem State.canonical.writeAuth {s : State} {o : Origin} {v : Word} (h : s.canonical) : (s.writeAuth o v).1.canonical :=
  .fst_ite h (.ite (.authNew <| .ite (.authSubmit <| .ite h.authEnd h) (.ite h.authEnd h)) (.ite
    (.authSubmit <| .ite h.authEnd h) (.ite h.authEnd h)))

theorem canonical_execAuthDelayExpire {s : State} (h : s.canonical) : CanonicalNext (execAuthDelayExpire s) :=
  .next <| .ite (.setB <| .ite h.untilTime h.passTb) h

theorem canonical_execTrstN {s : State} (h : s.canonical) : CanonicalNext (execTrstN s) := .next h.authEnd.onDbg

theorem State.canonical.writeHalt {s : State} {o : Origin} {v : Word} (h : s.canonical) : (s.writeHalt o v).1.canonical :=
  .fst_ite h h.requestHalt

theorem State.canonical.noteHalt {s : State} (h : s.canonical) : s.noteHalt.canonical := .ite h.onLdg h

theorem State.canonical.haltDone {s : State} {threads fronds : List Nat} (h : s.canonical) :
    (s.haltDone threads fronds).canonical :=
  h.setB.setB.produce.traceHalt.wdgCheck.noteHalt

theorem State.canonical.haltComplete {s : State} (h : s.canonical) : s.haltComplete.canonical :=
  .ite h (.haltDone <| .onDbg <| .each (.each h fun _ _ h1 => h1.onThr) fun _ _ h2 => h2.onFrd)

theorem canonical_execHaltComplete {s : State} (h : s.canonical) : CanonicalNext (execHaltComplete s) :=
  .next <| .ite h.haltComplete h

theorem State.canonical.release {s : State} {t : Nat} {step : Option Bool} (h : s.canonical) : (s.release t step).canonical :=
  h.onThr

theorem State.canonical.writeResume {s : State} {o : Origin} {v : Word} (h : s.canonical) : (s.writeResume o v).1.canonical :=
  .fst_ite h (.traceHalt <| .showHalted <| .each (.each h fun _ _ h1 => h1.release) fun _ _ h2 => h2.onFrd)

theorem State.canonical.writeStep {s : State} {o : Origin} {v : Word} (h : s.canonical) : (s.writeStep o v).1.canonical :=
  .fst_ite h (.fst_ite h h.release.showHalted)

theorem State.canonical.stepComplete {s : State} {t : Nat} (h : s.canonical) : (s.stepComplete t).canonical :=
  .ite h.produce.onThr.haltDone h

theorem canonical_execStepComplete {t : Tid} {s : State} (h : s.canonical) : CanonicalNext (execStepComplete t s) :=
  .next <| .ite h.stepComplete h

theorem State.canonical.takeHalt {s : State} (h : s.canonical) : s.takeHalt.canonical := .ite h.take.requestHalt h

theorem canonical_execSporeArrive {chan : Fin 256} {s : State} (h : s.canonical) : CanonicalNext (execSporeArrive chan s) :=
  .next <| .ite h.deliver.takeHalt h

theorem State.canonical.tregWrite {s : State} {ans : List RemoteAnswer} {o : Origin} {v : Word} (h : s.canonical) :
    (s.tregWrite ans o v).1.canonical := by
  unfold State.tregWrite
  refine .fst_ite h ?_
  refine .fst_ite h ?_
  split
  · refine .fst_ite h ?_
    split
    · exact h
    · exact h.onThr.wdgCheck
  · exact h.onThr
  · exact h.onThr
  · exact h.onThr
  · exact h.onThr
  · exact h.onThr
  · exact h.onThr
  · exact h
  · exact h.onThr
  · exact h.onThr
  · exact h.onThr
  · exact h.onThr
  · refine .fst_ite ?_ h
    refine .fst_ite h.onThr ?_
    refine .fst_ite h ?_
    split
    next s1 _ heq =>
      have h1 : s1.canonical := .of_fst_eq heq h.engineSeg
      exact h1.onThr
    next s1 heq =>
      exact .of_fst_eq heq h.engineSeg

theorem State.canonical.writeStim {s : State} {o : Origin} {n : Nat} {v : Word} (h : s.canonical) :
    (s.writeStim o n v).1.canonical :=
  .fst_ite h h.tracePacket

theorem State.canonical.writeTrcCtl {s : State} {v : Word} (h : s.canonical) : (s.writeTrcCtl v).1.canonical :=
  .fst_ite h (.ite h.wr.traceSync h.wr)

theorem State.canonical.ringWrite {s : State} {base size x x1 : Nat} {x2 : List Byte} (h : s.canonical) :
    (s.ringWrite base size x x1 x2).canonical := by
  induction x generalizing s x1 x2 with
  | zero =>
    unfold State.ringWrite
    exact h
  | succ n ih =>
    unfold State.ringWrite
    exact .ite h.wr (ih h.post)

theorem State.canonical.traceDrain {s : State} (h : s.canonical) : s.traceDrain.canonical :=
  .ite h (.ite h.onDbg.emit.traceOvf (.ite h h.onDbg.ringWrite.traceOvf))

theorem canonical_execTraceDrain {s : State} (h : s.canonical) : CanonicalNext (execTraceDrain s) := .next h.traceDrain

theorem State.canonical.dbgDone {s : State} {status : Nat} {data : Word} (h : s.canonical) :
    (s.dbgDone status data).canonical :=
  h.onDbg

theorem canonical_execDbgaccCapture {s : State} (h : s.canonical) : CanonicalNext (execDbgaccCapture s) :=
  .next <| .ite h.emit h

theorem State.canonical.writeWdgCtl {s : State} {v : Word} (h : s.canonical) : (s.writeWdgCtl v).canonical :=
  .ite h.setB.wdgCheck (.wdgCheck <| .ite h.setB.setB.updated.wdgReload h.setB.setB.updated)

theorem State.canonical.writeWdgSvc {s : State} {o : Origin} {v : Word} (h : s.canonical) : (s.writeWdgSvc o v).1.canonical :=
  .fst_ite (.ite h.wdgReload h) h.setB

theorem State.canonical.watchdogPrebite {s : State} (h : s.canonical) : s.watchdogPrebite.canonical :=
  .ite h.advance.updated.setB.raiseMachine h

theorem canonical_execWatchdogPrebite {s : State} (h : s.canonical) : CanonicalNext (execWatchdogPrebite s) :=
  .next h.watchdogPrebite

theorem canonical_execWatchdogBite {s : State} (h : s.canonical) : CanonicalNext (execWatchdogBite s) :=
  .next <| .ite h.watchdogPrebite.advance.safeEntry h

theorem State.canonical.setTmr {s : State} {n : Nat} {t : Timer} (h : s.canonical) : (s.setTmr n t).canonical := h.updated.setB

theorem State.canonical.writeTmrCtl {s : State} {n : Nat} {v : Word} (h : s.canonical) : (s.writeTmrCtl n v).1.canonical :=
  .fst_ite h (.fst_ite h.wr.setTmr (.fst_ite h.wr.setTmr h.wr))

theorem State.canonical.timerExpire {s : State} {n : Nat} (h : s.canonical) : (s.timerExpire n).canonical :=
  .ite (.ite h.advance.setB.produce.setTmr h.advance.setB.produce.setTmr) h

theorem canonical_execTimerExpire {n : Fin 4} {s : State} (h : s.canonical) : CanonicalNext (execTimerExpire n s) :=
  .next h.timerExpire

theorem canonical_execPmcFreeze {s : State} (h : s.canonical) : CanonicalNext (execPmcFreeze s) := .next <| .ite h.take.setB h

theorem State.canonical.writePmcCtl {s : State} {v : Word} (h : s.canonical) : (s.writePmcCtl v).canonical :=
  .ite h.wr.clears h.wr

theorem State.canonical.writePmcCount {s : State} {n : Nat} {high : Bool} {v : Word} {amount : Nat} (h : s.canonical) :
    (s.writePmcCount n high v amount).1.canonical :=
  .fst_ite (.fst_ite h (.pmcAdd <| .putF <| .ite h.clears h)) h.wr.pmcAdd

theorem State.canonical.writeBwCtl {s : State} {v : Word} (h : s.canonical) : (s.writeBwCtl v).1.canonical :=
  .fst_ite h (.ite h.wr.openWindow h.wr)

theorem canonical_execBwWindowEnd {s : State} (h : s.canonical) : CanonicalNext (execBwWindowEnd s) :=
  .next <| .ite h.untilTime.closeWindow.onPmc h

theorem canonical_execPmcCounterWrap {n : Fin 64} {s : State} (h : s.canonical) : CanonicalNext (execPmcCounterWrap n s) :=
  .next <| .ite h.advance h

theorem State.canonical.gpioLevel {s : State} {pin : Nat} {level : Bool} (h : s.canonical) :
    (s.gpioLevel pin level).canonical :=
  .ite h (.produce <| .ite h.updated.setB.setB h.updated.setB)

theorem canonical_execGpioEdge {pin : Fin 16} {level : Bool} {s : State} (h : s.canonical) :
    CanonicalNext (execGpioEdge pin level s) :=
  .next <| .ite h.gpioLevel h

theorem State.canonical.driveGpio {s : State} (h : s.canonical) : s.driveGpio.canonical :=
  .each h fun _ _ h1 => .ite h1.gpioLevel h1

theorem canonical_execMgtRefresh {s : State} (h : s.canonical) : CanonicalNext (execMgtRefresh s) := .next <| .ite h.updated h

theorem canonical_execI2cWrite {bytes : List Byte} {s : State} (h : s.canonical) : CanonicalNext (execI2cWrite bytes s) := by
  unfold execI2cWrite
  refine .next ?_
  split
  · exact h.updated
  · exact h

theorem canonical_execI2cRead {s : State} (h : s.canonical) : CanonicalNext (execI2cRead s) := .next <| .ite h.updated.emit h

/-! ### The functions of Sys2Proof/Machine/Update.lean -/

theorem State.canonical.setBoot {s : State} {g : BootCtl → BootCtl} (h : s.canonical) : (s.setBoot g).canonical :=
  h.eraseFlash.setFlash

theorem State.canonical.showUpd {s : State} (h : s.canonical) : s.showUpd.canonical :=
  .ite h.putF.setB.setB.setB.putF.setB.wr.wr h.putF.setB.setB.setB.putF.setB.wr.wr.signalHost

theorem State.canonical.takeStaging {s : State} {x : UpdSource} {th : List Byte} (h : s.canonical) :
    (s.takeStaging x th).canonical :=
  .showUpd <| .onUpd <| .setFlash <| .eraseFlash <| .ite h h.setBoot

theorem State.canonical.lockFor {s : State} {x : UpdSource} {th : List Byte} (h : s.canonical) :
    CanonicalIf (s.lockFor x th) := by
  unfold State.lockFor
  split
  · exact .some h.takeStaging
  · exact .ite .none (.ite (.some h) (.some h.onUpd.showUpd))

theorem State.canonical.dropStaging {s : State} {bit : Option Nat} (h : s.canonical) : (s.dropStaging bit).canonical := by
  unfold State.dropStaging
  extract_lets +onlyGivenNames s1
  have h1 : s1.canonical := h.onUpd
  refine .showUpd ?_
  split
  · exact h1.setB
  · exact h1

theorem State.canonical.detach {s : State} {x : UpdSource} {bit : Option Nat} (h : s.canonical) :
    (s.detach x bit).canonical := by
  unfold State.detach
  refine .ite ?_ h.onUpd.showUpd
  split
  · exact h.onUpd.showUpd
  · exact h.dropStaging

theorem State.canonical.failSource {s : State} {x : UpdSource} (h : s.canonical) : (s.failSource x).canonical :=
  h.onUpd.setB.detach

theorem State.canonical.storeUnits {s : State} {x x1 : Nat} {x2 : List Byte} (h : s.canonical) :
    (s.storeUnits x x1 x2).1.canonical := by
  induction x generalizing s x1 x2 with
  | zero =>
    unfold State.storeUnits
    exact h
  | succ n ih =>
    unfold State.storeUnits
    exact .fst_ite (.fst_ite (ih h) h) (ih h.setFlash.onUpd)

theorem State.canonical.stageBlock {s : State} {x : UpdSource} {o : Nat} {d : List Byte} (h : s.canonical) :
    (s.stageBlock x o d).1.canonical := by
  unfold State.stageBlock
  extract_lets +onlyGivenNames n
  refine .fst_ite h ?_
  refine .fst_ite h ?_
  split
  next s1 heq =>
    have h1 : s1.canonical := .of_fst_eq heq h.storeUnits
    exact h1.onUpd.showUpd
  next s1 heq =>
    have h2 : s1.canonical := .of_fst_eq heq h.storeUnits
    exact h2.failSource

theorem State.canonical.relayDown {s : State} {sub w session : Nat} {payload : List Byte} (h : s.canonical) :
    (s.relayDown sub w session payload).canonical :=
  .each h fun _ _ h1 => h1.queuePacket

theorem State.canonical.relayOut {s : State} (h : s.canonical) : s.relayOut.canonical :=
  .ite (.relayDown <| .each h.onUpd.relayDown fun _ _ h1 => h1.relayDown) h

theorem State.canonical.commitStaging {s : State} (h : s.canonical) : s.commitStaging.1.canonical := by
  unfold State.commitStaging
  split
  · exact h
  · exact h.setBoot.onUpd.setB.showUpd.relayOut

theorem State.canonical.releaseLock {s : State} (h : s.canonical) : s.releaseLock.canonical := .ite h h.dropStaging

theorem canonical_execUpdateLockTimeout {s : State} (h : s.canonical) : CanonicalNext (execUpdateLockTimeout s) :=
  .next <| .ite h.untilTime.releaseLock h

theorem State.canonical.relayAnswer {s : State} {p session status : Nat} (h : s.canonical) :
    (s.relayAnswer p session status).canonical :=
  h.passOn

theorem State.canonical.relayForward {s : State} {k : Packet} (h : s.canonical) : (s.relayForward k).canonical := h.relayDown

theorem State.canonical.relayTaken {s : State} {p : Nat} {k : Packet} {take : State → State} (h : s.canonical)
    (htake : ∀ u : State, u.canonical → (take u).canonical) : (s.relayTaken p k take).canonical :=
  .ite h (.ite h.takeRx.dropPacket (htake _ h))

theorem State.canonical.relayBegin {s : State} {p : Nat} {k : Packet} (h : s.canonical) : (s.relayBegin p k).canonical := by
  unfold State.relayBegin
  extract_lets +onlyGivenNames s0
  have h1 : s0.canonical := h.takeRx
  refine .ite h1.dropPacket ?_
  refine .ite h1.relayForward.relayAnswer ?_
  extract_lets +onlyGivenNames s1
  have h2 : s1.canonical := h1.setB
  split
  next s2 heq =>
    have h3 : s2.canonical := .of_some_eq heq h2.lockFor
    exact h3.relayForward.relayAnswer
  · exact h2.relayForward.relayAnswer

theorem canonical_execRelayBegin {port : Fin 4} {pkt : Packet} {s : State} (h : s.canonical) :
    CanonicalNext (execRelayBegin port pkt s) :=
  .next <| .relayTaken h fun _ h1 => h1.relayBegin

theorem State.canonical.relayBlock {s : State} {p : Nat} {k : Packet} (h : s.canonical) : (s.relayBlock p k).canonical := by
  unfold State.relayBlock
  refine .ite h.takeRx.dropPacket ?_
  refine .ite h.takeRx.relayForward ?_
  split
  next s1 heq =>
    have h1 : s1.canonical := .of_fst_eq heq h.stageBlock
    exact h1.takeRx.relayForward.relayAnswer
  next s1 _ _ heq =>
    have h2 : s1.canonical := .of_fst_eq heq h.stageBlock
    exact h2.takeRx.relayForward

theorem canonical_execRelayBlock {port : Fin 4} {pkt : Packet} {s : State} (h : s.canonical) :
    CanonicalNext (execRelayBlock port pkt s) :=
  .next <| .relayTaken h fun _ h1 => h1.relayBlock

theorem State.canonical.relayCommit {s : State} {p : Nat} {k : Packet} (h : s.canonical) : (s.relayCommit p k).1.canonical := by
  unfold State.relayCommit
  extract_lets +onlyGivenNames s0
  have h1 : s0.canonical := h.takeRx
  refine .fst_ite h1.dropPacket ?_
  refine .fst_ite h1.relayForward.relayAnswer ?_
  refine .fst_ite h1.relayForward.relayAnswer ?_
  refine .fst_ite h1.relayForward.relayAnswer ?_
  split
  next s1 heq =>
    have h2 : s1.canonical := .of_fst_eq heq h1.commitStaging
    exact h2.relayForward.relayAnswer
  next s1 _ heq =>
    have h3 : s1.canonical := .of_fst_eq heq h1.commitStaging
    exact h3.relayForward.relayAnswer

theorem canonical_execRelayResult {port : Fin 4} {pkt : Packet} {s : State} (h : s.canonical) :
    CanonicalNext (execRelayResult port pkt s) :=
  .next <| .relayTaken h fun _ h1 => .ite h1.takeRx.onUpd h1.takeRx.passOn

theorem State.canonical.blow {s : State} {n : Nat} (h : s.canonical) : (s.blow n).canonical := .ite h h.onUpd.setB

theorem State.canonical.writeFuse {s : State} {v : Word} (h : s.canonical) : (s.writeFuse v).1.canonical :=
  .fst_ite h (.fst_ite h h.setB.onUpd)

theorem canonical_execFuseDone {s : State} (h : s.canonical) : CanonicalNext (execFuseDone s) := .next <| .ite h.setB.blow h

theorem State.canonical.writeSettings {s : State} {c : Nat} {x : SettingsCopy} (h : s.canonical) :
    (s.writeSettings c x).canonical :=
  h.eraseFlash.setFlash

theorem State.canonical.useSettings {s : State} {c : Nat} {x : SettingsCopy} (h : s.canonical) :
    (s.useSettings c x).canonical :=
  h.onFw.putF

theorem State.canonical.chooseSettings {s : State} {x : Nat} {convertOk : Bool} (h : s.canonical) :
    CanonicalIf (s.chooseSettings x convertOk) := by
  unfold State.chooseSettings
  extract_lets +onlyGivenNames r
  refine .ite ?_ ?_
  · split
    · exact .none
    · exact .ite (.some h.writeSettings.setBoot.useSettings) .none
  · split <;> exact .some h.useSettings

theorem State.canonical.promote {s : State} (h : s.canonical) : s.promote.canonical :=
  .ite h (.ite h.eraseFlash.setFlash.setFlash.setBoot h.setBoot)

theorem State.canonical.fallBack {s : State} {x event : Nat} (h : s.canonical) : (s.fallBack x event).canonical := h.setBoot

theorem State.canonical.loadImage {s : State} {th plain : List Byte} (h : s.canonical) : (s.loadImage th plain).canonical :=
  h.clearBytes.setBytes.onFw

theorem State.canonical.startT0 {s : State} {th : List Byte} (h : s.canonical) : (s.startT0 th).canonical := h.onThr

theorem State.canonical.bootSlots {s : State} {convertOk : Bool} {fuel : Nat} (h : s.canonical) :
    (s.bootSlots convertOk fuel).1.canonical := by
  induction fuel generalizing s with
  | zero => exact h
  | succ n ih =>
    unfold State.bootSlots
    extract_lets +onlyGivenNames r x
    refine .fst_ite (ih h.fallBack) ?_
    extract_lets +onlyGivenNames hdr plain
    generalize plain = p
    cases p with
    | none =>
      dsimp only
      exact .fst_ite (ih h.setBoot.setBoot) (.pair h.setBoot)
    | some p =>
      dsimp only
      have h1 : (if slotState r x = 2 then s.setBoot (fun r => { r with boots := r.boots + 1 }) else s).canonical :=
        .ite h.setBoot h
      split
      · exact ih (State.canonical.fallBack h1)
      next s2 heq =>
        have h2 : s2.canonical := .of_some_eq heq (State.canonical.chooseSettings (State.canonical.loadImage h1))
        exact .pair (.startT0 (.setB (.ite h2.blow h2)))

theorem State.canonical.showSlot {s : State} {x : Nat} (h : s.canonical) : (s.showSlot x).canonical := h.setB.setB.setB.showUpd

theorem State.canonical.fiddlehead {s : State} {convertOk : Bool} (h : s.canonical) : (s.fiddlehead convertOk).1.canonical := by
  unfold State.fiddlehead
  generalize hr : s.promote.bootSlots convertOk 6 = r
  have h1 : r.1.canonical := hr ▸ h.promote.bootSlots
  obtain ⟨s1, x⟩ := r
  cases x with
  | some x => exact h1.showSlot
  | none => exact h1.onFw.showUpd

theorem State.canonical.confirm {s : State} {x : Nat} (h : s.canonical) : (s.confirm x).canonical := h.setBoot.blow.setB.showUpd

/-! ### The functions of Sys2Proof/Machine/Power.lean -/

theorem State.canonical.resetBy {s : State} {cause vin : Nat} {clear : Bool} (h : s.canonical) :
    (s.resetBy cause clear vin).canonical := by
  have hf : swf flashDefault s.mem.flash = true := (Bool.and_eq_true_iff.mp h.2).2
  exact ⟨swf_sput rfl _ _, Bool.and_eq_true_iff.mpr ⟨rfl, hf⟩⟩

theorem canonical_execVinLoss {s : State} (h : s.canonical) : CanonicalNext (execVinLoss s) := .next h.resetBy

theorem canonical_execPorNReset {s : State} (h : s.canonical) : CanonicalNext (execPorNReset s) := .next <| .ite h h.resetBy

theorem canonical_execRailFault {rail : Fin 5} {s : State} (h : s.canonical) : CanonicalNext (execRailFault rail s) :=
  .next <| .ite h.resetBy h

theorem canonical_execRefclkLoss {s : State} (h : s.canonical) : CanonicalNext (execRefclkLoss s) := .next <| .ite h.resetBy h

theorem State.canonical.fwReset {s : State} (h : s.canonical) : s.fwReset.canonical := h.resetBy

theorem State.canonical.writeRst {s : State} {v : Word} (h : s.canonical) : (s.writeRst v).1.canonical := .fst_ite h.fwReset h

theorem canonical_execVinLow {mv : Nat} {s : State} (h : s.canonical) : CanonicalNext (execVinLow mv s) :=
  .next <| .ite (.showAlert <| .ite h.onPwr.wr.setB (.ite h.onPwr.wr.setB h.onPwr.wr)) h

theorem State.canonical.findFlash {s : State} {mib : Nat} (h : s.canonical) : (s.findFlash mib).canonical := by
  unfold State.findFlash
  extract_lets +onlyGivenNames code
  clear_value code
  split
  · exact .onMem h.wr fun _ h1 => h1
  · exact .onMem h.wr fun _ h2 => h2

theorem State.canonical.railsUp {s : State} {env : PowerEnv} (h : s.canonical) : (s.railsUp env).canonical :=
  .findFlash <| .showFails <| .driveSafe <| .ite h.onPwr.wr.wr.wr.wr.wr.wr h.onPwr.wr.wr.wr.wr.wr

theorem State.canonical.fiddleSafe {s : State} {cause : Nat} (h : s.canonical) : (s.fiddleSafe cause).canonical :=
  h.onFw.safeEntry

theorem State.canonical.fabricRecovery {s : State} (h : s.canonical) : s.fabricRecovery.canonical :=
  .writeFabCtl <| .setB <| .putF <| .each h fun _ _ h1 => h1.putF

theorem State.canonical.bootStart {s : State} {env : PowerEnv} (h : s.canonical) : (s.bootStart env).canonical := by
  unfold State.bootStart
  extract_lets +onlyGivenNames s0
  have h0 : s0.canonical := h.trainAll
  clear_value s0
  split
  · refine .ite h0.fiddleSafe ?_
    generalize hr : s0.fiddlehead env.convertOk = r
    have h1 : r.1.canonical := hr ▸ h0.fiddlehead
    obtain ⟨s1, ok⟩ := r
    cases ok with
    | true => exact h1.driveSafe.enterMode
    | false => exact h1.fiddleSafe
  · exact h0.fiddleSafe
  · exact h0.fabricRecovery.fiddleSafe
  · exact h0.fiddleSafe

theorem State.canonical.powerUp {s : State} {env : PowerEnv} (h : s.canonical) : (s.powerUp env).canonical :=
  .ite h (.ite h.onPwr (.ite h.railsUp.powerUpBist.fiddleSafe h.railsUp.powerUpBist.bootStart))

theorem canonical_execPowerUp {env : PowerEnv} {s : State} (h : s.canonical) : CanonicalNext (execPowerUp env s) :=
  .next h.powerUp

theorem State.canonical.writeClkDiv {s : State} {v : Word} (h : s.canonical) : (s.writeClkDiv v).1.canonical := .fst_ite h.wr h

theorem State.canonical.functionReset {s : State} (h : s.canonical) : s.functionReset.canonical :=
  .onHost <| .each h fun _ _ h1 => h1.setB

theorem State.canonical.setUsb4 {s : State} {up : Bool} {gen : Nat} {pcie : Bool} (h : s.canonical) :
    (s.setUsb4 up gen pcie).canonical :=
  .ite (.functionReset <| .ite h.setB.putF.setB h.setB.putF.setB.setB) (.ite h.setB.putF.setB h.setB.putF.setB.setB)

theorem State.canonical.flushMatrix {s : State} (h : s.canonical) : s.flushMatrix.canonical := by
  unfold State.flushMatrix
  refine .each h (fun _ _ h1 => ?_)
  split
  next s2 heq =>
    exact .of_some_eq heq h1.flushMaster
  · exact h1

theorem State.canonical.selfRefresh {s : State} {on trained : Bool} (h : s.canonical) : (s.selfRefresh on trained).canonical :=
  .ite (.onMem h fun _ h1 => h1)
    (.ite (.onMem h fun _ h2 => h2) (.setB <| .wr <| .setB <| .each (.onMem h fun _ h3 => h3) fun _ _ h4 => h4.setB))

theorem State.canonical.dormantEntry {s : State} (h : s.canonical) : s.dormantEntry.canonical := by
  unfold State.dormantEntry
  split
  · refine .ite h ?_
    refine .ite h.onPwr.setB.putF.modeRefused ?_
    extract_lets +onlyGivenNames s1 s2 s3 s4 s5 s6 s7 emul
    have h1 : s1.canonical := h.releaseLock
    have h2 : s2.canonical := .flushMatrix <| .each h1 fun _ _ h3 => .getD h3.drainAll h3
    have h4 : s3.canonical := h2.enterMode
    have h5 : s4.canonical := .each h4 fun _ _ h6 => h6.linkDown
    have h7 : s5.canonical := .each h5 fun _ _ h8 => h8.setB.setB.onEth
    have h9 : s6.canonical := h7.onIo.setUsb4.selfRefresh
    have h10 : s7.canonical := .each h9 fun _ _ h11 => h11.setBankPower
    exact h10.setB.setB.wdgCheck.onPwr
  · exact h

theorem canonical_execDormantEntry {s : State} (h : s.canonical) : CanonicalNext (execDormantEntry s) := .next h.dormantEntry

theorem State.canonical.wakeUp {s : State} {bit : Nat} {trained : Bool} (h : s.canonical) : (s.wakeUp bit trained).canonical :=
  .wdgCheck <| .enterMode <| .onHost <| .setB <| .selfRefresh <| .each h.setB.setB.setB fun _ _ h1 => h1.setBankPower

theorem State.canonical.passWakeTimer {s : State} (h : s.canonical) : s.passWakeTimer.canonical := h.passTb

theorem canonical_execWake {src : WakeSource} {trained : Bool} {s : State} (h : s.canonical) :
    CanonicalNext (execWake src trained s) :=
  .next <| .ite (.wakeUp <| .ite h.passWakeTimer h) h

theorem canonical_execWakeTimerExpire {s : State} (h : s.canonical) : CanonicalNext (execWakeTimerExpire s) :=
  .next <| .ite h.passWakeTimer.wakeUp h

theorem State.canonical.trialMinute {s : State} (h : s.canonical) : s.trialMinute.canonical := by
  unfold State.trialMinute
  split
  · exact h
  · exact .ite h (.ite h.untilTime.onUpd.setBoot.fallBack.fwReset h.untilTime.onUpd.setBoot.showUpd)

theorem canonical_execTrialMinute {s : State} (h : s.canonical) : CanonicalNext (execTrialMinute s) := .next h.trialMinute

theorem State.canonical.recovered {s : State} (h : s.canonical) : s.recovered.canonical := .ite h.promote.fwReset h

theorem canonical_execRelayCommit {port : Fin 4} {pkt : Packet} {s : State} (h : s.canonical) :
    CanonicalNext (execRelayCommit port pkt s) := by
  unfold execRelayCommit
  refine .next ?_
  refine .relayTaken h (fun _ h1 => ?_)
  split
  next s1 heq =>
    have h2 : s1.canonical := .of_fst_eq heq h1.relayCommit
    exact h2.recovered
  next s1 heq =>
    exact .of_fst_eq heq h1.relayCommit

/-! ### The functions of Sys2Proof/Machine/Tick.lean -/

theorem State.canonical.giveTick {s : State} (h : s.canonical) : s.giveTick.canonical := h.onLdg

theorem State.canonical.untilGen {s : State} {g : Nat} (h : s.canonical) : (s.untilGen g).canonical := .ite h.advance h

theorem State.canonical.generatorTick {s : State} (h : s.canonical) : s.generatorTick.canonical := by
  unfold State.generatorTick
  refine .ite h (.ite h.untilGen.onLdg.keystoneSend.giveTick
      (.ite (.ite h.untilGen.onLdg.keystoneSend.loseSource.giveTick h.untilGen.onLdg.keystoneSend.loseSource)
      h.untilGen.onLdg.keystoneSend))

theorem canonical_execGeneratorTick {s : State} (h : s.canonical) : CanonicalNext (execGeneratorTick s) := .next h.generatorTick

theorem State.canonical.tickInEdge {s : State} {falling : Bool} (h : s.canonical) : (s.tickInEdge falling).canonical :=
  .ite h (.ite (.ite (.ite (.setB <| .ite h.onLdg h) (.ite h.onLdg h)) (.ite (.giveTick <| .keystoneSend <| .ite h.onLdg h)
    (.keystoneSend <| .ite h.onLdg h))) h)

theorem canonical_execTickInEdge {falling : Bool} {s : State} (h : s.canonical) : CanonicalNext (execTickInEdge falling s) :=
  .next h.tickInEdge

theorem State.canonical.windowExpire {s : State} (h : s.canonical) : s.windowExpire.canonical :=
  .ite h (.ite h.until.loseSource.onLdg.giveTick h.until.loseSource.setB.onIo)

theorem canonical_execTickWindowExpire {s : State} (h : s.canonical) : CanonicalNext (execTickWindowExpire s) :=
  .next h.windowExpire

theorem State.canonical.sourceReturn {s : State} (h : s.canonical) : s.sourceReturn.canonical :=
  .ite h (.ite h.onLdg.setB.putF.giveTick h.onLdg.setB.putF)

theorem canonical_execSourceReturn {s : State} (h : s.canonical) : CanonicalNext (execSourceReturn s) := .next h.sourceReturn

theorem State.canonical.writeLdgCtl {s : State} {v : Word} (h : s.canonical) : (s.writeLdgCtl v).canonical :=
  .ite h.wr.setB.putF.onLdg.loseSource h.wr.setB.putF.onLdg

theorem State.canonical.toTick {s : State} (h : s.canonical) : s.toTick.canonical := by
  unfold State.toTick
  extract_lets +onlyGivenNames _ s1
  have h1 : s1.canonical := .ite (.ite h.advance.keystoneSend.giveTick h.advance.keystoneSend) h
  refine .ite ?_ h1
  split
  · exact h1.advance
  · exact h1

theorem State.canonical.commitHold {s : State} (h : s.canonical) : s.commitHold.canonical := .ite h.until.setB h

theorem canonical_execCommitHold {s : State} (h : s.canonical) : CanonicalNext (execCommitHold s) := .next h.commitHold

theorem State.canonical.cutoff {s : State} (h : s.canonical) : s.cutoff.canonical := .ite h.until.onLdg.produce h

theorem canonical_execCutoff {s : State} (h : s.canonical) : CanonicalNext (execCutoff s) := .next h.cutoff

theorem State.canonical.judgeSkip {s : State} (h : s.canonical) : s.judgeSkip.canonical := .ite h.onLdg.guard.count h

theorem State.canonical.deadline {s : State} (h : s.canonical) : s.deadline.canonical :=
  .ite h.cutoff.until.onLdg.produce.judgeSkip.deadlineJobs.compose.twinDigest h

theorem canonical_execDeadline {s : State} (h : s.canonical) : CanonicalNext (execDeadline s) := .next h.deadline

theorem State.canonical.outputTime {s : State} (h : s.canonical) : s.outputTime.canonical :=
  .ite h.deadline.until.onLdg.twinAbsent h

theorem canonical_execOutputTime {s : State} (h : s.canonical) : CanonicalNext (execOutputTime s) := .next h.outputTime

theorem State.canonical.templateRelease {s : State} {t : Nat} (h : s.canonical) : (s.templateRelease t).canonical :=
  .ite (.each h.outputTime fun _ _ h1 => h1.releaseOne) h

theorem canonical_execTemplateRelease {template : Fin 512} {s : State} (h : s.canonical) :
    CanonicalNext (execTemplateRelease template s) :=
  .next h.templateRelease

theorem State.canonical.countTick {s : State} (h : s.canonical) : s.countTick.canonical := by
  unfold State.countTick
  extract_lets +onlyGivenNames frame s1 s2 s3
  have h1 : s1.canonical := h.tickCapture.onLdg
  have h2 : s2.canonical := h1.snapshot.traceTick
  have h3 : s3.canonical := .ite h2.openWindow h2
  exact .ite h3.emit h3

theorem State.canonical.publishSwap {s : State} {was : Bool} (h : s.canonical) : (s.publishSwap was).canonical :=
  .ite h.activatePublished h

theorem State.canonical.fabricMode {s : State} (h : s.canonical) : s.fabricMode.canonical := by
  unfold State.fabricMode
  extract_lets +onlyGivenNames policy
  split
  next s1 _ heq =>
    have h1 : s1.canonical := .of_fst_eq heq h.fabricTick
    exact h1.enterMode
  next s1 heq =>
    exact .of_fst_eq heq h.fabricTick

theorem State.canonical.frameTick {s : State} {enter : Option Nat} (h : s.canonical) : (s.frameTick enter).canonical := by
  unfold State.frameTick
  extract_lets +onlyGivenNames before swap s1 s2 s3 s4 s5
  have h1 : s1.canonical := h.tickClose.countTick
  have h2 : s2.canonical := by
    unfold s2
    split
    · exact h1.enterMode
    · exact h1
  have h3 : s3.canonical := h2.fabricMode.flipImage
  have h4 : s4.canonical := .ite h3 h3.guard
  have h5 : s5.canonical := h4.onIo.produce
  exact h5.tickOpen.publishSwap.thermalFall.bistTick

theorem State.canonical.safeTick {s : State} (h : s.canonical) : s.safeTick.canonical := h.countTick.fabricMode.thermalFall

theorem State.canonical.atTick {s : State} (h : s.canonical) : s.atTick.canonical := by
  unfold State.atTick
  extract_lets +onlyGivenNames s0
  have h1 : s0.canonical := .ite h.onBist.safeEntry h
  refine .ite h1.safeTick ?_
  refine .ite ?_ ?_
  · split
    next s1 heq =>
      have h2 : s1.canonical := .of_fst_eq heq h1.dueRequest
      exact h2.toConfig
    next s1 _ _ heq =>
      have h3 : s1.canonical := .of_fst_eq heq h1.dueRequest
      exact h3.frameTick
  · extract_lets +onlyGivenNames clear
    have h4 : clear.canonical := h1.onLdg
    split
    · exact h4
    · exact h4
    · split
      next s1 _ heq1 =>
        have h5 : s1.canonical := .of_fst_eq heq1 h1.dueRequest
        exact h5.frameTick
      next s1 heq1 =>
        have h6 : s1.canonical := .of_fst_eq heq1 h1.dueRequest
        exact h6.onLdg

theorem State.canonical.tick {s : State} (h : s.canonical) : s.tick.canonical :=
  .ite h (.ite (.atTick <| .toTick <| .ite h.outputTime h) (.toTick <| .ite h.outputTime h))

theorem canonical_execTick {s : State} (h : s.canonical) : CanonicalNext (execTick s) := .next h.tick

/-! ### The functions of Sys2Proof/Machine/Atomics.lean -/

theorem State.canonical.atomicAt {s : State} {machine : Bool} {a op : Nat} {size8 : Bool} {data : List Byte} (h : s.canonical) :
    (s.atomicAt machine a op size8 data).1.canonical := by
  unfold State.atomicAt
  extract_lets +onlyGivenNames w z there
  refine .fst_ite h ?_
  split
  · exact h.busError
  · split
    next s1 _ heq1 =>
      have h1 : s1.canonical := .of_fst_eq heq1 h.readNow
      extract_lets +onlyGivenNames ret
      split
      · exact h1
      · split
        next s11 _ heq3 =>
          exact .of_fst_eq heq3 h1.writeNow
        next s11 _ _ heq3 =>
          exact .of_fst_eq heq3 h1.writeNow
    next s1 _ _ heq1 =>
      exact .of_fst_eq heq1 h.readNow

theorem State.canonical.atomSend {s : State} {n d x op : Nat} {size8 : Bool} {data : List Byte} {machine : Bool}
    (h : s.canonical) : (s.atomSend n d x op size8 data machine).canonical := by
  unfold State.atomSend
  refine .ite ?_ h.request
  split
  next s1 _ _ heq =>
    have h1 : s1.canonical := .of_fst_eq heq h.atomicAt
    exact .ite h1.setB.putF.wr.wr h1.setB.putF

/-! ### The functions of Sys2Proof/Machine/CtlSpace.lean -/

theorem State.canonical.setLatch {s : State} {who off : Nat} {v : Option Word} (h : s.canonical) :
    (s.setLatch who off v).canonical :=
  h.updated

theorem State.canonical.readSide {s : State} {r : RegRow} {off : Nat} (h : s.canonical) : (s.readSide r off).canonical :=
  .ite (.ite h.onThr h) (.ite h h.setReg)

theorem State.canonical.readReg {s : State} {r : RegRow} {who off : Nat} {quiet : Bool} {v : Word} (h : s.canonical) :
    (s.readReg r who off quiet v).1.canonical := by
  unfold State.readReg
  split
  · exact h.setLatch
  · exact .ite (.ite h.setLatch h) (.readSide <| .ite h.setLatch h)

theorem State.canonical.csRead {s : State} {o : Origin} {off size : Nat} (h : s.canonical) :
    (s.csRead o off size).1.canonical := by
  unfold State.csRead
  refine .fst_ite h ?_
  refine .fst_ite h ?_
  split
  · exact h
  · extract_lets +onlyGivenNames secret busy
    refine .fst_ite h ?_
    refine .fst_ite h ?_
    refine .fst_ite ?_ ?_
    · split <;> exact h
    · extract_lets +onlyGivenNames v
      split
      next s1 _ heq1 =>
        exact .of_fst_eq heq1 h.readReg

theorem State.canonical.plain {s : State} {r : RegRow} {off : Nat} {v : Word} (h : s.canonical) : (s.plain r off v).canonical :=
  .ite h.soft h.soft.setReg.updated

theorem State.canonical.refuseIf {c : Bool} {cause : Nat} {s : State} {k : State × Option Nat} (h : s.canonical)
    (hk : k.1.canonical) : (refuseIf c cause s k).1.canonical :=
  .fst_ite h hk

theorem State.canonical.writeLdg {s : State} {r : RegRow} {off : Nat} {v : Word} (h : s.canonical) :
    (s.writeLdg r off v).1.canonical :=
  .refuseIf h (.refuseIf h (.refuseIf h (.fst_ite h.writeLdgCtl h.plain)))

theorem State.canonical.writeFrd {s : State} {r : RegRow} {off : Nat} {v : Word} (h : s.canonical) :
    (s.writeFrd r off v).1.canonical :=
  .ite h.plain.flushQueue h.plain

theorem State.canonical.writeBank {s : State} {r : RegRow} {off : Nat} {v : Word} (h : s.canonical) :
    (s.writeBank r off v).1.canonical :=
  .refuseIf h h.plain

theorem State.canonical.writeDdr {s : State} {r : RegRow} {off : Nat} {v : Word} (h : s.canonical) :
    (s.writeDdr r off v).1.canonical :=
  .fst_ite h.writeDdrCtl h.plain

theorem State.canonical.writeMtx {s : State} {r : RegRow} {off : Nat} {v : Word} (h : s.canonical) :
    (s.writeMtx r off v).1.canonical :=
  .refuseIf h h.plain

theorem State.canonical.writeStm {s : State} {o : Origin} {r : RegRow} {off : Nat} {v : Word} (h : s.canonical) :
    (s.writeStm o r off v).1.canonical :=
  .refuseIf h (.fst_ite (.refuseIf h h.plain) (.fst_ite (.refuseIf h h.writeStmCtl) (.refuseIf h h.plain)))

theorem State.canonical.writeTrapSeg {s : State} {off : Nat} {v : Word} {pl : Nat} {code : Bool} {g : State → SegDesc → State}
    (h : s.canonical) (hg : ∀ (u : State) (x : SegDesc), u.canonical → (g u x).canonical) :
    (s.writeTrapSeg off v pl code g).1.canonical := by
  unfold State.writeTrapSeg
  extract_lets +onlyGivenNames sel
  refine .fst_ite (.setReg <| hg _ _ h) ?_
  split
  next s1 _ heq =>
    have h1 : s1.canonical := .of_fst_eq heq h.engineSeg
    exact .fst_ite (.setReg <| hg _ _ h1) h1
  next s1 heq =>
    exact .of_fst_eq heq h.engineSeg

theorem State.canonical.writeTrp {s : State} {o : Origin} {r : RegRow} {off : Nat} {v : Word} (h : s.canonical) :
    (s.writeTrp o r off v).1.canonical := by
  unfold State.writeTrp
  refine .fst_ite h ?_
  refine .fst_ite (.writeTrapSeg h fun _ _ h1 => h1.updated) (.fst_ite (.writeTrapSeg h fun _ _ h2 => h2.updated)
      (.fst_ite (.writeTrapSeg h fun _ _ h3 => h3.updated) (.fst_ite (.writeTrapSeg h fun _ _ h4 => h4.updated) h.plain)))

theorem State.canonical.writeSpc {s : State} {o : Origin} {r : RegRow} {off : Nat} {v : Word} (h : s.canonical) :
    (s.writeSpc o r off v).1.canonical := by
  unfold State.writeSpc
  refine .fst_of_eq fun q hq => ?_
  extract_lets +onlyGivenNames mo at hq
  subst hq
  refine .fst_ite (.fst_of_eq fun q hq => ?_) ?_
  · extract_lets +onlyGivenNames n at hq
    subst hq
    refine .fst_ite (.refuseIf h (.refuseIf h h.produceNow.plain)) ?_
    exact .fst_ite (.refuseIf h (.refuseIf h h.produceNow.plain)) h
  refine .fst_ite (.refuseIf h (.refuseIf h h.plain)) ?_
  refine .fst_ite (.refuseIf h h.softTrigger) ?_
  refine .fst_ite (.ite h.plain h) ?_
  refine .fst_ite h.plain (.fst_ite h.plain ?_)
  refine .fst_ite (.refuseIf h h.plain) (.fst_ite (.ite h.onEntry h) ?_)
  refine .fst_ite (.fst_of_eq fun q hq => ?_) h.plain
  extract_lets +onlyGivenNames i at hq
  subst hq
  exact .fst_ite h (.fst_ite (.refuseIf h h.plain) (.fst_ite (.ite h.plain h) h))

theorem State.canonical.writeEth {s : State} {r : RegRow} {off : Nat} {v : Word} (h : s.canonical) :
    (s.writeEth r off v).1.canonical :=
  .refuseIf h (.refuseIf h
    (.refuseIf h (.refuseIf h
    (.refuseIf h (.refuseIf h (.fst_ite h.writeEthCtl (.fst_ite h.plain.showSync (.fst_ite h.writeGclCtl h.plain))))))))

theorem State.canonical.writeIob {s : State} {r : RegRow} {off : Nat} {v : Word} (h : s.canonical) :
    (s.writeIob r off v).1.canonical :=
  .refuseIf h (.fst_ite (.ite h.flipImage h) h.plain)

theorem State.canonical.atomGo {s : State} {o : Origin} {n : Nat} {v : Word} (h : s.canonical) :
    (s.atomGo o n v).1.canonical := by
  generalize hr : s.atomGo o n v = r
  generalize hg : State.atomGo = g at hr
  delta State.atomGo at hg
  subst hg
  beta_reduce at hr
  extract_lets +onlyGivenNames a size8 z at hr
  split at hr
  · split at hr
    · exact hr ▸ h
    · split at hr
      · exact hr ▸ h
      · exact hr ▸ h.setB.atomSend
  · exact hr ▸ h

theorem State.canonical.writeLichen {s : State} {o : Origin} {r : RegRow} {off : Nat} {v : Word} (h : s.canonical) :
    (s.writeLichen o r off v).1.canonical := by
  unfold State.writeLichen
  extract_lets +onlyGivenNames mo
  refine .fst_ite ?_ ?_
  · extract_lets +onlyGivenNames n
    refine .refuseIf h ?_
    refine .fst_ite ?_ h.plain
    refine .refuseIf h ?_
    refine .fst_ite ?_ h.plain
    split
    next s1 heq =>
      exact .of_fst_eq heq h.plain.atomGo
    · exact h
  · refine .fst_ite h ?_
    refine .fst_ite (.fst_ite (.refuseIf h h.writeLnkCtl) h.plain) (.fst_ite (.refuseIf h h.writeFabCtl)
        (.fst_ite (.refuseIf h h.plain)
        (.fst_ite (.refuseIf h h.plain) (.fst_ite (.refuseIf h h.plain) (.fst_ite (.refuseIf h h.writeTwin) h.plain)))))

theorem State.canonical.writeHif {s : State} {o : Origin} {r : RegRow} {off : Nat} {v : Word} (h : s.canonical) :
    (s.writeHif o r off v).1.canonical :=
  .fst_ite h (.fst_ite (.fst_ite (.fst_ite h.publish h) (.fst_ite h.setStaging (.fst_ite h.plain h))) (.fst_ite h.msiRequest
    h.plain))

theorem State.canonical.writeUpd {s : State} {o : Origin} {r : RegRow} {off : Nat} {v : Word} (h : s.canonical) :
    (s.writeUpd o r off v).1.canonical :=
  .fst_ite h (.fst_ite h.writeFuse h.plain)

theorem State.canonical.writeBst {s : State} {o : Origin} {r : RegRow} {off : Nat} {v : Word} (h : s.canonical) :
    (s.writeBst o r off v).1.canonical :=
  .fst_ite h (.refuseIf h h.plain)

theorem State.canonical.writeDbg {s : State} {o : Origin} {r : RegRow} {off : Nat} {v : Word} (h : s.canonical) :
    (s.writeDbg o r off v).1.canonical := by
  unfold State.writeDbg
  refine .fst_ite h.writeStim ?_
  refine .fst_ite h.writeAuth ?_
  refine .fst_ite (.refuseIf h h.onDbg) ?_
  refine .fst_ite (.refuseIf h h) ?_
  refine .fst_ite h ?_
  refine .fst_ite h.writeHalt ?_
  refine .fst_ite h.writeResume
      (.fst_ite h.writeStep
      (.fst_ite h.tregWrite
      (.fst_ite h.setReg (.fst_ite (.refuseIf h h.plain) (.fst_ite h.writeTrcCtl (.fst_ite (.refuseIf h h.plain) h.plain))))))

theorem State.canonical.writePmc {s : State} {o : Origin} {r : RegRow} {off : Nat} {v : Word} (h : s.canonical) :
    (s.writePmc o r off v).1.canonical :=
  .fst_ite h (.fst_ite h.writePmcCtl
    (.fst_ite h.writeBwCtl
    (.fst_ite h.plain (.fst_ite (.refuseIf h h.plain) (.fst_ite h.writePmcCount (.fst_ite h.writePmcCount h.plain))))))

theorem State.canonical.writeWdg {s : State} {o : Origin} {r : RegRow} {off : Nat} {v : Word} (h : s.canonical) :
    (s.writeWdg o r off v).1.canonical :=
  .fst_ite h.writeWdgSvc
    (.fst_ite (.refuseIf h (.fst_ite h.writeTmrCtl h.plain))
    (.fst_ite h (.fst_ite h.writeWdgCtl (.fst_ite (.refuseIf h h.plain) h.plain))))

theorem State.canonical.writePwr {s : State} {o : Origin} {r : RegRow} {off : Nat} {v : Word} (h : s.canonical) :
    (s.writePwr o r off v).1.canonical :=
  .fst_ite h (.fst_ite h.writeModeReq (.fst_ite h.writeRst (.fst_ite h.writeClkDiv (.refuseIf h h.plain))))

theorem State.canonical.writeGlb {s : State} {o : Origin} {r : RegRow} {off : Nat} {v : Word} (h : s.canonical) :
    (s.writeGlb o r off v).1.canonical :=
  .refuseIf h (.fst_ite h.soft.driveGpio (.fst_ite h.soft.driveGpio (.fst_ite h.plain.driveGpio h.plain)))

theorem State.canonical.writeBlock {s : State} {o : Origin} {r : RegRow} {off : Nat} {v : Word} (h : s.canonical) :
    (s.writeBlock o r off v).1.canonical := by
  unfold State.writeBlock
  split
  · exact h.writeGlb
  · exact h.writePwr
  · exact h.writeLdg
  · exact h.writeFrd
  · exact h.writeBank
  · exact h.writeDdr
  · exact h.writeMtx
  · exact h.writeStm
  · exact h.writeTrp
  · exact h.writeSpc
  · exact h.writeEth
  · exact h.writeEth
  · exact h.writeIob
  · exact h.writeLichen
  · exact h.writeHif
  · exact h.writeUpd
  · exact h.writeBst
  · exact h.writeDbg
  · exact h.writePmc
  · exact h.writeWdg

theorem State.canonical.csWrite {s : State} {o : Origin} {off size : Nat} {v : Word} (h : s.canonical) :
    (s.csWrite o off size v).1.canonical := by
  unfold State.csWrite
  refine .fst_ite h ?_
  refine .fst_ite h ?_
  split
  · exact h
  · exact .fst_ite h (.fst_ite h h.writeBlock)

theorem State.canonical.bar0Read {s : State} {x : Nat} (h : s.canonical) : (s.bar0Read x).1.canonical := by
  unfold State.bar0Read
  split
  · exact .fst_ite h.readReg h
  · exact h

theorem State.canonical.commandWrite {s : State} {n w : Nat} {v : Word} (h : s.canonical) : (s.commandWrite n w v).canonical :=
  .ite h.setB h.soft

theorem State.canonical.bar0Effect {s : State} {x : Nat} {v : Word} (h : s.canonical) : (s.bar0Effect x v).canonical :=
  .ite (.ite h.commandWrite (.ite h.ring (.ite h.clears h)))
    (.ite (.ite h h.soft) (.ite h.clears (.ite h.clears (.ite h.writeMsix h))))

theorem State.canonical.bar0Write {s : State} {x : Nat} {v : Word} (h : s.canonical) : (s.bar0Write x v).canonical := by
  unfold State.bar0Write
  extract_lets +onlyGivenNames off
  split
  · exact .ite h.bar0Effect h.busError
  · exact h.bar0Effect

theorem State.canonical.ctlRead {s : State} {p : Path} {off size : Nat} (h : s.canonical) :
    (s.ctlRead p off size).1.canonical := by
  cases p with
  | control o => exact h.csRead.accessDone
  | bar0 =>
    refine State.canonical.accessDone ?_
    exact .fst_ite h.bar0Read h

theorem State.canonical.ctlWrite {s : State} {p : Path} {off size : Nat} {v : Word} (h : s.canonical) :
    (s.ctlWrite p off size v).1.canonical := by
  cases p with
  | control o => exact h.csWrite.accessDone
  | bar0 =>
    refine State.canonical.accessDone ?_
    exact .ite h.bar0Write h

/-! ### The functions of Sys2Proof/Machine/Operands.lean -/

theorem State.canonical.gotBind {α β : Type} {r : State × Got α} {k : State → α → State × Got β} (h : r.1.canonical)
    (hk : ∀ (u : State) (x : α), u.canonical → (k u x).1.canonical) : (gotBind r k).1.canonical := by
  unfold Machine.gotBind
  split
  · exact hk _ _ h
  · exact h
  · exact h
  · exact h

theorem State.canonical.gotThen {α : Type} {r : State × Got α} {k : State → α → State × Fate} (h : r.1.canonical)
    (hk : ∀ (u : State) (x : α), u.canonical → (k u x).1.canonical) : (gotThen r k).1.canonical := by
  unfold Machine.gotThen
  split
  · exact hk _ _ h
  · exact h
  · exact h
  · exact h

theorem State.canonical.busRead {s : State} {t a n : Nat} (h : s.canonical) : (s.busRead t a n).1.canonical := by
  unfold State.busRead
  split
  · exact h
  next s1 heq =>
    have h1 : s1.canonical := .of_some_eq heq h.enter
    split
    next s11 _ heq1 =>
      have h2 : s11.canonical := .of_fst_eq heq1 h1.readAns
      extract_lets +onlyGivenNames o
      split
      next s2 _ heq2 =>
        exact .of_fst_eq heq2 h2.ctlRead
      next s2 _ heq2 =>
        have h4 : s2.canonical := .of_fst_eq heq2 h2.ctlRead
        exact h4.busError
      next s2 heq2 =>
        exact .of_fst_eq heq2 h2.ctlRead
    · exact h1.readAns

theorem State.canonical.busWrite {s : State} {t a : Nat} {d : List Byte} (h : s.canonical) :
    (s.busWrite t a d).1.canonical := by
  unfold State.busWrite
  split
  · exact h
  next s1 heq =>
    have h1 : s1.canonical := .of_some_eq heq h.enter
    split
    next s11 _ heq1 =>
      have h2 : s11.canonical := .of_fst_eq heq1 h1.writeAns
      extract_lets +onlyGivenNames o v
      split
      · exact h2
      · split
        next s12 heq3 =>
          exact .of_fst_eq heq3 h2.ctlWrite
        next s12 _ heq3 =>
          have h4 : s12.canonical := .of_fst_eq heq3 h2.ctlWrite
          exact h4.busError
    · exact h1.writeAns

theorem State.canonical.accGot {r : State × AccRes} {faddr high : Nat} {write : Bool} (h : r.1.canonical) :
    (accGot r faddr high write).1.canonical := by
  unfold Machine.accGot
  split <;> exact h

theorem State.canonical.splitCheck {s u : State} {t a n c : Nat} {write : Bool} (h : s.canonical)
    (he : s.splitCheck t a n write = some (u, c)) : u.canonical := by
  unfold State.splitCheck at he
  split at he
  · cases he
  · split at he
    · cases he
    · cases he; exact h.refuse

theorem State.canonical.stemLoad {s : State} {t seg ea n : Nat} (h : s.canonical) : (s.stemLoad t seg ea n).1.canonical := by
  unfold State.stemLoad
  extract_lets +onlyGivenNames h' g
  refine .fst_ite h ?_
  extract_lets +onlyGivenNames a
  split
  next s1 _ heq =>
    exact h.splitCheck heq
  · split
    · exact h
    · split
      · exact h
      next s1 heq2 =>
        have h2 : s1.canonical := .of_some_eq heq2 h.drainAll
        exact h2.busRead.accGot
    · split
      · split
        · exact h
        next s1 heq3 =>
          have h3 : s1.canonical := .of_some_eq heq3 h.drainAll
          exact h3.busRead.accGot
      · exact h.busRead.accGot

theorem State.canonical.storeAt {s : State} {t a ea : Nat} {d : List Byte} (h : s.canonical) :
    (s.storeAt t a ea d).1.canonical := by
  unfold State.storeAt
  refine .fst_ite ?_ ?_
  · split
    next s1 _ heq =>
      exact h.splitCheck heq
    · split
      · exact h
      next s1 heq1 =>
        have h2 : s1.canonical := .of_some_eq heq1 h.drainAll
        exact .gotBind h2.busWrite.accGot fun _ _ h3 => h3
  · split
    · exact h.refuse
    · extract_lets +onlyGivenNames es
      refine .fst_ite h.onThr ?_
      split
      · exact h
      next s1 heq1 =>
        have h4 : s1.canonical := .of_some_eq heq1 h.drainAll
        exact h4.onThr

theorem State.canonical.stemStore {s : State} {t seg ea : Nat} {d : List Byte} (h : s.canonical) :
    (s.stemStore t seg ea d).1.canonical :=
  .fst_ite h h.storeAt

theorem State.canonical.operandR {s : State} {t : Nat} {f : Operand} {sign : Bool} (h : s.canonical) :
    (s.operandR t f sign).1.canonical :=
  .fst_ite h (.gotBind h.stemLoad fun _ _ h1 => h1)

/-! ### The functions of Sys2Proof/Machine/Trap.lean -/

theorem State.canonical.segLoad {s : State} {t sel pl faddr detail : Nat} {code : Bool} (h : s.canonical) :
    (s.segLoad t sel pl faddr detail code).1.canonical :=
  .fst_ite h (.fst_ite h (.gotBind h.busRead.accGot fun _ _ h1 => .fst_ite h1 h1))

theorem State.canonical.lockUp {s : State} {t num step l : Nat} (h : s.canonical) : (s.lockUp t num step l).canonical :=
  .ite h.onThr.wr.onPwr.raiseMachine.onPwr h.onThr.wr.onPwr.raiseMachine

theorem State.canonical.pushFrame {s : State} {t l off : Nat} {d : List (List Nat)} (h : s.canonical) :
    (s.pushFrame t l off d).1.canonical := by
  induction d generalizing s off with
  | nil => exact h
  | cons a d ih =>
    unfold State.pushFrame
    extract_lets +onlyGivenNames g
    refine .fst_ite h ?_
    split
    next s1 _ heq => exact ih (.of_fst_eq heq h.busWrite)
    next s1 _ heq => exact .of_fst_eq heq h.busWrite
    next s1 _ _ _ _ _ heq => exact .of_fst_eq heq h.busWrite
    next s1 _ _ _ _ heq => exact .of_fst_eq heq h.busWrite

theorem State.canonical.vector {s : State} {t l num : Nat} (h : s.canonical) : (s.vector t l num).1.canonical := by
  unfold State.vector
  extract_lets +onlyGivenNames g off
  refine .fst_ite h ?_
  split
  next s1 _ heq =>
    exact .of_fst_eq heq h.busRead
  next s1 _ heq =>
    exact .of_fst_eq heq h.busRead
  next s1 _ _ _ _ _ heq =>
    exact .of_fst_eq heq h.busRead
  next s1 _ _ _ _ heq =>
    exact .of_fst_eq heq h.busRead

theorem State.canonical.enterHandler {s : State} {t l : Nat} {pc : Word} (h : s.canonical) :
    (s.enterHandler t l pc).canonical :=
  h.onThr

theorem State.canonical.enterTrap {s : State} {t num faddr detail nominal : Nat} {pc : Word} (h : s.canonical) :
    (s.enterTrap t num faddr detail nominal pc).1.canonical := by
  unfold State.enterTrap
  extract_lets +onlyGivenNames h' l
  split
  · exact h
  next s1 heq =>
    have h1 : s1.canonical := .of_some_eq heq h.drainAll
    extract_lets +onlyGivenNames s1' tsp locked
    have h2 : s1'.canonical := h1.onThr
    refine .fst_ite h2.lockUp ?_
    refine .fst_ite h2.lockUp ?_
    refine .gotThen h2.pushFrame (fun _ _ h3 => ?_)
    refine .fst_ite h3.lockUp ?_
    refine .fst_ite h3.lockUp ?_
    refine .gotThen h3.vector (fun _ _ h4 => ?_)
    split
    · exact h4.lockUp
    · exact .fst_ite h4.lockUp h4.enterHandler

theorem State.canonical.redeliver {s : State} (h : s.canonical) : s.redeliver.canonical := by
  unfold State.redeliver
  refine .foldl h (fun _ _ h1 => ?_)
  refine .ite ?_ h1
  extract_lets +onlyGivenNames first dest
  clear_value dest
  split
  · exact h1.updated.onThr
  · exact h1

theorem State.canonical.takeEvent {s : State} {t num faddr detail nominal : Nat} (h : s.canonical) :
    (s.takeEvent t num faddr detail nominal).1.canonical := by
  unfold State.takeEvent
  extract_lets +onlyGivenNames h' s1
  have h1 : s1.canonical := by
    unfold s1
    split
    · exact h.setThr
    · exact h.setThr
    · exact h
  exact h1.enterTrap

theorem State.canonical.ended {s : State} {r : State × Fate} {t : Nat} {i : Instr} (h : s.canonical) (hr : r.1.canonical) :
    (s.ended r t i).canonical := by
  unfold State.ended
  split
  · exact hr
  · exact h.onFab.queuePacket.onThr
  · exact h

theorem State.canonical.nextEvent {s : State} {t : Nat} (h : s.canonical) : (s.nextEvent t).1.canonical := by
  unfold State.nextEvent
  extract_lets +onlyGivenNames h'
  split
  · split
    · extract_lets +onlyGivenNames s0 s1
      have h1 : s0.canonical := h.onThr
      have h2 : s1.canonical := .ite h1.onPwr h1
      split
      next s2 heq2 =>
        have h3 : s2.canonical := .of_fst_eq heq2 h2.takeEvent
        exact .ite h3.logEvent h3
      · exact h2.takeEvent
  · refine .fst_ite h ?_
    split
    · exact h.onThr.takeEvent
    · refine .fst_ite h ?_
      split
      · exact h
      · extract_lets +onlyGivenNames reg s1
        have h4 : s1.canonical := .ite h.take h
        split
        next s2 heq3 =>
          have h5 : s2.canonical := .of_fst_eq heq3 h4.takeEvent
          exact .ite h5.logEvent h5
        · exact h4.takeEvent

theorem State.canonical.trapEntry {s : State} {t : Tid} (h : s.canonical) : (s.trapEntry t).canonical :=
  .ite (h.redeliver.ended h.redeliver.nextEvent) h.redeliver

theorem canonical_execTrapEntry {t : Tid} {s : State} (h : s.canonical) : CanonicalNext (execTrapEntry t s) := .next h.trapEntry

/-! ### The functions of Sys2Proof/Machine/StemIssue.lean -/

theorem State.canonical.logFetch {s : State} {t pc : Nat} {f : Nat × Nat} (h : s.canonical) : (s.logFetch t pc f).canonical :=
  .ite h.busError h

theorem State.canonical.fetchSlot {s : State} {t pc : Nat} (h : s.canonical) : (s.fetchSlot t pc).1.canonical := by
  unfold State.fetchSlot
  split
  · exact h
  · split
    next s1 _ heq1 =>
      exact .of_fst_eq heq1 h.readMem
    next s1 heq1 =>
      exact .of_fst_eq heq1 h.readMem
    next s1 _ _ _ heq1 =>
      exact .of_fst_eq heq1 h.readMem

theorem State.canonical.fetch {s : State} (h : s.canonical) : s.fetch.canonical := by
  unfold State.fetch
  split
  · exact h
  · extract_lets +onlyGivenNames pc
    split
    next s3 _ heq1 =>
      have h1 : s3.canonical := .of_fst_eq heq1 h.fetchSlot
      extract_lets +onlyGivenNames s2
      have h2 : s2.canonical := h1.onThr
      refine .ite ?_ h2
      split
      next s31 _ heq2 =>
        have h3 : s31.canonical := .of_fst_eq heq2 h2.fetchSlot
        exact h3.onThr

theorem canonical_execFetch {s : State} (h : s.canonical) : CanonicalNext (execFetch s) := .next <| .ite h.fetch h

theorem State.canonical.stepEnd {s : State} {t : Nat} {instrEnd : Bool} (h : s.canonical) : (s.stepEnd t instrEnd).canonical :=
  h.onThr

theorem State.canonical.retired {s : State} {t : Nat} {instrEnd : Bool} (h : s.canonical) : (s.retired t instrEnd).canonical :=
  .ite h.onThr.stepEnd.event.stopThread h.onThr.stepEnd.event

theorem State.canonical.instrTrap {s : State} {t num faddr detail : Nat} (h : s.canonical) :
    (s.instrTrap t num faddr detail).1.canonical :=
  h.enterTrap

theorem State.canonical.finish {s : State} {t : Nat} {i : Instr} {next : Nat} {r : State × Fate} (h : s.canonical)
    (hr : r.1.canonical) : (s.finish t i next r).canonical := by
  unfold State.finish
  split
  · exact .retired <| .onThr hr
  · exact .retired <| .onThr hr
  · exact .retired hr
  · exact .retired <| .requestHalt hr
  · refine .ended h ?_
    split
    next s2 heq =>
      have h1 : s2.canonical := .of_fst_eq heq (.instrTrap hr)
      exact h1.retired
    · exact .instrTrap hr
  · exact h
  · exact .ended h h

theorem State.canonical.fetchTrap {s : State} {t : Nat} {i : Instr} {at_ : Nat} {f : Nat × Nat} (h : s.canonical) :
    CanonicalNext (s.fetchTrap t i at_ f) :=
  .next <| .finish h.logFetch h.logFetch

theorem State.canonical.issue {s : State} {t : Tid} {op : Nat} {f : Operand} {i : Instr} {body : State → State × Fate}
    (h : s.canonical) (hbody : ∀ u : State, u.canonical → (body u).1.canonical) : CanonicalNext (s.issue t op f i body) := by
  unfold State.issue
  extract_lets +onlyGivenNames k pc run
  refine .ite (.next h) ?_
  split
  · exact .next h
  · exact h.fetchTrap
  · refine .ite (.next h) ?_
    refine .ite (.next <| .finish h h) ?_
    refine .ite (.next <| .finish h (hbody _ h)) ?_
    split
    · exact .next h
    · exact h.fetchTrap
    · exact .ite (.next <| .finish h (hbody _ h)) (.next h)

theorem State.canonical.done {s : State} {t : Nat} {f : Operand} {g : Thread → Thread} (h : s.canonical) :
    (s.done t f g).1.canonical :=
  h.onThr

theorem State.canonical.transfer {s : State} {target : Nat} (h : s.canonical) : (s.transfer target).1.canonical := .fst_ite h h

theorem canonical_execIllegal {t : Tid} {w : Word} {s : State} (h : s.canonical) : CanonicalNext (execIllegal t w s) := by
  unfold execIllegal
  extract_lets +onlyGivenNames k i pc
  refine .ite (.next h) ?_
  split
  · exact .next h
  · exact h.fetchTrap
  · exact .ite (.next <| .finish h h) (.next h)

theorem State.canonical.waitWake {s : State} {t : Nat} (h : s.canonical) : (s.waitWake t).canonical :=
  .ite h.take.onThr.stepEnd h

theorem canonical_execWaitWake {t : Tid} {s : State} (h : s.canonical) : CanonicalNext (execWaitWake t s) := .next h.waitWake

theorem State.canonical.sleepExpire {s : State} {t : Nat} (h : s.canonical) : (s.sleepExpire t).canonical := by
  unfold State.sleepExpire
  split
  · exact .ite h.until.onThr.stepEnd h
  · exact h

theorem canonical_execSleepExpire {t : Tid} {s : State} (h : s.canonical) : CanonicalNext (execSleepExpire t s) :=
  .next h.sleepExpire

/-! ### The functions of Sys2Proof/Machine/StemAlu.lean -/

theorem State.canonical.putAcc {s : State} {t : Tid} {f : Operand} {r : Word × Flags} {canTrap : Bool} (h : s.canonical) :
    (s.putAcc t f r canTrap).1.canonical :=
  .fst_ite h h.done

theorem State.canonical.alu {s : State} {t : Tid} {f : Operand} {canTrap : Bool} {g : Thread → Word → Word × Flags}
    (h : s.canonical) : (s.alu t f canTrap g).1.canonical :=
  .gotThen h.operandR fun _ _ h1 => h1.putAcc

theorem State.canonical.compare {s : State} {t : Tid} {f : Operand} {g : Thread → Word → Flags} (h : s.canonical) :
    (s.compare t f g).1.canonical :=
  .gotThen h.operandR fun _ _ h1 => h1.done

theorem State.canonical.logic {s : State} {t : Tid} {f : Operand} {g : Word → Word → Word} (h : s.canonical) :
    (s.logic t f g).1.canonical :=
  h.alu

theorem State.canonical.multiply {s : State} {t : Tid} {f : Operand} {signed : Bool} (h : s.canonical) :
    (s.multiply t f signed).1.canonical :=
  .gotThen h.operandR fun _ _ h1 => h1.done

theorem State.canonical.divide {s : State} {t : Tid} {f : Operand} {signed : Bool} (h : s.canonical) :
    (s.divide t f signed).1.canonical :=
  .gotThen h.operandR fun _ _ h1 => .fst_ite h1 (.fst_ite h1 h1.done)

theorem State.canonical.shift {s : State} {t : Tid} {f : Operand} {op : ShiftOp} (h : s.canonical) :
    (s.shift t f op).1.canonical :=
  h.alu

theorem State.canonical.addReg {s : State} {t : Tid} {f : Operand} {g : Thread → Word → Thread} (h : s.canonical) :
    (s.addReg t f g).1.canonical :=
  .gotThen h.operandR fun _ _ h1 => h1.done

theorem canonical_execAdd {t : Tid} {f : Operand} {s : State} (h : s.canonical) : CanonicalNext (execAdd t f s) :=
  State.canonical.issue h fun _ h1 => h1.alu

theorem canonical_execAdc {t : Tid} {f : Operand} {s : State} (h : s.canonical) : CanonicalNext (execAdc t f s) :=
  State.canonical.issue h fun _ h1 => h1.alu

theorem canonical_execSub {t : Tid} {f : Operand} {s : State} (h : s.canonical) : CanonicalNext (execSub t f s) :=
  State.canonical.issue h fun _ h1 => h1.alu

theorem canonical_execSbc {t : Tid} {f : Operand} {s : State} (h : s.canonical) : CanonicalNext (execSbc t f s) :=
  State.canonical.issue h fun _ h1 => h1.alu

theorem canonical_execAnd {t : Tid} {f : Operand} {s : State} (h : s.canonical) : CanonicalNext (execAnd t f s) :=
  State.canonical.issue h fun _ h1 => h1.logic

theorem canonical_execOr {t : Tid} {f : Operand} {s : State} (h : s.canonical) : CanonicalNext (execOr t f s) :=
  State.canonical.issue h fun _ h1 => h1.logic

theorem canonical_execXor {t : Tid} {f : Operand} {s : State} (h : s.canonical) : CanonicalNext (execXor t f s) :=
  State.canonical.issue h fun _ h1 => h1.logic

theorem canonical_execCmp {t : Tid} {f : Operand} {s : State} (h : s.canonical) : CanonicalNext (execCmp t f s) :=
  State.canonical.issue h fun _ h1 => h1.compare

theorem canonical_execTst {t : Tid} {f : Operand} {s : State} (h : s.canonical) : CanonicalNext (execTst t f s) :=
  State.canonical.issue h fun _ h1 => h1.compare

theorem canonical_execAddx {t : Tid} {f : Operand} {s : State} (h : s.canonical) : CanonicalNext (execAddx t f s) :=
  State.canonical.issue h fun _ h1 => h1.addReg

theorem canonical_execAddy {t : Tid} {f : Operand} {s : State} (h : s.canonical) : CanonicalNext (execAddy t f s) :=
  State.canonical.issue h fun _ h1 => h1.addReg

theorem canonical_execCmpx {t : Tid} {f : Operand} {s : State} (h : s.canonical) : CanonicalNext (execCmpx t f s) :=
  State.canonical.issue h fun _ h1 => h1.compare

theorem canonical_execCmpy {t : Tid} {f : Operand} {s : State} (h : s.canonical) : CanonicalNext (execCmpy t f s) :=
  State.canonical.issue h fun _ h1 => h1.compare

theorem canonical_execMul {t : Tid} {f : Operand} {s : State} (h : s.canonical) : CanonicalNext (execMul t f s) :=
  State.canonical.issue h fun _ h1 => h1.multiply

theorem canonical_execMulu {t : Tid} {f : Operand} {s : State} (h : s.canonical) : CanonicalNext (execMulu t f s) :=
  State.canonical.issue h fun _ h1 => h1.multiply

theorem canonical_execDiv {t : Tid} {f : Operand} {s : State} (h : s.canonical) : CanonicalNext (execDiv t f s) :=
  State.canonical.issue h fun _ h1 => h1.divide

theorem canonical_execDivu {t : Tid} {f : Operand} {s : State} (h : s.canonical) : CanonicalNext (execDivu t f s) :=
  State.canonical.issue h fun _ h1 => h1.divide

theorem canonical_execMull {t : Tid} {f : Operand} {s : State} (h : s.canonical) : CanonicalNext (execMull t f s) :=
  State.canonical.issue h fun _ h1 => h1.alu

theorem canonical_execShl {t : Tid} {f : Operand} {s : State} (h : s.canonical) : CanonicalNext (execShl t f s) :=
  State.canonical.issue h fun _ h1 => h1.shift

theorem canonical_execShr {t : Tid} {f : Operand} {s : State} (h : s.canonical) : CanonicalNext (execShr t f s) :=
  State.canonical.issue h fun _ h1 => h1.shift

theorem canonical_execSar {t : Tid} {f : Operand} {s : State} (h : s.canonical) : CanonicalNext (execSar t f s) :=
  State.canonical.issue h fun _ h1 => h1.shift

theorem canonical_execRol {t : Tid} {f : Operand} {s : State} (h : s.canonical) : CanonicalNext (execRol t f s) :=
  State.canonical.issue h fun _ h1 => h1.shift

theorem canonical_execRor {t : Tid} {f : Operand} {s : State} (h : s.canonical) : CanonicalNext (execRor t f s) :=
  State.canonical.issue h fun _ h1 => h1.shift

theorem canonical_execNeg {t : Tid} {f : Operand} {s : State} (h : s.canonical) : CanonicalNext (execNeg t f s) :=
  State.canonical.issue h fun _ h1 => h1.putAcc

theorem canonical_execNot {t : Tid} {f : Operand} {s : State} (h : s.canonical) : CanonicalNext (execNot t f s) :=
  State.canonical.issue h fun _ h1 => h1.putAcc

theorem canonical_execAbs {t : Tid} {f : Operand} {s : State} (h : s.canonical) : CanonicalNext (execAbs t f s) :=
  State.canonical.issue h fun _ h1 => h1.putAcc

theorem canonical_execSwapb {t : Tid} {f : Operand} {s : State} (h : s.canonical) : CanonicalNext (execSwapb t f s) :=
  State.canonical.issue h fun _ h1 => h1.putAcc

theorem canonical_execClz {t : Tid} {f : Operand} {s : State} (h : s.canonical) : CanonicalNext (execClz t f s) :=
  State.canonical.issue h fun _ h1 => h1.putAcc

/-! ### The functions of Sys2Proof/Machine/StemJump.lean -/

theorem State.canonical.jumpIf {s : State} {t : Tid} {f : Operand} {c : Thread → Bool} (h : s.canonical) :
    (s.jumpIf t f c).1.canonical :=
  .fst_ite h.transfer h

theorem State.canonical.call {s : State} {t : Tid} {f : Operand} (h : s.canonical) : (s.call t f).1.canonical :=
  .fst_ite h (.gotThen h.stemStore fun _ _ h1 => h1.onThr)

theorem State.canonical.ret {s : State} {t : Tid} (h : s.canonical) : (s.ret t).1.canonical :=
  .gotThen h.stemLoad fun _ _ h1 => .fst_ite h1 h1.onThr

theorem State.canonical.jumpX {s : State} {t : Tid} {f : Operand} (h : s.canonical) : (s.jumpX t f).1.canonical :=
  .fst_ite h h.onThr

theorem State.canonical.loopStart {s : State} {t : Tid} {f : Operand} (h : s.canonical) : (s.loopStart t f).1.canonical :=
  .fst_ite h (.fst_ite h h.onThr)

theorem State.canonical.loopExit {s : State} {t : Tid} (h : s.canonical) : (s.loopExit t).1.canonical := .fst_ite h h.onThr

theorem canonical_execJmp {t : Tid} {f : Operand} {s : State} (h : s.canonical) : CanonicalNext (execJmp t f s) :=
  State.canonical.issue h fun _ h1 => h1.jumpIf

theorem canonical_execJeq {t : Tid} {f : Operand} {s : State} (h : s.canonical) : CanonicalNext (execJeq t f s) :=
  State.canonical.issue h fun _ h1 => h1.jumpIf

theorem canonical_execJne {t : Tid} {f : Operand} {s : State} (h : s.canonical) : CanonicalNext (execJne t f s) :=
  State.canonical.issue h fun _ h1 => h1.jumpIf

theorem canonical_execJlt {t : Tid} {f : Operand} {s : State} (h : s.canonical) : CanonicalNext (execJlt t f s) :=
  State.canonical.issue h fun _ h1 => h1.jumpIf

theorem canonical_execJge {t : Tid} {f : Operand} {s : State} (h : s.canonical) : CanonicalNext (execJge t f s) :=
  State.canonical.issue h fun _ h1 => h1.jumpIf

theorem canonical_execJltu {t : Tid} {f : Operand} {s : State} (h : s.canonical) : CanonicalNext (execJltu t f s) :=
  State.canonical.issue h fun _ h1 => h1.jumpIf

theorem canonical_execJgeu {t : Tid} {f : Operand} {s : State} (h : s.canonical) : CanonicalNext (execJgeu t f s) :=
  State.canonical.issue h fun _ h1 => h1.jumpIf

theorem canonical_execJvs {t : Tid} {f : Operand} {s : State} (h : s.canonical) : CanonicalNext (execJvs t f s) :=
  State.canonical.issue h fun _ h1 => h1.jumpIf

theorem canonical_execJvc {t : Tid} {f : Operand} {s : State} (h : s.canonical) : CanonicalNext (execJvc t f s) :=
  State.canonical.issue h fun _ h1 => h1.jumpIf

theorem canonical_execJmi {t : Tid} {f : Operand} {s : State} (h : s.canonical) : CanonicalNext (execJmi t f s) :=
  State.canonical.issue h fun _ h1 => h1.jumpIf

theorem canonical_execJpl {t : Tid} {f : Operand} {s : State} (h : s.canonical) : CanonicalNext (execJpl t f s) :=
  State.canonical.issue h fun _ h1 => h1.jumpIf

theorem canonical_execCall {t : Tid} {f : Operand} {s : State} (h : s.canonical) : CanonicalNext (execCall t f s) :=
  State.canonical.issue h fun _ h1 => h1.call

theorem canonical_execRet {t : Tid} {f : Operand} {s : State} (h : s.canonical) : CanonicalNext (execRet t f s) :=
  State.canonical.issue h fun _ h1 => h1.ret

theorem canonical_execJxnz {t : Tid} {f : Operand} {s : State} (h : s.canonical) : CanonicalNext (execJxnz t f s) :=
  State.canonical.issue h fun _ h1 => h1.jumpX

theorem canonical_execLoop {t : Tid} {f : Operand} {s : State} (h : s.canonical) : CanonicalNext (execLoop t f s) :=
  State.canonical.issue h fun _ h1 => h1.loopStart

theorem canonical_execLexit {t : Tid} {f : Operand} {s : State} (h : s.canonical) : CanonicalNext (execLexit t f s) :=
  State.canonical.issue h fun _ h1 => h1.loopExit

/-! ### The functions of Sys2Proof/Machine/StemMove.lean -/

theorem State.canonical.loadAcc {s : State} {t : Tid} {f : Operand} {sign : Bool} (h : s.canonical) :
    (s.loadAcc t f sign).1.canonical :=
  .gotThen h.operandR fun _ _ h1 => h1.done

theorem State.canonical.loadReg {s : State} {t : Tid} {f : Operand} {g : Thread → Word → Thread} (h : s.canonical) :
    (s.loadReg t f g).1.canonical :=
  .gotThen h.operandR fun _ _ h1 => h1.done

theorem State.canonical.storeReg {s : State} {t : Tid} {f : Operand} {v : Word} (h : s.canonical) :
    (s.storeReg t f v).1.canonical :=
  .gotThen h.stemStore fun _ _ h1 => h1.done

theorem State.canonical.exchange {s : State} {t : Tid} {f : Operand} (h : s.canonical) : (s.exchange t f).1.canonical := by
  unfold State.exchange
  extract_lets +onlyGivenNames ea
  split
  · exact h
  · extract_lets +onlyGivenNames a'
    split
    · exact h.busError
    · split
      · exact h.refuse
      · split
        · exact h
        next s1 heq2 =>
          have h1 : s1.canonical := .of_some_eq heq2 h.drainAll
          exact .gotThen h1.busRead.accGot fun _ _ h2 => .gotThen h2.busWrite.accGot fun _ _ h3 => h3.done

theorem State.canonical.noLock {s : State} {t : Tid} {f : Operand} {w : Bool} (h : s.canonical) :
    (s.noLock t f w).1.canonical :=
  h.busError

theorem State.canonical.loadLocked {s : State} {t : Tid} {f : Operand} (h : s.canonical) : (s.loadLocked t f).1.canonical := by
  unfold State.loadLocked
  extract_lets +onlyGivenNames ea
  split
  · exact h
  · extract_lets +onlyGivenNames a'
    refine .fst_ite h.noLock ?_
    split
    · exact h
    next s1 heq1 =>
      have h1 : s1.canonical := .of_some_eq heq1 h.drainAll
      exact .gotThen h1.busRead.accGot fun _ _ h2 => h2.done

theorem State.canonical.storeConditional {s : State} {t : Tid} {f : Operand} (h : s.canonical) :
    (s.storeConditional t f).1.canonical := by
  unfold State.storeConditional
  extract_lets +onlyGivenNames ea
  split
  · exact h
  · extract_lets +onlyGivenNames a'
    refine .fst_ite h.noLock ?_
    split
    · exact h.refuse
    · split
      · exact h
      next s1 heq2 =>
        have h1 : s1.canonical := .of_some_eq heq2 h.drainAll
        split
        · exact h
        next s11 heq3 =>
          have h2 : s11.canonical := .of_some_eq heq3 h1.enter
          exact .fst_ite (.gotThen h2.busWrite.accGot fun _ _ h3 => h3.done) h2.done

theorem State.canonical.toAcc {s : State} {t : Tid} {f : Operand} {v : Word} (h : s.canonical) : (s.toAcc t f v).1.canonical :=
  h.done

theorem canonical_execLd {t : Tid} {f : Operand} {s : State} (h : s.canonical) : CanonicalNext (execLd t f s) :=
  State.canonical.issue h fun _ h1 => h1.loadAcc

theorem canonical_execLds {t : Tid} {f : Operand} {s : State} (h : s.canonical) : CanonicalNext (execLds t f s) :=
  State.canonical.issue h fun _ h1 => h1.loadAcc

theorem canonical_execSt {t : Tid} {f : Operand} {s : State} (h : s.canonical) : CanonicalNext (execSt t f s) :=
  State.canonical.issue h fun _ h1 => h1.storeReg

theorem canonical_execLdx {t : Tid} {f : Operand} {s : State} (h : s.canonical) : CanonicalNext (execLdx t f s) :=
  State.canonical.issue h fun _ h1 => h1.loadReg

theorem canonical_execLdy {t : Tid} {f : Operand} {s : State} (h : s.canonical) : CanonicalNext (execLdy t f s) :=
  State.canonical.issue h fun _ h1 => h1.loadReg

theorem canonical_execStx {t : Tid} {f : Operand} {s : State} (h : s.canonical) : CanonicalNext (execStx t f s) :=
  State.canonical.issue h fun _ h1 => h1.storeReg

theorem canonical_execSty {t : Tid} {f : Operand} {s : State} (h : s.canonical) : CanonicalNext (execSty t f s) :=
  State.canonical.issue h fun _ h1 => h1.storeReg

theorem canonical_execLeax {t : Tid} {f : Operand} {s : State} (h : s.canonical) : CanonicalNext (execLeax t f s) :=
  State.canonical.issue h fun _ h1 => h1.done

theorem canonical_execLeay {t : Tid} {f : Operand} {s : State} (h : s.canonical) : CanonicalNext (execLeay t f s) :=
  State.canonical.issue h fun _ h1 => h1.done

theorem canonical_execXch {t : Tid} {f : Operand} {s : State} (h : s.canonical) : CanonicalNext (execXch t f s) :=
  State.canonical.issue h fun _ h1 => h1.exchange

theorem canonical_execTax {t : Tid} {f : Operand} {s : State} (h : s.canonical) : CanonicalNext (execTax t f s) :=
  State.canonical.issue h fun _ h1 => h1.done

theorem canonical_execTxa {t : Tid} {f : Operand} {s : State} (h : s.canonical) : CanonicalNext (execTxa t f s) :=
  State.canonical.issue h fun _ h1 => h1.toAcc

theorem canonical_execTay {t : Tid} {f : Operand} {s : State} (h : s.canonical) : CanonicalNext (execTay t f s) :=
  State.canonical.issue h fun _ h1 => h1.done

theorem canonical_execTya {t : Tid} {f : Operand} {s : State} (h : s.canonical) : CanonicalNext (execTya t f s) :=
  State.canonical.issue h fun _ h1 => h1.toAcc

theorem canonical_execTxy {t : Tid} {f : Operand} {s : State} (h : s.canonical) : CanonicalNext (execTxy t f s) :=
  State.canonical.issue h fun _ h1 => h1.done

theorem canonical_execLdl {t : Tid} {f : Operand} {s : State} (h : s.canonical) : CanonicalNext (execLdl t f s) :=
  State.canonical.issue h fun _ h1 => h1.loadLocked

theorem canonical_execStc {t : Tid} {f : Operand} {s : State} (h : s.canonical) : CanonicalNext (execStc t f s) :=
  State.canonical.issue h fun _ h1 => h1.storeConditional

/-! ### The functions of Sys2Proof/Machine/StemString.lean -/

theorem State.canonical.readDecimal {s : State} {t seg ea : Nat} (h : s.canonical) : (s.readDecimal t seg ea).1.canonical :=
  .fst_ite h (.gotBind h.stemLoad fun _ _ h1 => .gotBind h1.stemLoad fun _ _ h2 => h2)

theorem State.canonical.decimal {s : State} {t : Tid} {f : Operand} {op : Nat} (h : s.canonical) :
    (s.decimal t f op).1.canonical := by
  unfold State.decimal
  extract_lets +onlyGivenNames k h' sa sb
  refine .fst_ite h ?_
  refine .gotThen h.readDecimal (fun _ _ h1 => ?_)
  refine .gotThen h1.readDecimal (fun _ _ h2 => ?_)
  split
  · exact .fst_ite h2.done (.fst_ite h2 (.gotThen h2.stemStore fun _ _ h3 => h3.done))
  · exact .fst_ite h2 h2.done

theorem State.canonical.stringStep {s : State} {t : Tid} {g : Thread → Thread} (h : s.canonical) :
    (s.stringStep t g).1.canonical :=
  h.onThr

theorem State.canonical.movb {s : State} {t : Tid} {f : Operand} (h : s.canonical) : (s.movb t f).1.canonical := by
  unfold State.movb
  extract_lets +onlyGivenNames k h' n sd
  refine .fst_ite h ?_
  refine .fst_ite h ?_
  refine .fst_ite h ?_
  split
  · exact h.refuse
  · exact .gotThen (.gotBind h.stemLoad fun _ _ h1 => h1.stemStore) fun _ _ h2 => h2.stringStep

theorem State.canonical.fill {s : State} {t : Tid} {f : Operand} (h : s.canonical) : (s.fill t f).1.canonical :=
  .fst_ite h (.gotThen h.stemStore fun _ _ h1 => h1.stringStep)

theorem canonical_execDadd {t : Tid} {f : Operand} {s : State} (h : s.canonical) : CanonicalNext (execDadd t f s) :=
  State.canonical.issue h fun _ h1 => h1.decimal

theorem canonical_execDsub {t : Tid} {f : Operand} {s : State} (h : s.canonical) : CanonicalNext (execDsub t f s) :=
  State.canonical.issue h fun _ h1 => h1.decimal

theorem canonical_execDcmp {t : Tid} {f : Operand} {s : State} (h : s.canonical) : CanonicalNext (execDcmp t f s) :=
  State.canonical.issue h fun _ h1 => h1.decimal

theorem canonical_execMovb {t : Tid} {f : Operand} {s : State} (h : s.canonical) : CanonicalNext (execMovb t f s) :=
  State.canonical.issue h fun _ h1 => h1.movb

theorem canonical_execFill {t : Tid} {f : Operand} {s : State} (h : s.canonical) : CanonicalNext (execFill t f s) :=
  State.canonical.issue h fun _ h1 => h1.fill

/-! ### The functions of Sys2Proof/Machine/StemSystem.lean -/

theorem State.canonical.syscall {s : State} {t : Tid} {f : Operand} (h : s.canonical) : (s.syscall t f).1.canonical :=
  h.onThr.enterTrap

theorem State.canonical.readFrame {s : State} {t base : Nat} {x : List Nat} {x1 : List Byte} (h : s.canonical) :
    (s.readFrame t base x x1).1.canonical := by
  induction x generalizing s x1 with
  | nil =>
    unfold State.readFrame
    exact h
  | cons a t' ih =>
    unfold State.readFrame
    exact .gotBind h.busRead.accGot fun _ _ h1 => ih h1

theorem State.canonical.tret {s : State} {t : Tid} (h : s.canonical) : (s.tret t).1.canonical := by
  unfold State.tret
  extract_lets +onlyGivenNames k h' l
  refine .fst_ite h ?_
  extract_lets +onlyGivenNames tsp g
  refine .fst_ite h ?_
  split
  · exact h
  next s1 heq =>
    have h1 : s1.canonical := .of_some_eq heq h.drainAll
    exact .gotThen h1.readFrame fun _ _ h2 => .fst_ite h2 (.fst_ite h2 (.gotThen h2.segLoad fun _ _ h3 => h3.onThr))

theorem State.canonical.waitCount {s : State} {t : Tid} (h : s.canonical) : (s.waitCount t).1.canonical :=
  .fst_ite h.take.onThr h.onThr

theorem State.canonical.sleep {s : State} {t : Tid} {f : Operand} (h : s.canonical) : (s.sleep t f).1.canonical :=
  .gotThen h.operandR fun _ _ h1 => .fst_ite h1.done h1.done

theorem State.canonical.fence {s : State} {t : Tid} (h : s.canonical) : (s.fence t).1.canonical := by
  unfold State.fence
  split
  · exact h
  next s1 heq =>
    have h1 : s1.canonical := .of_some_eq heq h.drainAll
    split
    · exact h
    next s11 heq1 =>
      exact .of_some_eq heq1 h1.flushMaster

theorem State.canonical.readSpecial {s : State} {t : Tid} {f : Operand} (h : s.canonical) :
    (s.readSpecial t f).1.canonical := by
  unfold State.readSpecial
  extract_lets +onlyGivenNames h' r
  split
  · exact h
  · exact .fst_ite h h.done

theorem State.canonical.writeSpecial {s : State} {t : Tid} {f : Operand} (h : s.canonical) :
    (s.writeSpecial t f).1.canonical := by
  unfold State.writeSpecial
  extract_lets +onlyGivenNames h' v
  split
  · refine .fst_ite h ?_
    split
    · exact h
    · exact h.done
  · exact h.done
  · exact h.done
  · exact h.done
  · exact h.done
  · exact .fst_ite h h.done
  · exact .fst_ite h h.done
  · exact h

theorem State.canonical.lseg {s : State} {t : Tid} {f : Operand} (h : s.canonical) : (s.lseg t f).1.canonical :=
  .fst_ite h (.gotThen h.segLoad fun _ _ h1 => h1.done)

theorem State.canonical.breakpoint {s : State} {t : Tid} {f : Operand} (h : s.canonical) : (s.breakpoint t f).1.canonical :=
  .fst_ite h h

theorem canonical_execSyscall {t : Tid} {f : Operand} {s : State} (h : s.canonical) : CanonicalNext (execSyscall t f s) :=
  State.canonical.issue h fun _ h1 => h1.syscall

theorem canonical_execTret {t : Tid} {f : Operand} {s : State} (h : s.canonical) : CanonicalNext (execTret t f s) :=
  State.canonical.issue h fun _ h1 => h1.tret

theorem canonical_execWait {t : Tid} {f : Operand} {s : State} (h : s.canonical) : CanonicalNext (execWait t f s) :=
  State.canonical.issue h fun _ h1 => h1.waitCount

theorem canonical_execFence {t : Tid} {f : Operand} {s : State} (h : s.canonical) : CanonicalNext (execFence t f s) :=
  State.canonical.issue h fun _ h1 => h1.fence

theorem canonical_execRdsr {t : Tid} {f : Operand} {s : State} (h : s.canonical) : CanonicalNext (execRdsr t f s) :=
  State.canonical.issue h fun _ h1 => h1.readSpecial

theorem canonical_execWrsr {t : Tid} {f : Operand} {s : State} (h : s.canonical) : CanonicalNext (execWrsr t f s) :=
  State.canonical.issue h fun _ h1 => h1.writeSpecial

theorem canonical_execLseg {t : Tid} {f : Operand} {s : State} (h : s.canonical) : CanonicalNext (execLseg t f s) :=
  State.canonical.issue h fun _ h1 => h1.lseg

theorem canonical_execSleep {t : Tid} {f : Operand} {s : State} (h : s.canonical) : CanonicalNext (execSleep t f s) :=
  State.canonical.issue h fun _ h1 => h1.sleep

theorem canonical_execBkpt {t : Tid} {f : Operand} {s : State} (h : s.canonical) : CanonicalNext (execBkpt t f s) :=
  State.canonical.issue h fun _ h1 => h1.breakpoint

/-! ### The functions of Sys2Proof/Machine/StemVector.lean -/

theorem State.canonical.chkGot {α : Type} {r : State × Chk α} {k : State → Nat × Nat × Nat → State × Fate}
    {ok : State → α → State × Fate} (h : r.1.canonical)
    (hk : ∀ (u : State) (x : Nat × Nat × Nat), u.canonical → (k u x).1.canonical)
    (hok : ∀ (u : State) (x : α), u.canonical → (ok u x).1.canonical) : (chkGot r k ok).1.canonical := by
  unfold Machine.chkGot
  split
  · exact hok _ _ h
  · exact hk _ _ h
  · exact h
  · exact h

theorem State.canonical.outcome {s : State} {t : Tid} {f : Operand} {o : Outcome} (h : s.canonical) :
    (s.outcome t f o).1.canonical :=
  h.done

theorem State.canonical.issueWrite {s : State} {vjd word : Nat} {vals : List Nat} (h : s.canonical) :
    (s.issueWrite vjd word vals).canonical :=
  h.post

theorem State.canonical.issueFault {s : State} {t : Tid} {f : Operand} {vjd acc : Nat} {ws : List Word} {e : Nat × Nat × Nat}
    (h : s.canonical) : (s.issueFault t f vjd acc ws e).1.canonical :=
  h.issueWrite.outcome

theorem State.canonical.vissue {s : State} {t : Tid} {f : Operand} (h : s.canonical) : (s.vissue t f).1.canonical := by
  unfold State.vissue
  extract_lets +onlyGivenNames k h'
  split
  · extract_lets +onlyGivenNames acc sg1
    split
    · exact h
    next s1 heq1 =>
      have h1 : s1.canonical := .of_some_eq heq1 h.drainAll
      split
      · exact h
      next s11 heq2 =>
        have h2 : s11.canonical := .of_some_eq heq2 h1.flushMaster
        refine .chkGot h2.readVjd (fun _ _ h3 => h3.outcome) (fun _ _ h4 => ?_)
        split
        · refine .fst_ite h4.outcome ?_
          refine .chkGot h4.checkJob (fun _ _ h5 => h5.issueFault) (fun _ _ h6 => ?_)
          refine .fst_ite h6.issueWrite.completionSpore.outcome ?_
          split
          next s3 _ heq3 =>
            have h7 : s3.canonical := .of_fst_eq heq3 h6.askLedger
            exact h7.outcome

theorem State.canonical.vjdOf {s : State} {t : Tid} {f : Operand} (h : s.canonical) : (s.vjdOf t f).1.canonical := by
  unfold State.vjdOf
  extract_lets +onlyGivenNames h'
  split
  · extract_lets +onlyGivenNames g
    refine .fst_ite h ?_
    refine .fst_ite h ?_
    split
    · exact h.refuse
    · exact h

theorem State.canonical.statAt {s : State} {t : Tid} {vjd ea : Nat} (h : s.canonical) : (s.statAt t vjd ea).1.canonical :=
  .gotBind h.busRead.accGot fun _ _ h1 => h1

theorem State.canonical.vwait {s : State} {t : Tid} {f : Operand} (h : s.canonical) : (s.vwait t f).1.canonical :=
  .gotThen h.vjdOf fun _ _ h1 => .fst_ite h1.onThr (.gotThen h1.statAt fun _ _ h2 => h2.done)

theorem State.canonical.vpoll {s : State} {t : Tid} {f : Operand} (h : s.canonical) : (s.vpoll t f).1.canonical := by
  unfold State.vpoll
  extract_lets +onlyGivenNames ea
  refine .gotThen h.vjdOf (fun _ _ h1 => ?_)
  split
  · exact h1.done
  · exact .gotThen h1.statAt fun _ _ h2 => h2.done

theorem State.canonical.vcancel {s : State} {t : Tid} {f : Operand} (h : s.canonical) : (s.vcancel t f).1.canonical := by
  unfold State.vcancel
  split
  · exact h
  next s1 heq =>
    have h1 : s1.canonical := .of_some_eq heq h.drainAll
    refine .gotThen h1.vjdOf (fun _ _ h2 => ?_)
    split
    · exact .fst_ite h2.completeJob.done h2.cancelJob.done
    · exact h2.done

theorem canonical_execVissue {t : Tid} {f : Operand} {s : State} (h : s.canonical) : CanonicalNext (execVissue t f s) :=
  State.canonical.issue h fun _ h1 => h1.vissue

theorem canonical_execVwait {t : Tid} {f : Operand} {s : State} (h : s.canonical) : CanonicalNext (execVwait t f s) :=
  State.canonical.issue h fun _ h1 => h1.vwait

theorem canonical_execVpoll {t : Tid} {f : Operand} {s : State} (h : s.canonical) : CanonicalNext (execVpoll t f s) :=
  State.canonical.issue h fun _ h1 => h1.vpoll

theorem canonical_execVcancel {t : Tid} {f : Operand} {s : State} (h : s.canonical) : CanonicalNext (execVcancel t f s) :=
  State.canonical.issue h fun _ h1 => h1.vcancel

/-! ### The functions of Sys2Proof/Machine/StemAgain.lean -/

theorem State.canonical.runAgain {s : State} {i : Instr} (h : s.canonical) : CanonicalNext (s.runAgain i) := by
  unfold State.runAgain
  split
  · exact canonical_execVissue h
  · exact canonical_execLd h
  · exact canonical_execLds h
  · exact canonical_execSt h
  · exact canonical_execLdx h
  · exact canonical_execLdy h
  · exact canonical_execStx h
  · exact canonical_execSty h
  · exact canonical_execLeax h
  · exact canonical_execLeay h
  · exact canonical_execXch h
  · exact canonical_execAdd h
  · exact canonical_execAdc h
  · exact canonical_execSub h
  · exact canonical_execSbc h
  · exact canonical_execAnd h
  · exact canonical_execOr h
  · exact canonical_execXor h
  · exact canonical_execCmp h
  · exact canonical_execTst h
  · exact canonical_execAddx h
  · exact canonical_execAddy h
  · exact canonical_execCmpx h
  · exact canonical_execCmpy h
  · exact canonical_execMul h
  · exact canonical_execMulu h
  · exact canonical_execDiv h
  · exact canonical_execDivu h
  · exact canonical_execMull h
  · exact canonical_execShl h
  · exact canonical_execShr h
  · exact canonical_execSar h
  · exact canonical_execRol h
  · exact canonical_execRor h
  · exact canonical_execNeg h
  · exact canonical_execNot h
  · exact canonical_execAbs h
  · exact canonical_execTax h
  · exact canonical_execTxa h
  · exact canonical_execTay h
  · exact canonical_execTya h
  · exact canonical_execTxy h
  · exact canonical_execSwapb h
  · exact canonical_execClz h
  · exact canonical_execJmp h
  · exact canonical_execJeq h
  · exact canonical_execJne h
  · exact canonical_execJlt h
  · exact canonical_execJge h
  · exact canonical_execJltu h
  · exact canonical_execJgeu h
  · exact canonical_execJvs h
  · exact canonical_execJvc h
  · exact canonical_execJmi h
  · exact canonical_execJpl h
  · exact canonical_execCall h
  · exact canonical_execRet h
  · exact canonical_execJxnz h
  · exact canonical_execLoop h
  · exact canonical_execLexit h
  · exact canonical_execSyscall h
  · exact canonical_execTret h
  · exact canonical_execWait h
  · exact canonical_execFence h
  · exact canonical_execRdsr h
  · exact canonical_execWrsr h
  · exact canonical_execLseg h
  · exact canonical_execSleep h
  · exact canonical_execLdl h
  · exact canonical_execStc h
  · exact canonical_execVwait h
  · exact canonical_execVpoll h
  · exact canonical_execVcancel h
  · exact canonical_execDadd h
  · exact canonical_execDsub h
  · exact canonical_execDcmp h
  · exact canonical_execMovb h
  · exact canonical_execFill h
  · exact canonical_execBkpt h
  · exact canonical_execIllegal h
  · exact canonical_execTrapEntry h
  · exact .next h

/-! ### The functions of Sys2Proof/Machine/Serve.lean -/

theorem State.canonical.stateOf {s : State} {r : Res} (h : s.canonical) (hr : CanonicalNext r) : (stateOf s r).canonical := by
  cases r with
  | next u => exact hr u rfl
  | fault _ => exact h
  | refused _ => exact h

theorem State.canonical.resumeThread {s : State} {t : Nat} (h : s.canonical) : (s.resumeThread t).canonical := by
  unfold State.resumeThread
  split
  · exact .ite (.stateOf h h.runAgain) h
  · exact h

theorem State.canonical.resumeDebug {s : State} (h : s.canonical) : s.resumeDebug.canonical := by
  unfold State.resumeDebug
  split
  · exact h
  · split
    next s2 _ heq1 =>
      have h1 : s2.canonical := .of_fst_eq heq1 h.csRead
      exact h1.dbgDone.onDbg
    next s2 _ heq1 =>
      have h2 : s2.canonical := .of_fst_eq heq1 h.csRead
      exact h2.busError.dbgDone.onDbg
    · exact h

theorem State.canonical.usbLines {s : State} {tag : Nat} {write : Bool} {x : List (Nat × Nat)} {x1 : List Byte}
    (h : s.canonical) : (s.usbLines tag write x x1).canonical := by
  induction x generalizing s x1 with
  | nil =>
    unfold State.usbLines
    exact h.emit
  | cons a t ih =>
    obtain ⟨a1, a2⟩ := a
    unfold State.usbLines
    split
    next s1 _ heq =>
      have h1 : s1.canonical := .of_fst_eq heq (.fst_ite h.writeNow h.readNow)
      exact ih h1
    next s1 _ _ _ _ _ heq =>
      have h2 : s1.canonical := .of_fst_eq heq (.fst_ite h.writeNow h.readNow)
      exact h2.request.onHost
    next s1 _ heq =>
      have h3 : s1.canonical := .of_fst_eq heq (.fst_ite h.writeNow h.readNow)
      exact h3.busError.emit
    next s1 _ _ _ _ heq =>
      have h4 : s1.canonical := .of_fst_eq heq (.fst_ite h.writeNow h.readNow)
      exact h4.emit

theorem State.canonical.resumeUsb {s : State} (h : s.canonical) : s.resumeUsb.canonical := by
  unfold State.resumeUsb
  split
  · split
    · exact h.onHost.usbLines
    · exact h.onHost.emit
    · exact h
  · exact h

theorem State.canonical.resumeCtl {s : State} (h : s.canonical) : s.resumeCtl.canonical := by
  unfold State.resumeCtl
  refine .onCtl ?_
  refine .each h (fun _ _ h1 => ?_)
  split
  next s11 heq =>
    have h2 : s11.canonical := .of_fst_eq heq h1.ctlWrite
    exact .ite h2.dbgDone h2
  next s11 _ heq =>
    have h3 : s11.canonical := .of_fst_eq heq h1.ctlWrite
    exact .ite h3.busError.emit.dbgDone h3.busError.emit

theorem State.canonical.hostLocal {s : State} {a n : Nat} (h : s.canonical) : (s.hostLocal a n).canonical := by
  unfold State.hostLocal
  split
  next s1 _ heq =>
    have h1 : s1.canonical := .of_fst_eq heq h.readNow
    exact h1.emit
  next s1 _ heq =>
    have h2 : s1.canonical := .of_fst_eq heq h.readNow
    exact h2.winError.emit
  next s1 _ _ _ heq =>
    have h3 : s1.canonical := .of_fst_eq heq h.readNow
    exact h3.busError.winError.emit

theorem State.canonical.hostReads {s : State} {x : List (Nat × Nat)} (h : s.canonical) : (s.hostReads x).canonical := by
  induction x generalizing s with
  | nil =>
    unfold State.hostReads
    exact h.onHost
  | cons a t ih =>
    obtain ⟨a1, a2⟩ := a
    unfold State.hostReads
    refine .ite h.onHost ?_
    split
    · exact ih h.request
    · exact ih h.hostLocal

theorem State.canonical.resumeAll {s : State} (h : s.canonical) : s.resumeAll.canonical := by
  unfold State.resumeAll
  extract_lets +onlyGivenNames s1
  have h1 : s1.canonical := .resumeCtl <| .resumeUsb <| .resumeDebug <| .each h fun _ _ h2 => h2.resumeThread
  exact .ite h1 h1.hostReads

theorem State.canonical.serveRead {s : State} {machine : Bool} {a n : Nat} (h : s.canonical) :
    (s.serveRead machine a n).1.canonical := by
  unfold State.serveRead
  split
  next s1 _ heq =>
    exact .of_fst_eq heq h.readNow
  next s1 _ heq =>
    exact .of_fst_eq heq h.readNow
  next s1 _ heq =>
    have h3 : s1.canonical := .of_fst_eq heq h.readNow
    split
    next s2 _ heq1 =>
      exact .of_fst_eq heq1 h3.ctlRead
    next s2 _ heq1 =>
      have h5 : s2.canonical := .of_fst_eq heq1 h3.ctlRead
      exact h5.busError
    next s2 heq1 =>
      exact .of_fst_eq heq1 h3.ctlRead
  next s1 _ _ _ _ heq =>
    exact .of_fst_eq heq h.readNow

theorem State.canonical.serveWrite {s : State} {machine : Bool} {a : Nat} {d : List Byte} (h : s.canonical) :
    (s.serveWrite machine a d).1.canonical := by
  unfold State.serveWrite
  split
  next s1 _ heq =>
    exact .of_fst_eq heq h.writeNow
  next s1 _ heq =>
    exact .of_fst_eq heq h.writeNow
  next s1 _ heq =>
    have h3 : s1.canonical := .of_fst_eq heq h.writeNow
    split
    next s11 heq1 =>
      exact .of_fst_eq heq1 h3.ctlWrite
    next s11 _ heq1 =>
      have h5 : s11.canonical := .of_fst_eq heq1 h3.ctlWrite
      exact h5.busError
  next s1 _ _ _ _ heq =>
    exact .of_fst_eq heq h.writeNow

theorem State.canonical.serveReads {s : State} {machine : Bool} {x : List (Nat × Nat)} {x1 : Nat} {x2 : List Byte}
    (h : s.canonical) : (s.serveReads machine x x1 x2).1.canonical := by
  induction x generalizing s x1 x2 with
  | nil =>
    unfold State.serveReads
    exact h
  | cons a t ih =>
    obtain ⟨a1, a2⟩ := a
    unfold State.serveReads
    split
    next s1 _ _ heq =>
      have h1 : s1.canonical := .of_fst_eq heq h.serveRead
      exact ih h1

theorem State.canonical.serveWrites {s : State} {machine : Bool} {x : List (Nat × Nat)} {x1 : List Byte} {x2 : Nat}
    (h : s.canonical) : (s.serveWrites machine x x1 x2).1.canonical := by
  induction x generalizing s x1 x2 with
  | nil =>
    unfold State.serveWrites
    exact h
  | cons a t ih =>
    obtain ⟨a1, a2⟩ := a
    unfold State.serveWrites
    split
    next s2 _ heq =>
      have h1 : s2.canonical := .of_fst_eq heq h.serveWrite
      exact ih h1

theorem State.canonical.respond {s : State} {p : Nat} {k : Packet} {status : Nat} {data : List Byte} {waited : Nat}
    (h : s.canonical) : (s.respond p k status data waited).canonical :=
  h.passOn

theorem State.canonical.inbound {s : State} {p : Nat} {k : Packet} {op : Nat} {serve : State → State} (h : s.canonical)
    (hserve : ∀ u : State, u.canonical → (serve u).canonical) : (s.inbound p k op serve).canonical :=
  .ite h (.ite h.takeRx.dropPacket (.ite (hserve _ h) (.getD h.takeRx.sendOn h.takeRx.respond)))

theorem State.canonical.remoteRead {s : State} {p : Nat} {k : Packet} {waited : Nat} (h : s.canonical) :
    (s.remoteRead p k waited).canonical :=
  .inbound h fun _ h1 => .ite h1 h1.takeRx.serveReads.respond.resumeAll

theorem canonical_execRemoteRead {port : Fin 4} {pkt : Packet} {waited : Nat} {s : State} (h : s.canonical) :
    CanonicalNext (execRemoteRead port pkt waited s) :=
  .next h.remoteRead

theorem State.canonical.remoteWrite {s : State} {p : Nat} {k : Packet} {waited : Nat} (h : s.canonical) :
    (s.remoteWrite p k waited).canonical :=
  .inbound h fun _ h1 => h1.takeRx.serveWrites.respond.resumeAll

theorem canonical_execRemoteWrite {port : Fin 4} {pkt : Packet} {waited : Nat} {s : State} (h : s.canonical) :
    CanonicalNext (execRemoteWrite port pkt waited s) :=
  .next h.remoteWrite

theorem State.canonical.remoteAtomic {s : State} {p : Nat} {k : Packet} {waited : Nat} (h : s.canonical) :
    (s.remoteAtomic p k waited).canonical := by
  unfold State.remoteAtomic
  refine .inbound h (fun _ h1 => ?_)
  split
  next s1 _ _ heq =>
    have h2 : s1.canonical := .of_fst_eq heq h1.takeRx.atomicAt
    exact h2.respond

theorem canonical_execRemoteAtomic {port : Fin 4} {pkt : Packet} {waited : Nat} {s : State} (h : s.canonical) :
    CanonicalNext (execRemoteAtomic port pkt waited s) :=
  .next h.remoteAtomic

theorem State.canonical.oneWay {s : State} {p : Nat} {k : Packet} {op : Nat} {take : State → State} (h : s.canonical)
    (htake : ∀ u : State, u.canonical → (take u).canonical) : (s.oneWay p k op take).canonical :=
  .ite h (.ite h.takeRx.dropPacket (.ite (htake _ h.takeRx) h.takeRx.passOn))

theorem State.canonical.copyIn {s : State} {k : Packet} (h : s.canonical) : (s.copyIn k).canonical :=
  .ite h.serveWrites.copyProgress h.serveWrites

theorem canonical_execCopy {port : Fin 4} {pkt : Packet} {s : State} (h : s.canonical) : CanonicalNext (execCopy port pkt s) :=
  .next <| .oneWay h fun _ h1 => h1.copyIn

theorem canonical_execSpore {port : Fin 4} {pkt : Packet} {s : State} (h : s.canonical) :
    CanonicalNext (execSpore port pkt s) :=
  .next <| .oneWay h fun _ h1 => h1.remoteArrive

theorem State.canonical.takeResp {s : State} {p : Nat} {k : Packet} (h : s.canonical) : (s.takeResp p k).canonical := by
  unfold State.takeResp
  split
  · exact h.dropPacket.onFab
  · exact h.complete.resumeAll

theorem canonical_execRemoteResp {port : Fin 4} {pkt : Packet} {s : State} (h : s.canonical) :
    CanonicalNext (execRemoteResp port pkt s) :=
  .next <| .oneWay h fun _ h1 => h1.takeResp

theorem State.canonical.responseTimeout {s : State} {tag : Nat} (h : s.canonical) : (s.responseTimeout tag).canonical := by
  unfold State.responseTimeout
  split
  · exact h
  · exact h.untilTime.complete.fabInt.resumeAll

theorem canonical_execResponseTimeout {tag : BitVec 12} {s : State} (h : s.canonical) :
    CanonicalNext (execResponseTimeout tag s) :=
  .next h.responseTimeout

theorem State.canonical.resync {s : State} {p : Nat} {th : LinkHeader} {acct : List (Nat × Nat)} {next : Nat} (h : s.canonical)
    : (s.resync p th acct next).canonical := by
  unfold State.resync
  refine .ite h ?_
  split
  next s2 heq =>
    exact .of_some_eq heq h.sendResync.takeHeader.resyncOk
  · exact h.failRetrain.resumeAll

theorem canonical_execResync {port : Fin 4} {hdr : LinkHeader} {state : List (Nat × Nat) × BitVec 12} {s : State}
    (h : s.canonical) : CanonicalNext (execResync port hdr state s) :=
  .next h.resync

theorem canonical_execRetrainTimeout {port : Fin 4} {s : State} (h : s.canonical) : CanonicalNext (execRetrainTimeout port s) :=
  .next <| .ite h.untilTime.failRetrain.resumeAll h

theorem canonical_execLinkDown {port : Fin 4} {s : State} (h : s.canonical) : CanonicalNext (execLinkDown port s) :=
  .next h.linkDown.resumeAll

/-! ### The functions of Sys2Proof/Machine/Rows.lean -/

theorem State.canonical.refused {s : State} {o : Origin} {write : Bool} {c off : Nat} (h : s.canonical) :
    (s.refused o write c off).canonical :=
  .ite h.busError.emit.dbgDone h.busError.emit

theorem State.canonical.wrote {o : Origin} {off : Nat} {r : State × Option Nat} (h : r.1.canonical) :
    (State.wrote o off r).canonical := by
  unfold State.wrote
  split
  · exact .resumeAll <| .ite (.dbgDone h) h
  · exact .refused h

theorem State.canonical.olderDone {s : State} {x : Origin} (h : s.canonical) : CanonicalIf (s.olderDone x) := by
  unfold State.olderDone
  split
  · exact .bind h.drainAll fun _ h1 => h1.flushMaster
  · exact h.flushMaster
  · exact .some h

theorem State.canonical.sizedWrite {s : State} {o : Origin} {off size : Nat} {v : Word} (h : s.canonical) :
    (s.sizedWrite o off size v).canonical := by
  unfold State.sizedWrite
  refine .ite h ?_
  refine .ite h.dbgDone ?_
  split
  · exact h
  next s1 heq =>
    have h1 : s1.canonical := .of_some_eq heq h.olderDone
    split
    · exact .onCtl <| .ite h1.onFab.queuePacket.dbgDone h1.onFab.queuePacket
    · exact h1.ctlWrite.wrote

theorem State.canonical.regWrite {s : State} {o : Origin} {off : Nat} {v : Word} (h : s.canonical) :
    (s.regWrite o off v).canonical :=
  h.sizedWrite

theorem State.canonical.regRead {s : State} {o : Origin} {off : Nat} (h : s.canonical) : (s.regRead o off).canonical := by
  unfold State.regRead
  refine .ite h ?_
  refine .ite h.dbgDone ?_
  split
  · exact h
  next s1 heq =>
    have h1 : s1.canonical := .of_some_eq heq h.olderDone
    split
    next s2 _ heq1 =>
      have h2 : s2.canonical := .of_fst_eq heq1 h1.ctlRead
      exact .ite h2.dbgDone.emit h2.emit
    next s2 _ heq1 =>
      have h3 : s2.canonical := .of_fst_eq heq1 h1.ctlRead
      exact h3.refused
    next s2 heq1 =>
      have h4 : s2.canonical := .of_fst_eq heq1 h1.ctlRead
      exact .ite h4.dbgDone.onDbg h4

theorem canonical_execPwrRst {o : Origin} {v : Word} {s : State} (h : s.canonical) : CanonicalNext (execPwrRst o v s) :=
  .next h.regWrite

theorem canonical_execModeRequest {o : Origin} {v : Word} {s : State} (h : s.canonical) :
    CanonicalNext (execModeRequest o v s) :=
  .next h.regWrite

theorem canonical_execClkdivChange {o : Origin} {v : Word} {s : State} (h : s.canonical) :
    CanonicalNext (execClkdivChange o v s) :=
  .next h.regWrite

theorem canonical_execFlushq {o : Origin} {frond : Fin 8} {v : Word} {s : State} (h : s.canonical) :
    CanonicalNext (execFlushq o frond v s) :=
  .next h.regWrite

theorem canonical_execErrorInjectSbe {o : Origin} {bank : Fin 18} {s : State} (h : s.canonical) :
    CanonicalNext (execErrorInjectSbe o bank s) :=
  .next h.regWrite

theorem canonical_execErrorInjectDbe {o : Origin} {bank : Fin 18} {s : State} (h : s.canonical) :
    CanonicalNext (execErrorInjectDbe o bank s) :=
  .next h.regWrite

theorem canonical_execDdrRetrainRequest {o : Origin} {chan : Fin 12} {v : Word} {s : State} (h : s.canonical) :
    CanonicalNext (execDdrRetrainRequest o chan v s) :=
  .next h.regWrite

theorem canonical_execThreadStart {o : Origin} {t : Tid} {v : Word} {s : State} (h : s.canonical) :
    CanonicalNext (execThreadStart o t v s) :=
  .next h.regWrite

theorem canonical_execThreadStop {o : Origin} {t : Tid} {v : Word} {s : State} (h : s.canonical) :
    CanonicalNext (execThreadStop o t v s) :=
  .next h.regWrite

theorem canonical_execSpcTrig {o : Origin} {v : Word} {s : State} (h : s.canonical) : CanonicalNext (execSpcTrig o v s) :=
  .next h.regWrite

theorem canonical_execPmcThaw {o : Origin} {v : Word} {s : State} (h : s.canonical) : CanonicalNext (execPmcThaw o v s) :=
  .next h.regWrite

theorem canonical_execPmcCounterWrite {o : Origin} {n : Fin 64} {high : Bool} {v : Word} {amount : Nat} {s : State}
    (h : s.canonical) : CanonicalNext (execPmcCounterWrite o n high v amount s) := by
  unfold execPmcCounterWrite
  extract_lets +onlyGivenNames off
  refine .next ?_
  refine .ite h ?_
  refine .ite h.dbgDone ?_
  split
  · exact h
  next s1 heq =>
    have h1 : s1.canonical := .of_some_eq heq h.olderDone
    split
    · exact .wrote h1.writePmcCount.accessDone
    · exact h1.ctlWrite.wrote

theorem canonical_execSimFlip {o : Origin} {v : Word} {s : State} (h : s.canonical) : CanonicalNext (execSimFlip o v s) :=
  .next h.regWrite

theorem canonical_execGclChange {o : Origin} {port : Fin 2} {v : Word} {s : State} (h : s.canonical) :
    CanonicalNext (execGclChange o port v s) :=
  .next h.regWrite

theorem canonical_execLnkRetrainRequest {o : Origin} {port : Fin 4} {v : Word} {s : State} (h : s.canonical) :
    CanonicalNext (execLnkRetrainRequest o port v s) :=
  .next h.regWrite

theorem canonical_execLnkDownRequest {o : Origin} {port : Fin 4} {v : Word} {s : State} (h : s.canonical) :
    CanonicalNext (execLnkDownRequest o port v s) :=
  .next h.regWrite

theorem canonical_execFabAtomGo {o : Origin} {n : Fin 8} {v : Word} {s : State} (h : s.canonical) :
    CanonicalNext (execFabAtomGo o n v s) :=
  .next h.regWrite

theorem canonical_execPublish {o : Origin} {mbx : Fin 16} {v : Word} {s : State} (h : s.canonical) :
    CanonicalNext (execPublish o mbx v s) :=
  .next h.regWrite

theorem canonical_execHifMsireq {o : Origin} {v : Word} {s : State} (h : s.canonical) : CanonicalNext (execHifMsireq o v s) :=
  .next h.regWrite

theorem canonical_execFuseProgram {o : Origin} {v : Word} {s : State} (h : s.canonical) :
    CanonicalNext (execFuseProgram o v s) :=
  .next h.regWrite

theorem canonical_execKeylock {o : Origin} {v : Word} {s : State} (h : s.canonical) : CanonicalNext (execKeylock o v s) :=
  .next h.regWrite

theorem canonical_execDbgAuthNew {o : Origin} {s : State} (h : s.canonical) : CanonicalNext (execDbgAuthNew o s) :=
  .next h.regWrite

theorem canonical_execDbgAuthSubmit {o : Origin} {level : BitVec 2} {s : State} (h : s.canonical) :
    CanonicalNext (execDbgAuthSubmit o level s) :=
  .next h.regWrite

theorem canonical_execDbgAuthRevoke {o : Origin} {s : State} (h : s.canonical) : CanonicalNext (execDbgAuthRevoke o s) :=
  .next h.regWrite

theorem canonical_execDebugHalt {o : Origin} {v : Word} {s : State} (h : s.canonical) : CanonicalNext (execDebugHalt o v s) :=
  .next h.regWrite

theorem canonical_execDebugResume {o : Origin} {v : Word} {s : State} (h : s.canonical) :
    CanonicalNext (execDebugResume o v s) :=
  .next h.regWrite

theorem canonical_execDebugStep {o : Origin} {v : Word} {s : State} (h : s.canonical) : CanonicalNext (execDebugStep o v s) :=
  .next h.regWrite

theorem canonical_execDbgTregAccess {o : Origin} {write : Option Word} {s : State} (h : s.canonical) :
    CanonicalNext (execDbgTregAccess o write s) := by
  unfold execDbgTregAccess
  refine .next ?_
  split
  · exact h.regWrite
  · exact h.regRead

theorem canonical_execStimulusWrite {o : Origin} {n : Fin 32} {v : Word} {s : State} (h : s.canonical) :
    CanonicalNext (execStimulusWrite o n v s) :=
  .next h.regWrite

theorem canonical_execWatchdogEnable {o : Origin} {v : Word} {s : State} (h : s.canonical) :
    CanonicalNext (execWatchdogEnable o v s) :=
  .next h.regWrite

theorem canonical_execWatchdogService {o : Origin} {v : Word} {s : State} (h : s.canonical) :
    CanonicalNext (execWatchdogService o v s) :=
  .next h.regWrite

theorem canonical_execTimerStart {o : Origin} {n : Fin 4} {v : Word} {s : State} (h : s.canonical) :
    CanonicalNext (execTimerStart o n v s) :=
  .next h.regWrite

theorem canonical_execTimerStop {o : Origin} {n : Fin 4} {v : Word} {s : State} (h : s.canonical) :
    CanonicalNext (execTimerStop o n v s) :=
  .next h.regWrite

theorem canonical_execReadClear {p : Path} {off : Nat} {s : State} (h : s.canonical) :
    CanonicalNext (execReadClear p off s) := by
  unfold execReadClear
  refine .next ?_
  split
  · exact h.regRead
  · refine .ite h ?_
    split
    next s1 _ heq =>
      have h1 : s1.canonical := .of_fst_eq heq h.ctlRead
      exact h1.emit
    next s1 _ _ heq =>
      exact .of_fst_eq heq h.ctlRead

theorem canonical_execRegisterWrite {p : Path} {off size : Nat} {v : Word} {s : State} (h : s.canonical) :
    CanonicalNext (execRegisterWrite p off size v s) := by
  unfold execRegisterWrite
  refine .next ?_
  split
  · exact h.sizedWrite
  · exact .ite h.ctlWrite.resumeAll h

theorem State.canonical.debugRead {s : State} {a : Nat} (h : s.canonical) : (s.debugRead a).canonical := by
  unfold State.debugRead
  split
  next s1 _ heq =>
    have h1 : s1.canonical := .of_fst_eq heq h.readNow
    exact h1.dbgDone
  next s1 _ heq =>
    have h2 : s1.canonical := .of_fst_eq heq h.readNow
    exact h2.dbgDone
  next s1 _ heq =>
    have h3 : s1.canonical := .of_fst_eq heq h.readNow
    extract_lets +onlyGivenNames o
    split
    next s2 _ heq1 =>
      have h4 : s2.canonical := .of_fst_eq heq1 h3.ctlRead
      exact h4.dbgDone
    next s2 _ heq1 =>
      have h5 : s2.canonical := .of_fst_eq heq1 h3.ctlRead
      exact h5.busError.dbgDone
    next s2 heq1 =>
      have h6 : s2.canonical := .of_fst_eq heq1 h3.ctlRead
      exact h6.dbgDone.onDbg
  next s1 _ _ _ _ _ heq =>
    have h7 : s1.canonical := .of_fst_eq heq h.readNow
    exact h7.request.dbgDone
  next s1 heq =>
    have h8 : s1.canonical := .of_fst_eq heq h.readNow
    exact h8.dbgDone

theorem State.canonical.debugWrite {s : State} {a : Nat} {v : Word} (h : s.canonical) : (s.debugWrite a v).canonical := by
  unfold State.debugWrite
  split
  next s1 _ heq =>
    have h1 : s1.canonical := .of_fst_eq heq h.writeNow
    exact h1.dbgDone
  next s1 _ heq =>
    have h2 : s1.canonical := .of_fst_eq heq h.writeNow
    exact h2.dbgDone
  next s1 _ heq =>
    have h3 : s1.canonical := .of_fst_eq heq h.writeNow
    extract_lets +onlyGivenNames o
    split
    · exact h3.onFab.queuePacket.dbgDone.onCtl
    · split
      next s11 heq2 =>
        have h4 : s11.canonical := .of_fst_eq heq2 h3.ctlWrite
        exact h4.dbgDone.resumeAll
      next s11 _ heq2 =>
        have h5 : s11.canonical := .of_fst_eq heq2 h3.ctlWrite
        exact h5.busError.dbgDone
  next s1 _ _ _ _ _ heq =>
    have h6 : s1.canonical := .of_fst_eq heq h.writeNow
    exact h6.request.dbgDone
  next s1 heq =>
    have h7 : s1.canonical := .of_fst_eq heq h.writeNow
    exact h7.dbgDone

theorem canonical_execDbgaccUpdate {op : BitVec 2} {addr : BitVec 48} {data : Word} {s : State} (h : s.canonical) :
    CanonicalNext (execDbgaccUpdate op addr data s) :=
  .next <| .ite h (.ite h.setB (.ite h (.ite h.dbgDone (.ite h.debugRead h.debugWrite))))

/-! ### The functions of Sys2Proof/Machine/HostLink.lean -/

theorem State.canonical.tunnelUp {s : State} (h : s.canonical) : s.tunnelUp.canonical :=
  .each h.onHost fun _ _ h1 => .ite h1.onHost.emit h1

theorem State.canonical.usb4Train {s : State} {gen : Nat} {pcie : Bool} (h : s.canonical) : (s.usb4Train gen pcie).canonical :=
  .ite h.setUsb4.tunnelUp h.setUsb4

theorem canonical_execUsb4LinkTrain {gen : Fin 4} {pcie : Bool} {s : State} (h : s.canonical) :
    CanonicalNext (execUsb4LinkTrain gen pcie s) :=
  .next <| .ite h.usb4Train h

theorem canonical_execFlr {s : State} (h : s.canonical) : CanonicalNext (execFlr s) := .next <| .ite h.functionReset h

theorem State.canonical.hostDrain {s : State} (h : s.canonical) : s.hostDrain.canonical :=
  .getD (State.canonical.flushMaster <| .each h fun _ _ h1 => h1.settle) (.each h fun _ _ h2 => h2.settle)

theorem State.canonical.barRead {s : State} {off len : Nat} (h : s.canonical) : (s.barRead off len).canonical := by
  unfold State.barRead
  split
  · exact h.winError.emit
  · extract_lets +onlyGivenNames a' s0
    have h1 : s0.canonical := h.hostDrain
    split
    · exact h1.hostReads
    · exact h1.hostLocal

theorem canonical_execBar2Read {off len : Nat} {s : State} (h : s.canonical) : CanonicalNext (execBar2Read off len s) :=
  .next <| .ite h.barRead h

theorem State.canonical.barWrite {s : State} {off : Nat} {d : List Byte} (h : s.canonical) : (s.barWrite off d).canonical := by
  unfold State.barWrite
  extract_lets +onlyGivenNames a
  split
  · exact h.winError
  · exact .each (.ite h.hostDrain h) fun _ _ h1 => h1.enqueue

theorem canonical_execBar2Write {off : Nat} {data : List Byte} {s : State} (h : s.canonical) :
    CanonicalNext (execBar2Write off data s) :=
  .next <| .ite h.barWrite h

theorem canonical_execCommandAreaWrite {mbx word : Fin 16} {v : Word} {s : State} (h : s.canonical) :
    CanonicalNext (execCommandAreaWrite mbx word v s) :=
  .next <| .ite h.commandWrite.accessDone h

theorem canonical_execDoorbell {mbx : Fin 16} {v : Word} {s : State} (h : s.canonical) : CanonicalNext (execDoorbell mbx v s) :=
  .next <| .ite h (.ite h.hostDrain.ring.accessDone h.hostDrain.busError)

theorem State.canonical.usbConfigured {s : State} (h : s.canonical) : s.usbConfigured.canonical := .ite h h.setB.setB

theorem State.canonical.usbMailbox {s : State} {n v tag : Nat} {l : List Word} (h : s.canonical) :
    (s.usbMailbox n v tag l).canonical :=
  .emit <| .ring <| .hostDrain <| .each h fun _ _ h1 => h1.commandWrite

theorem canonical_execMbxWrite {hdr : UsbHeader} {data : List Word} {s : State} (h : s.canonical) :
    CanonicalNext (execMbxWrite hdr data s) :=
  .next <| .ite h (.ite h.usbConfigured.emit h.usbConfigured.usbMailbox)

theorem canonical_execMbxRead {hdr : UsbHeader} {s : State} (h : s.canonical) : CanonicalNext (execMbxRead hdr s) :=
  .next <| .ite h (.ite h.usbConfigured.emit h.usbConfigured.emit)

theorem canonical_execMemWrite {hdr : UsbHeader} {data : List Byte} {s : State} (h : s.canonical) :
    CanonicalNext (execMemWrite hdr data s) :=
  .next <| .ite h (.ite h.usbConfigured.emit h.usbConfigured.hostDrain.usbLines)

theorem canonical_execMemRead {hdr : UsbHeader} {s : State} (h : s.canonical) : CanonicalNext (execMemRead hdr s) :=
  .next <| .ite h (.ite h.usbConfigured.emit h.usbConfigured.hostDrain.usbLines)

theorem canonical_execEp3Report {s : State} (h : s.canonical) : CanonicalNext (execEp3Report s) := .next <| .ite h.emit.onHost h

/-! ### The functions of Sys2Proof/Machine/Mail.lean -/

theorem State.canonical.reply {s : State} {n code : Nat} {res : List Nat} (h : s.canonical) : (s.reply n code res).canonical :=
  h.answer

theorem State.canonical.serve {s : State} {n code : Nat} {modes : List Nat} {used : Nat} {bad : Nat → List Nat}
    {body : State → State} (h : s.canonical) (hbody : ∀ u : State, u.canonical → (body u).canonical) :
    (s.serve n code modes used bad body).canonical := by
  unfold State.serve
  extract_lets +onlyGivenNames c
  refine .ite h ?_
  refine .ite h.reply ?_
  refine .ite h ?_
  refine .ite h.reply ?_
  refine .ite h.reply ?_
  split
  · exact h.reply
  · exact hbody _ h

theorem State.canonical.serveSub {s : State} {n code lo sub last : Nat} {modes : List Nat} {used : Nat} {bad : Nat → List Nat}
    {body : State → State} (h : s.canonical) (hbody : ∀ u : State, u.canonical → (body u).canonical) :
    (s.serveSub n code lo sub last modes used bad body).canonical :=
  .ite (.serve h fun _ h1 => h1.reply) (.ite h (.serve h fun _ h2 => hbody _ h2))

theorem State.canonical.fwAcc {n op : Nat} {r : State × AccRes} (h : r.1.canonical) : (fwAcc n op r).1.canonical := by
  unfold Machine.fwAcc
  split
  · exact h
  · exact h
  · exact h
  · exact .busError h
  · exact .onHost <| .request h

theorem State.canonical.readFor {s : State} {w : Who} {n a len : Nat} (h : s.canonical) : (s.readFor w n a len).1.canonical :=
  h.settleAll.readAns.fwAcc

theorem State.canonical.fwRead {s : State} {n a len : Nat} (h : s.canonical) : (s.fwRead n a len).1.canonical := h.readFor

theorem State.canonical.fwWrite {s : State} {n a : Nat} {d : List Byte} (h : s.canonical) : (s.fwWrite n a d).1.canonical :=
  h.settleAll.writeAns.fwAcc

theorem State.canonical.fwTable {s : State} {w : Who} {n stride size x x1 : Nat} {x2 : List (List Byte)} (h : s.canonical) :
    (s.fwTable w n stride size x x1 x2).1.canonical := by
  induction x generalizing s x1 x2 with
  | zero =>
    unfold State.fwTable
    exact h
  | succ n' ih =>
    unfold State.fwTable
    split
    next s1 _ heq =>
      have h1 : s1.canonical := .of_fst_eq heq h.readFor
      exact ih h1
    next s1 _ heq =>
      exact .of_fst_eq heq h.readFor
    next s1 heq =>
      exact .of_fst_eq heq h.readFor

theorem State.canonical.fwThen {α : Type} {n : Nat} {r : State × FwRes α} {res : List Nat} {k : State → α → State}
    (h : r.1.canonical) (hk : ∀ (u : State) (x : α), u.canonical → (k u x).canonical) : (fwThen n r res k).canonical := by
  unfold Machine.fwThen
  split
  · exact hk _ _ h
  · exact .reply h
  · exact h

theorem State.canonical.fwReg {s : State} {off : Nat} {v : Word} (h : s.canonical) : (s.fwReg off v).canonical := h.csWrite

theorem canonical_execIdentify {mbx : Fin 16} {s : State} (h : s.canonical) : CanonicalNext (execIdentify mbx s) :=
  .next <| .serve h fun _ h1 => h1.reply

theorem canonical_execGetStatus {mbx : Fin 16} {s : State} (h : s.canonical) : CanonicalNext (execGetStatus mbx s) :=
  .next <| .serve h fun _ h1 => h1.onFw.reply

theorem canonical_execSetMode {mbx : Fin 16} {s : State} (h : s.canonical) : CanonicalNext (execSetMode mbx s) :=
  .next <| .serve h fun _ h1 => .ite h1.reply (.ite h1 h1.onHost.requestMode)

theorem canonical_execGetMode {mbx : Fin 16} {s : State} (h : s.canonical) : CanonicalNext (execGetMode mbx s) :=
  .next <| .serve h fun _ h1 => h1.reply

theorem State.canonical.planEntry {s : State} {n owner : Nat} {b : List Byte} (h : s.canonical) :
    (s.planEntry n owner b).1.canonical :=
  .fst_ite h (.chkBind h.readVjd fun _ _ h1 => .chkBind h1.checkJob fun _ _ h2 => h2)

theorem State.canonical.planEntries {s : State} {n owner : Nat} {x : List (List Byte)} {x1 : Nat} {x2 : List PlanEntry}
    (h : s.canonical) : (s.planEntries n owner x x1 x2).1.canonical := by
  induction x generalizing s x1 x2 with
  | nil =>
    unfold State.planEntries
    exact h
  | cons a t ih =>
    unfold State.planEntries
    refine .fst_ite h ?_
    split
    next s1 _ heq =>
      have h1 : s1.canonical := .of_fst_eq heq h.planEntry
      exact ih h1
    next s1 _ _ _ heq =>
      exact .of_fst_eq heq h.planEntry
    next s1 _ _ _ _ _ heq =>
      have h3 : s1.canonical := .of_fst_eq heq h.planEntry
      exact .fwAcc h3
    next s1 heq =>
      exact .of_fst_eq heq h.planEntry

theorem State.canonical.planLoad {s : State} {n : Nat} (h : s.canonical) : (s.planLoad n).canonical := by
  unfold State.planLoad
  extract_lets +onlyGivenNames cnt owner k
  split
  · exact h.reply
  · refine .ite h.reply ?_
    refine .ite h.reply ?_
    refine .ite h.reply ?_
    refine .fwThen h.fwTable (fun _ _ h1 => ?_)
    split
    next s2 heq1 =>
      exact .of_fst_eq heq1 h1.planEntries
    next s2 _ _ heq1 =>
      have h3 : s2.canonical := .of_fst_eq heq1 h1.planEntries
      exact h3.reply
    next s2 _ heq1 =>
      have h4 : s2.canonical := .of_fst_eq heq1 h1.planEntries
      split <;> exact h4.replacePlan.reply

theorem canonical_execPlanLoad {mbx : Fin 16} {s : State} (h : s.canonical) : CanonicalNext (execPlanLoad mbx s) :=
  .next <| .serve h fun _ h1 => h1.planLoad

theorem canonical_execPlanActivate {mbx : Fin 16} {s : State} (h : s.canonical) : CanonicalNext (execPlanActivate mbx s) :=
  .next <| .serve h fun _ h1 => .ite h1.reply (.ite h1.reply (.ite h1.onLdg.reply h1.onLdg.onHost))

theorem canonical_execPlanQuery {mbx : Fin 16} {s : State} (h : s.canonical) : CanonicalNext (execPlanQuery mbx s) :=
  .next <| .serve h fun _ h1 => h1.onLdg.reply

theorem canonical_execFabricStatus {mbx : Fin 16} {s : State} (h : s.canonical) : CanonicalNext (execFabricStatus mbx s) :=
  .next <| .serve h fun _ h1 => h1.onFab.reply

theorem State.canonical.hostChannel {s : State} {n sub used : Nat} {body : State → Nat → State} (h : s.canonical)
    (hbody : ∀ (u : State) (x : Nat), u.canonical → (body u x).canonical) : (s.hostChannel n sub used body).canonical :=
  .serveSub h fun _ h1 => .ite h1.reply (.ite h1.reply (.ite h1.reply (hbody _ _ h1)))

theorem canonical_execHostChannelRead {mbx : Fin 16} {s : State} (h : s.canonical) :
    CanonicalNext (execHostChannelRead mbx s) :=
  .next <| .hostChannel h fun _ _ h1 => h1.reply

theorem canonical_execHostChannelProducer {mbx : Fin 16} {s : State} (h : s.canonical) :
    CanonicalNext (execHostChannelProducer mbx s) :=
  .next <| .hostChannel h fun _ _ h1 => .ite h1.fwReg.reply h1.reply

theorem canonical_execHostChannelTrigger {mbx : Fin 16} {s : State} (h : s.canonical) :
    CanonicalNext (execHostChannelTrigger mbx s) :=
  .next <| .hostChannel h fun _ _ h1 => h1.fwReg.reply

theorem canonical_execHostChannelClear {mbx : Fin 16} {s : State} (h : s.canonical) :
    CanonicalNext (execHostChannelClear mbx s) :=
  .next <| .hostChannel h fun _ _ h1 => h1.fwReg.fwReg.reply

theorem canonical_execBistReport {mbx : Fin 16} {s : State} (h : s.canonical) : CanonicalNext (execBistReport mbx s) :=
  .next <| .serve h fun _ h1 => h1.reply

theorem canonical_execBistConfig {mbx : Fin 16} {s : State} (h : s.canonical) : CanonicalNext (execBistConfig mbx s) :=
  .next <| .serve h fun _ h1 => .ite h1.reply h1.putF.wr.reply

theorem canonical_execCountersRead {mbx : Fin 16} {s : State} (h : s.canonical) : CanonicalNext (execCountersRead mbx s) :=
  .next <| .serve h fun _ h1 => .ite h1.reply h1.reply

theorem canonical_execEventLogRead {mbx : Fin 16} {s : State} (h : s.canonical) : CanonicalNext (execEventLogRead mbx s) :=
  .next <| .serve h fun _ h1 => .ite h1.reply h1.reply

/-! ### The functions of Sys2Proof/Machine/MailLoad.lean -/

theorem canonical_execTickConfig {mbx : Fin 16} {s : State} (h : s.canonical) : CanonicalNext (execTickConfig mbx s) := by
  unfold execTickConfig
  extract_lets +onlyGivenNames n
  refine .next ?_
  refine .serve h (fun _ h1 => ?_)
  split
  · exact h1.reply
  · split
    · exact h1.reply
    · exact h1.writeLdgCtl.wr.wr.wr.wr.wr.wr.wr.putF.wr.reply

theorem State.canonical.setIoMap {s : State} {streams : List StreamEntry} {fields : List FieldEntry} {etype : Nat}
    (h : s.canonical) : (s.setIoMap streams fields etype).canonical :=
  h.onIo.putF

theorem State.canonical.ioMap {s : State} {n : Nat} {st ft : List (List Byte)} (h : s.canonical) :
    (s.ioMap n st ft).canonical := by
  unfold State.ioMap
  extract_lets +onlyGivenNames none4
  split
  · exact h.reply
  · split
    · exact h.reply
    · exact .ite h.reply h.setIoMap.reply

theorem canonical_execIoMapLoad {mbx : Fin 16} {s : State} (h : s.canonical) : CanonicalNext (execIoMapLoad mbx s) := by
  unfold execIoMapLoad
  extract_lets +onlyGivenNames n
  refine .next ?_
  refine .serve h (fun _ h1 => ?_)
  split
  · exact .ite h1.reply (.fwThen h1.fwTable fun _ _ h2 => .fwThen h2.fwTable fun _ _ h3 => h3.ioMap)
  · exact h1.reply

theorem canonical_execFiuRulesLoad {mbx : Fin 16} {s : State} (h : s.canonical) : CanonicalNext (execFiuRulesLoad mbx s) := by
  unfold execFiuRulesLoad
  extract_lets +onlyGivenNames n
  refine .next ?_
  refine .serve h (fun _ h1 => ?_)
  split
  · extract_lets +onlyGivenNames c'
    refine .ite h1.reply ?_
    refine .fwThen h1.fwTable (fun _ _ h2 => ?_)
    split
    · exact h2.reply
    · exact h2.onIo.reply
  · exact h1.reply

theorem State.canonical.setTemplates {s : State} {l : List Template} {fields : List FieldEntry} (h : s.canonical) :
    (s.setTemplates l fields).canonical :=
  .each h.onIo fun _ _ h1 => h1.safeFill

theorem State.canonical.egressLoad {s : State} {n : Nat} {tt ft : List (List Byte)} (h : s.canonical) :
    (s.egressLoad n tt ft).canonical := by
  unfold State.egressLoad
  split
  · exact h.reply
  · split
    · exact h.reply
    · extract_lets +onlyGivenNames l fields
      split
      · exact h.reply
      · extract_lets +onlyGivenNames s1
        have h1 : s1.canonical := h.setTemplates
        split
        · exact h.reply
        · exact h1.reply

theorem canonical_execEgressTemplateLoad {mbx : Fin 16} {s : State} (h : s.canonical) :
    CanonicalNext (execEgressTemplateLoad mbx s) := by
  unfold execEgressTemplateLoad
  extract_lets +onlyGivenNames n
  refine .next ?_
  refine .serve h (fun _ h1 => ?_)
  extract_lets +onlyGivenNames c
  split
  · exact .ite h1.reply (.fwThen h1.fwTable fun _ _ h2 => .fwThen h2.fwTable fun _ _ h3 => h3.egressLoad)
  · exact h1.reply

theorem State.canonical.fabReply {s : State} {n : Nat} (h : s.canonical) : (s.fabReply n).canonical := h.reply

theorem State.canonical.fabRefuse {s : State} {n code at_ : Nat} (h : s.canonical) : (s.fabRefuse n code at_).canonical :=
  h.reply

theorem State.canonical.fabConfig {s : State} {n sub used : Nat} {modes : List Nat} {body : State → State} (h : s.canonical)
    (hbody : ∀ u : State, u.canonical → (body u).canonical) : (s.fabConfig n sub used modes body).canonical :=
  .serveSub h fun _ h1 => .ite h1.fabRefuse (hbody _ h1)

theorem canonical_execFabricConfigDomain {mbx : Fin 16} {s : State} (h : s.canonical) :
    CanonicalNext (execFabricConfigDomain mbx s) :=
  .next <| .fabConfig h fun _ h1 => .ite h1.fabRefuse
    (.ite h1.fabRefuse (.ite h1.fabRefuse (.ite h1.fabRefuse h1.fwReg.fwReg.fwReg.fwReg.fabReply)))

theorem canonical_execFabricConfigToken {mbx : Fin 16} {s : State} (h : s.canonical) :
    CanonicalNext (execFabricConfigToken mbx s) :=
  .next <| .fabConfig h fun _ h1 => .ite h1.fabRefuse h1.setB.fabReply

theorem canonical_execFabricConfigTwin {mbx : Fin 16} {s : State} (h : s.canonical) :
    CanonicalNext (execFabricConfigTwin mbx s) :=
  .next <| .fabConfig h fun _ h1 => .ite h1.fabRefuse h1.fwReg.fabReply

theorem canonical_execFabricConfigRejoinRegions {mbx : Fin 16} {s : State} (h : s.canonical) :
    CanonicalNext (execFabricConfigRejoinRegions mbx s) := by
  unfold execFabricConfigRejoinRegions
  extract_lets +onlyGivenNames n
  refine .next ?_
  refine .fabConfig h (fun _ h1 => ?_)
  extract_lets +onlyGivenNames c
  split
  · exact h1.fabRefuse
  · refine .ite h1.fabRefuse ?_
    refine .ite h1.fabRefuse ?_
    refine .fwThen h1.fwTable (fun _ _ h2 => ?_)
    split
    · exact h2.fabRefuse
    · exact h2.onFab.fabReply

theorem canonical_execFabricConfigTwinRegions {mbx : Fin 16} {s : State} (h : s.canonical) :
    CanonicalNext (execFabricConfigTwinRegions mbx s) := by
  unfold execFabricConfigTwinRegions
  extract_lets +onlyGivenNames n
  refine .next ?_
  refine .fabConfig h (fun _ h1 => ?_)
  extract_lets +onlyGivenNames c
  split
  · exact h1.fabRefuse
  · refine .ite h1.fabRefuse ?_
    refine .ite h1.fabRefuse ?_
    refine .fwThen h1.fwTable (fun _ _ h2 => ?_)
    split
    · exact h2.fabRefuse
    · extract_lets +onlyGivenNames r
      split
      · exact h2.fabRefuse
      · exact h2.onFab.fabReply

/-! ### The functions of Sys2Proof/Machine/MailUpdate.lean -/

theorem State.canonical.updateBegin {s : State} {n : Nat} {th : List Byte} (h : s.canonical) :
    (s.updateBegin n th).canonical := by
  unfold State.updateBegin
  refine .ite h.reply ?_
  refine .ite h.reply ?_
  refine .ite h.reply ?_
  refine .ite h.reply ?_
  split
  · exact h.reply
  next s1 heq =>
    have h1 : s1.canonical := .of_some_eq heq h.lockFor
    exact h1.reply

theorem canonical_execUpdateBegin {mbx : Fin 16} {s : State} (h : s.canonical) : CanonicalNext (execUpdateBegin mbx s) := by
  unfold execUpdateBegin
  extract_lets +onlyGivenNames n
  refine .next ?_
  refine .serve h (fun _ h1 => ?_)
  split
  · exact h1.reply
  · exact .ite h1.reply (.ite h1.reply (.fwThen h1.fwRead fun _ _ h2 => h2.updateBegin))

theorem State.canonical.updateBlock {s : State} {n : Nat} {d : List Byte} (h : s.canonical) :
    (s.updateBlock n d).canonical := by
  unfold State.updateBlock
  split
  next s1 heq =>
    have h1 : s1.canonical := .of_fst_eq heq h.stageBlock
    exact h1.reply
  next s1 heq =>
    have h2 : s1.canonical := .of_fst_eq heq h.stageBlock
    exact h2.reply
  next s1 _ _ _ heq =>
    have h3 : s1.canonical := .of_fst_eq heq h.stageBlock
    exact h3.reply

theorem canonical_execUpdateBlock {mbx : Fin 16} {s : State} (h : s.canonical) : CanonicalNext (execUpdateBlock mbx s) := by
  unfold execUpdateBlock
  extract_lets +onlyGivenNames n
  refine .next ?_
  refine .serve h (fun _ h1 => ?_)
  extract_lets +onlyGivenNames len
  split
  · exact h1.reply
  · exact .ite h1.reply (.ite h1.reply (.ite h1.reply (.ite h1.reply (.fwThen h1.fwRead fun _ _ h2 => h2.updateBlock))))

theorem canonical_execUpdateCommit {mbx : Fin 16} {s : State} (h : s.canonical) : CanonicalNext (execUpdateCommit mbx s) := by
  unfold execUpdateCommit
  extract_lets +onlyGivenNames n
  refine .next ?_
  refine .serve h (fun _ h1 => ?_)
  refine .ite h1.reply ?_
  refine .ite h1.reply ?_
  split
  next s1 _ heq =>
    have h2 : s1.canonical := .of_fst_eq heq h1.commitStaging
    exact h2.reply
  next s1 heq =>
    have h3 : s1.canonical := .of_fst_eq heq h1.commitStaging
    exact h3.reply.recovered

theorem canonical_execUpdateAbort {mbx : Fin 16} {s : State} (h : s.canonical) : CanonicalNext (execUpdateAbort mbx s) :=
  .next <| .serve h fun _ h1 => .ite h1.reply (.ite h1.detach.reply h1.reply)

theorem canonical_execUpdateStatus {mbx : Fin 16} {s : State} (h : s.canonical) : CanonicalNext (execUpdateStatus mbx s) :=
  .next <| .serve h fun _ h1 => h1.reply

theorem canonical_execUpdateConfirm {mbx : Fin 16} {s : State} (h : s.canonical) : CanonicalNext (execUpdateConfirm mbx s) := by
  unfold execUpdateConfirm
  extract_lets +onlyGivenNames n
  refine .next ?_
  refine .serve h (fun _ h1 => ?_)
  refine .ite h1.reply ?_
  split
  · exact h1.reply
  · exact h1.confirm.reply

theorem canonical_execSettingsRead {mbx : Fin 16} {s : State} (h : s.canonical) : CanonicalNext (execSettingsRead mbx s) := by
  unfold execSettingsRead
  extract_lets +onlyGivenNames n
  refine .next ?_
  refine .serve h (fun _ h1 => ?_)
  split
  · exact h1.reply
  · refine .ite h1.reply ?_
    refine .ite h1.reply ?_
    split
    · exact h1.reply
    · exact .ite h1.reply (.fwThen h1.fwWrite fun _ _ h2 => h2.reply)

theorem State.canonical.settingsWrite {s : State} {n : Nat} {d : List Byte} (h : s.canonical) :
    (s.settingsWrite n d).canonical :=
  .ite h.reply h.writeSettings.onFw.reply

theorem canonical_execSettingsWrite {mbx : Fin 16} {s : State} (h : s.canonical) : CanonicalNext (execSettingsWrite mbx s) := by
  unfold execSettingsWrite
  extract_lets +onlyGivenNames n
  refine .next ?_
  refine .serve h (fun _ h1 => ?_)
  extract_lets +onlyGivenNames len
  split
  · exact h1.reply
  · exact .ite h1.reply
      (.ite h1.reply (.ite h1.reply
      (.ite h1.reply (.ite h1.settingsWrite (.ite h1.reply (.fwThen h1.fwRead fun _ _ h2 => h2.settingsWrite))))))

/-- One step of the walk. The write stands behind a name of its own: the kernel would otherwise compute it. -/
theorem writeDescs_cons {s : State} {n i : Nat} {b : List Byte} {l : List (Nat × List Byte)} {r : State × FwRes (List Byte)} :
    s.fwWrite n (s.descAddr (8 * i)) b = r → s.writeDescs n ((i, b) :: l) = match r with
      | (s1, .ok _) => s1.writeDescs n l
      | (s1, .err c) => (s1, .err c)
      | (s1, .wait) => (s1, .wait) := by
  obtain ⟨w, hw⟩ : ∃ w, w = State.fwWrite := ⟨_, rfl⟩
  generalize hg : State.writeDescs = g
  delta State.writeDescs at hg
  generalize hf : State.writeDescs._f = f at hg
  delta State.writeDescs._f at hf
  rw [← hw] at hf ⊢
  clear hw
  intro hr
  subst hr hg hf
  rfl

theorem State.canonical.writeDescs {s : State} {n : Nat} {l : List (Nat × List Byte)} (h : s.canonical) :
    (s.writeDescs n l).1.canonical := by
  induction l generalizing s with
  | nil => exact h
  | cons a t ih =>
    generalize hr : s.fwWrite n (s.descAddr (8 * a.1)) a.2 = r
    have h1 : r.1.canonical := hr ▸ h.fwWrite
    rw [writeDescs_cons hr]
    obtain ⟨s1, _ | c | _⟩ := r
    · exact ih h1
    · exact h1
    · exact h1

theorem State.canonical.taskLoad {s : State} {n t : Nat} {img : List Byte} {list : List (List Byte)} {idx : List Nat}
    (h : s.canonical) : (s.taskLoad n t img list idx).canonical :=
  .fwThen h.fwWrite fun _ _ h1 => .fwThen h1.writeDescs fun _ _ h2 => h2.onFw.wr.wr.putF.reply

theorem State.canonical.taskFit {s : State} {n t : Nat} {img : List Byte} {list : List (List Byte)} (h : s.canonical) :
    (s.taskFit n t img list).canonical :=
  .ite h.reply (.ite h.reply (.fwThen h.fwTable fun _ _ h1 => .ite h1.reply h1.taskLoad))

theorem canonical_execTaskLoad {mbx : Fin 16} {s : State} (h : s.canonical) : CanonicalNext (execTaskLoad mbx s) := by
  unfold execTaskLoad
  extract_lets +onlyGivenNames n
  refine .next ?_
  refine .serve h (fun _ h1 => ?_)
  extract_lets +onlyGivenNames t len cnt
  split
  · exact .ite h1.reply
      (.ite h1.reply (.ite h1.reply
      (.ite h1.reply (.ite h1.reply (.fwThen h1.fwRead fun _ _ h2 => .fwThen h2.fwTable fun _ _ h3 => h3.taskFit)))))
  · exact h1.reply

theorem canonical_execTaskStart {mbx : Fin 16} {s : State} (h : s.canonical) : CanonicalNext (execTaskStart mbx s) := by
  unfold execTaskStart
  extract_lets +onlyGivenNames n
  refine .next ?_
  refine .serve h (fun _ h1 => ?_)
  extract_lets +onlyGivenNames t
  refine .ite h1.reply ?_
  refine .ite h1.reply ?_
  refine .ite h1.reply ?_
  extract_lets +onlyGivenNames v far
  have h2 : far.1.canonical := by
    unfold far
    split
    · exact .fwAcc h1
    · exact h1
  exact .fwThen h2 fun _ _ h3 => h3.writeStmCtl.reply

theorem canonical_execTaskStop {mbx : Fin 16} {s : State} (h : s.canonical) : CanonicalNext (execTaskStop mbx s) :=
  .next <| .serve h fun _ h1 => .ite h1.reply (.ite h1.reply (.ite h1.reply (.ite h1.reply h1.onHost.writeStmCtl)))

/-! ### The functions of Sys2Proof/Machine/Region.lean -/

theorem State.canonical.regionEnd {s : State} {n status : Nat} {w : RegionWork} {code addr : Nat} (h : s.canonical) :
    (s.regionEnd n status w code addr).canonical :=
  h.reply

theorem State.canonical.regionWait {s : State} {n : Nat} {w : RegionWork} (h : s.canonical) : (s.regionWait n w).canonical :=
  h.onHost

theorem State.canonical.regionIssue {s : State} {n : Nat} {w : RegionWork} (h : s.canonical) :
    (s.regionIssue n w).canonical := by
  unfold State.regionIssue
  extract_lets +onlyGivenNames a
  split
  · exact h.regionEnd
  · extract_lets +onlyGivenNames s1
    have h1 : s1.canonical := h.setBytes
    split
    next s2 heq1 =>
      have h2 : s2.canonical := .of_fst_eq heq1 h1.askLedger
      exact h2.regionEnd
    next s2 heq1 =>
      have h3 : s2.canonical := .of_fst_eq heq1 h1.askLedger
      exact h3.regionWait
    next s2 _ _ _ heq1 =>
      have h4 : s2.canonical := .of_fst_eq heq1 h1.askLedger
      exact h4.regionWait

theorem State.canonical.clearAnswers {s : State} {n : Nat} (h : s.canonical) : (s.clearAnswers n).canonical := h.onHost

theorem State.canonical.copyUnits {s : State} {n x : Nat} {x1 : RegionWork} (h : s.canonical) :
    (s.copyUnits n x x1).1.canonical := by
  induction x generalizing s x1 with
  | zero =>
    unfold State.copyUnits
    exact h
  | succ n' ih =>
    unfold State.copyUnits
    refine .fst_ite h ?_
    extract_lets +onlyGivenNames got
    have h1 : got.1.canonical := .fst_ite h h.fwRead
    clear_value got
    split
    · exact h1
    · exact h1
    · split
      next s21 _ heq =>
        exact .of_fst_eq heq (.fwWrite h1)
      next s21 heq =>
        exact .of_fst_eq heq (.fwWrite h1)
      next s21 _ heq =>
        have h4 : s21.canonical := .of_fst_eq heq (.fwWrite h1)
        exact ih h4.clearAnswers

theorem State.canonical.regionCopy {s : State} {n k : Nat} {w : RegionWork} (h : s.canonical) :
    (s.regionCopy n k w).canonical := by
  unfold State.regionCopy
  split
  next s1 _ _ _ _ heq =>
    have h1 : s1.canonical := .of_fst_eq heq h.copyUnits
    exact h1.regionEnd
  next s1 _ _ heq =>
    have h2 : s1.canonical := .of_fst_eq heq h.copyUnits
    exact .ite h2.regionEnd h2.regionWait

theorem State.canonical.regionIdle {s : State} {n : Nat} {w : RegionWork} (h : s.canonical) : (s.regionIdle n w).canonical :=
  .ite h.regionWait (.ite (.ite h.regionCopy h.regionWait) h.updated.regionCopy)

theorem State.canonical.regionNext {s : State} {n : Nat} {w : RegionWork} (h : s.canonical) : (s.regionNext n w).canonical :=
  .ite h.regionEnd (.ite h.regionEnd (.ite h.regionCopy (.ite h.regionIdle h.regionIssue)))

theorem State.canonical.regionOn {s : State} {n : Nat} {w : RegionWork} (h : s.canonical) : (s.regionOn n w).canonical := by
  unfold State.regionOn
  split
  · exact h.regionNext
  · refine .ite h ?_
    split
    · exact h.regionNext
    · exact h.regionEnd

theorem State.canonical.region {s : State} {n code kind : Nat} (h : s.canonical) : (s.region n code kind).canonical := by
  unfold State.region
  split
  · exact .ite h h.regionOn
  · refine .serve h (fun _ h1 => ?_)
    extract_lets +onlyGivenNames src
    clear_value src
    split
    · exact .ite h1.reply (.ite h1.reply h1.regionNext)
    · exact h1.reply

theorem canonical_execRegionWrite {mbx : Fin 16} {s : State} (h : s.canonical) : CanonicalNext (execRegionWrite mbx s) :=
  .next h.region

theorem canonical_execRegionRead {mbx : Fin 16} {s : State} (h : s.canonical) : CanonicalNext (execRegionRead mbx s) :=
  .next h.region

theorem canonical_execRegionFill {mbx : Fin 16} {s : State} (h : s.canonical) : CanonicalNext (execRegionFill mbx s) :=
  .next h.region

/-! ### The functions of Sys2Proof/Machine/Dispatch.lean -/

theorem canonical_exec {i : Instr} {s : State} (h : s.canonical) : CanonicalNext (exec i s) := by
  unfold exec
  split
  · exact canonical_execPowerUp h
  · exact canonical_execVinLoss h
  · exact canonical_execVinLow h
  · exact canonical_execRailFault h
  · exact canonical_execPorNReset h
  · exact canonical_execRefclkLoss h
  · exact canonical_execPwrRst h
  · exact canonical_execModeRequest h
  · exact canonical_execSafeEntry h
  · exact canonical_execDormantEntry h
  · exact canonical_execWake h
  · exact canonical_execWakeTimerExpire h
  · exact canonical_execClkdivChange h
  · exact canonical_execThermalRise h
  · exact canonical_execThermalTrip h
  · exact canonical_execTick h
  · exact canonical_execGeneratorTick h
  · exact canonical_execTickInEdge h
  · exact canonical_execTickWindowExpire h
  · exact canonical_execSourceReturn h
  · exact canonical_execCommitHold h
  · exact canonical_execCutoff h
  · exact canonical_execDeadline h
  · exact canonical_execOutputTime h
  · exact canonical_execTemplateRelease h
  · exact canonical_execVissue h
  · exact canonical_execJobStart h
  · exact canonical_execStripStart h
  · exact canonical_execJobComplete h
  · exact canonical_execPreempt h
  · exact canonical_execJobCarry h
  · exact canonical_execTopupResume h
  · exact canonical_execPlanEntryStart h
  · exact canonical_execFlushq h
  · exact canonical_execBankPowerChange h
  · exact canonical_execBankClear h
  · exact canonical_execBankScrub h
  · exact canonical_execErrorInjectSbe h
  · exact canonical_execErrorInjectDbe h
  · exact canonical_execDdrTraining h
  · exact canonical_execDdrRefresh h
  · exact canonical_execDimmTempChange h
  · exact canonical_execDdrRetrain h
  · exact canonical_execDdrRetrainRequest h
  · exact canonical_execPatrolScrub h
  · exact canonical_execMatrixGrant h
  · exact canonical_execMatrixResponse h
  · exact canonical_execHoldbackRelease h
  · exact canonical_execFetch h
  · exact canonical_execStoreDrain h
  · exact canonical_execTrapEntry h
  · exact canonical_execThreadStart h
  · exact canonical_execThreadStop h
  · exact canonical_execWaitWake h
  · exact canonical_execSleepExpire h
  · exact canonical_execLd h
  · exact canonical_execLds h
  · exact canonical_execSt h
  · exact canonical_execLdx h
  · exact canonical_execLdy h
  · exact canonical_execStx h
  · exact canonical_execSty h
  · exact canonical_execLeax h
  · exact canonical_execLeay h
  · exact canonical_execXch h
  · exact canonical_execAdd h
  · exact canonical_execAdc h
  · exact canonical_execSub h
  · exact canonical_execSbc h
  · exact canonical_execAnd h
  · exact canonical_execOr h
  · exact canonical_execXor h
  · exact canonical_execCmp h
  · exact canonical_execTst h
  · exact canonical_execAddx h
  · exact canonical_execAddy h
  · exact canonical_execCmpx h
  · exact canonical_execCmpy h
  · exact canonical_execMul h
  · exact canonical_execMulu h
  · exact canonical_execDiv h
  · exact canonical_execDivu h
  · exact canonical_execMull h
  · exact canonical_execShl h
  · exact canonical_execShr h
  · exact canonical_execSar h
  · exact canonical_execRol h
  · exact canonical_execRor h
  · exact canonical_execNeg h
  · exact canonical_execNot h
  · exact canonical_execAbs h
  · exact canonical_execTax h
  · exact canonical_execTxa h
  · exact canonical_execTay h
  · exact canonical_execTya h
  · exact canonical_execTxy h
  · exact canonical_execSwapb h
  · exact canonical_execClz h
  · exact canonical_execJmp h
  · exact canonical_execJeq h
  · exact canonical_execJne h
  · exact canonical_execJlt h
  · exact canonical_execJge h
  · exact canonical_execJltu h
  · exact canonical_execJgeu h
  · exact canonical_execJvs h
  · exact canonical_execJvc h
  · exact canonical_execJmi h
  · exact canonical_execJpl h
  · exact canonical_execCall h
  · exact canonical_execRet h
  · exact canonical_execJxnz h
  · exact canonical_execLoop h
  · exact canonical_execLexit h
  · exact canonical_execSyscall h
  · exact canonical_execTret h
  · exact canonical_execWait h
  · exact canonical_execFence h
  · exact canonical_execRdsr h
  · exact canonical_execWrsr h
  · exact canonical_execLseg h
  · exact canonical_execSleep h
  · exact canonical_execLdl h
  · exact canonical_execStc h
  · exact canonical_execVwait h
  · exact canonical_execVpoll h
  · exact canonical_execVcancel h
  · exact canonical_execDadd h
  · exact canonical_execDsub h
  · exact canonical_execDcmp h
  · exact canonical_execMovb h
  · exact canonical_execFill h
  · exact canonical_execBkpt h
  · exact canonical_execIllegal h
  · exact canonical_execSporeProduce h
  · exact canonical_execSporeArrive h
  · exact canonical_execCountRelay h
  · exact canonical_execRemoteSend h
  · exact canonical_execRemoteSporeArrive h
  · exact canonical_execSpcTrig h
  · exact canonical_execEgressTake h
  · exact canonical_execPmcFreeze h
  · exact canonical_execPmcThaw h
  · exact canonical_execPmcCounterWrite h
  · exact canonical_execBwWindowEnd h
  · exact canonical_execEthFrameReceive h
  · exact canonical_execFrameAccept h
  · exact canonical_execSlotCommit h
  · exact canonical_execImageCopy h
  · exact canonical_execSimFlip h
  · exact canonical_execRecoveryResetTimeout h
  · exact canonical_execSyncReceive h
  · exact canonical_execPeerDelay h
  · exact canonical_execSyncLoss h
  · exact canonical_execEthLinkChange h
  · exact canonical_execPreemptionVerify h
  · exact canonical_execGclChange h
  · exact canonical_execGclActivate h
  · exact canonical_execLinkSignalDetect h
  · exact canonical_execLinkTrained h
  · exact canonical_execLinkAligned h
  · exact canonical_execLinkInit h
  · exact canonical_execLinkRetrain h
  · exact canonical_execLnkRetrainRequest h
  · exact canonical_execResync h
  · exact canonical_execLinkDown h
  · exact canonical_execLnkDownRequest h
  · exact canonical_execPacketSend h
  · exact canonical_execDataPacketReceive h
  · exact canonical_execAck h
  · exact canonical_execNakReceive h
  · exact canonical_execRetryTimeout h
  · exact canonical_execAuditSend h
  · exact canonical_execAudit h
  · exact canonical_execDelayMeasure h
  · exact canonical_execDelay h
  · exact canonical_execAdvertSend h
  · exact canonical_execAdvert h
  · exact canonical_execMember h
  · exact canonical_execAssign h
  · exact canonical_execRoute h
  · exact canonical_execQuorum h
  · exact canonical_execDigest h
  · exact canonical_execRejoin h
  · exact canonical_execRejoinCopy h
  · exact canonical_execCopy h
  · exact canonical_execTickPacket h
  · exact canonical_execRemoteRead h
  · exact canonical_execRemoteWrite h
  · exact canonical_execRemoteAtomic h
  · exact canonical_execRemoteResp h
  · exact canonical_execSpore h
  · exact canonical_execResponseTimeout h
  · exact canonical_execFabAtomGo h
  · exact canonical_execRelayBegin h
  · exact canonical_execRelayBlock h
  · exact canonical_execRelayCommit h
  · exact canonical_execRelayResult h
  · exact canonical_execUsb4LinkTrain h
  · exact canonical_execBar2Read h
  · exact canonical_execBar2Write h
  · exact canonical_execFlr h
  · exact canonical_execCommandAreaWrite h
  · exact canonical_execDoorbell h
  · exact canonical_execPublish h
  · exact canonical_execHifMsireq h
  · exact canonical_execMbxWrite h
  · exact canonical_execMbxRead h
  · exact canonical_execMemWrite h
  · exact canonical_execMemRead h
  · exact canonical_execEp3Report h
  · exact canonical_execIdentify h
  · exact canonical_execGetStatus h
  · exact canonical_execSetMode h
  · exact canonical_execGetMode h
  · exact canonical_execRegionWrite h
  · exact canonical_execRegionRead h
  · exact canonical_execRegionFill h
  · exact canonical_execPlanLoad h
  · exact canonical_execPlanActivate h
  · exact canonical_execPlanQuery h
  · exact canonical_execTickConfig h
  · exact canonical_execIoMapLoad h
  · exact canonical_execFiuRulesLoad h
  · exact canonical_execEgressTemplateLoad h
  · exact canonical_execFabricStatus h
  · exact canonical_execFabricConfigDomain h
  · exact canonical_execFabricConfigToken h
  · exact canonical_execFabricConfigTwin h
  · exact canonical_execFabricConfigRejoinRegions h
  · exact canonical_execFabricConfigTwinRegions h
  · exact canonical_execHostChannelRead h
  · exact canonical_execHostChannelProducer h
  · exact canonical_execHostChannelTrigger h
  · exact canonical_execHostChannelClear h
  · exact canonical_execUpdateBegin h
  · exact canonical_execUpdateBlock h
  · exact canonical_execUpdateCommit h
  · exact canonical_execUpdateAbort h
  · exact canonical_execUpdateStatus h
  · exact canonical_execUpdateConfirm h
  · exact canonical_execUpdateLockTimeout h
  · exact canonical_execTrialMinute h
  · exact canonical_execFuseProgram h
  · exact canonical_execFuseDone h
  · exact canonical_execKeylock h
  · exact canonical_execBistReport h
  · exact canonical_execBistConfig h
  · exact canonical_execCountersRead h
  · exact canonical_execTaskLoad h
  · exact canonical_execTaskStart h
  · exact canonical_execTaskStop h
  · exact canonical_execSettingsRead h
  · exact canonical_execSettingsWrite h
  · exact canonical_execEventLogRead h
  · exact canonical_execBankSlice h
  · exact canonical_execSliceAbort h
  · exact canonical_execFrondSlice h
  · exact canonical_execAnalogueSlice h
  · exact canonical_execDbgaccUpdate h
  · exact canonical_execDbgaccCapture h
  · exact canonical_execDbgAuthNew h
  · exact canonical_execDbgAuthSubmit h
  · exact canonical_execDbgAuthRevoke h
  · exact canonical_execAuthDelayExpire h
  · exact canonical_execTrstN h
  · exact canonical_execDebugHalt h
  · exact canonical_execHaltComplete h
  · exact canonical_execDebugResume h
  · exact canonical_execDebugStep h
  · exact canonical_execStepComplete h
  · exact canonical_execDbgTregAccess h
  · exact canonical_execStimulusWrite h
  · exact canonical_execTraceDrain h
  · exact canonical_execWatchdogEnable h
  · exact canonical_execWatchdogService h
  · exact canonical_execWatchdogPrebite h
  · exact canonical_execWatchdogBite h
  · exact canonical_execTimerStart h
  · exact canonical_execTimerStop h
  · exact canonical_execTimerExpire h
  · exact canonical_execGpioEdge h
  · exact canonical_execI2cWrite h
  · exact canonical_execI2cRead h
  · exact canonical_execMgtRefresh h
  · exact canonical_execReadClear h
  · exact canonical_execRegisterWrite h
  · exact canonical_execGclIntervalEnd h
  · exact canonical_execEthTransmitEnd h
  · exact canonical_execRetrainTimeout h
  · exact canonical_execPmcCounterWrap h

/-! ### The functions of Sys2Proof/Machine/Step.lean -/

theorem canonical_step {s : State} (h : s.canonical) : CanonicalNext (step s) := by
  unfold step
  split
  · exact .next h.idle
  · exact canonical_exec h.updated

/-- Settles O4: a step is the effect of the command at the front of the queue, and every command keeps the form. -/
theorem stepKeepsCanonical : Obligations.StepKeepsCanonical := fun _ u h hu => canonical_step h u hu

end Sys2Proof.Machine

/-! ## The state after reset (O2) -/

namespace Sys2Proof.Machine

/-- T0 starts at the first word of the Boot ROM, its bytes little-endian: they fit in a word. -/
theorem bootEntry_toNat : bootEntry.toNat = (Config.bootRom 0).toNat + (Config.bootRom 1).toNat * 2 ^ 8 +
    (Config.bootRom 2).toNat * 2 ^ 16 + (Config.bootRom 3).toNat * 2 ^ 24 := by
  have h0 := (Config.bootRom 0).isLt
  have h1 := (Config.bootRom 1).isLt
  have h2 := (Config.bootRom 2).isLt
  have h3 := (Config.bootRom 3).isLt
  unfold bootEntry
  rw [BitVec.toNat_ofNat]
  omega

/-- Every thread but T0 is as it was built: STOPPED, its registers 0. -/
theorem thr_reset_other : ∀ t : Tid, t ≠ 0 → State.reset.thr t.val = ({} : Thread)
  | 0, h => absurd rfl h
  | 1, _ | 2, _ | 3, _ | 4, _ | 5, _ | 6, _ | 7, _ => rfl

/-- The reset values of every bank's power and scrub registers. -/
theorem rd_reset_bank : ∀ b : Fin 18,
    State.reset.rd (R.BANK_PWR b.val) = 0x24 ∧ State.reset.rd (R.BANK_SCRUB b.val) = 0x10100 := by
  decide +kernel

/-- Settles O2: the register file lists nothing, so each register reads as its row's reset value. -/
theorem resetState : Obligations.ResetState := by
  have hregs : State.reset.rd R.DDRC_CFG = 0x30 ∧ State.reset.rd R.DDRC_RTCFG = 0x3E8 ∧ State.reset.rd R.MTX_AGE = 0x400 ∧
      State.reset.rd R.MTX_LATE = 0x100 := by decide +kernel
  have hmode : State.reset.mode = 0 := by decide +kernel
  have hpl : (State.reset.thr 0).pl = 3 := by decide +kernel
  obtain ⟨hcfg, hrt, hage, hlate⟩ := hregs
  exact ⟨fun _ => rfl, hmode, canonical_reset, rd_reset_bank, hcfg, hrt, hage, hlate, rfl, bootEntry_toNat, hpl, rfl,
    thr_reset_other, rfl, rfl, rfl, rfl, rfl⟩

end Sys2Proof.Machine

/-! ## Register accesses (O51) -/

namespace Sys2Proof.Machine

/-! ### The path to a register -/

section
variable {s s0 s1 : State} {o : Origin} {off size c : Nat} {v x : Word}

/-- An access that is let through passes the check of the master's rights in control space. -/
theorem Reaches.isOpen (h : Reaches s o off) : ¬ (s.ctlOpen o = false ∧ (!(o == .debug && openReg off)) = true) := by
  obtain ⟨_, _, _, ho | ⟨ho, hr⟩⟩ := h
  · simp [ho]
  · simp [ho, hr]

theorem csWrite_noRegister (h : Reaches s o off) (hr : regRow off = none) (ha : off % 4 = 0) :
    s.csWrite o off 4 v = (s, some 0) := by
  unfold State.csWrite
  rw [if_neg h.isOpen, if_neg (by simp [ha]), hr]

theorem csRead_noRegister (h : Reaches s o off) (hr : regRow off = none) (ha : off % 4 = 0) :
    s.csRead o off 4 = (s, .err 0) := by
  unfold State.csRead
  rw [if_neg h.isOpen, if_neg (by simp [ha]), hr]

theorem csWrite_size (h : Reaches s o off) (hn : size ≠ 4) : s.csWrite o off size v = (s, some 2) := by
  unfold State.csWrite
  rw [if_neg h.isOpen, if_pos (.inl hn)]

/-- What a write does once the master's older requests have completed. -/
theorem sizedWrite_older (hr : s.reaches o = true) (hd : s.dbgDenies o off = false) (h0 : s.olderDone o = some s0)
    (hn : size = 4 → s0.descAsk o off v = none) :
    s.sizedWrite o off size v = State.wrote o off (s0.ctlWrite (.control o) off size v) := by
  have hask : (if size = 4 then s0.descAsk o off v else none) = none := by
    split
    · exact hn ‹_›
    · rfl
  unfold State.sizedWrite
  simp only [hr, hd, h0, hask]
  rfl

theorem sizedWrite_waits (hr : s.reaches o = true) (hd : s.dbgDenies o off = false) (h0 : s.olderDone o = none) :
    s.sizedWrite o off size v = s := by
  unfold State.sizedWrite
  simp only [hr, hd, h0]
  rfl

theorem regRead_waits (hr : s.reaches o = true) (hd : s.dbgDenies o off = false) (h0 : s.olderDone o = none) :
    s.regRead o off = s := by
  unfold State.regRead
  simp only [hr, hd, h0]
  rfl

/-- A write whose master has older requests is that write on the state in which they have completed. -/
theorem sizedWrite_eq_of_older (hr : s.reaches o = true) (hd : s.dbgDenies o off = false) (h0 : s.olderDone o = some s0)
    (h : Reaches s0 o off) : s.sizedWrite o off size v = s0.sizedWrite o off size v := by
  obtain ⟨hr0, hd0, hs0, _⟩ := h
  unfold State.sizedWrite
  simp only [hr, hd, h0, hr0, hd0, hs0, Bool.true_eq_false, Bool.false_eq_true, if_false]

/-- The same of a read. -/
theorem regRead_eq_of_older (hr : s.reaches o = true) (hd : s.dbgDenies o off = false) (h0 : s.olderDone o = some s0)
    (h : Reaches s0 o off) : s.regRead o off = s0.regRead o off := by
  obtain ⟨hr0, hd0, hs0, _⟩ := h
  unfold State.regRead
  simp only [hr, hd, h0, hr0, hd0, hs0, Bool.true_eq_false, Bool.false_eq_true, if_false]

theorem ctlWrite_control : s.ctlWrite (.control o) off size v =
    ((s.csWrite o off size v).1.accessDone, (s.csWrite o off size v).2) := rfl

theorem ctlRead_control : s.ctlRead (.control o) off size = ((s.csRead o off size).1.accessDone, (s.csRead o off size).2) := rfl

theorem sizedWrite_accepted (h : Reaches s o off) (hn : size = 4 → s.descAsk o off v = none)
    (hw : s.csWrite o off size v = (s1, none)) : s.sizedWrite o off size v = s1.accepted o := by
  obtain ⟨hr, hd, h0, _⟩ := h
  rw [sizedWrite_older hr hd h0 hn, ctlWrite_control, hw]
  rfl

theorem sizedWrite_refused (h : Reaches s o off) (hn : size = 4 → s.descAsk o off v = none)
    (hw : s.csWrite o off size v = (s1, some c)) : s.sizedWrite o off size v = s1.accessDone.refused o true c off := by
  obtain ⟨hr, hd, h0, _⟩ := h
  rw [sizedWrite_older hr hd h0 hn, ctlWrite_control, hw]
  rfl

theorem regRead_ok (h : Reaches s o off) (hw : s.csRead o off 4 = (s1, .ok x)) (ho : o ≠ .debug) :
    s.regRead o off = s1.accessDone.emit (.readData x) := by
  obtain ⟨hr, hd, h0, _⟩ := h
  unfold State.regRead
  simp only [hr, hd, h0, ctlRead_control, hw, if_neg ho]
  rfl

theorem regRead_err (h : Reaches s o off) (hw : s.csRead o off 4 = (s1, .err c)) :
    s.regRead o off = s1.accessDone.refused o false c off := by
  obtain ⟨hr, hd, h0, _⟩ := h
  unfold State.regRead
  simp only [hr, hd, h0, ctlRead_control, hw]
  rfl

/-- A host's aligned word write is its BAR0 effect, after which the clk of the access is over. -/
theorem ctlWrite_bar0 (ha : off % 4 = 0) : (s.ctlWrite .bar0 off 4 v).1 = (s.bar0Write off v).accessDone := by
  unfold State.ctlWrite
  simp only [ha, and_self, if_true]

theorem ctlRead_bar0 (ha : off % 4 = 0) :
    s.ctlRead .bar0 off 4 = ((s.bar0Read off).1.accessDone, .ok (s.bar0Read off).2) := by
  unfold State.ctlRead
  simp only [ha, and_self, if_true]

theorem bar0Write_reserved {r : RegRow} (hx : off < 0x1060) (hr : regRow (0x300000 + off) = some r) (hv : r.accepts v = false) :
    s.bar0Write off v = s.busError 12 30 true 7 (csBase + (0x300000 + off)) := by
  unfold State.bar0Write
  simp only [if_pos hx, hr, hv]
  rfl
end

/-! ### What the access codes leave of each bit -/

section
variable (s : State) (r : RegRow) (off : Nat) (v : Word)

theorem rd_setReg (i : Nat) : (s.setReg off v).rd i = if i = off then v else s.rd i := sget_sput regReset s.csr off i v

/-- A bit that an event of the same clk has changed keeps its value; every other takes the one that software gives it. -/
theorem b_soft {i : Nat} (hi : i < 32) :
    (s.soft off v).b off i = if (s.before off).getLsbD i = s.b off i then v.getLsbD i else s.b off i := by
  unfold State.soft State.b
  rw [rd_setReg, if_pos rfl]
  simp only [BitVec.getLsbD_or, BitVec.getLsbD_and, BitVec.getLsbD_xor, BitVec.getLsbD_not, hi, decide_true, Bool.true_and]
  cases (s.before off).getLsbD i <;> cases (s.rd off).getLsbD i <;> simp

theorem rd_soft_other {i : Nat} (hi : i ≠ off) : (s.soft off v).rd i = s.rd i := by
  unfold State.soft
  rw [rd_setReg, if_neg hi]

/-- The value that RW, W1C and W1S bits would take with no event in the clk of the write. -/
def State.codes : Word :=
  (((s.rd off &&& ~~~ BitVec.ofNat 32 r.rw) ||| (v &&& BitVec.ofNat 32 r.rw)) &&&
    ~~~ (v &&& BitVec.ofNat 32 r.w1c &&& ~~~ s.fresh off)) ||| (v &&& BitVec.ofNat 32 r.w1s)

theorem getLsbD_codes {i : Nat} (hi : i < 32) : (s.codes r off v).getLsbD i =
    (((s.b off i && !r.rw.testBit i || v.getLsbD i && r.rw.testBit i) &&
      !(v.getLsbD i && r.w1c.testBit i && !(s.fresh off).getLsbD i)) || v.getLsbD i && r.w1s.testBit i) := by
  unfold State.codes State.b
  simp only [BitVec.getLsbD_or, BitVec.getLsbD_and, BitVec.getLsbD_not, BitVec.getLsbD_ofNat, hi, decide_true, Bool.true_and]

/-- Without a WL field left to lock, a write is that of the other codes. -/
theorem plain_of_noLock (h : r.wl = 0 ∨ s.locked.contains off = true) : s.plain r off v = s.soft off (s.codes r off v) :=
  if_pos h

/-- A WL field takes the first write and is locked by it. -/
theorem plain_of_lock (h : ¬ (r.wl = 0 ∨ s.locked.contains off = true)) : s.plain r off v =
    { (s.soft off (s.codes r off v)).setReg off (((s.soft off (s.codes r off v)).rd off &&& ~~~ BitVec.ofNat 32 r.wl) |||
      (v &&& BitVec.ofNat 32 r.wl)) with locked := off :: s.locked } := if_neg h

/-- A bit of a register after a write under the access codes. -/
theorem b_plain {i : Nat} (hi : i < 32) : (s.plain r off v).b off i =
    if r.wl.testBit i = true ∧ s.locked.contains off = false then v.getLsbD i
    else if (s.before off).getLsbD i = s.b off i then (s.codes r off v).getLsbD i else s.b off i := by
  rw [← b_soft s off (s.codes r off v) hi]
  by_cases h : r.wl = 0 ∨ s.locked.contains off = true
  · rw [plain_of_noLock s r off v h, if_neg]
    rintro ⟨hw, hl⟩
    rcases h with h | h
    · simp [h] at hw
    · exact absurd (h.symm.trans hl) (by decide)
  · have hl : s.locked.contains off = false := Bool.eq_false_of_not_eq_true (not_or.mp h).2
    rw [plain_of_lock s r off v h]
    unfold State.b
    change (State.rd (State.setReg _ _ _) off).getLsbD i = _
    rw [rd_setReg, if_pos rfl]
    simp only [BitVec.getLsbD_or, BitVec.getLsbD_and, BitVec.getLsbD_not, BitVec.getLsbD_ofNat, hi, decide_true, Bool.true_and]
    rw [hl]
    cases r.wl.testBit i <;> simp

/-- A write under the access codes touches its register alone. -/
theorem plain_frame : SameRegsBut [off] s (s.plain r off v) ∧ SameMemory s (s.plain r off v) ∧ (s.plain r off v).jobs = s.jobs ∧
    (s.plain r off v).threads = s.threads := by
  by_cases h : r.wl = 0 ∨ s.locked.contains off = true
  · rw [plain_of_noLock s r off v h]
    exact ⟨fun i hi => rd_soft_other s off _ (by simpa using hi), fun _ => rfl, rfl, rfl⟩
  · rw [plain_of_lock s r off v h]
    refine ⟨fun i hi => ?_, fun _ => rfl, rfl, rfl⟩
    have hne : i ≠ off := by simpa using hi
    exact ((rd_setReg _ off _ i).trans (if_neg hne)).trans (rd_soft_other s off _ hne)

/-- Masks that do not meet have no bit in common. -/
theorem testBit_false_of_disjoint {a b i : Nat} (h : a &&& b = 0) (ha : a.testBit i = true) : b.testBit i = false := by
  have hab : (a &&& b).testBit i = false := by rw [h]; exact Nat.zero_testBit i
  simpa [ha] using hab
end

/-! ### The bus error log -/

/-- A bus error's entry in MTX_ERR. -/
def errWord (m t : Nat) (w : Bool) (c : Nat) : Word := BitVec.ofNat 32 (m + t * 16 + b2n w * 1024 + c * 2048 + 2 ^ 31)

section
variable {m t c a : Nat} {w : Bool}

theorem errWord_toNat (hm : m < 16) (ht : t < 64) (hc : c < 8) :
    (errWord m t w c).toNat = m + t * 16 + b2n w * 1024 + c * 2048 + 2 ^ 31 := by
  have hw : b2n w < 2 := by cases w <;> decide
  unfold errWord
  rw [BitVec.toNat_ofNat]
  omega

/-- The fields of the entry: they do not overlap. -/
theorem errWord_fields (hm : m < 16) (ht : t < 64) (hc : c < 8) :
    (errWord m t w c).getLsbD 31 = true ∧ fld (errWord m t w c) 3 0 = m ∧ fld (errWord m t w c) 9 4 = t ∧
    (errWord m t w c).getLsbD 10 = w ∧ fld (errWord m t w c) 13 11 = c := by
  have hw : b2n w < 2 := by cases w <;> decide
  have hbit : ∀ i, (errWord m t w c).getLsbD i = decide ((errWord m t w c).toNat / 2 ^ i % 2 = 1) := fun i =>
    Nat.testBit_eq_decide_div_mod_eq
  have hdir : decide (b2n w = 1) = w := by cases w <;> rfl
  simp only [hbit, fld, bits, errWord_toNat hm ht hc]
  refine ⟨?_, ?_, ?_, ?_, ?_⟩
  · simp only [decide_eq_true_eq]; omega
  · omega
  · omega
  · rw [show (m + t * 16 + b2n w * 1024 + c * 2048 + 2 ^ 31) / 2 ^ 10 % 2 = b2n w by omega, hdir]
  · omega
end

section
variable (s : State) (m t : Nat) (w : Bool) (c a : Nat)

/-- With an error held only the count goes on. -/
theorem busError_held (h : s.b R.MTX_ERR 31 = true) : s.busError m t w c a = s.count R.MTX_ERRCNT 32 1 := by
  have hc : (s.count R.MTX_ERRCNT 32 1).b R.MTX_ERR 31 = true :=
    h ▸ congrArg (BitVec.getLsbD · 31) (rd_count_other s 32 1 (by decide))
  exact if_pos hc

/-- With none held the error is recorded. -/
theorem busError_free (h : s.b R.MTX_ERR 31 = false) : s.busError m t w c a =
    (((s.count R.MTX_ERRCNT 32 1).wr R.MTX_ERR (errWord m t w c)).wr R.MTX_ERRADDR_LO (BitVec.ofNat 32 a)).wr R.MTX_ERRADDR_HI
      (BitVec.ofNat 32 (a / 2 ^ 32 % 65536)) := by
  have hc : (s.count R.MTX_ERRCNT 32 1).b R.MTX_ERR 31 = false :=
    h ▸ congrArg (BitVec.getLsbD · 31) (rd_count_other s 32 1 (by decide))
  exact if_neg (by rw [hc]; decide)

/-- What the registers of the log read as after an error that is recorded. -/
theorem rd_busError_free (h : s.b R.MTX_ERR 31 = false) :
    (s.busError m t w c a).rd R.MTX_ERR = errWord m t w c ∧ (s.busError m t w c a).rd R.MTX_ERRADDR_LO = BitVec.ofNat 32 a ∧
    (s.busError m t w c a).rd R.MTX_ERRADDR_HI = BitVec.ofNat 32 (a / 2 ^ 32 % 65536) := by
  rw [busError_free s m t w c a h]
  refine ⟨?_, ?_, rd_wr_same _ _ _⟩
  · rw [rd_wr_other _ _ (by decide), rd_wr_other _ _ (by decide), rd_wr_same]
  · rw [rd_wr_other _ _ (by decide), rd_wr_same]

/-- Registers outside the record are as after the count. -/
theorem rd_busError_other {r : Nat} (h1 : r ≠ R.MTX_ERR) (h2 : r ≠ R.MTX_ERRADDR_LO) (h3 : r ≠ R.MTX_ERRADDR_HI) :
    (s.busError m t w c a).rd r = (s.count R.MTX_ERRCNT 32 1).rd r := by
  cases h : s.b R.MTX_ERR 31 with
  | true => rw [busError_held s m t w c a h]
  | false => rw [busError_free s m t w c a h, rd_wr_other _ _ h3, rd_wr_other _ _ h2, rd_wr_other _ _ h1]

theorem rd_busError_count : ((s.busError m t w c a).rd R.MTX_ERRCNT).toNat = min ((s.rd R.MTX_ERRCNT).toNat + 1) (2 ^ 32 - 1) := by
  rw [rd_busError_other s m t w c a (by decide) (by decide) (by decide), ← f_whole, ← f_whole]
  exact f_count s R.MTX_ERRCNT 1 (w := 32) (by decide) (by decide)

/-- Equal memories hold equal bytes. -/
theorem SameMemory.of_mem {s u : State} (h : u.mem = s.mem) : SameMemory s u :=
  fun a => congrArg (fun x : Memory => sget memDefault x.cells a) h

/-- The log is all that a bus error changes. -/
theorem busError_frame : SameRegsBut [R.MTX_ERRCNT, R.MTX_ERR, R.MTX_ERRADDR_LO, R.MTX_ERRADDR_HI] s (s.busError m t w c a) ∧
    SameMemory s (s.busError m t w c a) ∧ (s.busError m t w c a).threads = s.threads ∧ (s.busError m t w c a).jobs = s.jobs := by
  refine ⟨fun r hr => ?_, ?_⟩
  · simp only [List.mem_cons, List.not_mem_nil, or_false, not_or] at hr
    obtain ⟨hcnt, herr, hlo, hhi⟩ := hr
    rw [rd_busError_other s m t w c a herr hlo hhi, rd_count_other s 32 1 hcnt]
  · cases h : s.b R.MTX_ERR 31 with
    | true => rw [busError_held s m t w c a h]; exact ⟨.of_mem (mem_count ..), threads_count .., jobs_count ..⟩
    | false =>
      rw [busError_free s m t w c a h]
      refine ⟨.of_mem ?_, ?_, ?_⟩
      · rw [mem_wr, mem_wr, mem_wr, mem_count]
      · rw [threads_wr, threads_wr, threads_wr, threads_count]
      · rw [jobs_wr, jobs_wr, jobs_wr, jobs_count]
end

/-! ### The statement's five parts -/

section
variable (s s0 s1 : State) (o : Origin) (off size c : Nat) (v x : Word)

theorem access_answers (h : Reaches s o off) :
    ((size = 4 → s.descAsk o off v = none) → s.csWrite o off size v = (s1, none) →
      exec (.registerWrite (.control o) off size v) s = .next (s1.accepted o)) ∧
    ((size = 4 → s.descAsk o off v = none) → s.csWrite o off size v = (s1, some c) →
      exec (.registerWrite (.control o) off size v) s = .next (s1.accessDone.refused o true c off)) ∧
    (s.csRead o off 4 = (s1, .ok x) → o ≠ .debug →
      exec (.readClear (.control o) off) s = .next (s1.accessDone.emit (.readData x))) ∧
    (s.csRead o off 4 = (s1, .err c) →
      exec (.readClear (.control o) off) s = .next (s1.accessDone.refused o false c off)) ∧
    (regRow off = none → off % 4 = 0 → s.csWrite o off 4 v = (s, some 0) ∧ s.csRead o off 4 = (s, .err 0)) ∧
    (size ≠ 4 → s.csWrite o off size v = (s, some 2)) :=
  ⟨fun hn hw => congrArg Host.Outcome.next (sizedWrite_accepted h hn hw),
    fun hn hw => congrArg Host.Outcome.next (sizedWrite_refused h hn hw),
    fun hw ho => congrArg Host.Outcome.next (regRead_ok h hw ho), fun hw => congrArg Host.Outcome.next (regRead_err h hw),
    fun hr ha => ⟨csWrite_noRegister h hr ha, csRead_noRegister h hr ha⟩, fun hn => csWrite_size h hn⟩

theorem access_waits (hr : s.reaches o = true) (hd : s.dbgDenies o off = false) :
    (s.olderDone o = none →
      exec (.registerWrite (.control o) off 4 v) s = .next s ∧ exec (.readClear (.control o) off) s = .next s) ∧
    (s.olderDone o = some s0 → Reaches s0 o off →
      exec (.registerWrite (.control o) off 4 v) s = exec (.registerWrite (.control o) off 4 v) s0 ∧
      exec (.readClear (.control o) off) s = exec (.readClear (.control o) off) s0) :=
  ⟨fun h0 => ⟨congrArg Host.Outcome.next (sizedWrite_waits hr hd h0), congrArg Host.Outcome.next (regRead_waits hr hd h0)⟩,
    fun h0 h => ⟨congrArg Host.Outcome.next (sizedWrite_eq_of_older hr hd h0 h),
      congrArg Host.Outcome.next (regRead_eq_of_older hr hd h0 h)⟩⟩

theorem exec_registerWrite_bar0 (h : s.hostUp = true) (ha : off % 4 = 0) :
    exec (.registerWrite .bar0 off 4 v) s = .next (s.bar0Write off v).accessDone.resumeAll := by
  change execRegisterWrite .bar0 off 4 v s = _
  unfold execRegisterWrite
  simp only [if_pos h, ctlWrite_bar0 ha]

theorem exec_readClear_bar0 (h : s.hostUp = true) (ha : off % 4 = 0) :
    exec (.readClear .bar0 off) s = .next ((s.bar0Read off).1.accessDone.emit (.readData (s.bar0Read off).2)) := by
  change execReadClear .bar0 off s = _
  unfold execReadClear
  simp only [h, ctlRead_bar0 ha]
  rfl
end

section
variable {s : State} {r : RegRow} {off i : Nat} {v : Word}

/-- Bits of no WL field: an event of the clk wins, and otherwise the bit's code says. -/
theorem b_plain_notWl (hi : i < 32) (hl : r.wl.testBit i = false) : (s.plain r off v).b off i =
    if (s.before off).getLsbD i = s.b off i then (s.codes r off v).getLsbD i else s.b off i := by
  rw [b_plain s r off v hi, if_neg (by simp [hl])]

theorem plain_bits (hi : i < 32) (h1 : r.rw &&& r.w1c = 0) (h2 : r.rw &&& r.w1s = 0) (h3 : r.w1c &&& r.w1s = 0)
    (h4 : (r.rw ||| r.w1c ||| r.w1s) &&& r.wl = 0) :
    let u := s.plain r off v
    let quiet := (s.before off).getLsbD i = s.b off i ∧ (s.fresh off).getLsbD i = false
    (quiet → r.rw.testBit i = true → u.b off i = v.getLsbD i) ∧
    (quiet → r.w1c.testBit i = true → u.b off i = (s.b off i && !v.getLsbD i)) ∧
    (quiet → r.w1s.testBit i = true → u.b off i = (s.b off i || v.getLsbD i)) ∧
    ((s.before off).getLsbD i ≠ s.b off i → r.wl.testBit i = false → u.b off i = s.b off i) ∧
    ((s.fresh off).getLsbD i = true → r.w1c.testBit i = true → u.b off i = s.b off i) ∧
    (r.wl.testBit i = true → u.b off i = (if s.locked.contains off then s.b off i else v.getLsbD i)) ∧
    ((r.rw ||| r.w1c ||| r.w1s ||| r.wl).testBit i = false → u.b off i = s.b off i) := by
  intro u quiet
  have hwl : (r.rw ||| r.w1c ||| r.w1s).testBit i = true → r.wl.testBit i = false := testBit_false_of_disjoint h4
  simp only [Nat.testBit_or, Bool.or_eq_true] at hwl
  refine ⟨fun hq hb => ?_, fun hq hb => ?_, fun hq hb => ?_, fun hq hb => ?_, fun hq hb => ?_, fun hb => ?_, fun hb => ?_⟩
  · obtain ⟨hbefore, -⟩ := hq
    have hc := testBit_false_of_disjoint h1 hb
    have hs := testBit_false_of_disjoint h2 hb
    rw [b_plain_notWl hi (hwl (.inl (.inl hb))), if_pos hbefore, getLsbD_codes s r off v hi]
    simp [hb, hc, hs]
  · obtain ⟨hbefore, hfresh⟩ := hq
    have hs := testBit_false_of_disjoint h3 hb
    have hw : r.rw.testBit i = false := testBit_false_of_disjoint (Nat.and_comm .. ▸ h1) hb
    rw [b_plain_notWl hi (hwl (.inl (.inr hb))), if_pos hbefore, getLsbD_codes s r off v hi]
    simp [hb, hs, hw, hfresh]
  · obtain ⟨hbefore, -⟩ := hq
    have hw : r.rw.testBit i = false := testBit_false_of_disjoint (Nat.and_comm .. ▸ h2) hb
    have hc : r.w1c.testBit i = false := testBit_false_of_disjoint (Nat.and_comm .. ▸ h3) hb
    rw [b_plain_notWl hi (hwl (.inr hb)), if_pos hbefore, getLsbD_codes s r off v hi]
    simp [hb, hc, hw]
  · rw [b_plain_notWl hi hb, if_neg hq]
  · have hs := testBit_false_of_disjoint h3 hb
    have hw : r.rw.testBit i = false := testBit_false_of_disjoint (Nat.and_comm .. ▸ h1) hb
    rw [b_plain_notWl hi (hwl (.inl (.inr hb))), getLsbD_codes s r off v hi]
    simp [hq, hs, hw]
  · have hn : ((r.rw ||| r.w1c ||| r.w1s).testBit i) = false := testBit_false_of_disjoint (Nat.and_comm .. ▸ h4) hb
    simp only [Nat.testBit_or, Bool.or_eq_false_iff] at hn
    obtain ⟨⟨hw, hc⟩, hs⟩ := hn
    rw [b_plain s r off v hi, getLsbD_codes s r off v hi]
    simp [hb, hw, hc, hs]
  · simp only [Nat.testBit_or, Bool.or_eq_false_iff] at hb
    obtain ⟨⟨⟨hw, hc⟩, hs⟩, hl⟩ := hb
    rw [b_plain_notWl hi hl, getLsbD_codes s r off v hi]
    simp [hw, hc, hs]
end

section
variable (s : State) {m t c a : Nat} {w : Bool}

theorem busError_log (hm : m < 16) (ht : t < 64) (hc : c < 8) (ha : a < 2 ^ 48) :
    let u := s.busError m t w c a
    (s.b R.MTX_ERR 31 = false → u.b R.MTX_ERR 31 = true ∧ u.f R.MTX_ERR 3 0 = m ∧ u.f R.MTX_ERR 9 4 = t ∧ u.b R.MTX_ERR 10 = w ∧
      u.f R.MTX_ERR 13 11 = c ∧ (u.rd R.MTX_ERRADDR_LO).toNat + (u.rd R.MTX_ERRADDR_HI).toNat * 2 ^ 32 = a) ∧
    (s.b R.MTX_ERR 31 = true → SameRegsBut [R.MTX_ERRCNT] s u) ∧
    (u.rd R.MTX_ERRCNT).toNat = min ((s.rd R.MTX_ERRCNT).toNat + 1) (2 ^ 32 - 1) ∧
    SameRegsBut [R.MTX_ERRCNT, R.MTX_ERR, R.MTX_ERRADDR_LO, R.MTX_ERRADDR_HI] s u ∧ SameMemory s u ∧ u.threads = s.threads ∧
    u.jobs = s.jobs := by
  intro u
  refine ⟨fun h => ?_, fun h => ?_, rd_busError_count s m t w c a, busError_frame s m t w c a⟩
  · obtain ⟨herr, hlo, hhi⟩ := rd_busError_free s m t w c a h
    obtain ⟨hvalid, hmaster, htarget, hdir, hcause⟩ := errWord_fields (w := w) hm ht hc
    unfold State.b State.f
    rw [herr, hlo, hhi, BitVec.toNat_ofNat, BitVec.toNat_ofNat]
    exact ⟨hvalid, hmaster, htarget, hdir, hcause, by omega⟩
  · unfold u
    rw [busError_held s m t w c a h]
    exact fun r hr => rd_count_other s 32 1 (by simpa using hr)
end

/-- Settles O51: an access waits for the older ones, its rule accepts or refuses it, and a refusal is logged. -/
theorem registerAccess : Obligations.RegisterAccess := by
  refine ⟨fun s s1 o off size v x c h => access_answers s s1 o off size c v x h,
    fun s s0 o off v hr hd => access_waits s s0 o off v hr hd, fun s x v r h ha => ?_, fun s r off v i hi h1 h2 h3 h4 => ?_,
    fun s m t w c a hm ht hc ha => busError_log s hm ht hc ha⟩
  · exact ⟨exec_registerWrite_bar0 s x v h ha, exec_readClear_bar0 s x h ha, bar0Write_reserved⟩
  · obtain ⟨hrw, hw1c, hw1s, hevent, hfresh, hwl, hnone⟩ := plain_bits (s := s) (off := off) (v := v) hi h1 h2 h3 h4
    exact ⟨hrw, hw1c, hw1s, hevent, hfresh, hwl, hnone, plain_frame s r off v⟩

end Sys2Proof.Machine

/-! ## The accounts of the Tick Ledger (O25, O26) -/

namespace Sys2Proof.Machine

/-! ### Changes of accounts, one after the other -/

/-- A key that a map does not list reads as the default. -/
theorem sget_unlisted {α : Type} (d : Nat → α) {k : Nat} {m : SMap α} (h : k ∉ m.map Prod.fst) : sget d m k = d k := by
  induction m with
  | nil => rfl
  | cons e t ih =>
    rw [List.map_cons, List.mem_cons, not_or] at h
    obtain ⟨hne, ht⟩ := h
    exact (if_neg hne).trans (ih ht)

section
variable {s : State} {r : Nat}

theorem acct_onAcct (s : State) (k : Nat) (g : Acct → Acct) (r : Nat) :
    (s.onAcct k g).acct r = if r = k then g (s.acct r) else s.acct r := by
  refine (sget_sput _ _ _ _ _).trans ?_
  by_cases h : r = k
  · rw [if_pos h, if_pos h, h, State.acct]
  · rw [if_neg h, if_neg h, State.acct]

/-- Every account of a list is changed once: by what its index says, where the invariant I holds. -/
theorem acct_each_indices {I : State → Prop} {step : State → Nat → State} {upd : Nat → Acct → Acct}
    (hkeep : ∀ s k, I s → I (step s k))
    (hstep : ∀ s k r, I s → (step s k).acct r = if r = k then upd k (s.acct r) else s.acct r) {l : List Nat} (hl : l.Nodup)
    (hs : I s) : (s.each l step).acct r = if r ∈ l then upd r (s.acct r) else s.acct r := by
  induction l generalizing s with
  | nil => rfl
  | cons k t ih =>
    obtain ⟨hk, ht⟩ := List.nodup_cons.mp hl
    refine (ih ht (hkeep s k hs)).trans ?_
    rw [hstep s k r hs]
    by_cases hr : r = k
    · subst hr
      simp [hk]
    · simp [hr]

/-- Every account of a list is changed once, by what its index says. -/
theorem acct_each_onAcct {l : List Nat} (hl : l.Nodup) (s : State) (g : Nat → Acct → Acct) (r : Nat) :
    (s.each l (fun s k => s.onAcct k (g k))).acct r = if r ∈ l then g r (s.acct r) else s.acct r :=
  acct_each_indices (I := fun _ => True) (fun _ _ _ => trivial) (fun s k r _ => acct_onAcct s k (g k) r) hl trivial

/-- Every charge of a map changes its account once: by the charge that the account reads there. -/
theorem acct_each_charges {step : State → Nat × Nat → State} {upd : Nat → Nat → Acct → Acct}
    (hstep : ∀ s c r, (step s c).acct r = if r = c.1 then upd r c.2 (s.acct r) else s.acct r)
    (hzero : ∀ r a, upd r 0 a = a) {ch : SMap Nat} (hl : (ch.map Prod.fst).Nodup) :
    (s.each ch step).acct r = upd r (sget (fun _ => 0) ch r) (s.acct r) := by
  induction ch generalizing s with
  | nil => exact (hzero r _).symm
  | cons c t ih =>
    rw [List.map_cons] at hl
    obtain ⟨hc, ht⟩ := List.nodup_cons.mp hl
    refine (ih ht).trans ?_
    rw [hstep]
    by_cases hr : r = c.1
    · rw [← hr] at hc
      have hv : sget (fun _ => 0) (c :: t) r = c.2 := if_pos hr
      rw [sget_unlisted _ hc, hzero, if_pos hr, hv]
    · have hv : sget (fun _ => 0) (c :: t) r = sget (fun _ => 0) t r := if_neg hr
      rw [if_neg hr, hv]
end

/-! ### What the steps of the tick and the charges of a job do to an account (R34, R37, R41, R42) -/

/-- An account whose pool has expired. -/
def Acct.expire (a : Acct) : Acct := { a with pool := 0, expired := a.expired + a.pool }

/-- An account whose sums have gone to its audit registers. -/
def Acct.close (a : Acct) : Acct :=
  { a with
    audGranted := a.granted, audConsumed := a.consumed, audRefunded := a.refunded, audExpired := a.expired
    granted := 0, consumed := 0, refunded := 0, expired := 0 }

/-- An account that a grant has filled. -/
def Acct.fill (a : Acct) (g : Nat) : Acct := { a with grant := g, pool := g, granted := g }

/-- An account to which credits have returned. -/
def Acct.giveBack (a : Acct) (x : Nat) : Acct :=
  { a with pool := a.pool + x, refunded := a.refunded + x, granted := a.granted + x }

section
variable (s : State) {r : Nat}

theorem nodup_acctIndices : acctIndices.Nodup := List.nodup_range.filter _

theorem mem_acctIndices : r ∈ acctIndices ↔ r < 148 ∧ acctAssigned r = true := by
  rw [acctIndices, List.mem_filter, List.mem_range]

theorem acct_tickExpire (hr : r ∈ acctIndices) : s.tickExpire.acct r = (s.acct r).expire :=
  (acct_each_onAcct nodup_acctIndices s (fun _ => Acct.expire) r).trans (if_pos hr)

/-- What step 3 reports: nothing, or the first account that does not balance. -/
def State.auditReport (s : State) : State :=
  match acctIndices.find? (fun r => !(s.acct r).balanced) with
  | none => s
  | some r => (((s.setB R.LDG_AUDSTAT 0 true).putF R.LDG_AUDSTAT 15 8 r)).raiseMachine 0

theorem tickAudit_eq : s.tickAudit = s.auditReport.each acctIndices (fun s r => s.onAcct r Acct.close) := rfl

/-- A machine trap is held by a thread, or stays undelivered and shows in TRP_STAT (R235). -/
theorem raiseMachine_cases (m : Nat) : (∃ t g, s.raiseMachine m = s.onThr t g) ∨
    (∃ u n, u = s.setB R.TRP_STAT 9 true ∧ s.raiseMachine m = { u with undelivered := n }) := by
  unfold State.raiseMachine
  extract_lets first other
  by_cases hfirst : (s.thr first).takesTraps = true
  · exact .inl ⟨first, _, if_pos hfirst⟩
  · rw [if_neg hfirst]
    by_cases hother : (s.thr other).takesTraps = true
    · exact .inl ⟨other, _, if_pos hother⟩
    · exact .inr ⟨_, _, rfl, if_neg hother⟩

theorem ledger_raiseMachine (m : Nat) : (s.raiseMachine m).ledger = s.ledger := by
  rcases raiseMachine_cases s m with ⟨t, g, h⟩ | ⟨u, n, hu, h⟩ <;> rw [h]
  · exact ledger_onThr ..
  · exact (congrArg State.ledger hu).trans (ledger_setB ..)

theorem ledger_auditReport : s.auditReport.ledger = s.ledger := by
  unfold State.auditReport
  split
  · rfl
  · exact ledger_raiseMachine _ 0

theorem acct_tickAudit (hr : r ∈ acctIndices) : s.tickAudit.acct r = (s.acct r).close := by
  rw [tickAudit_eq, acct_each_onAcct nodup_acctIndices _ (fun _ => Acct.close), if_pos hr]
  exact congrArg (fun l : Ledger => (sget (fun _ => ({} : Acct)) l.accts r).close) (ledger_auditReport s)

/-- No grant depends on an account. -/
theorem grantOf_onAcct (k : Nat) (g : Acct → Acct) : (s.onAcct k g).grantOf = s.grantOf := rfl

theorem grantOf_each_fill (l : List Nat) :
    (s.each l (fun u k => u.onAcct k (fun a => a.fill (u.grantOf k)))).grantOf = s.grantOf := by
  induction l generalizing s with
  | nil => rfl
  | cons k t ih => exact (ih _).trans (grantOf_onAcct s k _)

theorem grantOf_tickGrant : s.tickGrant.grantOf = s.grantOf := grantOf_each_fill s acctIndices

theorem acct_tickGrant (hr : r ∈ acctIndices) : s.tickGrant.acct r = (s.acct r).fill (s.grantOf r) := by
  have h := acct_each_indices (s := s) (r := r) (I := fun u => u.grantOf = s.grantOf)
    (step := fun u k => u.onAcct k (fun a => a.fill (u.grantOf k))) (upd := fun k a => a.fill (s.grantOf k))
    (fun _ _ hu => hu) (fun u k r hu => hu ▸ acct_onAcct u k _ r) nodup_acctIndices rfl
  exact h.trans (if_pos hr)

theorem acct_deduct {ch : SMap Nat} (hn : (ch.map Prod.fst).Nodup) (r : Nat) :
    (s.deduct ch).acct r = { s.acct r with pool := (s.acct r).pool - (sget (fun _ => 0) ch r : Nat) } :=
  acct_each_charges (upd := fun _ c a => { a with pool := a.pool - c }) (fun s c r => acct_onAcct s c.1 _ r)
    (fun _ a => by simp) hn

theorem giveBack_zero (a : Acct) : a.giveBack 0 = a := by simp [Acct.giveBack]

theorem acct_refund (j : Job) (hn : (j.charges.map Prod.fst).Nodup) (r : Nat) :
    (s.refund j).acct r = (s.acct r).giveBack (j.charge r - j.use r) := by
  refine acct_each_charges (upd := fun r c a => a.giveBack (c - j.use r)) (fun s c r => ?_) (fun r a => ?_) hn
  · dsimp only
    split
    next hu =>
      split
      next hr => rw [hr, hu, giveBack_zero]
      next => rfl
    next =>
      rw [acct_onAcct]
      split
      next hr => rw [hr]; rfl
      next => rfl
  · rw [Nat.zero_sub, giveBack_zero]
end

/-- Settles O25: each step of the tick acts once on each account, and admission once on each charge. -/
theorem ledgerAtTick : Obligations.LedgerAtTick := by
  refine ⟨fun s r h148 hassigned => ?_, fun s ch hn => acct_deduct s hn⟩
  have hr := mem_acctIndices.mpr ⟨h148, hassigned⟩
  exact ⟨acct_tickExpire s hr, acct_tickAudit s hr, acct_tickGrant s hr, congrFun (grantOf_tickGrant s) r⟩

/-! ### The audit identity (R42) -/

section
variable (s : State) {r : Nat}

/-- What a refund takes off the credits still charged it adds to the pool, and as much to both sides. -/
theorem identity_giveBack (a : Acct) (x : Nat) (rest : Int)
    (h : (a.granted : Int) = a.consumed + a.refunded + a.expired + a.pool + (x : Nat) + rest) :
    ((a.giveBack x).granted : Int) = (a.giveBack x).consumed + (a.giveBack x).refunded + (a.giveBack x).expired +
      (a.giveBack x).pool + rest := by
  simp only [Acct.giveBack]
  omega

theorem balanced_expire (a : Acct) (h : (a.granted : Int) = a.consumed + a.refunded + a.expired + a.pool) :
    a.expire.balanced = true := by
  refine decide_eq_true ?_
  simp only [Acct.expire]
  omega

theorem auditReport_of_balanced (h : ∀ k ∈ acctIndices, (s.acct k).balanced = true) : s.auditReport = s := by
  have hnone : acctIndices.find? (fun r => !(s.acct r).balanced) = none := by
    rw [List.find?_eq_none]
    intro k hk
    simp [h k hk]
  unfold State.auditReport
  rw [hnone]

theorem each_onAcct_frame (l : List Nat) (g : Acct → Acct) :
    SameRegsBut [] s (s.each l (fun s k => s.onAcct k g)) ∧ (s.each l (fun s k => s.onAcct k g)).threads = s.threads := by
  induction l generalizing s with
  | nil => exact ⟨fun _ _ => rfl, rfl⟩
  | cons k t ih => exact ih (s.onAcct k g)

/-- A machine trap that no thread takes shows in TRP_STAT, and in no other register. -/
theorem rd_raiseMachine (m : Nat) {i : Nat} (hi : i ≠ R.TRP_STAT) : (s.raiseMachine m).rd i = s.rd i := by
  rcases raiseMachine_cases s m with ⟨t, g, h⟩ | ⟨u, n, hu, h⟩ <;> rw [h]
  · rfl
  · exact (congrArg (State.rd · i) hu).trans (rd_setB_other s 9 true hi)

theorem audstat_auditReport (hr : r ∈ acctIndices) (h : (s.acct r).balanced = false) :
    s.auditReport.b R.LDG_AUDSTAT 0 = true := by
  unfold State.auditReport
  split
  next hnone =>
    exact absurd (List.find?_eq_none.mp hnone r hr) (by simp [h])
  next k _ =>
    unfold State.b
    rw [rd_raiseMachine _ 0 (by decide)]
    refine (b_putF_other _ _ k (by decide) (by decide) (by decide)).trans ?_
    exact b_setB_same s _ _ true (by decide)

theorem audstat_tickAudit (hr : r ∈ acctIndices) (h : (s.acct r).balanced = false) : s.tickAudit.b R.LDG_AUDSTAT 0 = true := by
  obtain ⟨hregs, -⟩ := each_onAcct_frame s.auditReport acctIndices Acct.close
  rw [tickAudit_eq, State.b, hregs R.LDG_AUDSTAT List.not_mem_nil]
  exact audstat_auditReport s hr h

/-- With every account balanced step 3 touches the accounts alone. -/
theorem tickAudit_of_balanced (h : ∀ k ∈ acctIndices, (s.acct k).balanced = true) :
    SameRegsBut [] s s.tickAudit ∧ s.tickAudit.threads = s.threads := by
  rw [tickAudit_eq, auditReport_of_balanced s h]
  exact each_onAcct_frame s acctIndices Acct.close
end

/-- Settles O26: a refund moves a credit to the pool and to both sides of the identity; step 2 moves the pool to EXPIRED. -/
theorem auditIdentity : Obligations.AuditIdentity := by
  refine ⟨fun s j r rest hn => ⟨fun h => ?_, fun h148 hassigned h => ?_, fun h => ?_, fun h148 hassigned h => ?_⟩,
    fun s j hn => acct_refund s j hn⟩
  · rw [acct_refund s j hn]
    exact identity_giveBack _ _ rest h
  · rw [acct_tickExpire s (mem_acctIndices.mpr ⟨h148, hassigned⟩)]
    exact balanced_expire _ h
  · refine tickAudit_of_balanced s fun k hk => ?_
    obtain ⟨h148, hassigned⟩ := mem_acctIndices.mp hk
    exact h k h148 hassigned
  · exact audstat_tickAudit s (mem_acctIndices.mpr ⟨h148, hassigned⟩) h

end Sys2Proof.Machine

/-! ## The ticks and the phases of the frame (O23, O24, O27) -/

namespace Sys2Proof.Machine

/-! ### What the passing of time leaves alone -/

/-- The state without its clocks, timers, counters, trace and outputs, and without the register file. -/
def State.untimed (s : State) : State :=
  { s with
    clk := 0, now := 0, tb := 0, tbHold := 0, tbPart := 0, gen := 0, csr := [], events := [], brought := [], eventClk := 0
    timers := ⟨{}, {}, {}, {}⟩, wdg := {}, dbg := {}, pmc := {}, out := [] }

/-- n clk have gone by from s to u: beside the clocks only timers, watchdog, counters and trace have changed, whose registers lie
from DBG_CTL on. -/
structure Elapsed (n : Nat) (s u : State) : Prop where
  clk : u.clk = s.clk + n
  untimed : u.untimed = s.untimed
  regs : ∀ r, r < R.DBG_CTL → u.rd r = s.rd r

/-- The registers of the counters and of the watchdog lie above those of debug. -/
theorem dbgCtl_le {base : Nat} (h : R.DBG_CTL ≤ base) (x : Nat) : R.DBG_CTL ≤ base + x := Nat.le_add_right_of_le h

namespace Elapsed

theorem refl (s : State) : Elapsed 0 s s := ⟨rfl, rfl, fun _ _ => rfl⟩

section
variable {n : Nat} {s u : State} (h : Elapsed n s u)
include h

theorem jobs : u.jobs = s.jobs := (congrArg State.jobs h.untimed :)
theorem mem : u.mem = s.mem := (congrArg State.mem h.untimed :)
theorem threads : u.threads = s.threads := (congrArg State.threads h.untimed :)
theorem ledger : u.ledger = s.ledger := (congrArg State.ledger h.untimed :)

theorem b {r i : Nat} (hr : r < R.DBG_CTL) : u.b r i = s.b r i := congrArg (BitVec.getLsbD · i) (h.regs r hr)
theorem f {r hi lo : Nat} (hr : r < R.DBG_CTL) : u.f r hi lo = s.f r hi lo := congrArg (fld · hi lo) (h.regs r hr)

theorem src : u.src = s.src := h.f (by decide)

theorem keystoneOf (k : Nat) : u.keystoneOf k = s.keystoneOf k := by
  unfold State.keystoneOf State.fabEn State.isKeystone
  rw [h.b (by decide), h.b (by decide), h.f (by decide)]

theorem ite {c : Prop} [Decidable c] {v : State} (h2 : Elapsed n s v) : Elapsed n s (if c then u else v) := by
  split <;> assumption

theorem each {α : Type} {l : List α} {g : State → α → State} (hg : ∀ u a, Elapsed n s u → Elapsed n s (g u a)) :
    Elapsed n s (u.each l g) := by
  induction l generalizing u with
  | nil => exact h
  | cons a t ih => exact ih (hg u a h)

theorem wr {off : Nat} {v : Word} (ho : R.DBG_CTL ≤ off) : Elapsed n s (u.wr off v) :=
  ⟨h.clk, h.untimed, fun r hr => (rd_wr_other u v (by omega)).trans (h.regs r hr)⟩

theorem setB {off i : Nat} {v : Bool} (ho : R.DBG_CTL ≤ off) : Elapsed n s (u.setB off i v) :=
  ⟨h.clk, h.untimed, fun r hr => (rd_setB_other u i v (by omega)).trans (h.regs r hr)⟩

theorem onPmc {g : Pmc → Pmc} : Elapsed n s (u.onPmc g) := ⟨h.clk, h.untimed, h.regs⟩
theorem onDbg {g : Debug → Debug} : Elapsed n s (u.onDbg g) := ⟨h.clk, h.untimed, h.regs⟩
theorem emit {o : Out} : Elapsed n s (u.emit o) := ⟨h.clk, h.untimed, h.regs⟩

/-! The counters of 17_performance_counters.md. -/

theorem setPmc {k v : Nat} : Elapsed n s (u.setPmc k v) := (h.wr (dbgCtl_le (by decide) _)).wr (dbgCtl_le (by decide) _)

theorem pmcAdd {k x : Nat} : Elapsed n s (u.pmcAdd k x) := h.setPmc.ite (h.setPmc.setB (dbgCtl_le (by decide) _))

theorem pmcEdge {k clks : Nat} : Elapsed n s (u.pmcEdge k clks) := h.onPmc.ite h.onPmc.pmcAdd

theorem pmcHit {k x clks : Nat} : Elapsed n s (u.pmcHit k x clks) := by
  unfold State.pmcHit
  split
  · exact h.pmcAdd
  · exact h.pmcEdge

theorem eventOver {code unit k clks : Nat} : Elapsed n s (u.eventOver code unit k clks) :=
  (h.each fun _ _ h1 => h1.pmcHit.ite h1).ite h

theorem occupancy {code unit level clks : Nat} : Elapsed n s (u.occupancy code unit level clks) := by
  unfold State.occupancy
  refine h.each fun v k h1 => ?_
  refine ite ?_ h1
  extract_lets +onlyGivenNames thr
  split
  · exact h1.pmcAdd.ite h1
  · exact h1.pmcAdd.ite h1
  · exact h1.pmcEdge.ite h1
  · exact h1

theorem openWindow : Elapsed n s u.openWindow := h.onPmc

theorem snapshot : Elapsed n s u.snapshot :=
  (h.each fun _ _ h1 => (h1.wr (dbgCtl_le (by decide) _)).wr (dbgCtl_le (by decide) _)).ite h

/-! Trace (R413, R414). -/

theorem tracePush {l : List Byte} : Elapsed n s (u.tracePush l) := h.onDbg.ite (h.onDbg.setB (by decide))

theorem traceSync : Elapsed n s u.traceSync := h.tracePush.onDbg

theorem traceOvf : Elapsed n s u.traceOvf := h.ite h.tracePush.onDbg.traceSync

theorem tracePacket {type sub : Nat} {l : List Byte} : Elapsed n s (u.tracePacket type sub l) :=
  h.ite (h.traceOvf.tracePush.traceSync.ite h.traceOvf.tracePush)

theorem traceTick : Elapsed n s u.traceTick := h.tracePacket.ite h

/-! The clock (R3, R409, R416, R417). -/

theorem passTime {d : Nat} : Elapsed n s (u.passTime d) := by
  have h1 : ∀ t w, Elapsed n s { u.passTb d with timers := t, wdg := w } := fun _ _ => ⟨h.clk, h.untimed, h.regs⟩
  exact ((h1 _ _).wr (by decide)).ite (h1 _ _)

theorem sample {k : Nat} : Elapsed n s (u.sample k) := by
  unfold State.sample
  refine ite ?_ h
  have h1 : Elapsed n s (u.eventOver 0x01 0 k k) := h.eventOver
  extract_lets +onlyGivenNames s1 s2 s3 s4 s5
  have h2 : Elapsed n s s2 := h1.each fun _ _ hu => hu.eventOver.ite hu
  have h3 : Elapsed n s s3 := h2.each fun _ _ hu => hu.occupancy
  have h4 : Elapsed n s s4 := h3.each fun _ _ hu => hu.occupancy
  have h5 : Elapsed n s s5 := h4.each fun _ _ hu => hu.occupancy
  exact h5.each fun _ _ hu => hu.occupancy

theorem advance {m : Nat} : Elapsed (n + m) s (u.advance m) := by
  have h1 : Elapsed (n + m) s { u with clk := u.clk + m } :=
    ⟨(congrArg (· + m) h.clk).trans (Nat.add_assoc ..), h.untimed, h.regs⟩
  exact h1.passTime.sample
end

/-- Waiting for a clk takes what is left until then. -/
theorem of_until (s : State) (c : Nat) : Elapsed (c - s.clk) s (s.until c) := by
  unfold State.until
  split
  · have h := (refl s).advance (m := c - s.clk)
    rwa [Nat.zero_add] at h
  next hc => exact (Nat.sub_eq_zero_of_le (Nat.not_lt.mp hc)) ▸ refl s

theorem of_untilGen (s : State) (g : Nat) : ∃ n, Elapsed n s (s.untilGen g) := by
  unfold State.untilGen
  split
  · exact ⟨_, (refl s).advance⟩
  · exact ⟨0, refl s⟩

end Elapsed

/-- Waiting for a clk ends there, or now if it has gone by. -/
theorem clk_until (s : State) (c : Nat) : (s.until c).clk = max s.clk c := by
  rw [(Elapsed.of_until s c).clk]
  omega

/-! ### The phases of the frame (R22, R39, R273) -/

section
variable (s : State)

theorem commitHold_begins (hf : s.inFrame = true) (ho : s.ledger.open_ = true) (hb : s.b R.SIM_STAT 2 = false)
    (he : s.io.holdEnded = false) (hl : s.ledger.lost = false ∨ s.b R.LDG_CTL 2 = true) :
    s.commitHold = (s.until (s.earliestNext - 256)).setB R.SIM_STAT 2 true := by
  have hsource : (!(s.ledger.lost && !s.b R.LDG_CTL 2)) = true := by
    rcases hl with h | h <;> simp [h]
  exact if_pos ⟨hf, ho, hb, he, hsource⟩

theorem phases_once :
    (s.ledger.cutDone = true → s.cutoff = s) ∧ (s.ledger.dlDone = true → s.deadline = s) ∧
    (s.ledger.outDone = true → s.outputTime = s) :=
  ⟨fun h => if_neg (by simp [h]), fun h => if_neg (by simp [h]), fun h => if_neg (by simp [h])⟩
end

/-- Settles O27: each phase acts where its mark is not set and sets it; the hold begins 256 clk before the earliest next tick. -/
theorem framePhases : Obligations.FramePhases := by
  intro s hf ho
  obtain ⟨hcut, hdl, hout⟩ := phases_once s
  refine ⟨fun h => congrArg Host.Outcome.next (if_pos ⟨hf, ho, h⟩),
    fun h => congrArg Host.Outcome.next (if_pos ⟨hf, ho, h⟩), fun h => congrArg Host.Outcome.next (if_pos ⟨hf, ho, h⟩),
    fun hb he hl => ?_, fun h => congrArg Host.Outcome.next (hcut h),
    fun h => congrArg Host.Outcome.next (hdl h), fun h => congrArg Host.Outcome.next (hout h)⟩
  have hE := Elapsed.of_until s (s.earliestNext - 256)
  refine ⟨_, congrArg Host.Outcome.next (commitHold_begins s hf ho hb he hl), b_setB_same _ _ _ _ (by decide),
    (clk_setB ..).trans (clk_until ..), (jobs_setB ..).trans hE.jobs, .of_mem ((mem_setB ..).trans hE.mem)⟩

/-! ### Tick sources (R15, R16, R18) -/

section
variable (s : State)

@[simp] theorem rd_onLdg (g : Ledger → Ledger) (r : Nat) : (s.onLdg g).rd r = s.rd r := rfl
@[simp] theorem b_onLdg (g : Ledger → Ledger) (r i : Nat) : (s.onLdg g).b r i = s.b r i := rfl
@[simp] theorem f_onLdg (g : Ledger → Ledger) (r hi lo : Nat) : (s.onLdg g).f r hi lo = s.f r hi lo := rfl
@[simp] theorem b_onIo (g : FieldIo → FieldIo) (r i : Nat) : (s.onIo g).b r i = s.b r i := rfl

theorem keystoneSend_other {k : Nat} (h : s.keystoneOf k = false) : s.keystoneSend k = s :=
  if_neg (by rw [← State.keystoneOf, h]; decide)

/-- The generator, selected, gives the tick at its next instant. -/
theorem generatorTick_selected (hr : s.running = true) (hs : s.src = 0) (hk : s.keystoneOf 0 = false) :
    s.generatorTick = ((s.untilGen s.genDue).onLdg (fun l => { l with genBase := s.genDue })).giveTick := by
  obtain ⟨n, hE⟩ := Elapsed.of_untilGen s s.genDue
  have hkey : ((s.untilGen s.genDue).onLdg (fun l => { l with genBase := s.genDue })).keystoneOf 0 = false :=
    (hE.keystoneOf 0).trans hk
  have hsrc : ((s.untilGen s.genDue).onLdg (fun l => { l with genBase := s.genDue })).src = 0 := hE.src.trans hs
  unfold State.generatorTick
  rw [if_neg (by simp [hr])]
  dsimp only
  rw [keystoneSend_other _ hkey, if_pos (.inl hsrc)]

theorem sourceAhead_of_noHoldover (h : s.holdover = false) (c : Nat) : s.sourceAhead c = 0 := by
  unfold State.sourceAhead State.sourceInstant
  rw [if_pos h]

theorem genDue_of_noHoldover (h : s.holdover = false) :
    s.genDue = s.ledger.genBase + max 1 (ceilDiv (s.gen - s.ledger.genBase) s.genPeriod) * s.genPeriod := by
  unfold State.genDue
  extract_lets p due most
  have hmost : 0 ≤ most := Int.natCast_nonneg (p / 1000)
  have hclamp : max (-most) (min most 0) = 0 := by omega
  rw [sourceAhead_of_noHoldover s h, hclamp, Int.add_zero, Int.toNat_natCast]

section
variable {s} {falling : Bool}

/-- An edge of the selected polarity with TICK_IN as the source. -/
theorem tickInEdge_selected (hr : s.running = true) (hf : falling = s.b R.LDG_CTL 3) (hs : s.src = 1) :
    s.tickInEdge falling =
      let s0 := if s.holdover = true then s.onLdg (fun l => { l with back := some s.gen }) else s
      if s.edgeInWindow = false then s0.setB R.LDG_STAT 4 true
      else if s.ledger.lost = false then (s0.keystoneSend 1).giveTick else s0.keystoneSend 1 := by
  unfold State.tickInEdge
  rw [if_neg (by simp [hr, hf]), if_pos (.inl hs)]
  simp only [hs, true_and, if_true]
end
end

section
variable (s : State)

/-- The source is lost: LOSS, and with holdover HOLDOVER and the generator as the source. -/
theorem loseSource_eq : s.loseSource = if s.b R.LDG_CTL 2 = true
    then (((s.setB R.LDG_STAT 3 true).onLdg (fun l => { l with lost := true })).setB R.LDG_STAT 2 true).putF R.LDG_STAT 1 0 0
    else (s.setB R.LDG_STAT 3 true).onLdg (fun l => { l with lost := true }) := rfl

theorem loseSource_frame : s.loseSource.ledger.lost = true ∧ s.loseSource.ledger.tickDue = s.ledger.tickDue ∧
    s.loseSource.jobs = s.jobs ∧ s.loseSource.mem = s.mem ∧ SameRegsBut [R.LDG_STAT] s s.loseSource := by
  rw [loseSource_eq]
  split
  · refine ⟨by simp, by simp, by simp, by simp, fun r hr => ?_⟩
    have hne : r ≠ R.LDG_STAT := by simpa using hr
    rw [rd_putF_other _ 1 0 0 hne, rd_setB_other _ 2 true hne, rd_onLdg, rd_setB_other s 3 true hne]
  · refine ⟨by simp, by simp, by simp, by simp, fun r hr => ?_⟩
    rw [rd_onLdg, rd_setB_other s 3 true (by simpa using hr)]

theorem loss_loseSource : s.loseSource.b R.LDG_STAT 3 = true := by
  rw [loseSource_eq]
  split
  · rw [b_putF_other _ _ _ (by decide) (by decide) (by decide)]
    simp [b_setB]
  · simp [b_setB]

theorem stat_loseSource (h : s.b R.LDG_CTL 2 = true) :
    s.loseSource.b R.LDG_STAT 2 = true ∧ s.loseSource.f R.LDG_STAT 1 0 = 0 := by
  rw [loseSource_eq, if_pos h]
  constructor
  · rw [b_putF_other _ _ _ (by decide) (by decide) (by decide)]
    simp [b_setB]
  · rw [f_putF_same _ _ _ (by decide) (by decide), Nat.zero_mod]

theorem holdover_loseSource : s.loseSource.holdover = s.b R.LDG_CTL 2 := by
  obtain ⟨hlost, -, -, -, hregs⟩ := loseSource_frame s
  rw [State.holdover, hlost, State.b, hregs _ (by decide), Bool.true_and]
  rfl

/-- At the end of the window the source is lost; the generator gives the tick, or the commit hold ends. -/
theorem windowExpire_eq (hr : s.running = true) (hs : s.src = 1) (ho : s.ledger.open_ = true)
    (hd : s.ledger.tickDue = false) (hl : s.ledger.lost = false) :
    let s1 := (s.until (s.edgeDue + s.edgeWin)).loseSource
    s.windowExpire = if s.b R.LDG_CTL 2 = true
      then (s1.onLdg (fun l =>
        { l with genBase := s1.gen - (s1.clk - s.edgeDue) * s1.clkSixteenths, back := none })).giveTick
      else (s1.setB R.SIM_STAT 2 false).onIo (fun i => { i with holdEnded := true }) := by
  intro s1
  have hhold : s1.holdover = s.b R.LDG_CTL 2 :=
    (holdover_loseSource _).trans ((Elapsed.of_until s (s.edgeDue + s.edgeWin)).b (by decide))
  rw [← hhold]
  exact if_neg (by simp [hr, hs, ho, hd, hl])

theorem windowExpire_loses (hr : s.running = true) (hs : s.src = 1) (ho : s.ledger.open_ = true)
    (hd : s.ledger.tickDue = false) (hl : s.ledger.lost = false) :
    let u := s.windowExpire
    u.ledger.lost = true ∧ u.b R.LDG_STAT 3 = true ∧
    (s.b R.LDG_CTL 2 = true → u.ledger.tickDue = true ∧ u.b R.LDG_STAT 2 = true ∧ u.f R.LDG_STAT 1 0 = 0) ∧
    (s.b R.LDG_CTL 2 = false → u.ledger.tickDue = false ∧ u.b R.SIM_STAT 2 = false ∧ u.io.holdEnded = true) ∧
    u.jobs = s.jobs ∧ SameMemory s u := by
  rw [windowExpire_eq s hr hs ho hd hl]
  have hE := Elapsed.of_until s (s.edgeDue + s.edgeWin)
  obtain ⟨hlost, hdue, hjobs, hmem, -⟩ := loseSource_frame (s.until (s.edgeDue + s.edgeWin))
  have hloss := loss_loseSource (s.until (s.edgeDue + s.edgeWin))
  have hstat := stat_loseSource (s.until (s.edgeDue + s.edgeWin))
  rw [hE.b (by decide)] at hstat
  rw [hE.ledger, hd] at hdue
  rw [hE.jobs] at hjobs
  rw [hE.mem] at hmem
  generalize (s.until (s.edgeDue + s.edgeWin)).loseSource = s1 at *
  cases hc : s.b R.LDG_CTL 2 with
  | true =>
    rw [if_pos rfl]
    obtain ⟨hshown, hsrc⟩ := hstat hc
    refine ⟨?_, ?_, fun _ => ⟨?_, ?_, ?_⟩, fun h => absurd h (by decide), ?_, .of_mem ?_⟩ <;>
      simp [State.giveTick, hlost, hloss, hshown, hsrc, hjobs, hmem]
  | false =>
    rw [if_neg (by decide)]
    refine ⟨?_, ?_, fun h => absurd h (by decide), fun _ => ⟨?_, ?_, ?_⟩, ?_, .of_mem ?_⟩ <;>
      simp [b_setB, hlost, hloss, hdue, hjobs, hmem]

theorem sourceReturn_waits (h : 320 < (s.sourceAhead s.ledger.genBase).natAbs) : s.sourceReturn = s :=
  if_pos (.inr (.inr (.inr h)))

/-- The source takes over: it is no longer lost, and LDG_STAT shows it. -/
def State.takeOver (s : State) : State :=
  ((s.onLdg (fun l => { l with lost := false, back := none })).setB R.LDG_STAT 2 false).putF R.LDG_STAT 1 0 s.src

theorem sourceReturn_takesOver (hr : s.running = true) (hl : s.ledger.lost = true) (hs : s.src ≠ 3)
    (h : (s.sourceAhead s.ledger.genBase).natAbs ≤ 320) :
    s.sourceReturn = if s.src = 1 ∧ s.b R.LDG_CTL 2 = false then s.takeOver.giveTick else s.takeOver :=
  if_neg (by simp [hr, hl, hs, h])

theorem takeOver_shows : s.takeOver.b R.LDG_STAT 2 = false ∧ s.takeOver.f R.LDG_STAT 1 0 = s.src ∧
    SameRegsBut [R.LDG_STAT] s s.takeOver := by
  unfold State.takeOver
  refine ⟨?_, ?_, fun r hr => ?_⟩
  · rw [b_putF_other _ _ _ (by decide) (by decide) (by decide)]
    exact b_setB_same _ _ _ _ (by decide)
  · rw [f_putF_same _ _ _ (by decide) (by decide)]
    exact Nat.mod_eq_of_lt (fld_lt _ 1 0)
  · have hne : r ≠ R.LDG_STAT := by simpa using hr
    rw [rd_putF_other _ 1 0 _ hne, rd_setB_other _ 2 false hne, rd_onLdg]

theorem takeOver_frame : s.takeOver.ledger.lost = false ∧ s.takeOver.ledger.tickDue = s.ledger.tickDue ∧
    s.takeOver.jobs = s.jobs ∧ s.takeOver.mem = s.mem := by
  simp [State.takeOver]

theorem sourceReturn_facts (hr : s.running = true) (hl : s.ledger.lost = true) (hs : s.src ≠ 3)
    (h : (s.sourceAhead s.ledger.genBase).natAbs ≤ 320) :
    let u := s.sourceReturn
    u.ledger.lost = false ∧ u.b R.LDG_STAT 2 = false ∧ u.f R.LDG_STAT 1 0 = s.src ∧
    u.ledger.tickDue = (s.ledger.tickDue || (s.src == 1 && !s.b R.LDG_CTL 2)) ∧ SameRegsBut [R.LDG_STAT] s u ∧ SameMemory s u ∧
    u.jobs = s.jobs := by
  obtain ⟨hholdover, hsrc, hregs⟩ := takeOver_shows s
  obtain ⟨hlost, hdue, hjobs, hmem⟩ := takeOver_frame s
  rw [sourceReturn_takesOver s hr hl hs h]
  split
  next ht =>
    have htrue : (s.src == 1 && !s.b R.LDG_CTL 2) = true := by simp [ht]
    refine ⟨?_, ?_, ?_, ?_, fun r hm => (rd_onLdg ..).trans (hregs r hm), .of_mem ?_, ?_⟩ <;>
      simp [State.giveTick, hlost, hholdover, hsrc, htrue, hjobs, hmem]
  next ht =>
    have hfalse : (s.src == 1 && !s.b R.LDG_CTL 2) = false := by
      rw [Bool.eq_false_iff]
      simpa using ht
    exact ⟨hlost, hholdover, hsrc, by rw [hfalse, Bool.or_false]; exact hdue, hregs, .of_mem hmem, hjobs⟩
end

theorem tickInEdge_facts {s : State} {falling : Bool} (hr : s.running = true) (hf : falling = s.b R.LDG_CTL 3) (hs : s.src = 1) :
    (s.edgeInWindow = true → s.ledger.lost = false → s.keystoneOf 1 = false → s.tickInEdge falling = s.giveTick) ∧
    (s.edgeInWindow = false → s.holdover = false → s.tickInEdge falling = s.setB R.LDG_STAT 4 true) ∧
    (s.edgeInWindow = false → s.holdover = true →
      s.tickInEdge falling = (s.onLdg (fun l => { l with back := some s.gen })).setB R.LDG_STAT 4 true) := by
  rw [tickInEdge_selected hr hf hs]
  dsimp only
  refine ⟨fun hw hl hk => ?_, fun hw hh => ?_, fun hw hh => ?_⟩
  · have hh : s.holdover = false := by rw [State.holdover, hl]; rfl
    simp only [hw, hh, hl, if_true, Bool.false_eq_true, Bool.true_eq_false, if_false, keystoneSend_other s hk]
  · rw [hw, hh, if_pos rfl, if_neg (by decide)]
  · rw [hw, hh, if_pos rfl, if_pos rfl]

/-- Settles O23: what each source's command does when it gives a tick, when it is lost and when it returns. -/
theorem tickSources : Obligations.TickSources := by
  refine ⟨fun s hr => ⟨fun hs hk => ?_, fun _ hh => genDue_of_noHoldover s hh, fun falling hf hs hw hl hk => ?_,
    fun falling hf hs hw => ?_, fun falling hf => congrArg Host.Outcome.next (if_pos (.inr hf))⟩,
    fun s hr => ⟨fun hs ho hd hl => ?_, fun _ h => congrArg Host.Outcome.next (sourceReturn_waits s h), fun hl hs h => ?_⟩⟩
  · obtain ⟨n, hE⟩ := Elapsed.of_untilGen s s.genDue
    refine ⟨_, congrArg Host.Outcome.next (generatorTick_selected s hr hs hk), ?_, ?_, ?_, ?_, .of_mem ?_⟩ <;>
      simp [State.giveTick, hE.jobs, hE.mem]
  · exact congrArg Host.Outcome.next ((tickInEdge_facts hr hf hs).1 hw hl hk)
  · obtain ⟨-, hplain, hkept⟩ := tickInEdge_facts hr hf hs
    exact ⟨fun hh => congrArg Host.Outcome.next (hplain hw hh), fun hh => congrArg Host.Outcome.next (hkept hw hh)⟩
  · exact ⟨_, rfl, windowExpire_loses s hr hs ho hd hl⟩
  · exact ⟨_, rfl, sourceReturn_facts s hr hl hs h⟩

/-! ### The tick (R11, R15, R21, R41, R437, R440) -/

section
variable {s w : State}

theorem outputTime_of_noFrame (h : s.inFrame = false) : s.outputTime = s := if_neg (by simp [h])

/-- An instant that is given already does not wait for one of 802.1AS time, nor for that of a TICK packet. -/
theorem toTick_of_due (hd : w.ledger.tickDue = true) (hs : w.src ≠ 2) : w.toTick = w := by
  have hg : w.gptpSource = false := by simp [State.gptpSource, hd]
  unfold State.toTick
  rw [hg]
  exact if_neg fun h => hs h.1

/-- The phases of the ending frame come before the tick. -/
theorem tick_of_due (hr : s.running = true) (hd : s.ledger.tickDue = true) (ho : s.outputTime = w)
    (hw : w.ledger.tickDue = true) (hs : w.src ≠ 2) : s.tick = w.atTick := by
  unfold State.tick
  rw [if_neg (by simp [hr]), hd, Bool.true_or, if_pos rfl, ho, toTick_of_due hw hs]
  exact if_pos hw

theorem noFrame_of_config (hm : s.mode = 2) : s.inFrame = false := by simp [State.inFrame, hm]

theorem mode_ne_safe (h : w.inFrame = true) : w.mode ≠ 5 := fun hm => by simp [State.inFrame, hm] at h

theorem atTick_toConfig {s1 : State} (hb : w.bist.fatal = false) (hf : w.inFrame = true)
    (hd : w.dueRequest = (s1, some 2)) : w.atTick = s1.toConfig 0 := by
  unfold State.atTick
  simp only [hb, Bool.false_eq_true, if_false, mode_ne_safe hf, hf, if_true, hd]

theorem atTick_frameTick {s1 : State} {m : Option Nat} (hb : w.bist.fatal = false) (hf : w.inFrame = true)
    (hd : w.dueRequest = (s1, m)) (hm : m ≠ some 2) : w.atTick = s1.frameTick m := by
  unfold State.atTick
  simp only [hb, Bool.false_eq_true, if_false, mode_ne_safe hf, hf, if_true, hd]

theorem dueRequest_none (h : w.power.request = none) : w.dueRequest = (w, none) := by
  unfold State.dueRequest
  rw [h]

theorem atTick_safe (hb : s.bist.fatal = false) (hm : s.mode = 5) : s.atTick = s.safeTick := by
  unfold State.atTick
  rw [hb]
  exact if_pos hm

/-- In Config a tick instant without a request passes: the generator's period alone begins again. -/
theorem atTick_config_idle (hb : s.bist.fatal = false) (hm : s.mode = 2) (hq : s.power.request = none) :
    s.atTick = s.onLdg (fun l =>
      { l with tickDue := false, genBase := if s.src = 0 ∨ s.keystoneOf 0 then l.genBase else s.gen }) := by
  unfold State.atTick
  simp [hb, hm, noFrame_of_config hm, hq]

theorem atTick_config_enters {s1 : State} {t c m : Nat} (hb : s.bist.fatal = false) (hm : s.mode = 2)
    (hq : s.power.request = some (t, c)) (ht : t ≠ 1) (hd : s.dueRequest = (s1, some m)) : s.atTick = s1.frameTick (some m) := by
  unfold State.atTick
  simp only [hb, Bool.false_eq_true, if_false, hm, noFrame_of_config hm, hq, show ¬ (2 = 5) by decide]
  split
  next h => exact absurd h (by simp)
  next c' h => exact absurd (Prod.mk.inj (Option.some.inj h)).1 ht
  next => rw [hd]

/-- A tick counted changes the ledger by its capture and its own fields; what follows are counters, trace and TICK_OUT. -/
theorem countTick_facts {u : State} (href : s.mem.refNext = 0) (hu : u = s.countTick) :
    u.ledger.frame = s.ledger.frame + 1 ∧ u.ledger.tickClk = s.clk ∧ u.ledger.tickDue = false ∧ u.ledger.open_ = true ∧
    u.ledger.capScrub = s.f R.LDG_DERATE 25 16 ∧ u.ledger.capVc = s.rd R.LDG_VCSHARE ∧
    u.ledger.winNow = s.f R.LDG_TICKWIN 15 0 ∧ u.ledger.accts = s.ledger.accts ∧ u.jobs = s.jobs ∧ u.threads = s.threads ∧
    SameMemory s u := by
  unfold State.countTick State.tickCapture at hu
  rw [if_pos href] at hu
  extract_lets frame s0 s1 s2 s3 at hu
  have h1 : Elapsed 0 s1 s2 := (Elapsed.refl s1).snapshot.traceTick
  have h2 : Elapsed 0 s1 s3 := h1.openWindow.ite h1
  have hE : Elapsed 0 s1 u := hu ▸ h2.emit.ite h2
  rw [hE.ledger, hE.jobs, hE.threads]
  exact ⟨rfl, rfl, rfl, rfl, rfl, rfl, rfl, rfl, rfl, rfl, .of_mem hE.mem⟩
end

/-- Settles O24: the phases come first, then the mode says what the tick is; a counted tick takes the captured values. -/
theorem tickOfEachMode : Obligations.TickOfEachMode := by
  refine ⟨fun s w hr hd ho hw hs hb hf => ?_, fun s hr hd hs hb => ?_, fun s href => countTick_facts href rfl⟩
  · have htick : exec .tick s = .next w.atTick := congrArg Host.Outcome.next (tick_of_due hr hd ho hw hs)
    rw [htick]
    refine ⟨fun hq => ?_, fun s1 hq => ?_, fun s1 m hm hq => ?_, fun s1 hq => ?_⟩
    · rw [atTick_frameTick hb hf (dueRequest_none hq) (by decide)]
    · rw [atTick_toConfig hb hf hq]
    · rw [atTick_frameTick hb hf hq (by simpa using hm)]
    · rw [atTick_frameTick hb hf hq (by decide)]
  · have htick : s.inFrame = false → exec .tick s = .next s.atTick := fun hf =>
      congrArg Host.Outcome.next (tick_of_due hr hd (outputTime_of_noFrame hf) hd hs)
    refine ⟨fun hm => ?_, fun hm hq => ?_, fun t c s1 m hm hq ht hdue => ?_⟩
    · rw [htick (by simp [State.inFrame, hm]), atTick_safe hb hm]
    · rw [htick (noFrame_of_config hm), atTick_config_idle hb hm hq]
      exact ⟨_, rfl, rfl, rfl, rfl, fun _ _ => rfl, fun _ => rfl, rfl, rfl⟩
    · rw [htick (noFrame_of_config hm), atTick_config_enters hb hm hq ht hdue]

end Sys2Proof.Machine

/-! ## The bus matrix (O34) -/

namespace Sys2Proof.Machine

/-! ### The candidates of a target port (R73) -/

/-- The oldest request of each master in a list. -/
theorem mem_firstPerMaster {l : List MatrixReq} {q : MatrixReq} :
    q ∈ firstPerMaster l ↔ l.find? (fun r => r.master == q.master) = some q := by
  induction l with
  | nil => simp [firstPerMaster]
  | cons a t ih =>
    rw [firstPerMaster, List.mem_cons, List.mem_filter, ih, List.find?_cons]
    by_cases h : a.master = q.master
    · simp [h, eq_comm]
    · have hne : q ≠ a := fun hq => h (congrArg MatrixReq.master hq.symm)
      simp [hne, beq_eq_false_iff_ne.mpr h, Ne.symm h]

/-- The requests among which a target port chooses: the oldest of each master that waits there. -/
def State.oldestAt (s : State) (t : Nat) : List MatrixReq :=
  firstPerMaster (s.matrix.waiting.filter (fun q => q.target == t))

/-- The uncharged ones of them that have waited MTX_AGE. -/
def State.agedAt (s : State) (t : Nat) : List MatrixReq :=
  (s.oldestAt t).filter (fun q => decide (q.since + (s.rd R.MTX_AGE).toNat ≤ s.clk) && !q.charged)

/-- The charged ones of them. -/
def State.chargedAt (s : State) (t : Nat) : List MatrixReq := (s.oldestAt t).filter (fun q => q.charged)

section
variable {s : State} {t : Nat} {q r : MatrixReq}

theorem mem_oldestAt : q ∈ s.oldestAt t ↔
    s.matrix.waiting.find? (fun r => r.target == t && r.master == q.master) = some q := by
  rw [State.oldestAt, mem_firstPerMaster, List.find?_filter]
  simp only [Bool.decide_and, Bool.decide_eq_true]

theorem mem_agedAt : q ∈ s.agedAt t ↔
    q ∈ s.oldestAt t ∧ q.since + (s.rd R.MTX_AGE).toNat ≤ s.clk ∧ q.charged = false := by
  simp [State.agedAt]

theorem mem_chargedAt : q ∈ s.chargedAt t ↔ q ∈ s.oldestAt t ∧ q.charged = true := List.mem_filter

/-- A candidate waits at the port. -/
theorem waits_of_mem_oldestAt (h : q ∈ s.oldestAt t) : q ∈ s.matrix.waiting ∧ q.target = t := by
  have hf := mem_oldestAt.mp h
  have hp := List.find?_some hf
  simp only [Bool.and_eq_true, beq_iff_eq] at hp
  exact ⟨List.mem_of_find?_eq_some hf, hp.1⟩
end

/-! ### The choice among them -/

/-- A fold that keeps what it has or takes the next one ends with one of the list. -/
theorem mem_of_foldl_select {α : Type} {g : Option α → α → Option α} (hg : ∀ o q, g o q = some q ∨ g o q = o) {l : List α}
    {o : Option α} {a : α} (h : l.foldl g o = some a) : a ∈ l ∨ o = some a := by
  induction l generalizing o with
  | nil => exact .inr h
  | cons b t ih =>
    rcases ih h with hmem | hb
    · exact .inl (List.mem_cons_of_mem b hmem)
    · rcases hg o b with hn | hk
      · exact .inl (List.mem_cons.mpr (.inl (Option.some.inj (hb.symm.trans hn))))
      · exact .inr (hk.symm.trans hb)

/-- Of two requests the one that has waited longer, the first if both have waited alike. -/
def longerWait (o : Option MatrixReq) (q : MatrixReq) : Option MatrixReq :=
  match o with
  | none => some q
  | some x => if q.since < x.since then some q else some x

theorem longerWait_selects (o : Option MatrixReq) (q : MatrixReq) : longerWait o q = some q ∨ longerWait o q = o := by
  cases o with
  | none => exact .inl rfl
  | some x =>
    by_cases h : q.since < x.since
    · exact .inl (if_pos h)
    · exact .inr (if_neg h)

/-- What remains has waited no less than what came in. -/
theorem longerWait_some (o : Option MatrixReq) (q : MatrixReq) :
    ∃ x, longerWait o q = some x ∧ x.since ≤ q.since ∧ ∀ y, o = some y → x.since ≤ y.since := by
  cases o with
  | none => exact ⟨q, rfl, Nat.le_refl _, fun _ h => nomatch h⟩
  | some y =>
    by_cases h : q.since < y.since
    · exact ⟨q, if_pos h, Nat.le_refl _, fun z hz => Option.some.inj hz ▸ h.le⟩
    · exact ⟨y, if_neg h, Nat.not_lt.mp h, fun z hz => Option.some.inj hz ▸ Nat.le_refl _⟩

theorem since_le_of_longestWait {l : List MatrixReq} {o : Option MatrixReq} {a : MatrixReq} (h : l.foldl longerWait o = some a) :
    ∀ b, b ∈ l ∨ o = some b → a.since ≤ b.since := by
  induction l generalizing o with
  | nil =>
    rintro b (hb | hb)
    · exact absurd hb List.not_mem_nil
    · exact (Option.some.inj (h.symm.trans hb)) ▸ Nat.le_refl _
  | cons c t ih =>
    obtain ⟨x, hx, hxc, hxo⟩ := longerWait_some o c
    have hax : a.since ≤ x.since := ih h x (.inr hx)
    rintro b (hb | hb)
    · rcases List.mem_cons.mp hb with rfl | hb
      · exact hax.trans hxc
      · exact ih h b (.inl hb)
    · exact hax.trans (hxo b hb)

section
variable {s : State} {t : Nat} {q : MatrixReq}

/-- Of two requests the one of the higher priority, then the nearer one in the round robin. -/
def State.higherPri (s : State) (t : Nat) (o : Option MatrixReq) (q : MatrixReq) : Option MatrixReq :=
  let last := sget (fun _ => 15) s.matrix.lastGrant t
  match o with
  | none => some q
  | some x =>
    let pq := s.matrixPri t q.master
    let px := s.matrixPri t x.master
    if px < pq ∨ (px = pq ∧ rrDistance last q.master < rrDistance last x.master) then some q else some x

theorem higherPri_selects (s : State) (t : Nat) (o : Option MatrixReq) (q : MatrixReq) :
    s.higherPri t o q = some q ∨ s.higherPri t o q = o := by
  cases o with
  | none => exact .inl rfl
  | some x =>
    unfold State.higherPri
    dsimp only
    split
    · exact .inl rfl
    · exact .inr rfl

theorem choose_aged (hw : s.computeWindow = false) (ha : s.agedAt t ≠ []) :
    s.choose t = (s.agedAt t).foldl longerWait none := by
  have hc : (!s.computeWindow && !(s.agedAt t).isEmpty) = true := by simp [hw, ha]
  exact if_pos hc

theorem choose_byPriority (h : s.computeWindow = true ∨ s.agedAt t = []) :
    s.choose t = (if s.computeWindow && !(s.chargedAt t).isEmpty then s.chargedAt t else s.oldestAt t).foldl (s.higherPri t) none := by
  have hc : ¬ (!s.computeWindow && !(s.agedAt t).isEmpty) = true := by
    rcases h with h | h <;> simp [h]
  exact if_neg hc

/-- What a target port can choose: one of the longest wait of the aged ones outside the compute window, or else a candidate,
which is charged if one is in the window. -/
theorem choose_cases (h : s.choose t = some q) :
    (s.computeWindow = false ∧ q ∈ s.agedAt t ∧ ∀ r ∈ s.agedAt t, q.since ≤ r.since) ∨
    ((s.computeWindow = true ∨ s.agedAt t = []) ∧ q ∈ s.oldestAt t ∧
      (s.computeWindow = true → s.chargedAt t ≠ [] → q ∈ s.chargedAt t)) := by
  by_cases hcase : s.computeWindow = true ∨ s.agedAt t = []
  · rw [choose_byPriority hcase] at h
    have hq := (mem_of_foldl_select (higherPri_selects s t) h).resolve_right nofun
    refine .inr ⟨hcase, ?_, fun hw hc => ?_⟩
    · split at hq
      · exact (mem_chargedAt.mp hq).1
      · exact hq
    · rwa [if_pos (by simp [hw, hc])] at hq
  · rw [not_or, Bool.not_eq_true] at hcase
    obtain ⟨hw, ha⟩ := hcase
    rw [choose_aged hw ha] at h
    exact .inl ⟨hw, (mem_of_foldl_select longerWait_selects h).resolve_right nofun,
      fun r hr => since_le_of_longestWait h r (.inl hr)⟩

theorem mem_oldestAt_of_choose (h : s.choose t = some q) : q ∈ s.oldestAt t := by
  rcases choose_cases h with ⟨-, hq, -⟩ | ⟨-, hq, -⟩
  · exact (mem_agedAt.mp hq).1
  · exact hq

theorem choose_longestWait {r : MatrixReq} (h : s.choose t = some q) (hw : s.computeWindow = false) (hr : r ∈ s.agedAt t) :
    q.charged = false ∧ q.since ≤ r.since := by
  rcases choose_cases h with ⟨-, hq, hleast⟩ | ⟨hno, -, -⟩
  · obtain ⟨-, -, huncharged⟩ := mem_agedAt.mp hq
    exact ⟨huncharged, hleast r hr⟩
  · simp [hw, List.ne_nil_of_mem hr] at hno

theorem choose_charged {r : MatrixReq} (h : s.choose t = some q) (hw : s.computeWindow = true) (hr : r ∈ s.chargedAt t) :
    q.charged = true := by
  rcases choose_cases h with ⟨hno, -, -⟩ | ⟨-, -, hq⟩
  · exact absurd (hno.symm.trans hw) (by decide)
  · exact (mem_chargedAt.mp (hq hw (List.ne_nil_of_mem hr))).2
end

/-! ### Grant, response and release (R73, R75, R77) -/

section
variable {s s1 : State} {t m : Nat} {q : MatrixReq} {r : MatrixResp}

theorem grant_performed (hc : s.choose t = some q) (hp : s.perform q = some s1) : s.grant t = s1.onMtx (fun x =>
    { x with
      waiting := removeFirst q x.waiting, responses := x.responses ++ [q.response]
      lastGrant := sput (fun _ => 15) x.lastGrant t q.master }) := by
  simp only [State.grant, hc, hp]

theorem grant_nothing (h : s.choose t = none ∨ ∃ q, s.choose t = some q ∧ s.perform q = none) : s.grant t = s := by
  rcases h with hc | ⟨q, hc, hp⟩
  · simp only [State.grant, hc]
  · simp only [State.grant, hc, hp]

theorem takeResponse_found (h : s.matrix.responses.find? (fun r => r.master == m) = some r) :
    s.takeResponse m = s.onMtx (fun x => { x with responses := removeFirst r x.responses }) := by
  simp only [State.takeResponse, h]

theorem holdbackRelease_found (h : s.matrix.held.find? (fun q => q.master == m) = some q) :
    s.holdbackRelease m =
      let s1 := s.onMtx (fun x => { x with held := removeFirst q x.held })
      if s1.conflicts q then s else s1.onMtx (fun x => { x with waiting := x.waiting ++ [q] }) := by
  simp only [State.holdbackRelease, h]
end

/-- Settles O34: a port's choice is one of its candidates, and grant, response and release act on what they find. -/
theorem matrixGrants : Obligations.MatrixGrants := by
  refine ⟨fun s t m hr => ?_, fun s t q hq => ?_⟩
  · have hgrant : exec (.matrixGrant t) s = .next (s.grant t.val) := congrArg Host.Outcome.next (if_pos hr)
    have hresponse : exec (.matrixResponse m) s = .next (s.takeResponse m.val) := congrArg Host.Outcome.next (if_pos hr)
    have hrelease : exec (.holdbackRelease m) s = .next (s.holdbackRelease m.val) := congrArg Host.Outcome.next (if_pos hr)
    rw [hgrant, hresponse, hrelease]
    refine ⟨fun q s1 hc hp => by rw [grant_performed hc hp], fun h => by rw [grant_nothing h],
      fun r h => by rw [takeResponse_found h], fun q h => ?_⟩
    rw [holdbackRelease_found h]
    exact ⟨fun hc => congrArg Host.Outcome.next (if_neg (by simp [hc])), fun hc => congrArg Host.Outcome.next (if_pos hc)⟩
  · have hmem := mem_oldestAt_of_choose hq
    obtain ⟨hwaits, htarget⟩ := waits_of_mem_oldestAt hmem
    refine ⟨fun hw r hr hu ha => ?_, hwaits, htarget, mem_oldestAt.mp hmem, fun hw hex => ?_⟩
    · exact choose_longestWait hq hw (mem_agedAt.mpr ⟨mem_oldestAt.mpr hr, ha, hu⟩)
    · obtain ⟨r, hr, hcharged⟩ := hex
      exact choose_charged hq hw (mem_chargedAt.mpr ⟨mem_oldestAt.mpr hr, hcharged⟩)

end Sys2Proof.Machine

/-! ## DDR5 service (O33) -/

namespace Sys2Proof.Machine

/-! ### What the controllers' own work leaves alone -/

/-- From s to u no job, no thread and no byte of memory has changed. -/
structure SameData (s u : State) : Prop where
  jobs : u.jobs = s.jobs
  threads : u.threads = s.threads
  cells : u.mem.cells = s.mem.cells

theorem Elapsed.sameData {n : Nat} {s u : State} (h : Elapsed n s u) : SameData s u :=
  ⟨h.jobs, h.threads, congrArg Memory.cells h.mem⟩

theorem Elapsed.moved {n : Nat} {s u : State} (h : Elapsed n s u) {kind id x : Nat} : Elapsed n s (u.moved kind id x) :=
  (h.each fun _ _ h1 => h1.onPmc.ite h1).ite h

namespace SameData

theorem refl (s : State) : SameData s s := ⟨rfl, rfl, rfl⟩

section
variable {s u v : State} (h : SameData s u)
include h

theorem trans (h2 : SameData u v) : SameData s v :=
  ⟨h2.jobs.trans h.jobs, h2.threads.trans h.threads, h2.cells.trans h.cells⟩

theorem sameMemory : SameMemory s u := fun a => congrArg (sget memDefault · a) h.cells

theorem ite {c : Prop} [Decidable c] (h2 : SameData s v) : SameData s (if c then u else v) := by split <;> assumption

theorem each {α : Type} {l : List α} {g : State → α → State} (hg : ∀ u a, SameData s u → SameData s (g u a)) :
    SameData s (u.each l g) := by
  induction l generalizing u with
  | nil => exact h
  | cons a t ih => exact ih (hg u a h)

theorem wr {off : Nat} {x : Word} : SameData s (u.wr off x) := ⟨h.jobs, h.threads, h.cells⟩
theorem setB {off i : Nat} {x : Bool} : SameData s (u.setB off i x) := ⟨h.jobs, h.threads, h.cells⟩
theorem putF {off hi lo x : Nat} : SameData s (u.putF off hi lo x) := ⟨h.jobs, h.threads, h.cells⟩
theorem countW {off n : Nat} : SameData s (u.countW off n) := ⟨h.jobs, h.threads, h.cells⟩
theorem guard {i : Nat} : SameData s (u.guard i) := ⟨h.jobs, h.threads, h.cells⟩

theorem onMem {g : Memory → Memory} (hg : (g u.mem).cells = u.mem.cells) : SameData s (u.onMem g) :=
  ⟨h.jobs, h.threads, hg.trans h.cells⟩
end
end SameData

section
variable (s : State)

@[simp] theorem rd_onMem (g : Memory → Memory) (r : Nat) : (s.onMem g).rd r = s.rd r := rfl

@[simp] theorem mem_guard (i : Nat) : (s.guard i).mem = s.mem := rfl

theorem rd_guard_other (i : Nat) {r : Nat} (hr : r ≠ R.LDG_GUARD) : (s.guard i).rd r = s.rd r := rd_setB_other s i true hr

theorem b_guard_same {i : Nat} (hi : i < 32) : (s.guard i).b R.LDG_GUARD i = true := b_setB_same s R.LDG_GUARD i true hi

/-- A bit within a field that was set. -/
theorem b_putF_same (off x : Nat) {hi lo i : Nat} (h : hi < 32) (hlo : lo ≤ i) (hhi : i ≤ hi) :
    (s.putF off hi lo x).b off i = x.testBit (i - lo) := by
  unfold State.putF State.b
  rw [rd_wr_same, getLsbD_setFld _ _ (hlo.trans hhi) h, if_pos ⟨hlo, hhi⟩]

/-- A register that reads alike has equal bits. -/
theorem b_of_rd {s u : State} {r : Nat} (h : u.rd r = s.rd r) (i : Nat) : u.b r i = s.b r i := congrArg (BitVec.getLsbD · i) h
end

/-! ### Training (R60, R61, R69) -/

/-- Every channel's modules detected, and DDRC_STAT. -/
def State.surveyed (s : State) (l : List Dimm) (trained : Bool) : State :=
  ((s.each (List.range 12) (fun s c => s.detect l c (populationOk l && trained))).setB R.DDRC_STAT 0 (!populationOk l)).setB
    R.DDRC_STAT 1 (populationOk l && !trained)

section
variable (s : State) (l : List Dimm) (trained : Bool)

theorem sameData_detect {u : State} (h : SameData s u) (c : Nat) : SameData s (u.detect l c trained) := by
  unfold State.detect
  extract_lets m present s1
  have h1 : SameData s s1 := h.putF.setB
  split
  · exact h1.wr
  · exact h1.wr

theorem surveyed_facts : (s.surveyed l trained).b R.DDRC_STAT 0 = (!populationOk l) ∧
    (s.surveyed l trained).b R.DDRC_STAT 1 = (populationOk l && !trained) ∧ SameData s (s.surveyed l trained) := by
  refine ⟨?_, b_setB_same _ _ _ _ (by decide), ((SameData.refl s).each fun _ c h => sameData_detect s l _ h c).setB.setB⟩
  unfold State.surveyed
  rw [b_setB _ _ _ _ _ _ (by decide), if_neg (by decide), b_setB_same _ _ _ _ (by decide)]

/-- Training that fails leaves DDR5 unmapped with no lines. -/
theorem trainAll_fails (h : (populationOk l && trained) = false) :
    s.trainAll l trained = ((s.surveyed l trained).wr R.DDRC_SUBLINES 0).putF R.DDRC_CFG 3 0 0 := if_neg (by simp [h])

/-- Training that succeeds sets the lines, DDRC_CFG with M, and REF. -/
theorem trainAll_maps (h : (populationOk l && trained) = true) : ∃ v x g ref, x.testBit 3 = true ∧
    (∀ m : Memory, (g m).cells = m.cells) ∧ s.trainAll l trained =
      ((((s.surveyed l trained).wr R.DDRC_SUBLINES v).putF R.DDRC_CFG 3 0 x).onMem g).putF R.LDG_DERATE 9 0 ref := by
  refine ⟨_, (if (dimmsOf l 0).length == 2 then 1 else 2) + b2n ((dimmsOf l 0).length == 2) * 4 + 8, _, _, ?_, ?_, if_pos h⟩
  · cases (dimmsOf l 0).length == 2 <;> rfl
  · exact fun _ => rfl

theorem trainAll_facts : (s.trainAll l trained).b R.DDRC_CFG 3 = (populationOk l && trained) ∧
    (s.trainAll l trained).rd R.DDRC_STAT = (s.surveyed l trained).rd R.DDRC_STAT ∧
    ((populationOk l && trained) = false → (s.trainAll l trained).rd R.DDRC_SUBLINES = 0) ∧
    SameData (s.surveyed l trained) (s.trainAll l trained) := by
  have h0 := SameData.refl (s.surveyed l trained)
  cases h : populationOk l && trained with
  | false =>
    rw [trainAll_fails s l trained h]
    refine ⟨b_putF_same _ _ _ (by decide) (by decide) (by decide), ?_, fun _ => ?_, h0.wr.putF⟩
    · rw [rd_putF_other _ _ _ _ (by decide), rd_wr_other _ _ (by decide)]
    · rw [rd_putF_other _ _ _ _ (by decide), rd_wr_same]
  | true =>
    obtain ⟨v, x, g, ref, hx, hg, heq⟩ := trainAll_maps s l trained h
    rw [heq]
    refine ⟨?_, ?_, fun hno => absurd hno (by decide), (h0.wr.putF.onMem (hg _)).putF⟩
    · rw [b_of_rd (rd_putF_other _ _ _ _ (by decide)), b_of_rd (rd_onMem _ g _),
        b_putF_same _ _ x (by decide) (by decide) (by decide)]
      exact hx
    · rw [rd_putF_other _ _ _ _ (by decide), rd_onMem, rd_putF_other _ _ _ _ (by decide), rd_wr_other _ _ (by decide)]
end

/-! ### Temperature (R66, R429) -/

/-- The DIMMs count as hot: on from one above 85 degrees, until each is below 80. -/
def State.hotNow (s : State) (was : Bool) : Bool :=
  let temps := (List.range 12).map (fun k => toSigned 8 (s.f (R.DDR_TEMP k) 7 0))
  if was then !temps.all (fun x => decide (x < 80)) else temps.any (fun x => decide (85 < x))

/-- HOT on every channel. -/
def State.hotBits (s : State) (hot : Bool) : State := s.each (List.range 12) (fun s k => s.setB (R.DDR_STAT k) 5 hot)

/-- A change of HOT, as every channel and ALERT show it. -/
def State.showHot (s : State) (hot : Bool) : State :=
  ((s.onMem (fun m => { m with hot := hot, refNext := refOf s.density hot })).hotBits hot).showAlert

section
variable (s : State)

theorem dimmTemp_eq {c : Nat} {t : BitVec 8} (hr : s.running = true) (hc : s.f (R.DDR_STAT c) 1 0 ≠ 0) :
    s.dimmTemp c t =
      let s1 := s.wr (R.DDR_TEMP c) (BitVec.ofNat 32 t.toNat)
      let hot := s1.hotNow s.mem.hot
      if hot = s.mem.hot then s1 else if hot then (s1.showHot hot).guard 1 else s1.showHot hot :=
  if_neg (by simp [hr, hc])

/-- Eight bits read as two's complement. -/
theorem toSigned_toNat (t : BitVec 8) : toSigned 8 t.toNat = t.toInt := by
  have ht := t.isLt
  rw [BitVec.toInt_eq_toNat_cond]
  unfold toSigned
  dsimp only
  rw [Nat.mod_eq_of_lt ht]
  split <;> split <;> omega

theorem temp_shown (c : Nat) (t : BitVec 8) :
    toSigned 8 ((s.wr (R.DDR_TEMP c) (BitVec.ofNat 32 t.toNat)).f (R.DDR_TEMP c) 7 0) = t.toInt := by
  have ht := t.isLt
  have hf : fld (BitVec.ofNat 32 t.toNat) 7 0 = t.toNat := by
    unfold fld bits
    rw [BitVec.toNat_ofNat]
    omega
  rw [State.f, rd_wr_same, hf, toSigned_toNat]

theorem hotNow_of_hotter {c : Nat} (hc : c < 12) (ht : 85 < toSigned 8 (s.f (R.DDR_TEMP c) 7 0)) (was : Bool) :
    s.hotNow was = true := by
  have hmem : toSigned 8 (s.f (R.DDR_TEMP c) 7 0) ∈ (List.range 12).map (fun k => toSigned 8 (s.f (R.DDR_TEMP k) 7 0)) :=
    List.mem_map_of_mem (List.mem_range.mpr hc)
  unfold State.hotNow
  cases was with
  | false =>
    rw [if_neg (by decide)]
    exact List.any_eq_true.mpr ⟨_, hmem, decide_eq_true ht⟩
  | true =>
    rw [if_pos rfl, Bool.not_eq_true', List.all_eq_false]
    exact ⟨_, hmem, by simp only [decide_eq_true_eq]; omega⟩

theorem rd_hotBits_other (hot : Bool) {r : Nat} (hr : ∀ k, r ≠ R.DDR_STAT k) : (s.hotBits hot).rd r = s.rd r := by
  unfold State.hotBits
  induction List.range 12 generalizing s with
  | nil => rfl
  | cons a t ih => exact (ih _).trans (rd_setB_other s 5 hot (hr a))

theorem mem_hotBits (hot : Bool) : (s.hotBits hot).mem = s.mem := by
  unfold State.hotBits
  induction List.range 12 generalizing s with
  | nil => rfl
  | cons a t ih => exact (ih _).trans (mem_setB ..)

theorem sameData_hotBits (hot : Bool) : SameData s (s.hotBits hot) := (SameData.refl s).each fun _ _ h => h.setB

theorem b_each_hot {l : List Nat} {hot : Bool} {k : Nat} :
    (s.each l (fun s k => s.setB (R.DDR_STAT k) 5 hot)).b (R.DDR_STAT k) 5 = if k ∈ l then hot else s.b (R.DDR_STAT k) 5 := by
  induction l generalizing s with
  | nil => rfl
  | cons a t ih =>
    refine (ih _).trans ?_
    rw [b_setB s _ _ 5 5 hot (by decide)]
    by_cases hk : k = a
    · simp [hk]
    · simp [hk]

theorem b_hotBits (hot : Bool) {k : Nat} (hk : k < 12) : (s.hotBits hot).b (R.DDR_STAT k) 5 = hot :=
  (b_each_hot s).trans (if_pos (List.mem_range.mpr hk))

theorem temp_ne_stat (c k : Nat) : R.DDR_TEMP c ≠ R.DDR_STAT k := by
  simp only [R.DDR_TEMP, R.DDR_STAT]
  omega

theorem ddr_ne_below {x c : Nat} (h : x < 0x90000) : R.DDR_TEMP c ≠ x ∧ R.DDR_STAT c ≠ x := by
  simp only [R.DDR_TEMP, R.DDR_STAT]
  omega

theorem showHot_facts (hot : Bool) (c : Nat) : (s.showHot hot).mem.hot = hot ∧
    (s.showHot hot).rd (R.DDR_TEMP c) = s.rd (R.DDR_TEMP c) ∧ SameData s (s.showHot hot) := by
  unfold State.showHot State.showAlert
  refine ⟨?_, ?_, ?_⟩
  · rw [mem_setB, mem_hotBits, mem_onMem]
  · rw [rd_setB_other _ 3 _ (ddr_ne_below (by decide)).1, rd_hotBits_other _ hot (temp_ne_stat c), rd_onMem]
  · exact (((SameData.refl s).onMem rfl).trans (sameData_hotBits _ hot)).setB

theorem showHot_shows {k : Nat} (hk : k < 12) :
    (s.showHot true).b (R.DDR_STAT k) 5 = true ∧ (s.showHot true).b R.PWR_STAT 3 = true := by
  unfold State.showHot State.showAlert
  generalize s.onMem _ = w
  have hbit := b_hotBits w true hk
  constructor
  · rw [b_of_rd (rd_setB_other _ 3 _ (ddr_ne_below (by decide)).2), hbit]
  · rw [b_setB_same _ _ _ _ (by decide), List.any_eq_true.mpr ⟨k, List.mem_range.mpr hk, hbit⟩, Bool.or_true]

/-- The three outcomes of a new temperature: HOT as before, HOT from now on, HOT no longer. -/
theorem dimmTemp_cases {c : Nat} {t : BitVec 8} (hr : s.running = true) (hc : s.f (R.DDR_STAT c) 1 0 ≠ 0) :
    ∃ s1, s1 = s.wr (R.DDR_TEMP c) (BitVec.ofNat 32 t.toNat) ∧
      ((s.dimmTemp c t = s1 ∧ s1.hotNow s.mem.hot = s.mem.hot) ∨ s.dimmTemp c t = (s1.showHot true).guard 1 ∨
        (s.dimmTemp c t = s1.showHot false ∧ s1.hotNow s.mem.hot = false)) := by
  refine ⟨_, rfl, ?_⟩
  rw [dimmTemp_eq s hr hc]
  generalize s.wr (R.DDR_TEMP c) (BitVec.ofNat 32 t.toNat) = s1
  by_cases hsame : s1.hotNow s.mem.hot = s.mem.hot
  · exact .inl ⟨if_pos hsame, hsame⟩
  · refine .inr ?_
    dsimp only
    rw [if_neg hsame]
    cases s1.hotNow s.mem.hot with
    | true => exact .inl (if_pos rfl)
    | false => exact .inr ⟨if_neg (by decide), rfl⟩

theorem dimmTemp_facts {c : Nat} {t : BitVec 8} (hr : s.running = true) (hc : s.f (R.DDR_STAT c) 1 0 ≠ 0) (hlt : c < 12) :
    (s.dimmTemp c t).rd (R.DDR_TEMP c) = BitVec.ofNat 32 t.toNat ∧ (85 < t.toInt → (s.dimmTemp c t).mem.hot = true) ∧
    (s.mem.hot = false → 85 < t.toInt → (∀ k : Fin 12, (s.dimmTemp c t).b (R.DDR_STAT k.val) 5 = true) ∧
      (s.dimmTemp c t).b R.LDG_GUARD 1 = true ∧ (s.dimmTemp c t).b R.PWR_STAT 3 = true) ∧
    SameMemory s (s.dimmTemp c t) := by
  obtain ⟨s1, hs1, hcases⟩ := dimmTemp_cases s (t := t) hr hc
  have hhotter : 85 < t.toInt → s1.hotNow s.mem.hot = true := fun ht =>
    hotNow_of_hotter s1 hlt (by rw [hs1, temp_shown]; exact ht) _
  have hshown : s1.rd (R.DDR_TEMP c) = BitVec.ofNat 32 t.toNat := by rw [hs1, rd_wr_same]
  have hmem : s1.mem = s.mem := by rw [hs1, mem_wr]
  have hdata : SameData s s1 := by rw [hs1]; exact (SameData.refl s).wr
  rcases hcases with ⟨hu, hsame⟩ | hu | ⟨hu, hcool⟩ <;> rw [hu]
  · have hhot : 85 < t.toInt → s.mem.hot = true := fun ht => hsame.symm.trans (hhotter ht)
    exact ⟨hshown, fun ht => (congrArg Memory.hot hmem).trans (hhot ht),
      fun hno ht => absurd (hno.symm.trans (hhot ht)) (by decide), hdata.sameMemory⟩
  · obtain ⟨hhot, htemp, hkept⟩ := showHot_facts s1 true c
    refine ⟨?_, fun _ => by rw [mem_guard, hhot], fun _ _ => ⟨fun k => ?_, b_guard_same _ (by decide), ?_⟩, (hdata.trans hkept.guard).sameMemory⟩
    · rw [rd_guard_other _ 1 (ddr_ne_below (by decide)).1, htemp, hshown]
    · rw [b_of_rd (rd_guard_other _ 1 (ddr_ne_below (by decide)).2), (showHot_shows s1 k.isLt).1]
    · rw [b_of_rd (rd_guard_other _ 1 (by decide)), (showHot_shows s1 hlt).2]
  · obtain ⟨-, htemp, hkept⟩ := showHot_facts s1 false c
    have hnot : ¬ 85 < t.toInt := fun ht => absurd (hcool.symm.trans (hhotter ht)) (by decide)
    exact ⟨htemp.trans hshown, fun ht => absurd ht hnot, fun _ ht => absurd ht hnot, (hdata.trans hkept).sameMemory⟩
end

/-! ### Retraining (R68, R69) -/

section
variable {s : State} {c : Nat} {o : Origin} {v : Word}

/-- A channel that is due begins at T_OUT. -/
theorem ddrRetrain_begins (hm : s.b R.DDRC_CFG 3 = true) (hf : s.inFrame = true) (hw : s.idleWindow = true)
    (hp : s.phase = s.toutClk) (hr : s.mem.retraining = []) (hd : s.retrainDue c = true) : s.ddrRetrain c =
      ((s.onMem (fun m => { m with retraining := [(c, s.clk)], retrainReq := m.retrainReq.filter (fun x => x != c) })).setB
        (R.DDR_STAT c) 6 true).guard 3 := by
  have hnone : ¬ s.mem.retraining.any (fun e => e.1 == c) = true := by simp [hr]
  exact (if_neg hnone).trans (if_pos (by simp [hm, hf, hw, hp, hr, hd]))

theorem ddrRetrain_begins_facts (hm : s.b R.DDRC_CFG 3 = true) (hf : s.inFrame = true) (hw : s.idleWindow = true)
    (hp : s.phase = s.toutClk) (hr : s.mem.retraining = []) (hd : s.retrainDue c = true) :
    (s.ddrRetrain c).mem.retraining = [(c, s.clk)] ∧ (s.ddrRetrain c).b (R.DDR_STAT c) 6 = true ∧
    (s.ddrRetrain c).b R.LDG_GUARD 3 = true ∧ SameMemory s (s.ddrRetrain c) := by
  rw [ddrRetrain_begins hm hf hw hp hr hd]
  refine ⟨rfl, ?_, b_guard_same _ (by decide), ((SameData.refl s).onMem rfl).setB.guard.sameMemory⟩
  exact (b_of_rd (rd_guard_other _ 3 (ddr_ne_below (by decide)).2) 6).trans (b_setB_same _ _ _ _ (by decide))

/-- The end of a retraining shows in DDRn_STAT alone. -/
theorem endRetrain_facts (s : State) (c : Nat) : (s.endRetrain c).mem.retraining = [] ∧
    (s.endRetrain c).b (R.DDR_STAT c) 6 = false ∧ SameRegsBut [R.DDR_STAT c] s (s.endRetrain c) ∧
    SameMemory s (s.endRetrain c) :=
  ⟨rfl, b_setB_same _ _ _ _ (by decide), fun _ hr => rd_setB_other _ 6 false (by simpa using hr),
    ((SameData.refl s).onMem rfl).setB.sameMemory⟩

/-- A write of DDRn_CTL comes to its own rule. -/
theorem regWrite_ddrCtl (hc : c < 12) (h : Reaches s o (R.DDR_CTL c)) (hv : Takes (R.DDR_CTL c) v) :
    s.regWrite o (R.DDR_CTL c) v = (s.writeDdrCtl c v).accepted o := by
  obtain ⟨r, hrow, haccepts⟩ := hv
  have hblock : R.DDR_CTL c / 0x10000 = 9 := by simp only [R.DDR_CTL]; omega
  have hrights : s.blockRights o (R.DDR_CTL c) = true := by simp [State.blockRights, hblock]
  have hidx : idx (R.DDR_CTL c) (R.DDR_CTL 0) 0x1000 = c := by simp only [idx, R.DDR_CTL]; omega
  have hwrite : s.writeBlock o r (R.DDR_CTL c) v = (s.writeDdrCtl c v, none) := by
    have hddr : s.writeDdr r (R.DDR_CTL c) v = (s.writeDdrCtl (idx (R.DDR_CTL c) (R.DDR_CTL 0) 0x1000) v, none) :=
      if_pos (by simp only [R.DDR_CTL, R.DDRC_CFG]; omega)
    rw [hidx] at hddr
    unfold State.writeBlock
    rw [hblock]
    exact hddr
  refine regWrite_accepted h (descAsk_plain ?_ ?_ fun t _ => ?_)
    ((csWrite_block h hrow haccepts hrights (by simp only [R.DDR_CTL]; omega)).trans hwrite)
  · simp only [R.DDR_CTL, R.TRP_MTVS, R.TRP_STVS, R.TRP_MSTK, R.TRP_SSTK]
    omega
  · simp only [R.DDR_CTL, R.DBG_TREG]
    omega
  · simp only [R.DDR_CTL, R.STM_CTL]
    omega

/-- RETRAIN asks for one retraining, and for nothing more if one is asked for already. -/
theorem writeDdrCtl_asks (hv : v.getLsbD 0 = true) : (s.writeDdrCtl c v).mem.retrainReq.contains c = true ∧
    SameRegsBut [] s (s.writeDdrCtl c v) ∧ SameMemory s (s.writeDdrCtl c v) := by
  unfold State.writeDdrCtl
  split
  next => exact ⟨by simp, fun _ _ => rfl, fun _ => rfl⟩
  next h => exact ⟨by simpa [hv] using h, fun _ _ => rfl, fun _ => rfl⟩
end

/-! ### Patrol scrub (R67, R68) -/

/-- A subchannel's patrol has written its corrected line back and moved one line on. -/
def State.patrolRead (s : State) (sub : Nat) : State :=
  { ((s.patrolBack sub).patrolMove sub).onMem (fun x =>
      { x with patrol := sput (fun _ => 0) x.patrol sub (sget (fun _ => 0) s.mem.patrol sub + 1) }) with free := s.free }

/-- What patrol does in the end with a line that held no error, by the error that its burst shows. -/
def State.patrolFinds (s : State) (sub p : Nat) : Option (Bool × Nat) → State
  | none => s
  | some (true, d) => (s.ddrLog p true true d).setEcc (ddrBase + p) (some (.double d))
  | some (false, d) => ((s.ddrLog p false true d).setEcc (ddrBase + p) (some (.single d))).onMem (fun x =>
      { x with patrolFix := sput (fun _ => 0) x.patrolFix sub (p / 64 + 1) })

section
variable {s : State} {sub : Nat} {wrong : List (Fin 10)} {n m : Fin 10}

theorem patrol_idle (h : s.scrubShare = 0 ∨ s.mem.retraining.any (fun e => e.1 == sub / 2) = true) :
    s.patrol sub wrong = s := if_pos (.inr (.inr (.inr (.inr h))))

/-- A transfer of patrol at a line that held no error. -/
theorem patrol_clean (hr : s.running = true) (hm : s.b R.DDRC_CFG 3 = true) (hon : s.b R.DDRC_CFG 4 = true)
    (hself : s.mem.selfRefresh = false) (hshare : s.scrubShare ≠ 0)
    (hbusy : s.mem.retraining.any (fun e => e.1 == sub / 2) = false) {p : Nat}
    (hp : p = ddrLine sub (sget (fun _ => 0) s.mem.patrol sub % (s.rd R.DDRC_SUBLINES).toNat))
    (hclean : ((s.patrolBack sub).patrolMove sub).lineError (ddrBase + p) = none) (hfew : wrong.eraseDups.length ≤ 2) :
    s.patrol sub wrong = ((s.patrolRead sub).patrolFinds sub p
      (((s.patrolBack sub).patrolMove sub).burstError (s.b (R.DDR_MODULE (sub / 2)) 1) wrong)).patrolPass := by
  subst hp
  unfold State.patrol
  rw [if_neg (by simp [hr, hm, hon, hself, hshare, hbusy]), if_neg (Nat.not_lt.mpr hfew)]
  dsimp only
  rw [hclean]
  cases State.burstError _ _ _ with
  | none => rfl
  | some e =>
    obtain ⟨ue, d⟩ := e
    cases ue <;> rfl

theorem burstError_one (x8 : Bool) : s.burstError x8 [n] = some (false, if x8 then n.val / 2 else n.val) := rfl

theorem eraseDups_pair (h : n ≠ m) : [n, m].eraseDups = [n, m] := by
  simp [List.eraseDups_cons, h.symm]

theorem burstError_two (x8 : Bool) (h : n ≠ m) : s.burstError x8 [n, m] =
    let device := fun (n : Fin 10) => if x8 then n.val / 2 else n.val
    some (true, if device n = device m then device n else 15) := by
  unfold State.burstError
  rw [eraseDups_pair h]

theorem sameData_patrolMove {u : State} (h : SameData s u) : SameData s (u.patrolMove sub) :=
  h.trans ((Elapsed.refl u).eventOver.eventOver.moved).sameData

theorem sameData_writeBack {u : State} (h : SameData s u) (a : Nat) : SameData s (u.writeBack a) := by
  unfold State.writeBack
  split
  · exact h.onMem rfl
  · exact h

theorem sameData_patrolBack : SameData s (s.patrolBack sub) := by
  unfold State.patrolBack
  split
  · exact .refl s
  next l _ =>
    have hback : SameData s ((dwords (ddrBase + 64 * l) 64).foldl (fun s x => s.writeBack x) s) :=
      (SameData.refl s).each fun _ a h => sameData_writeBack h a
    exact sameData_patrolMove (hback.onMem rfl)

theorem sameData_patrolPass {u : State} (h : SameData s u) : SameData s u.patrolPass := (h.onMem rfl).countW.ite h

/-- Patrol of a line without an error changes no byte. -/
theorem sameData_patrolPass_patrolRead : SameData s (s.patrolRead sub).patrolPass := by
  have h : SameData s ((s.patrolBack sub).patrolMove sub) := sameData_patrolMove sameData_patrolBack
  exact sameData_patrolPass ⟨h.jobs, h.threads, h.cells⟩
end

/-- Settles O33: training, refresh, temperature, retraining and patrol, each from what its own function does. -/
theorem ddrService : Obligations.DdrService := by
  refine ⟨fun s l trained hr hm => ?_, fun s c t hr hm => ⟨?_, fun hc => ?_, fun hf hw hp hn hd => ?_, fun hb => ?_⟩,
    fun s o c v h hv => ?_, fun s k n m hr hm hon hself => ?_⟩
  · obtain ⟨hpop, hfail, hsurvey⟩ := surveyed_facts s l trained
    obtain ⟨hmap, hstat, hlines, hdata⟩ := trainAll_facts s l trained
    have hkept := hsurvey.trans hdata
    exact ⟨_, congrArg Host.Outcome.next (if_pos ⟨hr, hm⟩), hmap, (b_of_rd hstat 0).trans hpop, (b_of_rd hstat 1).trans hfail,
      hlines, hkept.jobs, hkept.threads, hkept.sameMemory⟩
  · exact ⟨_, congrArg Host.Outcome.next (if_pos ⟨hr, hm⟩), by rw [mem_onMem, sget_sput_same], fun _ _ => rfl, fun _ => rfl⟩
  · exact ⟨_, rfl, dimmTemp_facts s hr hc c.isLt⟩
  · exact ⟨_, rfl, ddrRetrain_begins_facts hm hf hw hp hn hd⟩
  · exact ⟨_, congrArg Host.Outcome.next (if_pos hb), endRetrain_facts s c.val⟩
  · exact ⟨congrArg Host.Outcome.next (regWrite_ddrCtl c.isLt h hv), writeDdrCtl_asks⟩
  · intro busy i p s0 s1 device both
    refine ⟨fun _ h => congrArg Host.Outcome.next (patrol_idle h), fun hshare hbusy hclean => ?_⟩
    have hpatrol : ∀ wrong : List (Fin 10), wrong.eraseDups.length ≤ 2 → exec (.patrolScrub k wrong) s = _ :=
      fun _ hfew => congrArg Host.Outcome.next (patrol_clean hr hm hon hself hshare hbusy rfl hclean hfew)
    refine ⟨hpatrol [] (by decide), ?_, fun hne => ?_, sameData_patrolPass_patrolRead.sameMemory⟩
    · rw [hpatrol [n] (Nat.le_succ 1), burstError_one]
      rfl
    · rw [hpatrol [n, m] (by rw [eraseDups_pair hne]; rfl), burstError_two _ hne]
      rfl

end Sys2Proof.Machine

/-! ## Vector jobs: the instructions that name a job, plan entries and the flush of a queue (O20, O29) -/

namespace Sys2Proof.Machine

/-! ### VISSUE, VWAIT, VPOLL and VCANCEL (R107, R117, R202) -/

/-- The registers that a vector job instruction answers in: ACC, and Z of PSW. -/
def Thread.answering (z : Bool) (x : Nat) (h : Thread) : Thread := 
  { h with psw := setFld h.psw 1 1 (b2n z), acc := BitVec.ofNat 32 x }

section
variable {s s0 s1 s2 : State} {t : Tid} {op : Nat} {f : Operand} {i : Instr} {vjd v : Nat} {j : Job}

/-- A ready instruction whose body answers ends in sequence, with the answer in its thread's registers. -/
theorem issue_answers {z : Bool} {x : Nat} (h : StemReady s t op f i) (body : State → State × Fate)
    (hbody : body s = s1.done t.val f (Thread.answering z x)) : s.issue t op f i body =
      .next ((s1.onThr t.val (fun k => (k.bump f).answering z x)).inSequence t f (s.thr t.val).pc) := by
  rw [issue_ready h, hbody, done_eq, finish_next]

/-- A ready instruction whose body leaves it to go on later is retired, its thread still at it. -/
theorem issue_step (h : StemReady s t op f i) (body : State → State × Fate) (hbody : body s = (s1, .step)) :
    s.issue t op f i body = .next (s1.retired t.val false) := by
  rw [issue_ready h, hbody, finish_step]

theorem vwait_inFlight (hvjd : s.vjdOf t f = (s1, .ok vjd)) (hjob : (s1.jobAt vjd).isSome = true) :
    s.vwait t f = (s1.onThr t.val (fun h => { h with st := .waiting, waitFor := .job vjd }), .step) := by
  unfold State.vwait
  rw [gotThen_ok hvjd, if_pos hjob]

theorem vwait_written (hvjd : s.vjdOf t f = (s1, .ok vjd)) (hjob : s1.jobAt vjd = none)
    (hstat : s1.statAt t vjd ((s.thr t.val).ea f) = (s2, .ok v)) :
    s.vwait t f = s2.done t.val f (Thread.answering (decide (v % 8 = 5)) v) := by
  unfold State.vwait
  rw [gotThen_ok hvjd, if_neg (by simp [hjob]), ← beq_eq_decide]
  exact gotThen_ok hstat _

theorem vpoll_inFlight (hvjd : s.vjdOf t f = (s1, .ok vjd)) (hjob : s1.jobAt vjd = some j) :
    s.vpoll t f = s1.done t.val f (Thread.answering false j.liveStat) := by
  unfold State.vpoll
  rw [gotThen_ok hvjd, hjob]
  rfl

theorem vpoll_written (hvjd : s.vjdOf t f = (s1, .ok vjd)) (hjob : s1.jobAt vjd = none)
    (hstat : s1.statAt t vjd ((s.thr t.val).ea f) = (s2, .ok v)) :
    s.vpoll t f = s2.done t.val f (Thread.answering true v) := by
  unfold State.vpoll
  rw [gotThen_ok hvjd, hjob]
  exact gotThen_ok hstat _

/-- Once the store buffer has drained, the job at the VJD decides what VCANCEL does. -/
theorem vcancel_eq (hdrain : s.drainAll t.val = some s0) (hvjd : s0.vjdOf t f = (s1, .ok vjd)) :
    s.vcancel t f = match s1.jobAt vjd with
      | some j => if j.finished then (s1.completeJob j).done t.val f (Thread.answering false 1)
        else (s1.cancelJob j).done t.val f (Thread.answering true 0)
      | none => s1.done t.val f (Thread.answering false 1) := by
  unfold State.vcancel
  rw [hdrain]
  exact gotThen_ok hvjd _

theorem vcancel_unfinished (hdrain : s.drainAll t.val = some s0) (hvjd : s0.vjdOf t f = (s1, .ok vjd))
    (hjob : s1.jobAt vjd = some j) (hfin : j.finished = false) :
    s.vcancel t f = (s1.cancelJob j).done t.val f (Thread.answering true 0) := by
  rw [vcancel_eq hdrain hvjd, hjob]
  exact if_neg (by simp [hfin])

theorem vcancel_finished (hdrain : s.drainAll t.val = some s0) (hvjd : s0.vjdOf t f = (s1, .ok vjd))
    (hjob : s1.jobAt vjd = some j) (hfin : j.finished = true) :
    s.vcancel t f = (s1.completeJob j).done t.val f (Thread.answering false 1) := by
  rw [vcancel_eq hdrain hvjd, hjob]
  exact if_pos hfin

theorem vcancel_noJob (hdrain : s.drainAll t.val = some s0) (hvjd : s0.vjdOf t f = (s1, .ok vjd))
    (hjob : s1.jobAt vjd = none) : s.vcancel t f = s1.done t.val f (Thread.answering false 1) := by
  rw [vcancel_eq hdrain hvjd, hjob]

/-- Z tells the outcomes apart by the low byte of ACC: admitted, deferred and DONE are 0, 1 and 6 there (R107). -/
theorem outcome_eq (s : State) (t : Tid) (f : Operand) (o : Outcome) : s.outcome t f o =
    s.done t.val f (Thread.answering (decide (o.acc % 256 = 0 ∨ o.acc % 256 = 1 ∨ o.acc % 256 = 6)) o.acc) := by
  cases o with
  | admitted b | deferred b =>
    rw [decide_eq_true (by simp only [Outcome.acc]; omega)]
    rfl
  | fault c =>
    rw [decide_eq_false (by simp only [Outcome.acc]; omega)]
    rfl
  | denied | qfull | busy | done => rfl
end

/-- Settles O20: each instruction is ready, so it runs; the job at its VJD, or its outcome, says what it answers. -/
theorem vectorJobInstructions : Obligations.VectorJobInstructions := by
  intro s s0 s1 s2 s3 t f vjd v j h ea answer
  refine ⟨fun hvjd => ⟨fun hr hjob => ?_, fun hr hjob hstat => ?_, fun hr hjob => ?_, fun hr hjob hstat => ?_⟩,
    fun hr hdrain hvjd => ⟨fun hjob hfin => ?_, fun hjob hfin => ?_, fun hjob => ?_⟩, fun o hr ho => ?_⟩
  · exact issue_step hr (fun s => s.vwait t f) (vwait_inFlight hvjd hjob)
  · exact issue_answers hr (fun s => s.vwait t f) (vwait_written hvjd hjob hstat)
  · exact issue_answers hr (fun s => s.vpoll t f) (vpoll_inFlight hvjd hjob)
  · exact issue_answers hr (fun s => s.vpoll t f) (vpoll_written hvjd hjob hstat)
  · exact issue_answers hr (fun s => s.vcancel t f) (vcancel_unfinished hdrain hvjd hjob hfin)
  · exact issue_answers hr (fun s => s.vcancel t f) (vcancel_finished hdrain hvjd hjob hfin)
  · exact issue_answers hr (fun s => s.vcancel t f) (vcancel_noJob hdrain hvjd hjob)
  · exact issue_answers hr (fun s => s.vissue t f) (ho.trans (outcome_eq s3 t f o))

/-! ### Plan entries (R110, R111) -/

section
variable {s : State} {k i : Nat} {j : Job}

/-- The state in which the job armed for an entry has taken one spore of its start input. -/
def State.takesStart (s : State) (k i : Nat) : State :=
  s.onEntry k i (fun e => { e with pend := e.pend - 1, taken := e.taken + 1 })

/-- In a frame of an active plan, the entry of the active slot starts. -/
theorem planEntryStart_inFrame (hframe : s.inFrame = true) (hplan : s.ledger.planActive = true)
    (hopen : s.ledger.open_ = true) : s.planEntryStart i = s.startEntry s.ledger.actSlot i :=
  if_pos (by rw [hframe, hplan, hopen]; rfl)

/-- An armed job whose entry has a start spore takes it: the latest start of its entry, then queue room, decide the rest. -/
theorem startEntry_takes (hjob : s.jobs.find? (fun j => decide (j.st = .armed) && j.plan == some (k, i)) = some j)
    (hwait : j.roomWait = false) (hpend : ((s.slot k).getD i {}).pend ≠ 0) : s.startEntry k i =
      if ((s.slot k).getD i {}).lso * 16 < s.phase then (((s.takesStart k i).dropInstance j).planLate).overrunSpore
      else if (s.takesStart k i).hasRoom j.base j.gang then (s.takesStart k i).enterQueue j
      else { s.takesStart k i with
        jobs := ((s.takesStart k i).jobs.filter (fun x => x.vjd != j.vjd)) ++ [{ j with roomWait := true }] } := by
  unfold State.startEntry
  rw [hjob]
  dsimp only
  rw [if_neg (by simp [hwait]), if_neg hpend]
  rfl
end

/-! ### FLUSHQ (R117, R119) -/

section
variable {s : State} {o : Origin} {k : Nat} {v : Word}

/-- FRDn_CTL is no register whose write reads a descriptor. -/
theorem descAsk_frdCtl (hk : k < 8) : s.descAsk o (R.FRD_CTL k) v = none := by
  refine descAsk_plain ?_ ?_ fun t _ => ?_
  · simp only [R.FRD_CTL, R.TRP_MTVS, R.TRP_STVS, R.TRP_MSTK, R.TRP_SSTK]
    omega
  · simp only [R.FRD_CTL, R.DBG_TREG]
    omega
  · simp only [R.FRD_CTL, R.STM_CTL]
    omega

/-- A write of FRDn_CTL stores its enables, and with FLUSHQ empties the queue. -/
theorem regWrite_frdCtl (hk : k < 8) (h : Reaches s o (R.FRD_CTL k)) (hv : Takes (R.FRD_CTL k) v) :
    s.regWrite o (R.FRD_CTL k) v = State.accepted (if v.getLsbD 1 = true then (s.stored (R.FRD_CTL k) v).flushQueue k
      else s.stored (R.FRD_CTL k) v) o := by
  obtain ⟨r, hrow, haccepts⟩ := hv
  have hblock : R.FRD_CTL k / 0x10000 = 4 := by simp only [R.FRD_CTL]; omega
  have hrights : s.blockRights o (R.FRD_CTL k) = true := by simp [State.blockRights, hblock]
  have hidx : idx (R.FRD_CTL k) 0x40000 0x1000 = k := by simp only [idx, R.FRD_CTL]; omega
  have hstored : s.stored (R.FRD_CTL k) v = s.plain r (R.FRD_CTL k) v := by unfold State.stored; rw [hrow]
  have hwrite : s.writeBlock o r (R.FRD_CTL k) v =
      (if v.getLsbD 1 = true then (s.stored (R.FRD_CTL k) v).flushQueue k else s.stored (R.FRD_CTL k) v, none) := by
    unfold State.writeBlock
    rw [hblock]
    dsimp only [State.writeFrd]
    rw [hidx, hstored]
    simp only [true_and]
  exact regWrite_accepted h (descAsk_frdCtl hk)
    ((csWrite_block h hrow haccepts hrights (by simp only [R.FRD_CTL]; omega)).trans hwrite)
end

/-- Settles O29: the armed job takes its spore and starts, waits or is dropped; FLUSHQ decides what follows the stored enables. -/
theorem planEntriesAndFlush : Obligations.PlanEntriesAndFlush := by
  refine ⟨fun s i j hframe hplan hopen => ?_, fun s o k v h hv => ?_⟩
  · intro k e s1 hjob hwait hpend
    have htakes : exec (.planEntryStart i) s = .next _ :=
      congrArg Host.Outcome.next ((planEntryStart_inFrame hframe hplan hopen).trans (startEntry_takes hjob hwait hpend))
    refine ⟨fun htime hroom => htakes.trans ?_, fun htime hroom => htakes.trans ?_, fun hlate => htakes.trans ?_⟩
    · rw [if_neg (Nat.not_lt.mpr htime)]
      exact congrArg Host.Outcome.next (if_pos hroom)
    · rw [if_neg (Nat.not_lt.mpr htime)]
      exact congrArg Host.Outcome.next (if_neg (by rw [State.takesStart, hroom]; decide))
    · exact congrArg Host.Outcome.next (if_pos hlate)
  · have hwrite : exec (.flushq o k v) s = .next _ := congrArg Host.Outcome.next (regWrite_frdCtl k.isLt h hv)
    refine ⟨fun hflush => hwrite.trans ?_, fun hflush => hwrite.trans ?_⟩
    · rw [if_pos hflush]
    · rw [if_neg (by rw [hflush]; decide)]

end Sys2Proof.Machine

/-! ## Multiply, divide, negate, shift and rotate (O9, O10) -/

namespace Sys2Proof.Machine

/-! ### How an arithmetic instruction that is ready ends (R204, R205) -/

section
variable {s s1 : State} {t : Tid} {op : Nat} {f : Operand} {i : Instr} {body : State → State × Fate}
  {v r : Word} {fl : Flags} {canTrap : Bool}

/-- A ready instruction whose body completes ends in sequence, its registers set after the post-increment. -/
theorem issue_done {g regs : Thread → Thread} (h : StemReady s t op f i) (hbody : body s = s1.done t.val f g)
    (hregs : ∀ k : Thread, g (k.bump f) = regs k) :
    s.issue t op f i body = .next ((s1.onThr t.val regs).inSequence t f (s.thr t.val).pc) := by
  rw [issue_ready h, hbody, done_eq, finish_next, funext hregs]

/-- A ready instruction whose body traps takes the trap. -/
theorem issue_trap {num faddr detail : Nat} (h : StemReady s t op f i) (hbody : body s = (s1, .trap num faddr detail)) :
    s.issue t op f i body = .next (s.trapEnd s1 t i num faddr detail) := by
  rw [issue_ready h, hbody, finish_trap]

/-- A result in ACC: an overflow that traps is trap 0x07, and otherwise the result and its flags are put into ACC and PSW. -/
theorem issue_putAcc (h : StemReady s t op f i) (hbody : body s = s1.putAcc t f (r, fl) canTrap) :
    (¬ (canTrap = true ∧ fl.v = some true ∧ (s1.thr t.val).flag pswVTE = true) → s.issue t op f i body =
      .next ((s1.onThr t.val (fun k => k.withAcc f r fl)).inSequence t f (s.thr t.val).pc)) ∧
    (canTrap = true → fl.v = some true → (s1.thr t.val).flag pswVTE = true →
      s.issue t op f i body = .next (s.trapEnd s1 t i 7 0 0)) :=
  ⟨fun hno => issue_done h (hbody.trans (if_neg hno)) fun _ => rfl,
    fun htrap hv hvte => issue_trap h (hbody.trans (if_pos ⟨htrap, hv, hvte⟩))⟩

/-- The same for an operation of ACC and an operand that was read. -/
theorem issue_alu {g : Thread → Word → Word × Flags} (h : StemReady s t op f i)
    (hop : s.operandR t.val f false = (s1, .ok v))
    (hg : g (s.thr t.val) v = (r, fl)) :
    (¬ (canTrap = true ∧ fl.v = some true ∧ (s1.thr t.val).flag pswVTE = true) →
      s.issue t op f i (fun s => s.alu t f canTrap g) =
        .next ((s1.onThr t.val (fun k => k.withAcc f r fl)).inSequence t f (s.thr t.val).pc)) ∧
    (canTrap = true → fl.v = some true → (s1.thr t.val).flag pswVTE = true →
      s.issue t op f i (fun s => s.alu t f canTrap g) = .next (s.trapEnd s1 t i 7 0 0)) :=
  issue_putAcc h ((gotThen_ok hop _).trans (congrArg (s1.putAcc t f · canTrap) hg))
end

/-! ### Shifts and rotates (R149) -/

section
variable (a : Word) (c : Nat)

/-- The low word of a * 2^c is a shifted left by c. -/
theorem ofNat_toNat_mul_two_pow : BitVec.ofNat 32 (a.toNat * 2 ^ c) = a <<< c := by
  apply BitVec.eq_of_toNat_eq
  rw [BitVec.toNat_ofNat, BitVec.toNat_shiftLeft, Nat.shiftLeft_eq]

/-- The floor of a / 2^c, a unsigned, is a shifted right by c with zero fill. -/
theorem ofNat_toNat_div_two_pow : BitVec.ofNat 32 (a.toNat / 2 ^ c) = a >>> c := by
  rw [← Nat.shiftRight_eq_div_pow, ← BitVec.toNat_ushiftRight, BitVec.ofNat_toNat, BitVec.setWidth_eq]

/-- The floor of a / 2^c, a signed, is a shifted right by c with sign fill. -/
theorem ofInt_toInt_div_two_pow : BitVec.ofInt 32 (a.toInt / 2 ^ c) = a.sshiftRight c := by
  have hdiv : a.toInt / 2 ^ c = a.toInt >>> c := by rw [Int.shiftRight_eq_div_pow, Nat.cast_pow, Nat.cast_ofNat]
  rw [hdiv, ← BitVec.toInt_sshiftRight, BitVec.ofInt_toInt]

/-- The two parts of a rotation have no bit in common, so their sum is their disjunction. -/
theorem shiftLeft_add_ushiftRight {i j : Nat} (h : i + j = 32) : a <<< i + a >>> j = a <<< i ||| a >>> j := by
  refine BitVec.add_eq_or_of_and_eq_zero _ _ (BitVec.eq_of_getLsbD_eq fun k hk => ?_)
  rw [BitVec.getLsbD_and, BitVec.getLsbD_shiftLeft, BitVec.getLsbD_ushiftRight, BitVec.getLsbD_zero]
  by_cases hki : k < i
  · simp [hki]
  · rw [a.getLsbD_of_ge (j + k) (by omega), Bool.and_false]

theorem shiftParts_shl : shiftParts .shl a c =
    (a <<< c, if c = 0 then none else some (if c ≤ 32 then a.getLsbD (32 - c) else false)) := by
  by_cases hc : c = 0
  · simp [shiftParts, hc]
  · by_cases hle : c ≤ 32 <;> simp [shiftParts, hc, hle, BitVec.testBit_toNat, ofNat_toNat_mul_two_pow]

theorem shiftParts_shr : shiftParts .shr a c =
    (a >>> c, if c = 0 then none else some (if c ≤ 32 then a.getLsbD (c - 1) else false)) := by
  by_cases hc : c = 0
  · simp [shiftParts, hc]
  · by_cases hle : c ≤ 32 <;> simp [shiftParts, hc, hle, BitVec.testBit_toNat, ofNat_toNat_div_two_pow]

theorem shiftParts_sar : shiftParts .sar a c =
    (a.sshiftRight c, if c = 0 then none else some (if c ≤ 32 then a.getLsbD (c - 1) else a.getLsbD 31)) := by
  by_cases hc : c = 0
  · simp [shiftParts, hc]
  · by_cases hle : c ≤ 32
    · simp [shiftParts, hc, hle, BitVec.testBit_toNat, ofInt_toInt_div_two_pow]
    · simp [shiftParts, hc, hle, BitVec.testBit_toNat, ofInt_toInt_div_two_pow, Nat.min_eq_right (Nat.le_of_not_le hle)]

theorem shiftParts_rol : shiftParts .rol a c =
    (a.rotateLeft (c % 32), if c % 32 = 0 then none else some ((a.rotateLeft (c % 32)).getLsbD 0)) := by
  have hr : BitVec.ofNat 32 (a.toNat * 2 ^ (c % 32) + a.toNat / 2 ^ (32 - c % 32)) = a.rotateLeft (c % 32) := by
    rw [BitVec.ofNat_add, ofNat_toNat_mul_two_pow, ofNat_toNat_div_two_pow, shiftLeft_add_ushiftRight a (by omega),
      BitVec.rotateLeft_def, Nat.mod_mod]
  simp only [shiftParts, hr]

theorem shiftParts_ror : shiftParts .ror a c =
    (a.rotateRight (c % 32), if c % 32 = 0 then none else some ((a.rotateRight (c % 32)).getLsbD 31)) := by
  have hr : BitVec.ofNat 32 (a.toNat / 2 ^ (c % 32) + a.toNat * 2 ^ (32 - c % 32)) = a.rotateRight (c % 32) := by
    rw [BitVec.ofNat_add, ofNat_toNat_mul_two_pow, ofNat_toNat_div_two_pow, BitVec.add_comm,
      shiftLeft_add_ushiftRight a (by omega), BitVec.rotateRight_def, Nat.mod_mod, BitVec.or_comm]
  simp only [shiftParts, hr]
end

/-- A ready shift puts its result into ACC, its carry into C, and Z and N of the result. -/
theorem issue_shift {s s1 : State} {t : Tid} {code : Nat} {f : Operand} {i : Instr} {v r : Word} {op : ShiftOp}
    {cf : Option Bool} (h : StemReady s t code f i) (hop : s.operandR t.val f false = (s1, .ok v))
    (hparts : shiftParts op (s.thr t.val).acc (v.toNat % 64) = (r, cf)) :
    s.issue t code f i (fun s => s.shift t f op) = .next ((s1.onThr t.val (fun k =>
      k.withAcc f r { c := cf, z := some (r == 0), n := some (r.getLsbD 31) })).inSequence t f (s.thr t.val).pc) := by
  have hflags : shiftFlags op (s.thr t.val).acc v = (r, { c := cf, z := some (r == 0), n := some (r.getLsbD 31) }) := by
    simp only [shiftFlags, hparts, znOf]
  exact (issue_alu (canTrap := false) h hop hflags).1 (by simp)

/-- Settles O10: each row of R149's table is the instruction's result and carry. -/
theorem shiftsAndRotates : Obligations.ShiftsAndRotates := by
  intro s s1 t f v h a c gives hop
  exact ⟨fun hr => issue_shift hr hop (shiftParts_shl a c), fun hr => issue_shift hr hop (shiftParts_shr a c),
    fun hr => issue_shift hr hop (shiftParts_sar a c), fun hr => issue_shift hr hop (shiftParts_rol a c),
    fun hr => issue_shift hr hop (shiftParts_ror a c)⟩

/-! ### Products (R205) -/

section
variable {s s1 : State} {t : Tid} {op : Nat} {f : Operand} {i : Instr} {v q r : Word} {signed ov : Bool} {p : DWord}

/-- The two words of a product, its V and its Z and N of the 64 bits. -/
theorem mulFlags_eq (a b : Word)
    (hp : (if signed then BitVec.ofInt 64 (a.toInt * b.toInt) else BitVec.ofNat 64 (a.toNat * b.toNat)) = p) :
    mulFlags signed a b = (p.extractLsb' 0 32, p.extractLsb' 32 32,
      { v := some false, z := some (p == 0), n := some (p.getLsbD 63) }) := by
  have hlow : p.truncate 32 = p.extractLsb' 0 32 := BitVec.setWidth_eq_extractLsb' (by decide)
  have hhigh : BitVec.ofNat 32 (p.toNat / 2 ^ 32) = p.extractLsb' 32 32 := by
    apply BitVec.eq_of_toNat_eq
    rw [BitVec.toNat_ofNat, BitVec.extractLsb'_toNat, Nat.shiftRight_eq_div_pow]
  simp only [mulFlags, hp, hlow, hhigh]

/-- A ready MUL or MULU puts the product into ACX:ACC. -/
theorem issue_multiply (h : StemReady s t op f i) (hop : s.operandR t.val f false = (s1, .ok v))
    (hp : (if signed then BitVec.ofInt 64 ((s.thr t.val).acc.toInt * v.toInt)
      else BitVec.ofNat 64 ((s.thr t.val).acc.toNat * v.toNat)) = p) :
    s.issue t op f i (fun s => s.multiply t f signed) = .next ((s1.onThr t.val (fun k =>
      { k.withAcc f (p.extractLsb' 0 32) { v := some false, z := some (p == 0), n := some (p.getLsbD 63) } with
        acx := p.extractLsb' 32 32 })).inSequence t f (s.thr t.val).pc) := by
  have hbody : s.multiply t f signed = _ := gotThen_ok hop _
  rw [mulFlags_eq _ _ hp] at hbody
  exact issue_done h hbody fun _ => rfl

/-! ### Quotients (R148) -/

theorem divFlags_signed {a b : Word} (hb : b ≠ 0) (h : ¬ (a = 0x80000000 ∧ b = 0xFFFFFFFF)) : divFlags true a b =
    (BitVec.ofInt 32 (a.toInt.tdiv b.toInt), BitVec.ofInt 32 (a.toInt.tmod b.toInt),
      { znOf (BitVec.ofInt 32 (a.toInt.tdiv b.toInt)) with v := some false }) := by
  unfold divFlags
  rw [if_neg hb, if_pos rfl, if_neg h]

theorem divFlags_unsigned {a b : Word} (hb : b ≠ 0) : divFlags false a b =
    (BitVec.ofNat 32 (a.toNat / b.toNat), BitVec.ofNat 32 (a.toNat % b.toNat),
      { znOf (BitVec.ofNat 32 (a.toNat / b.toNat)) with v := some false }) := by
  unfold divFlags
  rw [if_neg hb, if_neg Bool.false_ne_true]

/-- The one quotient that lies outside int32. -/
theorem divFlags_overflow {a b : Word} (ha : a = 0x80000000) (hb : b = 0xFFFFFFFF) :
    divFlags true a b = (0x80000000, 0, { znOf 0x80000000 with v := some true }) := by
  subst ha hb
  decide

/-- Bit 31 of a word is its sign. -/
theorem getLsbD_31_eq (a : Word) : a.getLsbD 31 = decide (a.toInt < 0) :=
  a.msb_eq_getLsbD_last.symm.trans BitVec.msb_eq_toInt

theorem divFlags_signed_zero {a b : Word} (hb : b = 0) : divFlags true a b = (if a.toInt < 0 then 0x80000000 else 0x7FFFFFFF, a,
    { znOf (if a.toInt < 0 then 0x80000000 else 0x7FFFFFFF) with v := some true }) := by
  simp only [divFlags, if_pos hb, if_true, getLsbD_31_eq, decide_eq_true_eq]

theorem divFlags_unsigned_zero {a b : Word} (hb : b = 0) :
    divFlags false a b = (0xFFFFFFFF, a, { znOf 0xFFFFFFFF with v := some true }) := by
  subst hb
  rfl

/-- A ready DIV or DIVU that meets no edge whose trap is enabled puts quotient and remainder into ACC and ACX. -/
theorem issue_divide (h : StemReady s t op f i) (hop : s.operandR t.val f false = (s1, .ok v))
    (hdiv : divFlags signed (s.thr t.val).acc v = (q, r, { znOf q with v := some ov }))
    (hzero : v = 0 → (s.thr t.val).flag pswDZE = false)
    (hover : v ≠ 0 → ov = true → (s.thr t.val).flag pswVTE = false) :
    s.issue t op f i (fun s => s.divide t f signed) = .next ((s1.onThr t.val (fun k =>
      { k.withAcc f q { v := some ov, z := some (q == 0), n := some (q.getLsbD 31) } with acx := r })).inSequence t f
        (s.thr t.val).pc) := by
  have hbody : s.divide t f signed = _ := gotThen_ok hop _
  have hno6 : ¬ (v = 0 ∧ (s.thr t.val).flag pswDZE = true) := fun ⟨hv, hdze⟩ => by simp [hzero hv] at hdze
  have hno7 : ¬ (v ≠ 0 ∧ some ov = some true ∧ (s.thr t.val).flag pswVTE = true) := fun ⟨hv, hov, hvte⟩ => by
    simp [hover hv (Option.some.inj hov)] at hvte
  dsimp only at hbody
  rw [hdiv, if_neg hno6, if_neg hno7] at hbody
  exact issue_done h hbody fun _ => rfl

/-- A divisor of 0 with DZE = 1 is trap 0x06. -/
theorem issue_divide_zero (h : StemReady s t op f i) (hop : s.operandR t.val f false = (s1, .ok v)) (hv : v = 0)
    (hdze : (s.thr t.val).flag pswDZE = true) :
    s.issue t op f i (fun s => s.divide t f signed) = .next (s.trapEnd s1 t i 6 0 0) :=
  issue_trap h ((gotThen_ok hop _).trans (if_pos ⟨hv, hdze⟩))

/-- The overflowing quotient with VTE = 1 is trap 0x07. -/
theorem issue_divide_overflow (h : StemReady s t op f i) (hop : s.operandR t.val f false = (s1, .ok v))
    (ha : (s.thr t.val).acc = 0x80000000) (hv : v = 0xFFFFFFFF) (hvte : (s.thr t.val).flag pswVTE = true) :
    s.issue t op f i (fun s => s.divide t f true) = .next (s.trapEnd s1 t i 7 0 0) := by
  have hbody : s.divide t f true = _ := gotThen_ok hop _
  dsimp only at hbody
  rw [divFlags_overflow ha hv, if_neg (by simp [hv]), if_pos ⟨by simp [hv], rfl, hvte⟩] at hbody
  exact issue_trap h hbody
end

/-! ### NEG and ABS (R148) -/

/-- 2^32 less a word is its negative. -/
theorem ofNat_two_pow_sub_toNat (a : Word) : BitVec.ofNat 32 (2 ^ 32 - a.toNat) = -a :=
  BitVec.eq_of_toNat_eq ((BitVec.toNat_ofNat _ _).trans (BitVec.toNat_neg a).symm)

theorem negFlags_eq (a : Word) : negFlags a = (-a, { znOf (-a) with v := some (decide (a = 0x80000000)) }) := by
  simp only [negFlags, ofNat_two_pow_sub_toNat, beq_eq_decide]

theorem absFlags_eq (a : Word) : absFlags a = (if a.toInt < 0 then -a else a,
    { znOf (if a.toInt < 0 then -a else a) with v := some (decide (a = 0x80000000)) }) := by
  simp only [absFlags, getLsbD_31_eq, decide_eq_true_eq, ofNat_two_pow_sub_toNat, beq_eq_decide]

/-- A ready operation on ACC alone, its V the edge 0x80000000: the edge traps with VTE = 1, any other result goes into ACC. -/
theorem issue_unary {s : State} {t : Tid} {code : Nat} {f : Operand} {i : Instr} {op : Word → Word × Flags}
    {r : Word} {fl : Flags} (hop : op (s.thr t.val).acc = (r, fl)) (hv : fl.v = some (decide ((s.thr t.val).acc = 0x80000000))) :
    (StemReady s t code f i → ¬ ((s.thr t.val).acc = 0x80000000 ∧ (s.thr t.val).flag pswVTE = true) →
      s.issue t code f i (fun s => s.putAcc t f (op (s.thr t.val).acc) true) =
        .next ((s.onThr t.val (fun k => k.withAcc f r fl)).inSequence t f (s.thr t.val).pc)) ∧
    (StemReady s t code f i → (s.thr t.val).acc = 0x80000000 ∧ (s.thr t.val).flag pswVTE = true →
      s.issue t code f i (fun s => s.putAcc t f (op (s.thr t.val).acc) true) = .next (s.trapEnd s t i 7 0 0)) := by
  have hedge : fl.v = some true ↔ (s.thr t.val).acc = 0x80000000 := by rw [hv, Option.some_inj, decide_eq_true_iff]
  have hbody : s.putAcc t f (op (s.thr t.val).acc) true = s.putAcc t f (r, fl) true := congrArg (s.putAcc t f · true) hop
  exact ⟨fun h hno => (issue_putAcc h hbody).1 fun ⟨_, hover, hvte⟩ => hno ⟨hedge.1 hover, hvte⟩,
    fun h ⟨ha, hvte⟩ => (issue_putAcc h hbody).2 rfl (hedge.2 ha) hvte⟩

/-- Settles O9: each product, quotient and negative with its flags, and the edges that trap. -/
theorem multiplyDivideNegate : Obligations.MultiplyDivideNegate := by
  refine ⟨fun s s1 t f v => ?products, fun s s1 t f v => ?quotients, fun s t f => ?negatives⟩
  case products =>
    intro h a pu ps low big wide hop
    have hmull (hr : StemReady s t 0x24 f (.mull t f)) :=
      issue_alu (canTrap := true) (g := fun h v => mullFlags h.acc v) hr hop rfl
    refine ⟨fun hr => issue_multiply (signed := true) hr hop rfl, fun hr => issue_multiply (signed := false) hr hop rfl,
      fun hr hno => ?_, fun hr hbig hvte => ?_⟩
    · exact (hmull hr).1 fun ⟨_, hv, hvte⟩ => hno ⟨Option.some.inj hv, hvte⟩
    · exact (hmull hr).2 rfl (congrArg some hbig) hvte
  case quotients =>
    intro h a minOver gives hop
    refine ⟨fun hr => ⟨fun hv hmin => ?_, fun hmin hvte => ?_, fun hmin hvte => ?_, fun hv hdze => ?_, fun hv hdze => ?_⟩,
      fun hr => ⟨fun hv => ?_, fun hv hdze => ?_, fun hv hdze => ?_⟩⟩
    · exact issue_divide hr hop (divFlags_signed hv hmin) (absurd · hv) fun _ hov => absurd hov Bool.false_ne_true
    · obtain ⟨ha, hv⟩ := hmin
      exact issue_divide hr hop (divFlags_overflow ha hv) (fun h0 => absurd (hv.symm.trans h0) (by decide)) fun _ _ => hvte
    · obtain ⟨ha, hv⟩ := hmin
      exact issue_divide_overflow hr hop ha hv hvte
    · exact issue_divide hr hop (divFlags_signed_zero hv) (fun _ => hdze) (absurd hv)
    · exact issue_divide_zero hr hop hv hdze
    · exact issue_divide hr hop (divFlags_unsigned hv) (absurd · hv) fun _ hov => absurd hov Bool.false_ne_true
    · exact issue_divide hr hop (divFlags_unsigned_zero hv) (fun _ => hdze) (absurd hv)
    · exact issue_divide_zero hr hop hv hdze
  case negatives =>
    intro h a edge fl pos gives traps
    obtain ⟨hneg, hnegTraps⟩ := issue_unary (s := s) (t := t) (code := 0x35) (f := f) (i := .neg t f) (negFlags_eq a) rfl
    obtain ⟨habs, habsTraps⟩ := issue_unary (s := s) (t := t) (code := 0x37) (f := f) (i := .abs t f) (absFlags_eq a) rfl
    exact ⟨hneg, hnegTraps, habs, habsTraps⟩

end Sys2Proof.Machine

/-! ## How an access answers and a ready instruction ends -/

namespace Sys2Proof.Machine

section
variable {s s1 : State} {t : Tid} {op : Nat} {f : Operand} {i : Instr} {d : List Byte}

/-- A ready instruction whose body takes a transfer ends at its target. -/
theorem issue_jump {target : Nat} (h : StemReady s t op f i) (body : State → State × Fate) (hbody : body s = (s1, .jump target)) :
    s.issue t op f i body = .next (s1.jumpedTo t target) := by
  rw [issue_ready h, hbody, finish_jump]

/-- A ready instruction whose body completes ends in sequence. -/
theorem issue_completes (h : StemReady s t op f i) (body : State → State × Fate) (hbody : body s = (s1, .next)) :
    s.issue t op f i body = .next (s1.inSequence t f (s.thr t.val).pc) := by
  rw [issue_ready h, hbody, finish_next]

/-- The next access of an instruction after one that answered. -/
theorem gotBind_ok {α β : Type} {r : State × Got α} {a : α} (h : r = (s1, .ok a)) (k : State → α → State × Got β) :
    gotBind r k = k s1 a := by
  subst h
  rfl

/-- The rest of an instruction after a bus access that answered. -/
theorem gotThen_accGot {r : State × AccRes} (h : r = (s1, .ok d)) (ea high : Nat) (w : Bool)
    (k : State → List Byte → State × Fate) : gotThen (accGot r ea high w) k = k s1 d := by
  subst h
  rfl

/-- What becomes of a thread depends on the change at that thread alone. -/
theorem onThr_congr {k : Nat} {g g' : Thread → Thread} (h : g (s.thr k) = g' (s.thr k)) : s.onThr k g = s.onThr k g' :=
  congrArg (s.setThr k) h
end

end Sys2Proof.Machine

/-! ## Add, subtract, compare, load, store and the logic of registers (O5, O7, O8) -/

namespace Sys2Proof.Machine

/-! ### Flags put into PSW (R183) -/

/-- One flag put into PSW sets its own bit and no other. -/
theorem getLsbD_putFlag (psw : Word) {i : Nat} (h : i < 32) (b : Option Bool) (j : Nat) :
    (putFlag psw i b).getLsbD j = if j = i then b.getD (psw.getLsbD i) else psw.getLsbD j := by
  cases b with
  | none =>
    rw [Option.getD_none]
    split
    next hj => rw [hj]; rfl
    next => rfl
  | some x =>
    refine (getLsbD_setFld psw (b2n x) (Nat.le_refl i) h j).trans ?_
    by_cases hj : j = i
    · rw [if_pos ⟨hj.ge, hj.le⟩, if_pos hj, hj, Nat.sub_self, testBit_b2n, Option.getD_some]
    · rw [if_neg (by omega), if_neg hj]

/-- Flags put into PSW set the bits that they name and no other. -/
theorem getLsbD_into (fl : Flags) (psw : Word) (i : Nat) : (fl.into psw).getLsbD i =
    (if i = 0 then fl.c.getD (psw.getLsbD 0) else if i = 1 then fl.z.getD (psw.getLsbD 1)
     else if i = 2 then fl.n.getD (psw.getLsbD 2) else if i = 3 then fl.v.getD (psw.getLsbD 3)
     else if i = 4 then fl.dv.getD (psw.getLsbD 4) else psw.getLsbD i) := by
  simp only [Flags.into, getLsbD_putFlag _ (by decide : pswC < 32), getLsbD_putFlag _ (by decide : pswV < 32),
    getLsbD_putFlag _ (by decide : pswZ < 32), getLsbD_putFlag _ (by decide : pswN < 32),
    getLsbD_putFlag _ (by decide : pswDV < 32)]
  simp only [pswC, pswV, pswZ, pswN, pswDV]
  grind

/-! ### Sums and differences with their flags (R205) -/

section
variable {a b : Word} {i : Int}

/-- A number and its negative modulo 2^32: the difference that SUB and SBC form is the one of the integers. -/
theorem ofNat_sub_eq_ofInt (a b : Word) {k : Nat} (hk : k ≤ 2 ^ 32) :
    BitVec.ofNat 32 (a.toNat + 2 ^ 33 - b.toNat - k) = BitVec.ofInt 32 ((a.toNat : Int) - b.toNat - k) := by
  have := a.isLt
  have := b.isLt
  apply BitVec.eq_of_toNat_eq
  rw [BitVec.toNat_ofNat, BitVec.toNat_ofInt]
  omega

theorem ofInt_sub_toNat (a b : Word) : BitVec.ofInt 32 ((a.toNat : Int) - b.toNat - (0 : Nat)) = a - b := by
  have := a.isLt
  have := b.isLt
  apply BitVec.eq_of_toNat_eq
  rw [BitVec.toNat_ofInt, BitVec.toNat_sub]
  omega

theorem addFlags_eq {carry : Bool} (hi : a.toInt + b.toInt + b2n carry = i) :
    let r : Word := BitVec.ofNat 32 (a.toNat + b.toNat + b2n carry)
    addFlags a b carry = (r,
      { c := some (decide (2 ^ 32 ≤ a.toNat + b.toNat + b2n carry)), v := some (decide (i ≠ r.toInt)), z := some (r == 0),
        n := some (r.getLsbD 31) }) := by
  subst hi
  rfl

theorem subFlags_eq {borrow : Bool} (hi : a.toInt - b.toInt - b2n borrow = i) :
    let r : Word := BitVec.ofInt 32 ((a.toNat : Int) - b.toNat - b2n borrow)
    subFlags a b borrow = (r,
      { c := some (decide (a.toNat < b.toNat + b2n borrow)), v := some (decide (i ≠ r.toInt)), z := some (r == 0),
        n := some (r.getLsbD 31) }) := by
  have hk : b2n borrow ≤ 2 ^ 32 := by cases borrow <;> decide
  subst hi
  simp only [subFlags, ofNat_sub_eq_ofInt a b hk, znOf]
end

section
variable {s s1 : State} {t : Tid} {op : Nat} {f : Operand} {i : Instr} {v r : Word} {fl : Flags}
  {g : Thread → Word → Word × Flags}

/-- A ready sum or difference: its result goes into ACC, unless its overflow traps. -/
theorem issue_overflowing (h : StemReady s t op f i) (hop : s.operandR t.val f false = (s1, .ok v))
    (hg : g (s.thr t.val) v = (r, fl)) :
    (¬ (fl.v = some true ∧ (s1.thr t.val).flag pswVTE = true) → s.issue t op f i (fun s => s.alu t f true g) =
      .next ((s1.onThr t.val (fun k => k.withAcc f r fl)).inSequence t f (s.thr t.val).pc)) ∧
    (fl.v = some true ∧ (s1.thr t.val).flag pswVTE = true →
      s.issue t op f i (fun s => s.alu t f true g) = .next (s.trapEnd s1 t i 7 0 0)) :=
  have hends := issue_alu (canTrap := true) h hop hg
  ⟨fun hno => hends.1 fun ⟨_, htraps⟩ => hno htraps, fun ⟨hv, hvte⟩ => hends.2 rfl hv hvte⟩
end

/-- Settles O7: each sum or difference with its flags, its overflow that traps, and the bits that flags set. -/
theorem addSubtract : Obligations.AddSubtract := by
  refine ⟨fun s s1 t f v => ?_, getLsbD_into⟩
  intro h a c sum dif flags fAdd fAdc fSub fSbc traps sets hop
  exact ⟨fun hr => issue_overflowing hr hop (addFlags_eq (Int.add_zero _)), fun hr => issue_overflowing hr hop (addFlags_eq rfl),
    fun hr => issue_overflowing hr hop (subFlags_eq (Int.sub_zero _)), fun hr => issue_overflowing hr hop (subFlags_eq rfl)⟩

/-! ### Instructions that read an operand or registers and complete (R189, R190, R205, R206) -/

section
variable {s s1 : State} {t : Tid} {op : Nat} {f : Operand} {i : Instr} {v r : Word}

/-- A ready load puts its operand into ACC, with Z and N. -/
theorem issue_loadAcc {sign : Bool} (h : StemReady s t op f i) (hop : s.operandR t.val f sign = (s1, .ok v)) :
    s.issue t op f i (fun s => s.loadAcc t f sign) = .next ((s1.onThr t.val (fun k =>
      k.withAcc f v { z := some (v == 0), n := some (v.getLsbD 31) })).inSequence t f (s.thr t.val).pc) :=
  issue_done h (gotThen_ok hop _) fun _ => rfl

/-- A ready load of another register changes the registers by its operand, after the post-increment. -/
theorem issue_loadReg {g : Thread → Word → Thread} (h : StemReady s t op f i) (hop : s.operandR t.val f false = (s1, .ok v)) :
    s.issue t op f i (fun s => s.loadReg t f g) =
      .next ((s1.onThr t.val (fun k => g (k.bump f) v)).inSequence t f (s.thr t.val).pc) :=
  issue_done h (gotThen_ok hop _) fun _ => rfl

/-- A ready store whose bytes are taken completes with the post-increment alone. -/
theorem issue_storeReg {g : State → Word} (h : StemReady s t op f i)
    (hstore : s.stemStore t.val f.seg.toNat ((s.thr t.val).ea f) (leBytes (opBytes f) (g s).toNat) = (s1, .ok ())) :
    s.issue t op f i (fun s => s.storeReg t f (g s)) =
      .next ((s1.onThr t.val (fun k => k.bump f)).inSequence t f (s.thr t.val).pc) :=
  issue_done h (gotThen_ok hstore _) fun _ => rfl

/-- A ready instruction that only sets registers of its thread sets them after the post-increment. -/
theorem issue_sets {g : State → Thread → Thread} (h : StemReady s t op f i) :
    s.issue t op f i (fun s => s.done t.val f (g s)) =
      .next ((s.onThr t.val (fun k => g s (k.bump f))).inSequence t f (s.thr t.val).pc) :=
  issue_done h rfl fun _ => rfl

/-- A ready comparison sets its flags and no register but by the post-increment. -/
theorem issue_compare {fl : Flags} {g : Thread → Word → Flags} (h : StemReady s t op f i)
    (hop : s.operandR t.val f false = (s1, .ok v)) (hg : g (s.thr t.val) v = fl) :
    s.issue t op f i (fun s => s.compare t f g) = .next ((s1.onThr t.val (fun k =>
      { k.bump f with psw := fl.into (k.bump f).psw })).inSequence t f (s.thr t.val).pc) := by
  subst hg
  exact issue_done h (gotThen_ok hop _) fun _ => rfl
end

/-- Settles O5: each instruction is ready and its one access answers, so it completes. -/
theorem loadsAndStores : Obligations.LoadsAndStores := by
  refine ⟨fun s s1 t f v => ?loads, fun s s1 t f => ?stores⟩
  case loads =>
    intro pc fl
    exact ⟨fun hr hop => issue_loadAcc hr hop, fun hr hop => issue_loadAcc hr hop,
      fun hr hop => issue_loadReg hr hop, fun hr hop => issue_loadReg hr hop⟩
  case stores =>
    intro h store
    exact ⟨fun hr hstore => issue_storeReg (g := fun s => (s.thr t.val).acc) hr hstore,
      fun hr hstore => issue_storeReg (g := fun s => (s.thr t.val).x) hr hstore,
      fun hr hstore => issue_storeReg (g := fun s => (s.thr t.val).y) hr hstore,
      fun hr => issue_sets (g := fun s h => { h with x := BitVec.ofNat 32 ((s.thr t.val).ea f) }) hr,
      fun hr => issue_sets (g := fun s h => { h with y := BitVec.ofNat 32 ((s.thr t.val).ea f) }) hr⟩

/-! ### Comparisons, logic and register moves (R205, R206) -/

section
variable {s s1 : State} {t : Tid} {op : Nat} {f : Operand} {i : Instr} {v : Word}

/-- The flags of a comparison: those of the difference, which is 0 where the two are equal. -/
theorem subFlags_compare (a v : Word) : (subFlags a v false).2 =
    { c := some (decide (a.toNat < v.toNat)), v := some (decide (a.toInt - v.toInt ≠ (a - v).toInt)), z := some (a == v),
      n := some ((a - v).getLsbD 31) } := by
  have hz : (a - v == 0) = (a == v) := by rw [beq_eq_decide, beq_eq_decide, decide_eq_decide, sub_eq_zero]
  have hr : BitVec.ofInt 32 ((a.toNat : Int) - v.toNat - b2n false) = a - v := ofInt_sub_toNat a v
  rw [subFlags_eq (Int.sub_zero _), hr, hz]
  rfl

/-- A ready ADDX or ADDY changes its register by the operand, after the post-increment. -/
theorem issue_addReg {g : Thread → Word → Thread} (h : StemReady s t op f i) (hop : s.operandR t.val f false = (s1, .ok v)) :
    s.issue t op f i (fun s => s.addReg t f g) =
      .next ((s1.onThr t.val (fun k => g (k.bump f) v)).inSequence t f (s.thr t.val).pc) :=
  issue_loadReg h hop

/-- A ready AND, OR or XOR puts its result into ACC, with Z and N. -/
theorem issue_logic {g : Word → Word → Word} (h : StemReady s t op f i) (hop : s.operandR t.val f false = (s1, .ok v)) :
    let r := g (s.thr t.val).acc v
    s.issue t op f i (fun s => s.logic t f g) = .next ((s1.onThr t.val (fun k =>
      k.withAcc f r { z := some (r == 0), n := some (r.getLsbD 31) })).inSequence t f (s.thr t.val).pc) :=
  (issue_alu (canTrap := false) h hop rfl).1 (by simp)

/-- A ready operation on ACC alone without V puts its result into ACC, with Z and N. -/
theorem issue_unaryLogic {g : Word → Word} {r : Word} (h : StemReady s t op f i) (hg : g (s.thr t.val).acc = r) :
    s.issue t op f i (fun s => s.putAcc t f (g (s.thr t.val).acc, znOf (g (s.thr t.val).acc)) false) =
      .next ((s.onThr t.val (fun k => k.withAcc f r { z := some (r == 0), n := some (r.getLsbD 31) })).inSequence t f
        (s.thr t.val).pc) := by
  subst hg
  exact (issue_putAcc (canTrap := false) h rfl).1 (by simp)

/-- A ready move into ACC sets Z and N. -/
theorem issue_toAcc {g : State → Word} (h : StemReady s t op f i) :
    s.issue t op f i (fun s => s.toAcc t f (g s)) = .next ((s.onThr t.val (fun k =>
      k.withAcc f (g s) { z := some (g s == 0), n := some ((g s).getLsbD 31) })).inSequence t f (s.thr t.val).pc) :=
  issue_done h rfl fun _ => rfl
end

/-- SWAPB's bytes in the order from the least significant on. -/
theorem swapBytes_eq (a : Word) :
    swapBytes a = a.extractLsb' 0 8 ++ a.extractLsb' 8 8 ++ a.extractLsb' 16 8 ++ a.extractLsb' 24 8 := by
  apply BitVec.eq_of_toNat_eq
  simp only [swapBytes, beVal, leBytes, List.reverse_cons, List.reverse_nil, List.nil_append, List.cons_append, leVal,
    BitVec.toNat_ofNat, BitVec.toNat_append, BitVec.extractLsb'_toNat, Nat.shiftRight_eq_div_pow]
  rw [← Nat.shiftLeft_add_eq_or_of_lt (by omega), ← Nat.shiftLeft_add_eq_or_of_lt (by omega),
    ← Nat.shiftLeft_add_eq_or_of_lt (by omega)]
  simp only [Nat.shiftLeft_eq, Nat.reducePow, Nat.div_one, Nat.mod_mod, Nat.div_div_eq_div_mul, Nat.reduceMul]
  have := a.isLt
  omega

/-- CLZ's count: no bit of the word stands above the first 1, which is bit 31 less the count. -/
theorem leadingZeros_spec (a : Word) : leadingZeros a ≤ 32 ∧ a.toNat < 2 ^ (32 - leadingZeros a) ∧
    (leadingZeros a < 32 → a.getLsbD (31 - leadingZeros a) = true) := by
  by_cases ha : a = 0
  · subst ha
    decide
  · have hne : a.toNat ≠ 0 := fun h => ha (BitVec.eq_of_toNat_eq h)
    have hlog : a.toNat.log2 < 32 := (Nat.log2_lt hne).2 a.isLt
    have hn : leadingZeros a = 31 - a.toNat.log2 := if_neg ha
    rw [hn, show 32 - (31 - a.toNat.log2) = a.toNat.log2 + 1 by omega, show 31 - (31 - a.toNat.log2) = a.toNat.log2 by omega]
    exact ⟨by omega, Nat.lt_log2_self, fun _ => Nat.testBit_log2 hne⟩

/-- Settles O8: each comparison, logic operation and move by the lemma of its kind. -/
theorem compareAndLogic : Obligations.CompareAndLogic := by
  refine ⟨fun s s1 t f v => ?comparisons, fun s s1 t f v => ?logic⟩
  case comparisons =>
    intro h flags tst sets hop
    exact ⟨fun hr => issue_compare hr hop (subFlags_compare _ _), fun hr => issue_compare hr hop (subFlags_compare _ _),
      fun hr => issue_compare hr hop (subFlags_compare _ _), fun hr => issue_compare hr hop rfl,
      fun hr => issue_addReg hr hop, fun hr => issue_addReg hr hop⟩
  case logic =>
    intro h a zn acc
    refine ⟨fun hop => ⟨fun hr => issue_logic hr hop, fun hr => issue_logic hr hop, fun hr => issue_logic hr hop⟩,
      fun hr => ?not, fun hr => ?swapb, fun hr => ?clz, fun hr => ?txa, fun hr => ?tya,
      fun hr => ?tax, fun hr => ?tay, fun hr => ?txy⟩
    case not => exact issue_unaryLogic (g := fun a => ~~~a) hr rfl
    case swapb => exact issue_unaryLogic (g := swapBytes) hr (swapBytes_eq a)
    case clz =>
      obtain ⟨hle, hlt, hbit⟩ := leadingZeros_spec a
      exact ⟨leadingZeros a, hle, hlt, hbit, issue_unaryLogic (g := fun a => BitVec.ofNat 32 (leadingZeros a)) hr rfl⟩
    case txa => exact issue_toAcc (g := fun s => (s.thr t.val).x) hr
    case tya => exact issue_toAcc (g := fun s => (s.thr t.val).y) hr
    case tax => exact issue_sets (g := fun s h => { h with x := (s.thr t.val).acc }) hr
    case tay => exact issue_sets (g := fun s h => { h with y := (s.thr t.val).acc }) hr
    case txy => exact issue_sets (g := fun s h => { h with y := (s.thr t.val).x }) hr

end Sys2Proof.Machine

/-! ## Jumps, calls and the hardware loop (O11, O12) -/

namespace Sys2Proof.Machine

/-! ### Jumps (R207) -/

section
variable {s : State} {t : Tid} {op : Nat} {f : Operand} {i : Instr}

theorem jumpIf_taken {c : Thread → Bool} (hc : c (s.thr t.val) = true) :
    s.jumpIf t f c = s.transfer ((s.thr t.val).jumpTarget f) := if_pos hc

/-- A ready jump: taken, its target decides between the transfer and the Alignment fault; not taken, it ends in sequence. -/
theorem issue_jumpIf {c : Thread → Bool} {taken passed : Prop} (htaken : taken → c (s.thr t.val) = true)
    (hpassed : passed → c (s.thr t.val) = false) (h : StemReady s t op f i) :
    let target := (s.thr t.val).jumpTarget f
    let issued := s.issue t op f i (fun s => s.jumpIf t f c)
    (taken → target % 4 = 0 → issued = .next (s.jumpedTo t target)) ∧
    (taken → target % 4 ≠ 0 → issued = .next (s.trapEnd s t i 4 target 0)) ∧
    (passed → issued = .next (s.inSequence t f (s.thr t.val).pc)) := by
  intro target issued
  exact ⟨fun hc ht => issue_jump h _ ((jumpIf_taken (htaken hc)).trans (if_pos ht)),
    fun hc ht => issue_trap h ((jumpIf_taken (htaken hc)).trans (if_neg ht)),
    fun hc => issue_completes h _ (if_neg (by simp [hpassed hc]))⟩

/-- A jump under a flag that is 1. -/
theorem issue_jumpSet {b : Nat} (h : StemReady s t op f i) :
    let target := (s.thr t.val).jumpTarget f
    let issued := s.issue t op f i (fun s => s.jumpIf t f (fun h => h.flag b))
    ((s.thr t.val).flag b = true → target % 4 = 0 → issued = .next (s.jumpedTo t target)) ∧
    ((s.thr t.val).flag b = true → target % 4 ≠ 0 → issued = .next (s.trapEnd s t i 4 target 0)) ∧
    ((s.thr t.val).flag b = false → issued = .next (s.inSequence t f (s.thr t.val).pc)) :=
  issue_jumpIf id id h

/-- A jump under a flag that is 0. -/
theorem issue_jumpClear {b : Nat} (h : StemReady s t op f i) :
    let target := (s.thr t.val).jumpTarget f
    let issued := s.issue t op f i (fun s => s.jumpIf t f (fun h => !h.flag b))
    ((s.thr t.val).flag b = false → target % 4 = 0 → issued = .next (s.jumpedTo t target)) ∧
    ((s.thr t.val).flag b = false → target % 4 ≠ 0 → issued = .next (s.trapEnd s t i 4 target 0)) ∧
    ((s.thr t.val).flag b = true → issued = .next (s.inSequence t f (s.thr t.val).pc)) :=
  issue_jumpIf (congrArg not) (congrArg not) h

/-- A ready JXNZ: its new X decides, and an Alignment fault leaves X as it was. -/
theorem issue_jumpX (h : StemReady s t op f i) :
    let target := (s.thr t.val).jumpTarget f
    let x := (s.thr t.val).x - 1
    let counted := s.onThr t.val (fun k => { k with x := x })
    let issued := s.issue t op f i (fun s => s.jumpX t f)
    (x = 0 → issued = .next (counted.inSequence t f (s.thr t.val).pc)) ∧
    (x ≠ 0 → target % 4 = 0 → issued = .next (counted.jumpedTo t target)) ∧
    (x ≠ 0 → target % 4 ≠ 0 → issued = .next (s.trapEnd s t i 4 target 0)) := by
  intro target x counted issued
  have haligned (hno : ¬ (x ≠ 0 ∧ target % 4 ≠ 0)) : s.jumpX t f = (counted, if x ≠ 0 then .jump target else .next) := if_neg hno
  refine ⟨fun hx => issue_completes h _ ?_, fun hx ht => issue_jump h _ ?_, fun hx ht => issue_trap h (if_pos ⟨hx, ht⟩)⟩
  · rw [haligned (fun hno => hno.1 hx), if_neg (not_not.mpr hx)]
  · rw [haligned (fun hno => hno.2 ht), if_pos hx]
end

/-- Settles O11: each jump with its condition, taken and not taken. -/
theorem conditionalJumps : Obligations.ConditionalJumps := by
  intro s t f h target x
  have hjmp : s.jumpIf t f (fun _ => true) = s.transfer target := jumpIf_taken rfl
  refine ⟨fun hr ht => issue_jump hr (fun s => s.jumpIf t f (fun _ => true)) (hjmp.trans (if_pos ht)),
    fun hr ht => issue_trap (body := fun s => s.jumpIf t f (fun _ => true)) hr (hjmp.trans (if_neg ht)),
    issue_jumpSet, issue_jumpClear,
    issue_jumpIf bne_iff_ne.2 bne_eq_false_iff_eq.2, issue_jumpIf beq_iff_eq.2 beq_eq_false_iff_ne.2,
    issue_jumpSet, issue_jumpClear, issue_jumpSet, issue_jumpClear, issue_jumpSet, issue_jumpClear, fun hr => ?_⟩
  obtain ⟨hzero, hrest⟩ := issue_jumpX hr
  exact ⟨fun hx => by rw [← hx]; exact hzero hx, hrest⟩

/-! ### The end of a loop iteration (R197) -/

section
variable {h : Thread} {next : Nat}

/-- At LE with iterations left, LC counts down and PC goes back to LS. -/
theorem advance_repeats (hla : h.flag pswLA = true) (hle : h.le.toNat = next) (hlc : h.lc - 1 ≠ 0) :
    h.advance next = { h with lc := h.lc - 1, pc := h.ls, fbuf := [] } :=
  (if_pos ⟨hla, hle.symm⟩).trans (if_neg hlc)

/-- At LE with the last iteration over, LC and LA become 0 and PC goes on. -/
theorem advance_leaves (hla : h.flag pswLA = true) (hle : h.le.toNat = next) (hlc : h.lc - 1 = 0) :
    h.advance next = { h.setFlag pswLA false with lc := 0, pc := h.le, fbuf := dropTo next h.fbuf } := by
  refine ((if_pos ⟨hla, hle.symm⟩).trans (if_pos hlc)).trans ?_
  rw [hlc, hle]

/-- At any other offset, or with LA = 0, PC just goes on. -/
theorem advance_goesOn (hno : h.flag pswLA = false ∨ h.le.toNat ≠ next) :
    h.advance next = { h with pc := BitVec.ofNat 32 next, fbuf := dropTo next h.fbuf } :=
  if_neg fun ⟨hla, hle⟩ => hno.elim (fun hclear => by simp [hclear] at hla) (· hle.symm)

/-- The end of an instruction in sequence changes PC, PSW, LC and the fetch buffer alone. -/
theorem advance_eq (h : Thread) (next : Nat) : ∃ psw lc pc fbuf,
    h.advance next = { h with psw := psw, lc := lc, pc := pc, fbuf := fbuf } := by
  by_cases hla : h.flag pswLA = true ∧ h.le.toNat = next
  · by_cases hlc : h.lc - 1 = 0
    · exact ⟨_, _, _, _, advance_leaves hla.1 hla.2 hlc⟩
    · exact ⟨_, _, _, _, advance_repeats hla.1 hla.2 hlc⟩
  · rw [not_and_or, Bool.not_eq_true] at hla
    exact ⟨_, _, _, _, advance_goesOn hla⟩

theorem flag_setFlag_same {i : Nat} (hi : i < 32) (b : Bool) : (h.setFlag i b).flag i = b := by
  rw [Thread.flag, Thread.setFlag, getLsbD_setFld _ _ (Nat.le_refl i) hi, if_pos ⟨Nat.le_refl i, Nat.le_refl i⟩, Nat.sub_self,
    testBit_b2n]
end

/-! ### CALL, RET, LOOP and LEXIT (R196, R197, R207) -/

section
variable {s s1 : State} {t : Tid} {f : Operand}

theorem nextPc_eq (h : Thread) (f : Operand) : h.nextPc f = (h.pc.toNat + if f.mode = 6 then 8 else 4) % 2 ^ 32 := by
  unfold Thread.nextPc
  simp only [beq_iff_eq]

theorem call_jumps (htarget : (s.thr t.val).jumpTarget f % 4 = 0) (hpush : s.stemStore t.val 7 ((s.thr t.val).y - 4).toNat
      (leBytes 4 (((s.thr t.val).pc.toNat + if f.mode = 6 then 8 else 4) % 2 ^ 32)) = (s1, .ok ())) :
    s.call t f = (s1.onThr t.val (fun k => { k with y := (s.thr t.val).y - 4 }), .jump ((s.thr t.val).jumpTarget f)) := by
  rw [← nextPc_eq] at hpush
  exact (if_neg (not_not.mpr htarget)).trans (gotThen_ok hpush _)

theorem ret_jumps {d : List Byte} (hpop : s.stemLoad t.val 7 (s.thr t.val).y.toNat 4 = (s1, .ok d)) (htarget : leVal d % 4 = 0) :
    s.ret t = (s1.onThr t.val (fun k => { k with y := k.y + 4 }), .jump (leVal d)) :=
  (gotThen_ok hpop _).trans (if_neg (not_not.mpr htarget))

/-- LOOP outside a loop, its body the words up to `e`. -/
theorem loopStart_eq (hla : (s.thr t.val).flag pswLA = false) :
    let h := s.thr t.val
    let next := (h.pc.toNat + 4) % 2 ^ 32
    let e := (next + 4 * f.disp.toNat) % 2 ^ 32
    s.loopStart t f = if h.acc = 0 then (s, .jump e) else (s.onThr t.val (fun k =>
      { k with psw := setFld k.psw 15 15 1, lc := h.acc, ls := BitVec.ofNat 32 next, le := BitVec.ofNat 32 e }), .next) := by
  unfold State.loopStart
  simp only [hla, Bool.false_eq_true, if_false]
  split
  · rfl
  · refine congrArg (fun u => (u, Fate.next)) (onThr_congr ?_)
    simp only [Thread.setFlag, pswLA, b2n, if_true]
end

/-- Settles O12: each transfer ends at its target, and the end of an iteration is one of three. -/
theorem callsAndLoops : Obligations.CallsAndLoops := by
  refine ⟨fun s s1 t f d => ?transfers, fun h next hnext => ?iteration⟩
  case transfers =>
    intro h target back next e
    refine ⟨fun hr htarget hpush => issue_jump hr (fun s => s.call t f) (call_jumps htarget hpush),
      fun hr hpop htarget => issue_jump hr (fun s => s.ret t) (ret_jumps hpop htarget),
      fun hr hla => ⟨fun hacc => ?_, fun hacc => ?_⟩,
      fun hr hle => issue_jump hr (fun s => s.loopExit t) (if_neg (not_not.mpr hle))⟩
    · exact issue_jump hr (fun s => s.loopStart t f) ((loopStart_eq hla).trans (if_pos hacc))
    · exact issue_completes hr (fun s => s.loopStart t f) ((loopStart_eq hla).trans (if_neg hacc))
  case iteration =>
    refine ⟨fun hla hle hlc => ?_, fun hla hle hlc => ?_, fun hno => ?_, ?_⟩
    · rw [advance_repeats hla hle hlc]
      exact ⟨rfl, rfl, rfl⟩
    · rw [advance_leaves hla hle hlc]
      exact ⟨hle, rfl, flag_setFlag_same (by decide) false⟩
    · rw [advance_goesOn hno]
      exact ⟨BitVec.toNat_ofNat .. |>.trans (Nat.mod_eq_of_lt hnext), rfl, rfl⟩
    · obtain ⟨psw, lc, pc, fbuf, hadvance⟩ := advance_eq h next
      rw [hadvance]
      exact ⟨rfl, rfl, rfl, rfl, rfl, rfl, rfl⟩

end Sys2Proof.Machine

/-! ## Special registers, waits, fences and locked sequences (O16, O17, O18) -/

namespace Sys2Proof.Machine

/-! ### RDSR, WRSR and LSEG (R183, R184, R186) -/

/-- The level reaches special register r: TSP_S above Task level, TSP_M at Machine level, any other at any level. -/
def Thread.reaches (h : Thread) (r : Nat) : Prop := (r = 5 → h.pl ≠ 0) ∧ (r = 6 → h.pl = 3)

/-- A thread with special register r, other than PSW, replaced. -/
def Thread.putSpecial (r : Nat) (v : Word) (k : Thread) : Thread :=
  match r with
  | 1 => { k with acx := v }
  | 2 => { k with lc := v }
  | 3 => { k with ls := v }
  | 4 => { k with le := v }
  | 5 => { k with tspS := v }
  | 6 => { k with tspM := v }
  | _ => k

section
variable {s s1 : State} {t : Tid} {f : Operand} {v : Word} {r : Nat}

theorem readSpecial_gives (hr : f.disp.toNat = r) (hv : (s.thr t.val).special t.val r = some v)
    (hreach : (s.thr t.val).reaches r) : s.readSpecial t f = s.done t.val f (fun k => { k with acc := v }) := by
  subst hr
  unfold State.readSpecial
  simp only [hv]
  exact if_neg fun hdenied => hdenied.elim (fun ⟨h6, hpl⟩ => hpl (hreach.2 h6)) fun ⟨h5, hpl⟩ => hreach.1 h5 hpl

theorem readSpecial_denied (hdenied : (f.disp.toNat = 5 ∧ (s.thr t.val).pl = 0) ∨ (f.disp.toNat = 6 ∧ (s.thr t.val).pl ≠ 3)) :
    s.readSpecial t f = (s, .trap 2 0 0) := by
  have hv : (s.thr t.val).special t.val f.disp.toNat ≠ none := by
    obtain ⟨hr, _⟩ | ⟨hr, _⟩ := hdenied <;> (rw [hr]; exact Option.some_ne_none _)
  unfold State.readSpecial
  dsimp only
  split
  next hnone => exact absurd hnone hv
  next => exact if_pos hdenied.symm

theorem special_selector {h : Thread} {k : Nat} (hlo : 8 ≤ r) (hhi : r < 16) :
    h.special k r = some ((h.sg.get (r - 8)).sel.zeroExtend 32) := by
  obtain ⟨n, rfl⟩ := Nat.exists_eq_add_of_le' hlo
  exact if_pos hhi

theorem pswIllegal_iff (v : Word) :
    pswIllegal v = true ↔ (fld v 7 5 ≠ 0 ∨ v.getLsbD 14 = true ∨ fld v 31 16 ≠ 0 ∨ fld v 13 12 = 2) := by
  simp only [pswIllegal, Bool.or_eq_true, bne_iff_ne, beq_iff_eq, or_assoc]

/-- At Machine level a write of PSW leaves LA alone. -/
theorem pswWrite_machine (old v : Word) : pswWrite 3 old v = some (setFld v 15 15 (fld old 15 15)) := by
  unfold pswWrite
  exact if_pos rfl

theorem writeSpecial_psw (hr : f.disp.toNat = 0) (hlegal : pswIllegal (s.thr t.val).acc ≠ true) (hpl : (s.thr t.val).pl = 3) :
    s.writeSpecial t f = s.done t.val f (fun k =>
      { k with psw := setFld (s.thr t.val).acc 15 15 (fld (s.thr t.val).psw 15 15) }) := by
  simp only [State.writeSpecial, hr, if_neg hlegal, hpl, pswWrite_machine]

theorem writeSpecial_pswIllegal (hr : f.disp.toNat = 0) (hillegal : pswIllegal (s.thr t.val).acc = true) :
    s.writeSpecial t f = (s, .trap 1 0 0) := by
  simp only [State.writeSpecial, hr, if_pos hillegal]

theorem writeSpecial_denied (hdenied : (f.disp.toNat = 5 ∧ (s.thr t.val).pl = 0) ∨ (f.disp.toNat = 6 ∧ (s.thr t.val).pl ≠ 3)) :
    s.writeSpecial t f = (s, .trap 2 0 0) := by
  obtain ⟨hr, hpl⟩ | ⟨hr, hpl⟩ := hdenied
  · simp only [State.writeSpecial, hr, if_pos hpl]
  · simp only [State.writeSpecial, hr, if_pos hpl]

/-- WRSR of ACX, LC, LS, LE or a TSP that its level reaches. -/
theorem writeSpecial_puts (hr : f.disp.toNat = r) (hrange : 1 ≤ r ∧ r ≤ 6) (hreach : (s.thr t.val).reaches r) :
    s.writeSpecial t f = s.done t.val f (Thread.putSpecial r (s.thr t.val).acc) := by
  simp only [State.writeSpecial, hr]
  match r with
  | 0 => omega
  | 1 | 2 | 3 | 4 => rfl
  | 5 => exact if_neg (hreach.1 rfl)
  | 6 => exact if_neg (not_not.mpr (hreach.2 rfl))
  | n + 7 => omega

/-- LSEG of a selector whose descriptor loads puts it into the segment register. -/
theorem lseg_loads {d : SegDesc} (hsel : (s.thr t.val).acc.toNat < 2 ^ 16)
    (hload : s.segLoad t.val (s.thr t.val).acc.toNat (s.thr t.val).pl (s.thr t.val).acc.toNat (f.seg.toNat + 32)
      (f.seg.toNat == 0) = (s1, .ok d)) :
    s.lseg t f = s1.done t.val f (fun k =>
      { k with sg := k.sg.set f.seg.toNat { sel := BitVec.ofNat 16 (s.thr t.val).acc.toNat, desc := d } }) :=
  (if_neg (Nat.not_le.mpr hsel)).trans (gotThen_ok hload _)
end

/-- Settles O16: each number names its register, and the level decides whether it is reached. -/
theorem specialRegisters : Obligations.SpecialRegisters := by
  refine ⟨fun s t f => ?reads, fun s s1 t f d => ?writes⟩
  case reads =>
    intro h r gives hready
    have hgives {n : Nat} {v : Word} (hr : r = n) (hv : h.special t.val n = some v) (hreach : h.reaches n) : gives v :=
      issue_done (body := fun s => s.readSpecial t f) hready (readSpecial_gives hr hv hreach) fun _ => rfl
    exact ⟨fun hr => hgives hr rfl ⟨nofun, nofun⟩, fun hr => hgives hr rfl ⟨nofun, nofun⟩, fun hr => hgives hr rfl ⟨nofun, nofun⟩,
      fun hr => hgives hr rfl ⟨nofun, nofun⟩, fun hr => hgives hr rfl ⟨nofun, nofun⟩,
      fun hr hpl => hgives hr rfl ⟨fun _ => hpl, nofun⟩, fun hr hpl => hgives hr rfl ⟨nofun, fun _ => hpl⟩,
      fun hr => hgives hr rfl ⟨nofun, nofun⟩,
      fun hlo hhi => hgives rfl (special_selector hlo hhi) ⟨fun h5 => by omega, fun h6 => by omega⟩,
      fun hdenied => issue_trap (body := fun s => s.readSpecial t f) hready (readSpecial_denied hdenied)⟩
  case writes =>
    intro h v r sets resv
    refine ⟨fun hready => ?_, fun hready hsel hload =>
      issue_done (body := fun s => s.lseg t f) hready (lseg_loads hsel hload) fun _ => rfl⟩
    have hsets {g : Thread → Thread} (hbody : s.writeSpecial t f = s.done t.val f g) : sets g :=
      issue_done (body := fun s => s.writeSpecial t f) hready hbody fun _ => rfl
    have hputs (n : Nat) (hr : r = n) (hn : 1 ≤ n ∧ n ≤ 6) (hreach : h.reaches n) : sets (Thread.putSpecial n v) :=
      hsets (writeSpecial_puts hr hn hreach)
    have htraps {n : Nat} (hbody : s.writeSpecial t f = (s, .trap n 0 0)) :
        exec (.wrsr t f) s = .next (s.trapEnd s t (.wrsr t f) n 0 0) :=
      issue_trap (body := fun s => s.writeSpecial t f) hready hbody
    refine ⟨fun hr hlegal hpl => ?_, fun hr hresv => htraps (writeSpecial_pswIllegal hr ((pswIllegal_iff v).2 hresv)),
      fun hr => ?_, fun hr => ?_, fun hr => ?_, fun hr => ?_, fun hr hpl => ?_, fun hr hpl => ?_,
      fun hdenied => htraps (writeSpecial_denied hdenied)⟩
    · have hno : pswIllegal v ≠ true := fun hillegal => hlegal ((pswIllegal_iff v).1 hillegal)
      have hpsw := hsets (writeSpecial_psw hr hno hpl)
      exact hpsw
    · exact hputs 1 hr (by decide) ⟨nofun, nofun⟩
    · exact hputs 2 hr (by decide) ⟨nofun, nofun⟩
    · exact hputs 3 hr (by decide) ⟨nofun, nofun⟩
    · exact hputs 4 hr (by decide) ⟨nofun, nofun⟩
    · exact hputs 5 hr (by decide) ⟨fun _ => hpl, nofun⟩
    · exact hputs 6 hr (by decide) ⟨nofun, fun _ => hpl⟩

/-! ### WAIT, SLEEP and FENCE (R194, R203) -/

section
variable {s s1 s2 : State} {t : Tid} {f : Operand} {v : Word}

/-- WAIT with a count pending takes it, with Z := 1. -/
theorem waitCount_takes (hpend : 0 < s.pend t.val) :
    s.waitCount t = ((s.take t.val 1).onThr t.val (fun k => { k with psw := setFld k.psw 1 1 1 }), .next) := if_pos hpend

/-- WAIT with no count pending leaves the thread waiting for one. -/
theorem waitCount_waits (hpend : s.pend t.val = 0) :
    s.waitCount t = (s.onThr t.val (fun k => { k with st := .waiting, waitFor := .wake }), .next) :=
  if_neg (by simp [hpend])

theorem sleep_zero (hop : s.operandR t.val f false = (s1, .ok v)) (hv : v = 0) :
    s.sleep t f = s1.done t.val f (fun k => { k with psw := setFld k.psw 1 1 1 }) :=
  (gotThen_ok hop _).trans (if_pos hv)

theorem sleep_waits (hop : s.operandR t.val f false = (s1, .ok v)) (hv : v ≠ 0) :
    s.sleep t f = s1.done t.val f (fun k => { k with st := .waiting, waitFor := .sleep (s1.clk + v.toNat * 16) }) :=
  (gotThen_ok hop _).trans (if_neg hv)

theorem fence_completes (hdrain : s.drainAll t.val = some s1) (hflush : s1.flushMaster 8 = some s2) :
    s.fence t = (s2, .next) := by
  simp only [State.fence, hdrain, hflush]
end

/-- Settles O17: the count, the operand or the drained buffer says how each ends. -/
theorem waitingAndFence : Obligations.WaitingAndFence := by
  intro s s1 s2 t f v h
  refine ⟨fun hr => ⟨fun hpend => ?_, fun hpend => ?_⟩, fun hr hop => ⟨fun hv => ?_, fun hv => ?_⟩, fun hr hdrain hflush => ?_⟩
  · exact issue_completes hr (fun s => s.waitCount t) (waitCount_takes hpend)
  · exact issue_completes hr (fun s => s.waitCount t) (waitCount_waits hpend)
  · exact issue_done (body := fun s => s.sleep t f) hr (sleep_zero hop hv) fun _ => rfl
  · exact issue_done (body := fun s => s.sleep t f) hr (sleep_waits hop hv) fun _ => rfl
  · exact issue_completes hr (fun s => s.fence t) (fence_completes hdrain hflush)

/-! ### XCH, LDL and STC (R198, R199, R205) -/

section
variable {s s0 s1 s2 s3 : State} {t : Tid} {f : Operand} {d e : List Byte}

/-- XCH of a word that may be read and written: the word goes into ACC and ACC into its place. -/
theorem exchange_done (hdrain : s.drainAll t.val = some s0) (hcheck : s.lockedCheck t f true true = none)
    (hlocal : ∀ n x, s.locate (s.physOf t f) ≠ .remote n x) (hmem : s.checkMem (s.who t.val) (s.physOf t f) 4 true = none)
    (hread : s0.busRead t.val (s.physOf t f) 4 = (s1, .ok d))
    (hwrite : s1.busWrite t.val (s.physOf t f) (leBytes 4 (s.thr t.val).acc.toNat) = (s2, .ok e)) :
    s.exchange t f = s2.done t.val f (fun k => { k with acc := BitVec.ofNat 32 (leVal d) }) := by
  simp only [State.exchange, hcheck, hmem, hdrain]
  rw [gotThen_accGot hread, gotThen_accGot hwrite]

theorem loadLocked_done (hdrain : s.drainAll t.val = some s0) (hcheck : s.lockedCheck t f false true = none)
    (hbank : s.inBanks (s.physOf t f) = true) (hread : s0.busRead t.val (s.physOf t f) 4 = (s1, .ok d)) :
    let v : Word := BitVec.ofNat 32 (leVal d)
    s.loadLocked t f = s1.done t.val f (fun k =>
      { k with acc := v, resv := some (s.storage (s.physOf t f) / 64 * 64) }.putFlags (znOf v)) := by
  simp only [State.loadLocked, hcheck, hbank, hdrain, Bool.true_eq_false, if_false]
  exact gotThen_accGot hread ..

/-- Once buffer and older requests are done, the reservation decides what STC does. -/
theorem storeConditional_eq (hdrain : s.drainAll t.val = some s0) (hcheck : s.lockedCheck t f true true = none)
    (hbank : s.inBanks (s.physOf t f) = true) (hmem : s.checkMem (s.who t.val) (s.physOf t f) 4 true = none)
    (henter : s0.enter (s.who t.val) (s.physOf t f) 4 (s0.onPortA (s.physOf t f)) = some s3) :
    s.storeConditional t f = if (s3.thr t.val).resv = some (s3.storage (s.physOf t f) / 64 * 64) then
        gotThen (accGot (s3.busWrite t.val (s.physOf t f) (leBytes 4 (s.thr t.val).acc.toNat)) ((s.thr t.val).target f).2 0 true)
          fun s1 _ => s1.done t.val f (fun k => { (k.setFlag pswZ true) with resv := none })
      else s3.done t.val f (fun k => { (k.setFlag pswZ false) with resv := none }) := by
  simp only [State.storeConditional, hcheck, hbank, hmem, hdrain, henter, Bool.true_eq_false, if_false]
end

/-- Settles O18: with the buffer drained and the checks passed, each access answers and the instruction completes. -/
theorem lockedSequences : Obligations.LockedSequences := by
  intro s s0 s1 s2 s3 t f d e h a v granule hdrain
  refine ⟨fun hr hcheck hlocal hmem hread hwrite => ?_, fun hr hcheck hbank hread => ?_, fun hr hcheck hbank hmem henter => ?_⟩
  · exact issue_done (body := fun s => s.exchange t f) hr (exchange_done hdrain hcheck hlocal hmem hread hwrite) fun _ => rfl
  · exact issue_done (body := fun s => s.loadLocked t f) hr (loadLocked_done hdrain hcheck hbank hread) fun _ => rfl
  · have hstc := storeConditional_eq hdrain hcheck hbank hmem henter
    refine ⟨fun hheld hwrite => ?_, fun hlost => ?_⟩
    · exact issue_done (body := fun s => s.storeConditional t f) hr
        ((hstc.trans (if_pos hheld)).trans (gotThen_accGot hwrite ..)) fun _ => rfl
    · exact issue_done (body := fun s => s.storeConditional t f) hr (hstc.trans (if_neg hlost)) fun _ => rfl

end Sys2Proof.Machine

/-! ## Byte strings and packed decimals (O19) -/

namespace Sys2Proof.Machine

/-! ### MOVB and FILL (R200) -/

section
variable {s s1 s2 : State} {t : Tid} {op : Nat} {f : Operand} {i : Instr} {d : List Byte}

/-- A step that leaves ACC = 0 ends its instruction in sequence; any other leaves the thread at it. -/
theorem issue_stringStep {g : Thread → Thread} (h : StemReady s t op f i) (body : State → State × Fate)
    (hbody : body s = s1.stringStep t g) :
    let u := s1.onThr t.val g
    s.issue t op f i body =
      .next (if (u.thr t.val).acc = 0 then u.inSequence t f (s.thr t.val).pc else u.retired t.val false) := by
  intro u
  by_cases hacc : (u.thr t.val).acc = 0
  · rw [if_pos hacc]
    exact issue_completes h body (hbody.trans (congrArg (Prod.mk u) (if_pos hacc)))
  · rw [if_neg hacc]
    exact issue_step h body (hbody.trans (congrArg (Prod.mk u) (if_neg hacc)))

/-- The bytes of one step are none exactly when ACC = 0. -/
theorem min_acc_eq_zero (a : Word) : min a.toNat 8 = 0 ↔ a = 0 := by
  have hmin : min a.toNat 8 = 0 ↔ a.toNat = 0 := by omega
  exact hmin.trans (BitVec.toNat_inj (y := 0))

theorem movb_nothing (hacc : (s.thr t.val).acc = 0) : s.movb t f = (s, .next) :=
  if_pos ((min_acc_eq_zero _).2 hacc)

theorem fill_nothing (hacc : (s.thr t.val).acc = 0) : s.fill t f = (s, .next) :=
  if_pos ((min_acc_eq_zero _).2 hacc)

/-- A step of MOVB whose source and destination do not overlap writes the bytes that it read. -/
theorem movb_step (hacc : (s.thr t.val).acc ≠ 0) :
    let h := s.thr t.val
    let n := min h.acc.toNat 8
    let sd := f.disp.toNat % 8
    let src := s.home ((h.sg.get f.seg.toNat).desc.base + h.x.toNat)
    let dst := s.home ((h.sg.get sd).desc.base + h.y.toNat)
    (h.sg.get f.seg.toNat).allows h.pl h.x.toNat n true false = true → (h.sg.get sd).allows h.pl h.y.toNat n false true = true →
    s.checkMem (s.who t.val) ((h.sg.get sd).desc.base + h.y.toNat) n true = none → ¬ (src < dst + n ∧ dst < src + n) →
    s.stemLoad t.val f.seg.toNat h.x.toNat n = (s1, .ok d) → s1.stemStore t.val sd h.y.toNat d = (s2, .ok ()) →
    s.movb t f = s2.stringStep t (fun k =>
      { k with x := k.x + BitVec.ofNat 32 n, y := k.y + BitVec.ofNat 32 n, acc := k.acc - BitVec.ofNat 32 n }) := by
  intro h n sd src dst hsrc hdst hmem hapart hload hstore
  have hn : n ≠ 0 := mt (min_acc_eq_zero _).1 hacc
  have hgap : ¬ (src < dst ∧ dst < src + n) := fun ⟨hlt, hin⟩ => hapart ⟨Nat.lt_add_right n hlt, hin⟩
  have hwrite : s1.stemStore t.val sd h.y.toNat (repeated (if src < dst ∧ dst < src + n then dst - src else 0) d) =
      (s2, .ok ()) := by
    rw [if_neg hgap]
    exact hstore
  refine (if_neg hn).trans ((if_neg (ne_false_of_eq_true hsrc)).trans ((if_neg (ne_false_of_eq_true hdst)).trans ?_))
  split
  next hrefused => exact absurd (hmem.symm.trans hrefused) nofun
  next => exact gotThen_ok ((gotBind_ok hload _).trans hwrite) _

theorem fill_step (hacc : (s.thr t.val).acc ≠ 0) :
    let h := s.thr t.val
    let n := min h.acc.toNat 8
    s.stemStore t.val f.seg.toNat h.y.toNat (List.replicate n (h.x.extractLsb' 0 8)) = (s1, .ok ()) →
    s.fill t f = s1.stringStep t (fun k => { k with y := k.y + BitVec.ofNat 32 n, acc := k.acc - BitVec.ofNat 32 n }) := by
  intro h n hstore
  rw [← BitVec.setWidth_eq_extractLsb' (by decide)] at hstore
  exact (if_neg (mt (min_acc_eq_zero _).1 hacc)).trans (gotThen_ok hstore _)
end

/-! ### DADD, DSUB and DCMP (R176, R188, R201) -/

section
variable {s s1 s2 s3 : State} {t : Tid} {f : Operand} {op a b : Nat} {i j r : Int}

/-- The operand at X that takes a result may be read and not written. -/
theorem decimal_readOnly (hop : op ≠ 2)
    (hread : ((s.thr t.val).sg.get f.seg.toNat).allows (s.thr t.val).pl (s.thr t.val).x.toNat 16 true false = true)
    (hboth : ((s.thr t.val).sg.get f.seg.toNat).allows (s.thr t.val).pl (s.thr t.val).x.toNat 16 true true = false) :
    s.decimal t f op = (s, .trap 3 (s.thr t.val).x.toNat (detailOf f.seg.toNat true)) :=
  if_pos ⟨hread, hop, hboth⟩

/-- The operand at X passes the check of the instruction, and both operands are read. -/
structure DecimalsRead (s s1 s2 : State) (t : Tid) (f : Operand) (op a b : Nat) : Prop where
  passes : op = 2 ∨ ((s.thr t.val).sg.get f.seg.toNat).allows (s.thr t.val).pl (s.thr t.val).x.toNat 16 true true = true
  readX : s.readDecimal t.val f.seg.toNat (s.thr t.val).x.toNat = (s1, .ok a)
  readY : s1.readDecimal t.val (f.disp.toNat % 8) (s.thr t.val).y.toNat = (s2, .ok b)

theorem DecimalsRead.no_violation (h : DecimalsRead s s1 s2 t f op a b) :
    ¬ (((s.thr t.val).sg.get f.seg.toNat).allows (s.thr t.val).pl (s.thr t.val).x.toNat 16 true false = true ∧ op ≠ 2 ∧
      ((s.thr t.val).sg.get f.seg.toNat).allows (s.thr t.val).pl (s.thr t.val).x.toNat 16 true true = false) :=
  fun ⟨_, hop, hboth⟩ => h.passes.elim hop fun hpass => by simp [hpass] at hboth

theorem decimal_compares (h : DecimalsRead s s1 s2 t f 2 a b) (hi : decVal 31 a = some i) (hj : decVal 31 b = some j) :
    s.decimal t f 2 = s2.done t.val f (fun k => k.putFlags
      { dv := some false, v := some false, z := some (decide (i = j)), n := some (decide (i < j)) }) := by
  unfold State.decimal
  dsimp only
  rw [if_neg h.no_violation, gotThen_ok h.readX, gotThen_ok h.readY]
  simp only [hi, hj, if_true, beq_eq_decide]

/-- A sum or difference that is stored. -/
theorem decimal_stores (h : DecimalsRead s s1 s2 t f op a b) (hi : decVal 31 a = some i) (hj : decVal 31 b = some j)
    (hop : op ≠ 2) (hr : (if op = 0 then i + j else i - j) = r)
    (hno : ¬ ((decimalResult r).2.v = some true ∧ (s.thr t.val).flag pswVTE = true))
    (hstore : s2.stemStore t.val f.seg.toNat (s.thr t.val).x.toNat (decimalResult r).1 = (s3, .ok ())) :
    s.decimal t f op = s3.done t.val f (fun k => k.putFlags (decimalResult r).2) := by
  unfold State.decimal
  dsimp only
  rw [if_neg h.no_violation, gotThen_ok h.readX, gotThen_ok h.readY]
  simp only [hi, hj, hop, hr, hno, if_false]
  exact gotThen_ok hstore _

/-- An operand that is no packed decimal. -/
theorem decimal_invalid (h : DecimalsRead s s1 s2 t f op a b) (hbad : decVal 31 a = none ∨ decVal 31 b = none) :
    s.decimal t f op = if (s.thr t.val).flag pswDTE = true then (s2, .trap 8 0 0)
      else s2.done t.val f (fun k => k.setFlag pswDV true) := by
  unfold State.decimal
  dsimp only
  rw [if_neg h.no_violation, gotThen_ok h.readX, gotThen_ok h.readY]
  split
  next hi hj => simp [hi, hj] at hbad
  next => rfl
end

/-- Settles O19: each step and each decimal operation by what its bytes, rights and digits say. -/
theorem stringsAndDecimal : Obligations.StringsAndDecimal := by
  refine ⟨fun s s1 s2 t f d => ?strings, fun s s1 s2 s3 t f a b i j => ?decimals⟩
  case strings =>
    intro h n sd step ends src dst
    refine ⟨fun hr hacc => ?_, fun hr hacc hsrc hdst hmem hapart hload hstore => ?_, fun hr hacc => ?_, fun hr hacc hstore => ?_⟩
    · exact issue_completes hr (fun s => s.movb t f) (movb_nothing hacc)
    · exact issue_stringStep hr (fun s => s.movb t f) (movb_step hacc hsrc hdst hmem hapart hload hstore)
    · exact issue_completes hr (fun s => s.fill t f) (fill_nothing hacc)
    · exact issue_stringStep hr (fun s => s.fill t f) (fill_step hacc hstore)
  case decimals =>
    intro h sb flags cmp bytes sets stores g both
    refine ⟨fun hread hboth => ⟨fun hr => ?_, fun hr => ?_⟩, fun hx hy => ⟨fun hr hboth hi hj hstores => ?_,
      fun hr hboth hi hj hstores => ?_, fun hr hi hj => ?_, fun hbad x op hmem hr hpass => ?_⟩⟩
    · exact issue_trap (body := fun s => s.decimal t f 0) hr (decimal_readOnly (by decide) hread hboth)
    · exact issue_trap (body := fun s => s.decimal t f 1) hr (decimal_readOnly (by decide) hread hboth)
    · exact issue_done (body := fun s => s.decimal t f 0) hr
        (decimal_stores ⟨.inr hboth, hx, hy⟩ hi hj (by decide) (if_pos rfl) hstores.1 hstores.2) fun _ => rfl
    · exact issue_done (body := fun s => s.decimal t f 1) hr
        (decimal_stores ⟨.inr hboth, hx, hy⟩ hi hj (by decide) (if_neg (by decide)) hstores.1 hstores.2) fun _ => rfl
    · exact issue_done (body := fun s => s.decimal t f 2) hr (decimal_compares ⟨.inl rfl, hx, hy⟩ hi hj) fun _ => rfl
    · have hends {c : Nat} (hexec : exec x s = s.issue t op f x (fun s => s.decimal t f c)) (hpass : c = 2 ∨ both = true) :
          (h.flag pswDTE = false → exec x s = .next (sets s2 { dv := some true })) ∧
          (h.flag pswDTE = true → exec x s = .next (s.trapEnd s2 t x 8 0 0)) := by
        have hinvalid := decimal_invalid ⟨hpass, hx, hy⟩ hbad
        rw [hexec]
        exact ⟨fun hdte => issue_done hr (hinvalid.trans (if_neg (ne_true_of_eq_false hdte))) fun _ => rfl,
          fun hdte => issue_trap hr (hinvalid.trans (if_pos hdte))⟩
      simp only [List.mem_cons, Prod.mk.injEq, List.not_mem_nil, or_false] at hmem
      obtain ⟨rfl, rfl⟩ | ⟨rfl, rfl⟩ | ⟨rfl, rfl⟩ := hmem
      · exact hends (c := 0) rfl (.inr (hpass.resolve_left (by decide)))
      · exact hends (c := 1) rfl (.inr (hpass.resolve_left (by decide)))
      · exact hends (c := 2) rfl (.inl rfl)

end Sys2Proof.Machine

/-! ## The words of Stem instructions (O3) -/

namespace Sys2Proof

/-! ### The fields of a first word (R210) -/

section
variable {op : Nat} {t : Tid} {f : Operand} {i : Instr} {w x : Word}

/-- The widths of s, m, z and disp16. -/
theorem Operand.fields_lt (f : Operand) :
    f.seg.toNat < 8 ∧ f.mode.toNat < 8 ∧ f.size.toNat < 4 ∧ f.disp.toNat < 0x10000 :=
  ⟨f.seg.isLt, f.mode.isLt, f.size.isLt, f.disp.isLt⟩

/-- The value of an assembled word: no field reaches into its neighbour, and the word holds them all. -/
theorem encodeWord_toNat (hop : op < 256) (f : Operand) : (encodeWord op f).toNat =
    op * 0x1000000 + f.seg.toNat * 0x200000 + f.mode.toNat * 0x40000 + f.size.toNat * 0x10000 + f.disp.toNat := by
  obtain ⟨hseg, hmode, hsize, hdisp⟩ := f.fields_lt
  rw [encodeWord, BitVec.toNat_ofNat, Nat.mod_eq_of_lt (by omega)]

theorem opcodeOf_encodeWord (hop : op < 256) (f : Operand) : opcodeOf (encodeWord op f) = op := by
  obtain ⟨hseg, hmode, hsize, hdisp⟩ := f.fields_lt
  rw [opcodeOf, encodeWord_toNat hop]
  omega

theorem fieldsOf_encodeWord (hop : op < 256) (f : Operand) : fieldsOf (encodeWord op f) = { f with long := 0 } := by
  obtain ⟨hseg, hmode, hsize, hdisp⟩ := f.fields_lt
  rw [fieldsOf, encodeWord_toNat hop, Operand.mk.injEq]
  refine ⟨?_, ?_, ?_, ?_, rfl⟩ <;> (apply BitVec.eq_of_toNat_eq; rw [BitVec.toNat_ofNat]; omega)

/-- The fields are the whole word: it is put together from them again, whatever the second word is. -/
theorem encodeWord_fieldsOf (w x : Word) : encodeWord (opcodeOf w) { fieldsOf w with long := x } = w := by
  have hw := w.isLt
  apply BitVec.eq_of_toNat_eq
  simp only [encodeWord, opcodeOf, fieldsOf, BitVec.toNat_ofNat]
  omega

/-! ### The opcode map (R214) -/

/-- An opcode and its fields name an instruction exactly when they are that instruction's parts. -/
theorem stemOf_eq_some_iff : stemOf t f op = some i ↔ stemParts i = some (op, t, f) := by
  constructor <;> intro h
  · unfold stemOf at h
    split at h <;> cases h <;> rfl
  · unfold stemParts at h
    split at h <;> cases h <;> rfl

/-- An opcode has its instruction for every thread and operand or for none. -/
theorem stemOf_isSome_congr (t u : Tid) (f g : Operand) (op : Nat) : (stemOf t f op).isSome = (stemOf u g op).isSome := by
  unfold stemOf
  split <;> rfl

/-- An opcode with an operand class fits its eight bits. -/
theorem lt_of_opClass {c : StemClass} (h : opClass op = some c) : op < 256 := by
  by_contra hge
  have hnone : opClass op = none := by simp (disch := omega) only [opClass, if_neg]
  simp [hnone] at h

/-- The rows of R214's table: an opcode with an operand class is the opcode of an instruction. -/
theorem stemOf_isSome_of_opClass {c : StemClass} (h : opClass op = some c) : (stemOf t f op).isSome = true := by
  have hrows : ∀ o : Fin 256, (opClass o).isSome = true → (stemOf 0 (fieldsOf 0) o).isSome = true := by
    decide +kernel
  exact (stemOf_isSome_congr t 0 f _ op).trans (hrows ⟨op, lt_of_opClass h⟩ (by simp [h]))

/-- A legal first word is one of an instruction. -/
theorem stemOf_of_operandOk (h : operandOk op f = true) : ∃ i, stemOf t f op = some i := by
  cases hc : opClass op with
  | none => simp [operandOk, hc] at h
  | some c => exact Option.isSome_iff_exists.mp (stemOf_isSome_of_opClass hc)

theorem lt_of_operandOk (h : operandOk op f = true) : op < 256 := by
  cases hc : opClass op with
  | none => simp [operandOk, hc] at h
  | some c => exact lt_of_opClass hc

/-! ### Decoding (R212, R215) -/

/-- The operand of the words w and x: the fields of w, and x only in mode 6. -/
def operandOf (w x : Word) : Operand := { fieldsOf w with long := if (fieldsOf w).mode == 6 then x else 0 }

theorem operandOf_mode (w x : Word) : (operandOf w x).mode = (fieldsOf w).mode := rfl

theorem operandOf_long (w x : Word) : (operandOf w x).long = if (fieldsOf w).mode = 6 then x else 0 := by
  simp only [operandOf, beq_iff_eq]

/-- A second word has no part in the legality of the first (R212). -/
theorem operandOk_long (op : Nat) (f : Operand) (x : Word) : operandOk op { f with long := x } = operandOk op f := rfl

/-- The fields of an operand's own first word, with its second word, are the operand. -/
theorem operandOf_encodeWord (hop : op < 256) (hx : f.long = if f.mode = 6 then x else 0) :
    operandOf (encodeWord op f) x = f := by
  simp only [operandOf, fieldsOf_encodeWord hop, beq_iff_eq, ← hx]

/-- A legal first word decodes to the instruction of its opcode and operand. -/
theorem decodeStem_of_legal (t : Tid) (x : Word) (h : operandOk (opcodeOf w) (fieldsOf w) = true) :
    stemOf t (operandOf w x) (opcodeOf w) = some (decodeStem t w x) := by
  obtain ⟨i, hi⟩ := stemOf_of_operandOk (t := t) (f := operandOf w x) h
  have hdecode : decodeStem t w x = i := by
    unfold decodeStem
    rw [if_pos h]
    exact hi ▸ rfl
  rw [hi, hdecode]

/-- An illegal first word decodes to ILLEGAL. -/
theorem decodeStem_of_illegal (t : Tid) (x : Word) (h : operandOk (opcodeOf w) (fieldsOf w) = false) :
    decodeStem t w x = .illegal t w := if_neg (ne_true_of_eq_false h)

/-- The first word of an instruction decodes to it, with a second word that is its own in mode 6. -/
theorem decodeStem_encodeWord (hparts : stemParts i = some (op, t, f)) (hok : operandOk op f = true)
    (hx : f.long = if f.mode = 6 then x else 0) : decodeStem t (encodeWord op f) x = i := by
  have hop := lt_of_operandOk hok
  have hlegal : operandOk (opcodeOf (encodeWord op f)) (fieldsOf (encodeWord op f)) = true := by
    rw [opcodeOf_encodeWord hop, fieldsOf_encodeWord hop, operandOk_long, hok]
  have hdecode := decodeStem_of_legal t x hlegal
  rw [opcodeOf_encodeWord hop, operandOf_encodeWord hop hx, stemOf_eq_some_iff.mpr hparts] at hdecode
  exact (Option.some.inj hdecode).symm

/-! ### Well-formed instructions and their words -/

/-- An operand is well formed when its first word is legal and it has a second word in mode 6 alone. -/
theorem stemWf_iff : stemWf op f = true ↔ operandOk op f = true ∧ (f.mode ≠ 6 → f.long = 0) := by
  rw [stemWf, Bool.and_eq_true, Bool.or_eq_true, beq_iff_eq, beq_iff_eq, or_iff_not_imp_left]

theorem wellFormed_of_stemParts (h : stemParts i = some (op, t, f)) : wellFormed i = stemWf op f := by
  simp only [wellFormed, h]

theorem encodeStem_of_stemParts (h : stemParts i = some (op, t, f)) :
    encodeStem i = if f.mode = 6 then [encodeWord op f, f.long] else [encodeWord op f] := by
  simp only [encodeStem, h, beq_iff_eq]

theorem wellFormed_illegal : wellFormed (.illegal t w) = !operandOk (opcodeOf w) (fieldsOf w) := rfl

/-- Every pair of words decodes to a well-formed instruction. -/
theorem wellFormed_decodeStem (t : Tid) (w x : Word) : wellFormed (decodeStem t w x) = true := by
  cases h : operandOk (opcodeOf w) (fieldsOf w) with
  | true =>
    rw [wellFormed_of_stemParts (stemOf_eq_some_iff.mp (decodeStem_of_legal t x h)), stemWf_iff, operandOf_long]
    exact ⟨h, fun hm => if_neg hm⟩
  | false => rw [decodeStem_of_illegal t x h, wellFormed_illegal, h, Bool.not_false]

/-- The words of what a pair of words decodes to are the words that count. -/
theorem encodeStem_decodeStem (t : Tid) (w x : Word) :
    encodeStem (decodeStem t w x) = if isLong w = true then [w, x] else [w] := by
  cases h : operandOk (opcodeOf w) (fieldsOf w) with
  | true =>
    rw [encodeStem_of_stemParts (stemOf_eq_some_iff.mp (decodeStem_of_legal t x h)), operandOf_mode, operandOf_long,
      operandOf, encodeWord_fieldsOf]
    by_cases hm : (fieldsOf w).mode = 6 <;> simp only [isLong, h, hm, Bool.true_and, beq_iff_eq, if_true, if_false]
  | false => simp [decodeStem_of_illegal t x h, isLong, h, encodeStem, stemParts]

/-- Settles O3: a first word and its fields are one another, and so are an instruction and its opcode with its operand. -/
theorem stemRoundTrip : Obligations.StemRoundTrip := by
  refine fun t => ⟨fun i op f hwf hparts => ?instruction, fun w x hwf => ?illegal, fun w x => ?words⟩
  case instruction =>
    rw [wellFormed_of_stemParts hparts, stemWf_iff] at hwf
    obtain ⟨hok, hshort⟩ := hwf
    refine ⟨encodeWord op f, encodeStem_of_stemParts hparts, decodeStem_encodeWord hparts hok ?_,
      fun hm x => decodeStem_encodeWord hparts hok ?_⟩
    · split
      next => rfl
      next hm => exact hshort hm
    · rw [if_neg hm, hshort hm]
  case illegal =>
    rw [wellFormed_illegal, Bool.not_eq_true'] at hwf
    exact ⟨rfl, decodeStem_of_illegal t x hwf⟩
  case words => exact ⟨wellFormed_decodeStem t w x, encodeStem_decodeStem t w x⟩

end
end Sys2Proof

/-! ## The checks at issue, SYSCALL, ILLEGAL and BKPT (O14) -/

namespace Sys2Proof.Machine

section
variable {s u : State} {t : Tid} {op : Nat} {f : Operand} {i : Instr} {num faddr detail : Nat}

/-! ### The checks at issue in their order (R182, R216) -/

section
variable (body : State → State × Fate)

/-- An instruction whose first word is not in the fetch buffer waits. -/
theorem issue_firstAbsent (h : (s.thr t.val).fetched (s.thr t.val).pc.toNat = .absent) : s.issue t op f i body = .next s := by
  unfold State.issue
  simp only [h, ite_self]

variable (hcan : s.canIssue t.val i = true)
include hcan

/-- A first word whose fetch failed traps as its fetch failed. -/
theorem issue_firstFailed (h : (s.thr t.val).fetched (s.thr t.val).pc.toNat = .failed num detail) :
    s.issue t op f i body = s.fetchTrap t.val i (s.thr t.val).pc.toNat (num, detail) := by
  unfold State.issue
  simp only [hcan, h, Bool.true_eq_false, if_false]

variable (hword : (s.thr t.val).fetched (s.thr t.val).pc.toNat = .word (encodeWord op f))
include hword

/-- A first word that is illegal takes trap 0x01. -/
theorem issue_illegalWord (hbad : operandOk op f = false) : s.issue t op f i body = .next (s.trapEnd s t i 1 0 0) := by
  unfold State.issue
  simp only [hcan, hword, hbad, Bool.true_eq_false, ne_eq, not_true, if_false, if_true]
  rfl

variable (hok : operandOk op f = true) (hlong : f.mode = 6)
include hok hlong

/-- A long instruction whose second word is not in the fetch buffer waits. -/
theorem issue_secondAbsent (h : (s.thr t.val).fetched ((s.thr t.val).pc.toNat + 4) = .absent) :
    s.issue t op f i body = .next s := by
  unfold State.issue
  simp only [hcan, hword, hok, hlong, h, Bool.true_eq_false, ne_eq, not_true, if_false]

/-- A second word whose fetch failed traps as its fetch failed. -/
theorem issue_secondFailed (h : (s.thr t.val).fetched ((s.thr t.val).pc.toNat + 4) = .failed num detail) :
    s.issue t op f i body = s.fetchTrap t.val i ((s.thr t.val).pc.toNat + 4) (num, detail) := by
  unfold State.issue
  simp only [hcan, hword, hok, hlong, h, Bool.true_eq_false, ne_eq, not_true, if_false]
end

/-! ### Traps that are entered, and the halt of BKPT (R208, R215, R223) -/

/-- A ready instruction whose body halts its thread is retired with the halt requested. -/
theorem issue_halt (h : StemReady s t op f i) (body : State → State × Fate) (hbody : body s = (u, .halt)) :
    s.issue t op f i body = .next ((u.requestHalt [t.val] []).retired t.val false) := by
  rw [issue_ready h, hbody]
  rfl

/-- An instruction whose trap is entered is retired at the handler. -/
theorem trapEnd_entered (h : s.instrTrap t.val num faddr detail = (u, .step)) :
    s.trapEnd s t i num faddr detail = u.retired t.val false := by
  simp only [State.trapEnd, State.finish, h, State.ended]

/-- An illegal word at PC takes trap 0x01. -/
theorem exec_illegal {w : Word} (hcan : s.canIssue t.val (.illegal t w) = true)
    (hword : (s.thr t.val).fetched (s.thr t.val).pc.toNat = .word w) (hbad : operandOk (opcodeOf w) (fieldsOf w) = false) :
    exec (.illegal t w) s = .next (s.trapEnd s t (.illegal t w) 1 0 0) := by
  change execIllegal t w s = _
  unfold execIllegal
  simp only [hcan, hword, hbad, Bool.true_eq_false, and_self, if_false, if_true]
  rfl

/-- Settles O14: each check decides when those before it passed, and a trap that is entered ends its instruction. -/
theorem trapsAtIssue : Obligations.TrapsAtIssue := by
  refine ⟨fun s t op f i body => ?checks, fun s u t f w => ?traps⟩
  case checks =>
    exact ⟨fun hcan => issue_waits hcan body, issue_firstAbsent body, fun hcan =>
      ⟨fun _ _ => issue_firstFailed body hcan, issue_illegalWord body hcan, fun hword hok hlong =>
        ⟨issue_secondAbsent body hcan hword hok hlong, fun _ _ => issue_secondFailed body hcan hword hok hlong⟩⟩⟩
  case traps =>
    refine ⟨fun hr henter => ?_, fun hcan hword hbad henter => ?_, fun hr hhalt henter => ?_, fun hr hhalt => ?_⟩
    · exact issue_step hr (fun s => s.syscall t f) henter
    · rw [exec_illegal hcan hword hbad, trapEnd_entered henter]
    · exact (issue_trap (body := fun s => s.breakpoint t f) hr (if_neg (ne_true_of_eq_false hhalt))).trans
        (congrArg _ (trapEnd_entered henter))
    · exact issue_halt hr (fun s => s.breakpoint t f) (if_pos hhalt)
end

end Sys2Proof.Machine

/-! ## Trap entry and TRET (O13, O15) -/

namespace Sys2Proof.Machine

/-! ### One thread replaced -/

/-- A member of an eight after one was replaced. -/
theorem oct_get_set {α : Type} (o : Oct α) (a : α) (i k : Fin 8) :
    (o.set i.val a).get k.val = if k = i then a else o.get k.val := by
  fin_cases i <;> fin_cases k <;> rfl

section
variable (s : State) (t : Tid) (g : Thread → Thread)

theorem thr_onThr_same : (s.onThr t.val g).thr t.val = g (s.thr t.val) :=
  (oct_get_set s.threads (g (s.thr t.val)) t t).trans (if_pos rfl)

theorem sameThreadsBut_onThr : SameThreadsBut t s (s.onThr t.val g) :=
  fun k hk => (oct_get_set s.threads (g (s.thr t.val)) t k).trans (if_neg hk)
end

/-! ### The trap stack pointers (R226) -/

section
variable (h : Thread) (l : Nat) (v : Word)

/-- Setting a trap stack pointer changes nothing else of a thread. -/
theorem setTsp_eq : h.setTsp l v =
    { h with tspM := if l = 3 then v else h.tspM, tspS := if l = 3 then h.tspS else v } := by
  unfold Thread.setTsp
  split <;> rfl

theorem tsp_setTsp : (h.setTsp l v).tsp l = v := by
  unfold Thread.setTsp Thread.tsp
  split <;> rfl
end

/-! ### A thread at its handler (R229) -/

/-- PSW at a handler of level l: PL is the level, IE and LA are clear. -/
def handlerPsw (l : Nat) (psw : Word) : Word := setFld (setFld (setFld psw 13 12 l) pswIE pswIE 0) pswLA pswLA 0

/-- A thread moved to its handler's first instruction at level l, with the level's code segment. -/
def Thread.atHandler (l : Nat) (code : SegReg) (pc : Word) (h : Thread) : Thread :=
  { h.setTsp l (BitVec.ofNat 32 ((h.tsp l).toNat + 2 ^ 32 - 48)) with
    psw := handlerPsw l h.psw, pc := pc, sg := h.sg.set 0 code, fbuf := [], st := .active, waitFor := .nothing
    remote := none, stepDone := h.step.isSome }

theorem enterHandler_eq (s : State) (t l : Nat) (pc : Word) :
    s.enterHandler t l pc = s.onThr t (Thread.atHandler l (s.codeSeg l) pc) := rfl

section
variable {l : Nat} (psw : Word)

theorem getLsbD_handlerPsw (i : Nat) : (handlerPsw l psw).getLsbD i =
    if i = 15 ∨ i = 8 then false else if 12 ≤ i ∧ i ≤ 13 then l.testBit (i - 12) else psw.getLsbD i := by
  unfold handlerPsw pswIE pswLA
  simp only [getLsbD_setFld _ _ (Nat.le_refl _) (by decide : 15 < 32), getLsbD_setFld _ _ (Nat.le_refl _) (by decide : 8 < 32),
    getLsbD_setFld _ _ (by decide : 12 ≤ 13) (by decide : 13 < 32), Nat.zero_testBit]
  grind

theorem fld_handlerPsw_pl (hl : l ≤ 3) : fld (handlerPsw l psw) 13 12 = l := by
  unfold handlerPsw pswIE pswLA
  rw [fld_setFld_other _ _ (by decide) (by decide) (by decide) (by decide),
    fld_setFld_other _ _ (by decide) (by decide) (by decide) (by decide), fld_setFld_same _ _ (by decide) (by decide)]
  exact Nat.mod_eq_of_lt (Nat.lt_succ_of_le hl)
end

section
variable (l : Nat) (code : SegReg) (pc : Word) (h : Thread)

theorem tsp_atHandler : (h.atHandler l code pc).tsp l = BitVec.ofNat 32 ((h.tsp l).toNat + 2 ^ 32 - 48) :=
  tsp_setTsp h l _

/-- The registers of a thread at its handler but its trap stack pointers and PSW. -/
theorem atHandler_regs : (h.atHandler l code pc).pc = pc ∧ (h.atHandler l code pc).sg.get 0 = code ∧
    (h.atHandler l code pc).acc = h.acc ∧ (h.atHandler l code pc).x = h.x ∧ (h.atHandler l code pc).y = h.y := by
  unfold Thread.atHandler
  rw [setTsp_eq]
  exact ⟨rfl, rfl, rfl, rfl, rfl⟩
end

/-! ### Entry (R229) -/

section
variable {s s0 s2 s3 : State} {t num fa d nominal a : Nat} {pc : Word}

/-- An entry none of whose steps fails ends at the handler. -/
theorem enterTrap_enters :
    let h := s.thr t
    let l := max nominal h.pl
    let s1 := s0.onThr t (fun k => { k with resv := none })
    let tsp := (h.tsp l).toNat
    s.drainAll t = some s0 → (s1.stackSeg l).sel ≠ 0 → tsp % 16 = 0 → (l = 1 → s2.rd R.TRP_STVS ≠ 0) →
    s1.pushFrame t l ((tsp + 2 ^ 32 - 48) % 2 ^ 32) (pairUp (h.frame pc fa num d)) = (s2, .ok true) →
    s2.vector t l num = (s3, .ok (some a)) → a % 4 = 0 →
    s.enterTrap t num fa d nominal pc = (s3.enterHandler t l (BitVec.ofNat 32 a), .step) := by
  intro h l s1 tsp hdrain hsel htsp hvectors hframe hvector ha
  unfold State.enterTrap
  simp only [hdrain]
  rw [if_neg hsel, if_neg (not_not.mpr htsp), gotThen_ok hframe, if_neg (by decide), if_neg fun ⟨h1, h0⟩ => hvectors h1 h0,
    gotThen_ok hvector]
  exact if_neg (not_not.mpr ha)
end

/-- Settles O13: the entry ends at the handler, which changes the thread's own registers alone. -/
theorem trapEntry : Obligations.TrapEntry := by
  intro s s0 s2 s3 t num fa d nominal a pc h l s1 tsp hl hdrain hsel htsp hvectors hframe hvector ha hlt
  refine ⟨_, enterTrap_enters hdrain hsel htsp hvectors hframe hvector ha, ?_⟩
  rw [enterHandler_eq, thr_onThr_same]
  obtain ⟨hpc, hsg, hacc, hx, hy⟩ := atHandler_regs l (s3.codeSeg l) (BitVec.ofNat 32 a) (s3.thr t.val)
  have hbit := getLsbD_handlerPsw (l := l) (s3.thr t.val).psw
  refine ⟨?_, fld_handlerPsw_pl _ hl, hbit 8, hbit 15, fun i hie hpl0 hpl1 hla => ?_, tsp_atHandler _ _ _ _, hsg, hacc, hx, hy,
    .of_mem rfl, fun _ _ => rfl, sameThreadsBut_onThr _ _ _⟩
  · rw [hpc, BitVec.toNat_ofNat, Nat.mod_eq_of_lt hlt]
  · exact (hbit i).trans ((if_neg (by omega)).trans (if_neg (by omega)))

/-! ### TRET (R231, R232) -/

/-- A thread with the registers that the words of a frame hold, and the frame's bytes given back to the stack of level l. -/
def Thread.restored (l : Nat) (w : Nat → Word) (code : SegReg) (h : Thread) : Thread :=
  { h.setTsp l (h.tsp l + 48) with
    psw := w 1, acc := w 2, acx := w 3, x := w 4, y := w 5, lc := w 6, ls := w 7, le := w 8, sg := h.sg.set 0 code }

/-- The frame with words w in the stack of level l checked and restored: what TRET does once the frame is read. -/
def State.restoreFrame (s : State) (t l : Nat) (w : Nat → Word) : State × Fate :=
  let fpl := fld (w 1) 13 12
  let sel := fld (w 10) 31 16
  if fpl = 2 ∨ l < fpl ∨ fld (w 1) 7 5 ≠ 0 ∨ (w 1).getLsbD 14 = true ∨ fld (w 1) 31 16 ≠ 0 then (s, .trap 2 0 0)
  else if (w 0).toNat % 4 ≠ 0 then (s, .trap 4 (w 0).toNat 0)
  else gotThen (s.segLoad t sel fpl sel 32 true) fun u d =>
    (u.onThr t (Thread.restored l w { sel := BitVec.ofNat 16 sel, desc := d }), .jump (w 0).toNat)

section
variable {s s0 s1 u : State} {t : Tid} {b : List Byte} {d : SegDesc}

theorem tret_taskLevel (hpl : (s.thr t.val).pl = 0) : s.tret t = (s, .trap 2 0 0) := if_pos hpl

/-- Above Task level, a frame that is read from a stack that allows it is checked and restored. -/
theorem tret_frameRead :
    let l := (s.thr t.val).pl
    let tsp := ((s.thr t.val).tsp l).toNat
    l ≠ 0 → (s.stackSeg l).allows l tsp 48 true false = true → s.drainAll t.val = some s0 →
    s0.readFrame t.val (s.stackSeg l).desc.base [tsp, tsp + 8, tsp + 16, tsp + 24, tsp + 32, tsp + 40] [] = (s1, .ok b) →
    s.tret t = s1.restoreFrame t.val l (fun i => (bytesWords b).getD i 0) := by
  intro l tsp hpl hallows hdrain hread
  unfold State.tret
  simp only [hdrain]
  rw [if_neg hpl, if_neg (ne_false_of_eq_true hallows), gotThen_ok hread]
  rfl

/-- A frame that passes the checks is restored, and the thread goes on at the frame's PC. -/
theorem restoreFrame_passes {l : Nat} {w : Nat → Word}
    (hpsw : fld (w 1) 13 12 ≠ 2 ∧ fld (w 1) 13 12 ≤ l ∧ fld (w 1) 7 5 = 0 ∧ (w 1).getLsbD 14 = false ∧ fld (w 1) 31 16 = 0)
    (hpc : (w 0).toNat % 4 = 0)
    (hload : s.segLoad t.val (fld (w 10) 31 16) (fld (w 1) 13 12) (fld (w 10) 31 16) 32 true = (u, .ok d)) :
    s.restoreFrame t.val l w = (u.onThr t.val (Thread.restored l w { sel := BitVec.ofNat 16 (fld (w 10) 31 16), desc := d }),
      .jump (w 0).toNat) := by
  unfold State.restoreFrame
  rw [if_neg (by simpa only [not_or, ne_eq, not_not, Nat.not_lt, Bool.not_eq_true] using hpsw), if_neg (not_not.mpr hpc),
    gotThen_ok hload]
end

/-- Settles O15: at Task level TRET traps, and above it the frame that passes the checks is restored. -/
theorem returnFromTrap : Obligations.ReturnFromTrap := by
  intro s s0 s1 s2 t f b d h l tsp w fpl sel hready
  refine ⟨fun hpl => issue_trap (body := fun s => s.tret t) hready (tret_taskLevel hpl), ?_⟩
  intro hpl hallows hdrain hread hnotTwo hlevel hlow hbit hhigh hpc hload
  have hrestored := restoreFrame_passes (l := l) ⟨hnotTwo, hlevel, hlow, hbit, hhigh⟩ hpc hload
  exact issue_jump hready (fun s => s.tret t) ((tret_frameRead hpl hallows hdrain hread).trans hrestored)

end Sys2Proof.Machine

/-! ## Reception, elimination and the Signal Image (O36, O37, O38) -/

namespace Sys2Proof.Machine

/-! ### Elimination (R266) -/

/-- How far a number lies ahead of the last one, modulo 65,536. -/
def Recovery.ahead (r : Recovery) (q : Nat) : Int := toSigned 16 (q + 65536 - r.seq)

section
variable {r : Recovery} {hist q : Nat}

theorem see_reset (htake : r.take = true) :
    r.see hist q = (true, { take := false, seq := q, history := true :: List.replicate (hist - 1) false }) := if_pos htake

theorem see_outside (htake : r.take = false) (hout : (hist : Int) ≤ (r.ahead q).natAbs) : r.see hist q = (false, r) := by
  have hfar : (hist : Int) ≤ r.ahead q ∨ r.ahead q ≤ -(hist : Int) := by omega
  exact (if_neg (by simp [htake])).trans (if_pos hfar)

/-- A number ahead within the history becomes the last, and the history moves on with it. -/
theorem see_ahead (htake : r.take = false) (hpos : 0 < r.ahead q) (hlt : r.ahead q < hist) : r.see hist q =
    (true, { r with
      seq := q
      history := (true :: (List.replicate ((r.ahead q).natAbs - 1) false ++ r.history)).take hist }) := by
  have hnear : ¬ ((hist : Int) ≤ r.ahead q ∨ r.ahead q ≤ -(hist : Int)) := by omega
  exact ((if_neg (by simp [htake])).trans (if_neg hnear)).trans (if_neg (Int.not_le.mpr hpos))

/-- A number behind within the history is accepted if it was not seen, and is seen from then on. -/
theorem see_behind (htake : r.take = false) (hneg : r.ahead q ≤ 0) (hlt : (r.ahead q).natAbs < hist) : r.see hist q =
    if r.history.getD (r.ahead q).natAbs true = true then (false, r)
    else (true, { r with history := r.history.set (r.ahead q).natAbs true }) := by
  have hnear : ¬ ((hist : Int) ≤ r.ahead q ∨ r.ahead q ≤ -(hist : Int)) := by omega
  exact ((if_neg (by simp [htake])).trans (if_neg hnear)).trans (if_pos hneg)

theorem see_behind_facts (htake : r.take = false) (hneg : r.ahead q ≤ 0) (hlt : (r.ahead q).natAbs < hist)
    (hlen : r.history.length = hist) :
    (r.see hist q).2.seq = r.seq ∧ (r.see hist q).2.history.getD (r.ahead q).natAbs false = true ∧
    (r.see hist q).1 = !(r.history.getD (r.ahead q).natAbs true) ∧ ((r.see hist q).2.see hist q).1 = false := by
  have hin : (r.ahead q).natAbs < r.history.length := hlen ▸ hlt
  rw [see_behind htake hneg hlt]
  cases hseen : r.history.getD (r.ahead q).natAbs true with
  | true =>
    have hget : r.history[(r.ahead q).natAbs] = true := (List.getD_eq_getElem _ _ hin).symm.trans hseen
    rw [if_pos rfl]
    exact ⟨rfl, (List.getD_eq_getElem _ _ hin).trans hget, rfl, by rw [see_behind htake hneg hlt, if_pos hseen]⟩
  | false =>
    rw [if_neg (by decide)]
    have hset : ∀ d, (r.history.set (r.ahead q).natAbs true).getD (r.ahead q).natAbs d = true := fun d => by
      rw [List.getD_eq_getElem _ _ (by simpa using hin), List.getElem_set_self]
    have hagain : ({ r with history := r.history.set (r.ahead q).natAbs true } : Recovery).see hist q =
        (false, { r with history := r.history.set (r.ahead q).natAbs true }) :=
      (see_behind (r := { r with history := r.history.set (r.ahead q).natAbs true }) htake hneg hlt).trans (if_pos (hset true))
    exact ⟨rfl, hset false, rfl, congrArg Prod.fst hagain⟩
end

/-- Settles O37: after a reset, outside the history, ahead and behind, the recovery does what R266 says. -/
theorem frameElimination : Obligations.FrameElimination := by
  intro r hist q hpos _ _ _ hlen d u
  refine ⟨fun htake => ?_, fun htake hout => see_outside htake hout, fun htake hahead hlt => ?_,
    fun htake hbehind hlt => see_behind_facts htake hbehind hlt hlen⟩
  · have hu : u = _ := see_reset htake
    rw [hu]
    exact ⟨rfl, rfl, rfl, by simp; omega⟩
  · have hu : u = _ := see_ahead htake hahead hlt
    rw [hu]
    obtain ⟨n, rfl⟩ : ∃ n, hist = n + 1 := ⟨hist - 1, by omega⟩
    exact ⟨rfl, rfl, rfl, by simp; omega⟩

/-! ### One Ethernet port replaced -/

theorem duo_get_set_same {α : Type} (o : Duo α) (e : Nat) (a : α) : (o.set e a).get e = a := by
  cases e with
  | zero => rfl
  | succ e => rfl

section
variable (s : State) (e : Nat) (g : EthPort → EthPort)

@[simp] theorem eth_onEth_same : (s.onEth e g).eth e = g (s.eth e) := duo_get_set_same ..

@[simp] theorem rd_onIo (g : FieldIo → FieldIo) (r : Nat) : (s.onIo g).rd r = s.rd r := rfl
@[simp] theorem f_onIo (g : FieldIo → FieldIo) (r hi lo : Nat) : (s.onIo g).f r hi lo = s.f r hi lo := rfl
@[simp] theorem rd_onEth (r : Nat) : (s.onEth e g).rd r = s.rd r := rfl
end

namespace SameData

section
variable {s u : State} (h : SameData s u)
include h

theorem onIo {g : FieldIo → FieldIo} : SameData s (u.onIo g) := ⟨h.jobs, h.threads, h.cells⟩
theorem onEth {e : Nat} {g : EthPort → EthPort} : SameData s (u.onEth e g) := h.onIo
theorem onLdg {g : Ledger → Ledger} : SameData s (u.onLdg g) := ⟨h.jobs, h.threads, h.cells⟩
theorem count {off w n : Nat} : SameData s (u.count off w n) := ⟨h.jobs, h.threads, h.cells⟩
theorem emit {o : Out} : SameData s (u.emit o) := ⟨h.jobs, h.threads, h.cells⟩
end
end SameData

/-! ### Reception and acceptance (R260, R264, R266) -/

/-- The length of a frame is within the limits of R264. -/
def RxFrame.fitLength (f : RxFrame) : Prop := ¬ (f.bytes.length < 64 ∨ 1536 < f.bytes.length)

/-- What becomes of a frame that has left the buffer. -/
def State.judgeFrame (s : State) (e : Nat) (f : RxFrame) : State :=
  if f.bytes.length < 64 ∨ 1536 < f.bytes.length then
    (if f.fcsGood then s else s.count (R.ETH_RXFCS e) 32 1).count (R.ETH_RXLEN e) 32 1
  else if f.fcsGood = false then s.count (R.ETH_RXFCS e) 32 1
  else if (parseFrame f.bytes).etype = 0x88F7 then s.count (R.ETH_RXFRM e) 32 1
  else if s.mode = 5 then s.count (R.ETH_RXNOM e) 32 1
  else match f.stream with
    | none => s.count (R.ETH_RXNOM e) 32 1
    | some k => match s.eliminate k f.seqTag with
      | (s2, true) => s2.acceptFrame f k
      | (s2, false) => s2.count (R.ETH_RXDUP e) 32 1

section
variable {s s2 : State} {e k : Nat} {b : List Byte} {f : RxFrame} {l : List RxFrame}

theorem ethReceive_fits (hup : s.ethUp e = true) (hrun : s.running = true) (hfit : (s.eth e).rxBytes + b.length ≤ rxBufferSize) :
    ∃ f : RxFrame, f.port = e ∧ f.bytes = b ∧ f.ts = BitVec.ofNat 32 s.ns ∧
      s.ethReceive e b = s.onEth e (fun q => { q with rx := q.rx ++ [f], rxBytes := q.rxBytes + b.length }) := by
  unfold State.ethReceive
  rw [if_neg (by simp [hup, hrun]), if_neg (Nat.not_lt.mpr hfit)]
  extract_lets p n
  split
  exact ⟨_, rfl, rfl, rfl, rfl⟩

theorem ethReceive_overflows (hup : s.ethUp e = true) (hrun : s.running = true)
    (hfull : rxBufferSize < (s.eth e).rxBytes + b.length) :
    s.ethReceive e b = (s.count (R.ETH_RXOVF e) 32 1).setB (R.ETH_INT e) 1 true :=
  (if_neg (by simp [hup, hrun])).trans (if_pos hfull)

theorem exec_frameAccept {e : Fin 2} (hrun : s.running = true) (hrx : (s.eth e.val).rx = f :: l) :
    exec (.frameAccept e) s =
      .next ((s.onEth e.val (fun q => { q with rx := l, rxBytes := q.rxBytes - f.bytes.length })).judgeFrame e.val f) := by
  refine congrArg Host.Outcome.next ((if_pos hrun).trans ?_)
  unfold State.frameAccept
  rw [hrx]
  rfl

theorem judgeFrame_badLength (hlen : f.bytes.length < 64 ∨ 1536 < f.bytes.length) : s.judgeFrame e f =
    (if f.fcsGood then s else s.count (R.ETH_RXFCS e) 32 1).count (R.ETH_RXLEN e) 32 1 := if_pos hlen

theorem judgeFrame_badFcs (hlen : f.fitLength) (hfcs : f.fcsGood = false) :
    s.judgeFrame e f = s.count (R.ETH_RXFCS e) 32 1 := (if_neg hlen).trans (if_pos hfcs)

theorem judgeFrame_gptp (hlen : f.fitLength) (hfcs : f.fcsGood = true) (hptp : (parseFrame f.bytes).etype = 0x88F7) :
    s.judgeFrame e f = s.count (R.ETH_RXFRM e) 32 1 :=
  ((if_neg hlen).trans (if_neg (ne_false_of_eq_true hfcs))).trans (if_pos hptp)

theorem judgeFrame_noStream (hlen : f.fitLength) (hfcs : f.fcsGood = true) (hptp : (parseFrame f.bytes).etype ≠ 0x88F7)
    (hno : s.mode = 5 ∨ f.stream = none) : s.judgeFrame e f = s.count (R.ETH_RXNOM e) 32 1 := by
  unfold State.judgeFrame
  rw [if_neg hlen, if_neg (ne_false_of_eq_true hfcs), if_neg hptp]
  rcases hno with hsafe | hnone
  · exact if_pos hsafe
  · rw [hnone]
    exact ite_self _

theorem judgeFrame_stream (hlen : f.fitLength) (hfcs : f.fcsGood = true) (hptp : (parseFrame f.bytes).etype ≠ 0x88F7)
    (hmode : s.mode ≠ 5) (hstream : f.stream = some k) {ok : Bool} (helim : s.eliminate k f.seqTag = (s2, ok)) :
    s.judgeFrame e f = if ok then s2.acceptFrame f k else s2.count (R.ETH_RXDUP e) 32 1 := by
  unfold State.judgeFrame
  rw [if_neg hlen, if_neg (ne_false_of_eq_true hfcs), if_neg hptp, if_neg hmode, hstream]
  dsimp only
  rw [helim]
  cases ok with
  | true => rfl
  | false => rfl
end

/-- Settles O36: the buffer takes a frame or drops it, and the oldest one is judged by its length, FCS, type and stream. -/
theorem frameReception : Obligations.FrameReception := by
  refine ⟨fun s e b hup hrun =>
      ⟨fun hfit => ?_, fun hfull => congrArg Host.Outcome.next (ethReceive_overflows hup hrun hfull)⟩,
    fun s s2 e f l k hrun hrx => ?_⟩
  · obtain ⟨f, hport, hbytes, hts, heq⟩ := ethReceive_fits hup hrun hfit
    exact ⟨_, congrArg Host.Outcome.next heq, f, by simp, hport, hbytes, hts, by simp, fun _ _ => rfl, fun _ => rfl, rfl⟩
  · intro n s1 good
    have hfit : 64 ≤ n → n ≤ 1536 → f.fitLength := fun hmin hmax => by unfold RxFrame.fitLength; omega
    have hs1 : s1.mode = s.mode := rfl
    have haccept : exec (.frameAccept e) s = .next (s1.judgeFrame e.val f) := exec_frameAccept hrun hrx
    refine ⟨fun hlen hfcs => ?_, fun hlen hfcs => ?_, fun hmin hmax hfcs => ?_, fun ⟨hmin, hmax, hfcs⟩ hptp => ?_,
      fun ⟨hmin, hmax, hfcs⟩ hptp hno => ?_, fun ⟨hmin, hmax, hfcs⟩ hptp hmode hstream => ⟨fun helim => ?_, fun helim => ?_⟩⟩
    · rw [haccept, judgeFrame_badLength hlen, if_pos hfcs]
    · rw [haccept, judgeFrame_badLength hlen, if_neg (by simp [hfcs])]
    · rw [haccept, judgeFrame_badFcs (hfit hmin hmax) hfcs]
    · rw [haccept, judgeFrame_gptp (hfit hmin hmax) hfcs hptp]
    · rw [haccept, judgeFrame_noStream (hfit hmin hmax) hfcs hptp (hno.imp_left hs1.trans)]
    · rw [haccept, judgeFrame_stream (hfit hmin hmax) hfcs hptp (hs1.trans_ne hmode) hstream helim, if_pos rfl]
    · rw [haccept, judgeFrame_stream (hfit hmin hmax) hfcs hptp (hs1.trans_ne hmode) hstream helim, if_neg (by decide)]

/-! ### Writes of the registers of field I/O (R275, R289) -/

section
variable {s s1 : State} {o : Origin} {off c : Nat} {v : Word}

/-- The registers of field I/O read no descriptor when they are written, and ask no rights of a whole block. -/
theorem fieldIo_plainWrite (hlo : 0x200000 ≤ off) (hhi : off < 0x250000) :
    s.descAsk o off v = none ∧ s.blockRights o off = true := by
  have hblock : ¬ (off / 0x10000 = 1 ∨ off / 0x10000 = 20 ∨ off / 0x10000 = 48 ∨ off / 0x10000 = 52 ∨ off / 0x10000 = 56) := by
    omega
  refine ⟨descAsk_plain ?_ ?_ fun t ht => ?_, if_neg hblock⟩
  · simp only [R.TRP_MTVS, R.TRP_STVS, R.TRP_MSTK, R.TRP_SSTK]
    omega
  · simp only [R.DBG_TREG]
    omega
  · simp only [R.STM_CTL]
    omega

/-- A write of a register of field I/O comes to its block's rule, which accepts it. -/
theorem regWrite_fieldIo (hlo : 0x200000 ≤ off) (hhi : off < 0x250000) (ha : off % 4 = 0) (h : Reaches s o off)
    (hv : Takes off v) (hw : ∀ r, s.writeBlock o r off v = (s1, none)) : s.regWrite o off v = s1.accepted o := by
  obtain ⟨r, hrow, haccepts⟩ := hv
  obtain ⟨hask, hrights⟩ := fieldIo_plainWrite (s := s) (o := o) (v := v) hlo hhi
  exact regWrite_accepted h hask ((csWrite_block h hrow haccepts hrights ha).trans (hw r))

/-- The same where the rule refuses it. -/
theorem regWrite_fieldIo_refused (hlo : 0x200000 ≤ off) (hhi : off < 0x250000) (ha : off % 4 = 0) (h : Reaches s o off)
    (hv : Takes off v) (hw : ∀ r, s.writeBlock o r off v = (s1, some c)) :
    s.regWrite o off v = s1.accessDone.refused o true c off := by
  obtain ⟨r, hrow, haccepts⟩ := hv
  obtain ⟨hask, hrights⟩ := fieldIo_plainWrite (s := s) (o := o) (v := v) hlo hhi
  exact regWrite_refused h hask ((csWrite_block h hrow haccepts hrights ha).trans (hw r))
end

/-! ### The Signal Image (R269, R270, R273, R274, R275) -/

section
variable {s : State} {f : RxFrame} {l : List RxFrame} {v : Word} {o : Origin}

theorem slotCommit_next (hhold : s.b R.SIM_STAT 2 = false) (hrun : s.running = true) (hnext : s.io.commits = f :: l) :
    s.slotCommit = (s.onIo (fun i => { i with commits := l })).commitFrame f := by
  unfold State.slotCommit
  rw [if_neg (by simp [hhold, hrun]), hnext]

theorem slotCommit_held (hhold : s.b R.SIM_STAT 2 = true) : s.slotCommit = s := if_pos (.inl hhold)

theorem imageCopy_done (hdone : s.b R.SIM_STAT 1 = false) : s.imageCopy = s := if_neg (by simp [hdone])

/-- A flip with no copy left to do: the register and the lists of slots change. -/
theorem flipImage_eq (hdone : s.b R.SIM_STAT 1 = false) : s.flipImage =
    let stale := s.io.lastFrame.filter (fun k => !s.io.committed.contains k)
    (((s.putF R.SIM_STAT 0 0 (1 - s.frozen)).setB R.SIM_STAT 2 false).setB R.SIM_STAT 1
      (s.io.committed != [] || stale != [])).onIo (fun i =>
        { i with toCopy := i.committed, stale := stale, lastFrame := i.committed, committed := [], holdEnded := false }) := by
  unfold State.flipImage
  rw [imageCopy_done hdone]

theorem flipImage_facts (hdone : s.b R.SIM_STAT 1 = false) :
    let stale := s.io.lastFrame.filter (fun k => !s.io.committed.contains k)
    s.flipImage.f R.SIM_STAT 0 0 = 1 - s.f R.SIM_STAT 0 0 ∧ s.flipImage.b R.SIM_STAT 2 = false ∧
    s.flipImage.b R.SIM_STAT 1 = (s.io.committed != [] || stale != []) ∧ s.flipImage.io.toCopy = s.io.committed ∧
    s.flipImage.io.committed = [] ∧ s.flipImage.io.stale = stale ∧ s.flipImage.io.lastFrame = s.io.committed ∧
    SameMemory s s.flipImage := by
  intro stale
  rw [flipImage_eq hdone]
  refine ⟨?_, ?_, ?_, rfl, rfl, rfl, rfl, (SameData.refl s).putF.setB.setB.onIo.sameMemory⟩
  · have hbit : s.f R.SIM_STAT 0 0 < 2 := fld_lt (s.rd R.SIM_STAT) 0 0
    rw [f_onIo, f_setB_other _ _ _ _ (by decide) (by decide) (by decide),
      f_setB_other _ _ _ _ (by decide) (by decide) (by decide), f_putF_same _ _ _ (by decide) (by decide)]
    exact Nat.mod_eq_of_lt (by unfold State.frozen; omega)
  · rw [b_onIo, b_setB _ _ _ _ _ _ (by decide), if_neg (by decide), b_setB_same _ _ _ _ (by decide)]
  · rw [b_onIo, b_setB_same _ _ _ _ (by decide)]

theorem writeIob_flip (hflip : v.getLsbD 0 = true) (r : RegRow) :
    s.writeBlock o r R.SIM_CTL v = if s.mode = 2 then (s.flipImage, none) else (s, some 7) := by
  have hblock : s.writeBlock o r R.SIM_CTL v = s.writeIob r R.SIM_CTL v := rfl
  rw [hblock]
  unfold State.writeIob refuseIf State.inConfig
  by_cases hmode : s.mode = 2
  · simp [hmode, hflip]
  · simp [hmode, hflip]

/-- A little-endian byte of a number. -/
theorem getD_leBytes {n i : Nat} (hi : i < n) (v : Nat) : ((leBytes n v).getD i 0).toNat = v / 256 ^ i % 256 := by
  induction n generalizing i v with
  | zero => omega
  | succ n ih =>
    cases i with
    | zero => simp [leBytes]
    | succ i =>
      refine (ih (by omega) (v / 256)).trans ?_
      rw [Nat.div_div_eq_div_mul, Nat.pow_succ, Nat.mul_comm 256]

theorem length_leBytes (n v : Nat) : (leBytes n v).length = n := by
  induction n generalizing v with
  | zero => rfl
  | succ n ih => exact congrArg (· + 1) (ih _)

/-- A byte of a little-endian number with more bytes after it. -/
theorem getD_leBytes_append (n v : Nat) (l : List Byte) (i : Nat) : ((leBytes n v ++ l).getD i 0).toNat =
    if i < n then v / 256 ^ i % 256 else (l.getD (i - n) 0).toNat := by
  split
  next hi => rw [List.getD_append _ _ _ _ (by rwa [length_leBytes]), getD_leBytes hi]
  next hi => rw [List.getD_append_right _ _ _ _ (by rw [length_leBytes]; omega), length_leBytes]

theorem length_slotBytes (w : SlotWrite) (ts : Word) (stream port : Nat) : (slotBytes w ts stream port).length = 16 := by
  simp only [slotBytes, List.length_append, length_leBytes]

/-- Each byte of a slot belongs to the part of R269 that its place says. -/
theorem getD_slotBytes (w : SlotWrite) (ts : Word) (stream port : Nat) {i : Nat} (hi : i < 16) :
    ((slotBytes w ts stream port).getD i 0).toNat =
      if i < 8 then w.value.toNat / 256 ^ i % 256
      else if i - 8 < 4 then ts.toNat / 256 ^ (i - 8) % 256
      else if i - 12 < 2 then w.quality / 256 ^ (i - 12) % 256
      else (stream % 512 + port % 2 * 512) / 256 ^ (i - 14) % 256 := by
  unfold slotBytes
  rw [List.append_assoc, List.append_assoc, getD_leBytes_append, getD_leBytes_append, getD_leBytes_append,
    getD_leBytes (by omega)]
  simp only [Nat.sub_sub, Nat.reduceAdd]
end

/-- Settles O38: commit, copy and flip by what each function does, the write of FLIP, and the layout of a slot. -/
theorem signalImage : Obligations.SignalImage := by
  refine ⟨fun s f l o v => ⟨fun hhold hrun hnext => congrArg Host.Outcome.next (slotCommit_next hhold hrun hnext),
    fun hhold => congrArg Host.Outcome.next (slotCommit_held hhold),
    fun hcopy hrun => congrArg Host.Outcome.next (if_pos (by simp [hcopy, hrun])),
    fun hdone => congrArg Host.Outcome.next (imageCopy_done hdone), flipImage_facts,
    fun h hv hflip => ⟨fun hmode => ?_, fun hmode => ?_⟩⟩,
    fun w ts stream port i _ hi => ?_⟩
  · exact congrArg Host.Outcome.next (regWrite_fieldIo (by decide) (by decide) (by decide) h hv fun r =>
      (writeIob_flip hflip r).trans (if_pos hmode))
  · exact congrArg Host.Outcome.next (regWrite_fieldIo_refused (by decide) (by decide) (by decide) h hv fun r =>
      (writeIob_flip hflip r).trans (if_neg hmode))
  · dsimp only
    rw [getD_slotBytes w ts stream port hi]
    exact ⟨length_slotBytes w ts stream port, fun h => if_pos h, fun h1 h2 => (if_neg (by omega)).trans (if_pos (by omega)),
      fun h1 h2 => (if_neg (by omega)).trans ((if_neg (by omega)).trans (if_pos (by omega))),
      fun h => (if_neg (by omega)).trans ((if_neg (by omega)).trans (if_neg (by omega)))⟩

end Sys2Proof.Machine

/-! ## The end station and gate control (O39) -/

namespace Sys2Proof.Machine

/-! ### What a port's transmission leaves alone (R263, R285) -/

/-- From s to u only the transmission of port e has changed: its queue, its frame in transmission, and its count of preemptions. -/
structure SentOnly (e : Nat) (s u : State) : Prop where
  data : SameData s u
  regs : SameRegsBut [R.ETH_TXPRE e] s u
  port : ∃ q g, u.eth e = { s.eth e with txq := q, sending := g }

namespace SentOnly

theorem refl (e : Nat) (s : State) : SentOnly e s s := ⟨.refl s, fun _ _ => rfl, _, _, rfl⟩

section
variable {e : Nat} {s u : State} (h : SentOnly e s u)
include h

theorem onEth {q : EthPort → List TxFrame} {g : EthPort → Option TxFrame} :
    SentOnly e s (u.onEth e (fun p => { p with txq := q p, sending := g p })) := by
  obtain ⟨_, _, hport⟩ := h.port
  exact ⟨h.data.onEth, h.regs, _, _, by rw [eth_onEth_same, hport]⟩

theorem preempted : SentOnly e s (u.count (R.ETH_TXPRE e) 32 1) :=
  ⟨h.data.count, fun r hr => (rd_count_other u 32 1 (by simpa using hr)).trans (h.regs r hr), h.port⟩

theorem emit {o : Out} : SentOnly e s (u.emit o) := ⟨h.data.emit, h.regs, h.port⟩

theorem beginTx {f : TxFrame} : SentOnly e s (u.beginTx e f) := by
  unfold State.beginTx
  extract_lets s1
  have h1 : SentOnly e s s1 := h.onEth
  split
  · exact h1
  · exact h1.emit
end

theorem startTx (e : Nat) (s : State) : SentOnly e s (s.startTx e) := by
  unfold State.startTx
  split
  · exact refl e s
  · split
    · exact refl e s
    · split
      · exact (refl e s).beginTx
      · split
        · exact ((refl e s).onEth.preempted).beginTx
        · exact refl e s

section
variable {e : Nat} {s u : State} (h : SentOnly e s u)
include h

theorem oper : (u.eth e).oper = (s.eth e).oper ∧ (u.eth e).operIdx = (s.eth e).operIdx ∧
    (u.eth e).operCycle = (s.eth e).operCycle ∧ (u.eth e).operBase = (s.eth e).operBase := by
  obtain ⟨_, _, hport⟩ := h.port
  rw [hport]
  exact ⟨rfl, rfl, rfl, rfl⟩

theorem b {r i : Nat} (hr : r ≠ R.ETH_TXPRE e) : u.b r i = s.b r i := b_of_rd (h.regs r (by simpa using hr)) i
end
end SentOnly

/-! ### Synchronisation shown (R261) -/

section
variable (s : State)

/-- The slave port is chosen anew, and four bits show it and the synchronised state. -/
theorem showSync_eq : ∃ a b c d, s.showSync = ((((s.onIo (fun i => { i with slave := s.slavePort })).setB (R.ETH_STAT 0) 5
    a).setB (R.ETH_STAT 0) 6 b).setB (R.ETH_STAT 1) 5 c).setB (R.ETH_STAT 1) 6 d := ⟨_, _, _, _, rfl⟩

@[simp] theorem io_showSync : s.showSync.io = { s.io with slave := s.slavePort } := by
  obtain ⟨a, b, c, d, h⟩ := showSync_eq s
  simp [h]

@[simp] theorem now_showSync : s.showSync.now = s.now := by
  obtain ⟨a, b, c, d, h⟩ := showSync_eq s
  simp [h]

@[simp] theorem ledger_showSync : s.showSync.ledger = s.ledger := by
  obtain ⟨a, b, c, d, h⟩ := showSync_eq s
  simp [h]

theorem timebase_showSync : s.showSync.tb = s.tb ∧ s.showSync.tbHold = s.tbHold ∧ s.showSync.tbRate = s.tbRate := by
  obtain ⟨a, b, c, d, h⟩ := showSync_eq s
  simp [h]

@[simp] theorem eth_showSync (e : Nat) : s.showSync.eth e = s.eth e := by
  unfold State.eth
  rw [io_showSync]

theorem sameData_showSync : SameData s s.showSync := (SameData.refl s).onIo.each fun _ _ h => h.setB.setB

theorem rd_showSync_other {r : Nat} (h0 : r ≠ R.ETH_STAT 0) (h1 : r ≠ R.ETH_STAT 1) : s.showSync.rd r = s.rd r := by
  obtain ⟨a, b, c, d, h⟩ := showSync_eq s
  rw [h, rd_setB_other _ 6 d h1, rd_setB_other _ 5 c h1, rd_setB_other _ 6 b h0, rd_setB_other _ 5 a h0, rd_onIo]

/-- SLAVE and SYNC are all that is shown. -/
theorem b_showSync_low (r : Nat) {i : Nat} (hi : i < 5) : s.showSync.b r i = s.b r i := by
  have hset : ∀ (u : State) (e k : Nat) (v : Bool), 5 ≤ k → k < 32 → (u.setB (R.ETH_STAT e) k v).b r i = u.b r i :=
    fun u e k v hk hlt => (b_setB u _ r k i v hlt).trans (if_neg (by omega))
  obtain ⟨a, b, c, d, h⟩ := showSync_eq s
  rw [h, hset _ 1 6 d (by decide) (by decide), hset _ 1 5 c (by decide) (by decide), hset _ 0 6 b (by decide) (by decide),
    hset _ 0 5 a (by decide) (by decide), b_onIo]

/-- The choice of the slave port rests on the ports' configuration, links and Syncs, and on the time. -/
theorem slavePort_congr {s u : State} (hcfg : ∀ e, u.rd (R.ETH_PTPCFG e) = s.rd (R.ETH_PTPCFG e))
    (hup : ∀ e, u.ethUp e = s.ethUp e) (heth : ∀ e, u.eth e = s.eth e) (hnow : u.now = s.now) :
    u.slavePort = s.slavePort := by
  have hon : u.ptpOn = s.ptpOn := funext fun e => by rw [State.ptpOn, b_of_rd (hcfg e), hup, ← State.ptpOn]
  have hlapse : u.syncLapse = s.syncLapse := funext fun e => by
    unfold State.syncLapse State.f
    rw [heth, hcfg]
  have hgets : u.getsSync = s.getsSync := funext fun e => by rw [State.getsSync, hon, hlapse, hnow, ← State.getsSync]
  unfold State.slavePort State.b
  rw [hon, hgets]
  simp only [hcfg]

theorem slavePort_showSync : s.showSync.slavePort = s.slavePort := by
  refine slavePort_congr (fun e => rd_showSync_other s ?_ ?_) (fun e => b_showSync_low s _ (by decide)) (eth_showSync s)
    (now_showSync s)
  · simp only [R.ETH_PTPCFG, R.ETH_STAT]
    omega
  · simp only [R.ETH_PTPCFG, R.ETH_STAT]
    omega

theorem slavePort_lt : s.slavePort < 2 := by
  unfold State.slavePort
  extract_lets prim p
  have hp : p < 2 := by
    unfold p
    split_ifs <;> decide
  split_ifs <;> omega
end

/-! ### An accepted Sync (R261, R416) -/

/-- A port with its accepted Sync noted. -/
def State.notesSync (s : State) (e : Nat) (ofs : Int) (n : Nat) : State :=
  s.onEth e (fun p =>
    { p with
      lastSync := some s.now, syncInterval := n
      goodSyncs := if ofs.natAbs ≤ 100 then p.goodSyncs + 1 else 0 })

/-- ETHe_PTPOFS of an offset, which saturates. -/
def offsetWord (ofs : Int) : Word := BitVec.ofNat 32 (ofSigned 32 (max (-2147483648) (min 2147483647 ofs)))

/-- What the Sync of the slave port does beyond being noted: the offset is shown and followed. -/
def State.followsSync (s : State) (e : Nat) (ofs : Int) : State :=
  ((s.wr (R.ETH_PTPOFS e) (offsetWord ofs)).discipline ofs).onIo (fun i =>
    { i with synced := i.synced || decide (8 ≤ (s.eth e).goodSyncs) })

section
variable (s : State) (e n : Nat) (ofs : Int)

theorem discipline_kept : (s.discipline ofs).io = s.io ∧ (s.discipline ofs).now = s.now ∧
    (∀ r, (s.discipline ofs).rd r = s.rd r) ∧ SameData s (s.discipline ofs) := by
  unfold State.discipline State.rd
  split_ifs
  all_goals exact ⟨rfl, rfl, fun _ => rfl, rfl, rfl, rfl⟩

theorem discipline_rate (h : ofs.natAbs ≤ 1000000) : (s.discipline ofs).tb = s.tb ∧ (s.discipline ofs).tbHold = 0 ∧
    -100 ≤ (s.discipline ofs).tbRate ∧ (s.discipline ofs).tbRate ≤ 100 := by
  have hrate := (Config.servoRate s.free ofs).isLt
  have hwithin : s.discipline ofs = _ := (if_neg (by omega)).trans (if_neg (by omega))
  rw [hwithin]
  refine ⟨rfl, rfl, ?_, ?_⟩
  · dsimp only
    omega
  · dsimp only
    omega

theorem discipline_step (h : ofs < -1000000) :
    (s.discipline ofs).tb = s.tb + ofs.natAbs * 16 ∧ (s.discipline ofs).tbHold = 0 := by
  have hstep : s.discipline ofs = _ := if_pos h
  rw [hstep]
  exact ⟨rfl, rfl⟩

theorem discipline_hold (h : 1000000 < ofs) :
    (s.discipline ofs).tb = s.tb ∧ (s.discipline ofs).tbHold = (ofs.natAbs - 1000000) * 16 := by
  have hhold : s.discipline ofs = _ := (if_neg (by omega)).trans (if_pos h)
  rw [hhold]
  exact ⟨rfl, rfl⟩

theorem io_followsSync : (s.followsSync e ofs).io =
    { s.io with synced := s.io.synced || decide (8 ≤ (s.eth e).goodSyncs) } := by
  unfold State.followsSync
  rw [io_onIo, (discipline_kept _ ofs).1, io_wr]

theorem rd_followsSync (r : Nat) :
    (s.followsSync e ofs).rd r = if r = R.ETH_PTPOFS e then offsetWord ofs else s.rd r := by
  obtain ⟨-, -, hrd, -⟩ := discipline_kept (s.wr (R.ETH_PTPOFS e) (offsetWord ofs)) ofs
  exact (hrd r).trans (rd_wr s _ r _)

theorem sameData_followsSync : SameData s (s.followsSync e ofs) := by
  obtain ⟨-, -, -, hdata⟩ := discipline_kept (s.wr (R.ETH_PTPOFS e) (offsetWord ofs)) ofs
  exact ((SameData.refl s).wr.trans hdata).onIo

theorem eth_followsSync (k : Nat) : (s.followsSync e ofs).eth k = s.eth k := by
  unfold State.eth
  rw [io_followsSync]

/-- Showing the offset and the synchronised state leaves the timebase as it is disciplined. -/
theorem timebase_followsSync : (s.followsSync e ofs).tb = (s.discipline ofs).tb ∧
    (s.followsSync e ofs).tbHold = (s.discipline ofs).tbHold ∧ (s.followsSync e ofs).tbRate = (s.discipline ofs).tbRate := by
  unfold State.followsSync State.discipline
  split_ifs
  all_goals exact ⟨rfl, rfl, rfl⟩

theorem slavePort_followsSync : (s.followsSync e ofs).slavePort = s.slavePort := by
  have hother : ∀ r, r ≠ R.ETH_PTPOFS e → (s.followsSync e ofs).rd r = s.rd r := fun r hr =>
    (rd_followsSync s e ofs r).trans (if_neg hr)
  obtain ⟨-, hnow, -, -⟩ := discipline_kept (s.wr (R.ETH_PTPOFS e) (offsetWord ofs)) ofs
  refine slavePort_congr (fun k => hother _ ?_) (fun k => b_of_rd (hother _ ?_) 0) (eth_followsSync s e ofs) hnow
  · simp only [R.ETH_PTPCFG, R.ETH_PTPOFS]
    omega
  · simp only [R.ETH_STAT, R.ETH_PTPOFS]
    omega
end

section
variable {s : State} {e n : Nat} {ofs : Int}

theorem syncReceive_eq (hon : s.ptpOn e = true) (hrun : s.running = true) : s.syncReceive e ofs n =
    if (s.notesSync e ofs n).slavePort = e then ((s.notesSync e ofs n).showSync.followsSync e ofs).showSync
    else (s.notesSync e ofs n).showSync := by
  have hgood : (((s.notesSync e ofs n).showSync.wr (R.ETH_PTPOFS e) (offsetWord ofs)).discipline ofs).eth e =
      (s.notesSync e ofs n).showSync.eth e := by
    unfold State.eth
    rw [(discipline_kept _ ofs).1, io_wr]
  unfold State.followsSync
  rw [← hgood]
  exact if_neg (by simp [hon, hrun])

/-- Whichever port it came to, a Sync is noted there and the slave port chosen anew. -/
theorem syncReceive_notes (hon : s.ptpOn e = true) (hrun : s.running = true) :
    (s.syncReceive e ofs n).eth e = (s.notesSync e ofs n).eth e ∧
    (s.syncReceive e ofs n).io.slave = (s.notesSync e ofs n).slavePort ∧ SameData s (s.syncReceive e ofs n) := by
  have hnoted : SameData s (s.notesSync e ofs n).showSync := (SameData.refl s).onEth.trans (sameData_showSync _)
  rw [syncReceive_eq hon hrun]
  split
  · refine ⟨?_, ?_, (hnoted.trans (sameData_followsSync _ e ofs)).trans (sameData_showSync _)⟩
    · rw [eth_showSync, eth_followsSync, eth_showSync]
    · rw [io_showSync]
      exact (slavePort_followsSync _ e ofs).trans (slavePort_showSync _)
  · exact ⟨eth_showSync _ e, by rw [io_showSync], hnoted⟩

theorem syncReceive_other (hon : s.ptpOn e = true) (hrun : s.running = true) (hother : (s.notesSync e ofs n).slavePort ≠ e) :
    (s.syncReceive e ofs n).tb = s.tb ∧ (s.syncReceive e ofs n).io.synced = s.io.synced := by
  rw [syncReceive_eq hon hrun, if_neg hother, io_showSync, (timebase_showSync _).1]
  exact ⟨rfl, rfl⟩

theorem syncReceive_slave (hon : s.ptpOn e = true) (hrun : s.running = true) (hslave : (s.notesSync e ofs n).slavePort = e) :
    let u := s.syncReceive e ofs n
    u.io.synced = (s.io.synced || decide (8 ≤ (u.eth e).goodSyncs)) ∧ u.rd (R.ETH_PTPOFS e) = offsetWord ofs ∧
    (ofs.natAbs ≤ 1000000 → u.tb = s.tb ∧ u.tbHold = 0 ∧ -100 ≤ u.tbRate ∧ u.tbRate ≤ 100) ∧
    (ofs < -1000000 → u.tb = s.tb + ofs.natAbs * 16 ∧ u.tbHold = 0) ∧
    (1000000 < ofs → u.tb = s.tb ∧ u.tbHold = (ofs.natAbs - 1000000) * 16) := by
  intro u
  obtain ⟨heth, -, -⟩ := syncReceive_notes (n := n) (ofs := ofs) hon hrun
  have hu : u = ((s.notesSync e ofs n).showSync.followsSync e ofs).showSync := (syncReceive_eq hon hrun).trans (if_pos hslave)
  have hstart : (s.notesSync e ofs n).showSync.tb = s.tb := (timebase_showSync _).1
  obtain ⟨hftb, hfhold, hfrate⟩ := timebase_followsSync (s.notesSync e ofs n).showSync e ofs
  obtain ⟨htb, hhold, hrate⟩ := timebase_showSync ((s.notesSync e ofs n).showSync.followsSync e ofs)
  rw [← hu] at htb hhold hrate
  rw [htb, hhold, hrate, hftb, hfhold, hfrate, ← hstart]
  refine ⟨?_, ?_, discipline_rate _ ofs, discipline_step _ ofs, discipline_hold _ ofs⟩
  · rw [heth, hu, io_showSync, io_followsSync, eth_showSync, io_showSync]
    rfl
  · rw [hu, rd_showSync_other, rd_followsSync, if_pos rfl]
    · simp only [R.ETH_PTPOFS, R.ETH_STAT]
      omega
    · simp only [R.ETH_PTPOFS, R.ETH_STAT]
      omega
end

/-! ### Loss of Sync (R17, R261) -/

theorem Elapsed.of_untilTime (s : State) (t : Nat) : ∃ n, Elapsed n s (s.untilTime t) := by
  unfold State.untilTime
  split
  · exact ⟨_, (refl s).advance⟩
  · exact ⟨0, refl s⟩

theorem sameData_untilTime (s : State) (t : Nat) : SameData s (s.untilTime t) := by
  obtain ⟨_, h⟩ := Elapsed.of_untilTime s t
  exact h.sameData

/-- The ports are no longer synchronised, and the interrupt of the port that was the slave says so. -/
def State.unsyncs (s : State) (port : Nat) : State :=
  (((s.onIo (fun i => { i with synced := false })).each (List.range 2) (fun s e =>
    s.onEth e (fun p => { p with goodSyncs := 0 }))).setB (R.ETH_INT port) 2 true).showSync

section
variable {s : State}

theorem syncLoss_eq (hsynced : s.io.synced = true) (hrun : s.running = true) : ∃ s0 port, SameData s s0 ∧ port < 2 ∧
    s.syncLoss = if s.src = 3 then (s0.unsyncs port).loseSource else s0.unsyncs port := by
  let due := (List.range 2).foldl (fun m e => if s.ptpOn e then max m ((s.syncLapse e).getD 0) else m) 0
  refine ⟨(s.untilTime due).showSync.untilTime (due + 1), (s.untilTime due).showSync.io.slave, ?_, ?_, ?_⟩
  · exact ((sameData_untilTime s due).trans (sameData_showSync _)).trans (sameData_untilTime _ _)
  · rw [io_showSync]
    exact slavePort_lt _
  · exact if_neg (by simp [hsynced, hrun])

theorem unsyncs_facts (s : State) (port : Nat) : (s.unsyncs port).io.synced = false ∧
    (s.unsyncs port).b (R.ETH_INT port) 2 = true ∧ (∀ k : Fin 2, ((s.unsyncs port).eth k.val).goodSyncs = 0) ∧
    SameData s (s.unsyncs port) := by
  unfold State.unsyncs
  refine ⟨by rw [io_showSync, io_setB]; rfl, ?_, fun k => ?_,
    ((SameData.refl s).onIo.each fun _ _ h => h.onEth).setB.trans (sameData_showSync _)⟩
  · rw [b_showSync_low _ _ (by decide), b_setB_same _ _ _ _ (by decide)]
  · rw [eth_showSync]
    match k with
    | 0 => rfl
    | 1 => rfl

theorem syncLoss_facts (hsynced : s.io.synced = true) (hrun : s.running = true) :
    s.syncLoss.io.synced = false ∧ (∃ k : Fin 2, s.syncLoss.b (R.ETH_INT k.val) 2 = true) ∧
    (∀ k : Fin 2, (s.syncLoss.eth k.val).goodSyncs = 0) ∧
    (s.src = 3 → s.syncLoss.ledger.lost = true ∧ s.syncLoss.b R.LDG_STAT 3 = true) ∧ SameMemory s s.syncLoss := by
  obtain ⟨s0, port, hdata, hport, heq⟩ := syncLoss_eq hsynced hrun
  obtain ⟨hsync, hint, hgood, hkept⟩ := unsyncs_facts s0 port
  rw [heq]
  split
  next =>
    obtain ⟨hlost, -, -, hmem, hregs⟩ := loseSource_frame (s0.unsyncs port)
    have hio : (s0.unsyncs port).loseSource.io = (s0.unsyncs port).io := by
      rw [loseSource_eq]
      split
      · simp
      · simp
    refine ⟨by rw [hio, hsync], ⟨⟨port, hport⟩, ?_⟩, fun k => ?_, fun _ => ⟨hlost, loss_loseSource _⟩, fun a => ?_⟩
    · refine (b_of_rd (hregs _ ?_) 2).trans hint
      simp only [R.ETH_INT, R.LDG_STAT, List.mem_singleton]
      omega
    · rw [State.eth, hio]
      exact hgood k
    · exact (SameMemory.of_mem hmem a).trans ((hdata.trans hkept).sameMemory a)
  next hsrc => exact ⟨hsync, ⟨⟨port, hport⟩, hint⟩, hgood, fun h => absurd h hsrc, (hdata.trans hkept).sameMemory⟩
end

/-! ### Links, preemption and recovery (R259, R260, R263, R266) -/

section
variable {s : State} {e n : Nat}

/-- LINK, AN and SPEED of a port, and the interrupt of the change. -/
def State.showLink (s : State) (e : Nat) (now an : Bool) (speed : Nat) : State :=
  (((s.setB (R.ETH_STAT e) 0 now).setB (R.ETH_STAT e) 1 an).putF (R.ETH_STAT e) 3 2 speed).setB (R.ETH_INT e) 0 true

theorem showLink_facts (now an : Bool) (speed : Nat) : (s.showLink e now an speed).b (R.ETH_STAT e) 0 = now ∧
    (s.showLink e now an speed).b (R.ETH_INT e) 0 = true ∧ SameData s (s.showLink e now an speed) := by
  unfold State.showLink
  refine ⟨?_, b_setB_same _ _ _ _ (by decide), (SameData.refl s).setB.setB.putF.setB⟩
  rw [b_setB _ _ _ _ _ _ (by decide), if_neg (by simp), b_putF_other _ _ _ (by decide) (by decide) (by decide),
    b_setB _ _ _ _ _ _ (by decide), if_neg (by simp), b_setB_same _ _ _ _ (by decide)]

/-- A link that comes up starts a frame; one that goes down ends verification, transmission and synchronisation. -/
theorem ethLink_eq {up : Bool} (hmode : s.f (R.ETH_CTL e) 1 0 ≠ 0) (hrun : s.running = true) (hchange : s.ethUp e ≠ up) :
    ∃ an speed, s.ethLink e up false = if up then (s.showLink e up an speed).startTx e
      else (((s.showLink e up an speed).setB (R.ETH_STAT e) 4 false).onEth e (fun p =>
        { p with sending := none, goodSyncs := 0, lastSync := none })).showSync := by
  have hnow : (up && s.f (R.ETH_CTL e) 1 0 != 0) = up := by simp [hmode]
  refine ⟨false && up && s.b (R.ETH_CTL e) 4, if up then s.f (R.ETH_CTL e) 3 2 else 0, ?_⟩
  unfold State.ethLink
  simp only [hnow]
  exact if_neg (by simp [hrun, hchange])

theorem ethLink_facts {up : Bool} (hmode : s.f (R.ETH_CTL e) 1 0 ≠ 0) (hrun : s.running = true) (hchange : s.ethUp e ≠ up) :
    (s.ethLink e up false).b (R.ETH_STAT e) 0 = up ∧ (s.ethLink e up false).b (R.ETH_INT e) 0 = true ∧
    SameData s (s.ethLink e up false) := by
  obtain ⟨an, speed, heq⟩ := ethLink_eq hmode hrun hchange
  obtain ⟨hlink, hint, hdata⟩ := showLink_facts (s := s) (e := e) up an speed
  rw [heq]
  split
  next =>
    have hsent := SentOnly.startTx e (s.showLink e up an speed)
    refine ⟨(hsent.b ?_).trans hlink, (hsent.b ?_).trans hint, hdata.trans hsent.data⟩
    · simp only [R.ETH_STAT, R.ETH_TXPRE]
      omega
    · simp only [R.ETH_INT, R.ETH_TXPRE]
      omega
  next =>
    refine ⟨?_, ?_, hdata.setB.onEth.trans (sameData_showSync _)⟩
    · rw [b_showSync_low _ _ (by decide), State.onEth, b_onIo, b_setB _ _ _ _ _ _ (by decide), if_neg (by simp), hlink]
    · rw [b_showSync_low _ _ (by decide), State.onEth, b_onIo, b_setB _ _ _ _ _ _ (by decide), if_neg (by simp), hint]

theorem verifyDone_facts {ok : Bool} (hup : s.ethUp e = true) (hpre : s.b (R.ETH_CTL e) 5 = true) (hrun : s.running = true) :
    (s.verifyDone e ok).b (R.ETH_STAT e) 4 = ok ∧ (ok = false → (s.verifyDone e ok).b (R.ETH_INT e) 3 = true) ∧
    SameRegsBut [R.ETH_STAT e, R.ETH_INT e] s (s.verifyDone e ok) ∧ SameMemory s (s.verifyDone e ok) := by
  have heq : s.verifyDone e ok = if ok then s.setB (R.ETH_STAT e) 4 true
    else (s.setB (R.ETH_STAT e) 4 false).setB (R.ETH_INT e) 3 true := if_pos (by simp [hup, hpre, hrun])
  rw [heq]
  cases ok with
  | true =>
    exact ⟨b_setB_same _ _ _ _ (by decide), fun h => absurd h (by decide),
      fun r hr => rd_setB_other s 4 true fun h => hr (by simp [h]), (SameData.refl s).setB.sameMemory⟩
  | false =>
    refine ⟨?_, fun _ => b_setB_same _ _ _ _ (by decide), fun r hr => ?_, (SameData.refl s).setB.setB.sameMemory⟩
    · exact ((b_setB _ _ _ _ _ _ (by decide)).trans (if_neg (by simp))).trans (b_setB_same _ _ _ _ (by decide))
    · exact (rd_setB_other _ 3 true fun h => hr (by simp [h])).trans (rd_setB_other s 4 false fun h => hr (by simp [h]))

theorem recoveryReset_facts (helim : (s.stream n).elim = true) (htake : (s.recoveryOf n).take = false) (hrun : s.running = true) :
    (s.recoveryReset n).recoveryOf n = {} ∧ SameData s (s.recoveryReset n) := by
  have heq : s.recoveryReset n = _ := if_pos (by simp [helim, htake, hrun])
  rw [heq]
  refine ⟨?_, (sameData_untilTime s _).onIo⟩
  rw [State.recoveryOf, io_onIo, sget_sput_same]
end

/-! ### Gate control lists (R262) -/

section
variable {s : State} {e : Nat} {o : Origin} {v : Word}

/-- A write of ETHe_GCLCTL comes to its own rule while no list waits. -/
theorem writeBlock_gclCtl (he : e < 2) (hidle : s.b (R.ETH_GCLCTL e) 10 = false) (hlen : fld v 8 0 ≤ 256) (r : RegRow) :
    s.writeBlock o r (R.ETH_GCLCTL e) v = (s.writeGclCtl e v, none) := by
  have hblock : s.writeBlock o r (R.ETH_GCLCTL e) v = s.writeEth r (R.ETH_GCLCTL e) v := by
    match e with
    | 0 => rfl
    | 1 => rfl
  have hport : (R.ETH_GCLCTL e - R.ETH_CTL 0) / 0x10000 = e := by simp only [R.ETH_GCLCTL, R.ETH_CTL]; omega
  have hplace : R.ETH_GCLCTL e - R.ETH_CTL e = 0x30 := by simp only [R.ETH_GCLCTL, R.ETH_CTL]; omega
  rw [hblock]
  unfold State.writeEth
  simp only [hport, hplace]
  simp [refuseIf, hidle, Nat.not_lt.mpr hlen]

/-- The lists that CHANGE refuses: none, or with a cycle outside the limits. -/
def State.badGates (s : State) (e : Nat) (v : Word) : Prop :=
  fld v 8 0 = 0 ∨ s.f (R.ETH_GCLCYC e) 23 0 < 100 ∨ 10000000 < s.f (R.ETH_GCLCYC e) 23 0

theorem writeGclCtl_cases : s.writeGclCtl e v = s.putF (R.ETH_GCLCTL e) 8 0 (fld v 8 0) ∧ v.getLsbD 9 = false ∨
    s.writeGclCtl e v = (s.putF (R.ETH_GCLCTL e) 8 0 (fld v 8 0)).setB (R.ETH_INT e) 4 true ∧ v.getLsbD 9 = true ∧
      s.badGates e v ∨
    s.writeGclCtl e v = (s.putF (R.ETH_GCLCTL e) 8 0 (fld v 8 0)).setB (R.ETH_GCLCTL e) 10 true ∧ v.getLsbD 9 = true ∧
      ¬ s.badGates e v := by
  unfold State.writeGclCtl State.badGates
  cases hchange : v.getLsbD 9 with
  | false => exact .inl ⟨if_pos rfl, rfl⟩
  | true =>
    refine .inr ?_
    by_cases hbad : fld v 8 0 = 0 ∨ s.f (R.ETH_GCLCYC e) 23 0 < 100 ∨ 10000000 < s.f (R.ETH_GCLCYC e) 23 0
    · exact .inl ⟨(if_neg (by decide)).trans (if_pos hbad), rfl, hbad⟩
    · exact .inr ⟨(if_neg (by decide)).trans (if_neg hbad), rfl, hbad⟩

theorem writeGclCtl_facts {_ : Decidable (s.badGates e v)} (hidle : s.b (R.ETH_GCLCTL e) 10 = false) :
    let u := s.writeGclCtl e v
    u.f (R.ETH_GCLCTL e) 8 0 = fld v 8 0 ∧ u.b (R.ETH_GCLCTL e) 10 = (v.getLsbD 9 && !decide (s.badGates e v)) ∧
    (v.getLsbD 9 = true → s.badGates e v → u.b (R.ETH_INT e) 4 = true) ∧
    SameRegsBut [R.ETH_GCLCTL e, R.ETH_INT e] s u ∧ SameMemory s u := by
  intro u
  have hne : R.ETH_GCLCTL e ≠ R.ETH_INT e := by simp only [R.ETH_GCLCTL, R.ETH_INT]; omega
  have hlen : (s.putF (R.ETH_GCLCTL e) 8 0 (fld v 8 0)).f (R.ETH_GCLCTL e) 8 0 = fld v 8 0 :=
    (f_putF_same _ _ _ (by decide) (by decide)).trans (Nat.mod_eq_of_lt (fld_lt v 8 0))
  have hwaits : (s.putF (R.ETH_GCLCTL e) 8 0 (fld v 8 0)).b (R.ETH_GCLCTL e) 10 = false :=
    (b_putF_other _ _ _ (by decide) (by decide) (by decide)).trans hidle
  have hregs : SameRegsBut [R.ETH_GCLCTL e, R.ETH_INT e] s (s.putF (R.ETH_GCLCTL e) 8 0 (fld v 8 0)) := fun r hr =>
    rd_putF_other s 8 0 _ fun h => hr (by simp [h])
  have hdata : SameData s (s.putF (R.ETH_GCLCTL e) 8 0 (fld v 8 0)) := (SameData.refl s).putF
  rcases writeGclCtl_cases (s := s) (e := e) (v := v) with ⟨hu, hv⟩ | ⟨hu, hv, hbad⟩ | ⟨hu, hv, hbad⟩
  · have hu : u = _ := hu
    rw [hu, hv]
    exact ⟨hlen, hwaits, fun h => absurd h (by decide), hregs, hdata.sameMemory⟩
  · have hu : u = _ := hu
    rw [hu, hv]
    refine ⟨?_, ?_, fun _ _ => b_setB_same _ _ _ _ (by decide), fun r hr => ?_, hdata.setB.sameMemory⟩
    · rw [State.f, rd_setB_other _ 4 true hne]
      exact hlen
    · rw [b_of_rd (rd_setB_other _ 4 true hne), hwaits]
      simp [hbad]
    · exact (rd_setB_other _ 4 true fun h => hr (by simp [h])).trans (hregs r hr)
  · have hu : u = _ := hu
    rw [hu, hv]
    refine ⟨?_, ?_, fun _ h => absurd h hbad, fun r hr => ?_, hdata.setB.sameMemory⟩
    · rw [f_setB_other _ _ _ _ (by decide) (by decide) (by decide), hlen]
    · rw [b_setB_same _ _ _ _ (by decide)]
      simp [hbad]
    · exact (rd_setB_other _ 10 true fun h => hr (by simp [h])).trans (hregs r hr)

theorem exec_gclChange {e : Fin 2} (h : Reaches s o (R.ETH_GCLCTL e.val)) (hv : Takes (R.ETH_GCLCTL e.val) v)
    (hidle : s.b (R.ETH_GCLCTL e.val) 10 = false) (hlen : fld v 8 0 ≤ 256) :
    exec (.gclChange o e v) s = .next ((s.writeGclCtl e.val v).accepted o) := by
  have he := e.isLt
  refine congrArg Host.Outcome.next (regWrite_fieldIo ?_ ?_ ?_ h hv (writeBlock_gclCtl he hidle hlen))
  all_goals
    simp only [R.ETH_GCLCTL]
    omega

/-- The administrative list is that of LEN and its entries. -/
theorem adminGates_congr {s u : State} (hlen : u.f (R.ETH_GCLCTL e) 8 0 = s.f (R.ETH_GCLCTL e) 8 0)
    (hgcl : ∀ m < 512, u.rd (R.ETH_GCL e m) = s.rd (R.ETH_GCL e m)) : u.adminGates e = s.adminGates e := by
  unfold State.adminGates
  rw [hlen]
  refine List.map_congr_left fun m hm => ?_
  have hmax : s.f (R.ETH_GCLCTL e) 8 0 < 512 := fld_lt (s.rd (R.ETH_GCLCTL e)) 8 0
  have hrd := hgcl m ((List.mem_range.mp hm).trans hmax)
  unfold State.f
  rw [hrd]

theorem Elapsed.eth {n : Nat} {s u : State} (h : Elapsed n s u) (e : Nat) : u.eth e = s.eth e := by
  have hio : u.io = s.io := (congrArg State.io h.untimed :)
  rw [State.eth, hio, ← State.eth]

/-- Neither time nor the end of the wait changes the administrative list. -/
theorem adminGates_waited (he : e < 2) (k : Nat) :
    ((s.advance k).setB (R.ETH_GCLCTL e) 10 false).adminGates e = s.adminGates e := by
  have hE := (Elapsed.refl s).advance (m := k)
  refine adminGates_congr ?_ fun m hm => ?_
  · rw [f_setB_other _ _ _ _ (by decide) (by decide) (by decide)]
    exact hE.f (by simp only [R.ETH_GCLCTL, R.DBG_CTL]; omega)
  · rw [rd_setB_other _ 10 false (by simp only [R.ETH_GCL, R.ETH_GCLCTL]; omega)]
    exact hE.regs _ (by simp only [R.ETH_GCL, R.DBG_CTL]; omega)

theorem gclActivate_facts (he : e < 2) (hwaits : s.b (R.ETH_GCLCTL e) 10 = true) (hrun : s.running = true) :
    (s.gclActivate e).b (R.ETH_GCLCTL e) 10 = false ∧ ((s.gclActivate e).eth e).oper = s.adminGates e ∧
    ((s.gclActivate e).eth e).operIdx = 0 ∧ ((s.gclActivate e).eth e).operCycle = s.f (R.ETH_GCLCYC e) 23 0 ∧
    SameMemory s (s.gclActivate e) := by
  have heq : s.gclActivate e = _ := if_pos (by simp [hwaits, hrun])
  rw [heq]
  obtain ⟨hoper, hidx, hcycle, -⟩ := (SentOnly.startTx e _).oper
  refine ⟨?_, ?_, ?_, ?_,
    (((Elapsed.refl s).advance.sameData.setB.onEth).trans (SentOnly.startTx e _).data).sameMemory⟩
  · rw [(SentOnly.startTx e _).b (by simp only [R.ETH_GCLCTL, R.ETH_TXPRE]; omega), State.onEth, b_onIo,
      b_setB_same _ _ _ _ (by decide)]
  · rw [hoper, eth_onEth_same]
    exact adminGates_waited he _
  · rw [hidx, eth_onEth_same]
  · rw [hcycle, eth_onEth_same]
    exact Nat.mul_div_cancel _ (by decide)

theorem gclIntervalEnd_next (hrun : s.running = true) (hlist : (s.eth e).oper ≠ [])
    (hmore : (s.eth e).operIdx + 1 < (s.eth e).oper.length) (hcycle : (s.eth e).operSum < (s.eth e).operCycle) :
    ((s.gclIntervalEnd e).eth e).operIdx = (s.eth e).operIdx + 1 ∧ ((s.gclIntervalEnd e).eth e).oper = (s.eth e).oper ∧
    SameMemory s (s.gclIntervalEnd e) := by
  have heq : s.gclIntervalEnd e = _ := (if_neg (by simp [hrun, hlist])).trans (if_pos ⟨hmore, hcycle⟩)
  have hE := (Elapsed.refl s).advance (m := s.clkTo ((s.eth e).operBase + (s.eth e).operSum * 10))
  rw [heq]
  obtain ⟨hoper, hidx, -, -⟩ := (SentOnly.startTx e _).oper
  refine ⟨?_, ?_, ((hE.sameData.onEth).trans (SentOnly.startTx e _).data).sameMemory⟩
  · rw [hidx, eth_onEth_same, hE.eth]
  · rw [hoper, eth_onEth_same, hE.eth]

theorem gclIntervalEnd_wraps (hrun : s.running = true) (hlist : (s.eth e).oper ≠ [])
    (hlast : (s.eth e).oper.length ≤ (s.eth e).operIdx + 1) :
    ((s.gclIntervalEnd e).eth e).operIdx = 0 ∧
    ((s.gclIntervalEnd e).eth e).operBase = (s.eth e).operBase + (s.eth e).operCycle * 10 ∧
    SameMemory s (s.gclIntervalEnd e) := by
  have heq : s.gclIntervalEnd e = _ := (if_neg (by simp [hrun, hlist])).trans (if_neg fun h => Nat.not_lt.mpr hlast h.1)
  have hE := (Elapsed.refl s).advance (m := s.clkTo ((s.eth e).operBase + (s.eth e).operCycle * 10))
  rw [heq]
  obtain ⟨-, hidx, -, hbase⟩ := (SentOnly.startTx e _).oper
  refine ⟨?_, ?_, ((hE.sameData.onEth).trans (SentOnly.startTx e _).data).sameMemory⟩
  · rw [hidx, eth_onEth_same]
  · rw [hbase, eth_onEth_same, hE.eth]

theorem txEnd_sending {g : TxFrame} (hg : (s.eth e).sending = some g) : s.txEnd e =
    ((s.onEth e (fun p => { p with sending := none })).count (R.ETH_TXFRM e) 32 1).startTx e := by
  unfold State.txEnd
  rw [hg]
end

/-- Settles O39: each event of the end station and of the gate lists by the lemma of its function. -/
theorem endStationAndGates : Obligations.EndStationAndGates := by
  refine ⟨fun s e ofs n ok st hrun =>
    ⟨fun hon => ?_, fun hoff => congrArg Host.Outcome.next (if_pos (.inl hoff)), fun hon => ?_,
      fun hsynced => ⟨_, rfl, syncLoss_facts hsynced hrun⟩, fun hmode hchange => ?_,
      fun hup hpre => ⟨_, rfl, verifyDone_facts hup hpre hrun⟩, fun helim htake => ?_⟩,
    fun s e o v g => ?_⟩
  · obtain ⟨heth, hslave, hdata⟩ := syncReceive_notes (n := n) (ofs := ofs) hon hrun
    rw [State.notesSync, eth_onEth_same] at heth
    exact ⟨_, rfl, congrArg EthPort.lastSync heth, congrArg EthPort.syncInterval heth, hdata.sameMemory, hdata.jobs,
      congrArg EthPort.goodSyncs heth, fun hother => syncReceive_other hon hrun (hslave ▸ hother),
      fun hown => syncReceive_slave hon hrun (hslave.symm.trans hown)⟩
  · have hdelay := eth_onEth_same s e.val (fun p => { p with peerDelay := n })
    exact ⟨_, congrArg Host.Outcome.next (if_pos (by simp [hon, hrun])), congrArg EthPort.peerDelay hdelay, fun _ _ => rfl,
      (SameData.refl s).onEth.emit.sameMemory⟩
  · obtain ⟨hlink, hint, hdata⟩ := ethLink_facts hmode hrun hchange
    exact ⟨_, rfl, hlink, hint, hdata.sameMemory, hdata.jobs⟩
  · obtain ⟨hreset, hdata⟩ := recoveryReset_facts helim htake hrun
    exact ⟨_, rfl, hreset, hdata.sameMemory, hdata.jobs⟩
  · intro cyc bad
    exact ⟨fun h hv hidle hlen => ⟨_, exec_gclChange h hv hidle hlen, writeGclCtl_facts hidle⟩,
      fun hwaits hrun => ⟨_, rfl, gclActivate_facts e.isLt hwaits hrun⟩,
      fun hrun hlist hmore hcycle => ⟨_, rfl, gclIntervalEnd_next hrun hlist hmore hcycle⟩,
      fun hrun hlist hlast => ⟨_, rfl, gclIntervalEnd_wraps hrun hlist hlast⟩,
      fun hg => congrArg Host.Outcome.next (txEnd_sending hg)⟩

end Sys2Proof.Machine

/-! ## Lichen ports and the states of a link (O41) -/

namespace Sys2Proof.Machine

/-! ### One Lichen port replaced -/

/-- The numbers from 3 on name the last member of a four. -/
theorem quad_get_set {α : Type} (o : Quad α) (a : α) (i k : Nat) :
    (o.set i a).get k = if min k 3 = min i 3 then a else o.get k := by
  have hcases : ∀ n : Nat, n = 0 ∨ n = 1 ∨ n = 2 ∨ ∃ m, n = m + 3 := fun n => by
    rcases n with _ | _ | _ | m <;> simp
  rcases hcases i with rfl | rfl | rfl | ⟨i, rfl⟩ <;> rcases hcases k with rfl | rfl | rfl | ⟨k, rfl⟩ <;>
    simp [Quad.get, Quad.set]

theorem quad_get_set_same {α : Type} (o : Quad α) (i : Nat) (a : α) : (o.set i a).get i = a :=
  (quad_get_set ..).trans (if_pos rfl)

theorem quad_get_set_other {α : Type} (o : Quad α) (a : α) {i k : Nat} (hi : i < 4) (hk : k < 4) (h : k ≠ i) :
    (o.set i a).get k = o.get k := (quad_get_set ..).trans (if_neg (by omega))

theorem quad_set_set {α : Type} (o : Quad α) (a b : α) : ∀ i, (o.set i a).set i b = o.set i b
  | 0 => rfl
  | 1 => rfl
  | 2 => rfl
  | _ + 3 => rfl

theorem quad_set_get {α : Type} (o : Quad α) : ∀ i, o.set i (o.get i) = o
  | 0 => rfl
  | 1 => rfl
  | 2 => rfl
  | _ + 3 => rfl

theorem quad_get_of_min {α : Type} (o : Quad α) {i k : Nat} (h : min k 3 = min i 3) : o.get k = o.get i := by
  have hset := quad_get_set o (o.get i) i k
  rwa [quad_set_get, if_pos h] at hset

/-- What a member replaced by one that is alike in it leaves alone. -/
theorem quad_field_set {α β : Type} (x : α → β) (o : Quad α) {a : α} {i : Nat} (h : x a = x (o.get i)) (k : Nat) :
    x ((o.set i a).get k) = x (o.get k) := by
  rw [quad_get_set]
  split
  next hk => rw [h, quad_get_of_min o hk]
  next => rfl

section
variable (s : State) (p : Nat) (g g' : LichenPort → LichenPort)

@[simp] theorem lnk_onLnk_same : (s.onLnk p g).lnk p = g (s.lnk p) := quad_get_set_same ..

theorem onLnk_onLnk : (s.onLnk p g).onLnk p g' = s.onLnk p (fun l => g' (g l)) := by
  unfold State.onLnk State.onFab
  simp only [quad_set_set, quad_get_set_same]

/-- What becomes of a port depends on the change at that port alone. -/
theorem onLnk_congr {g g' : LichenPort → LichenPort} (h : g (s.lnk p) = g' (s.lnk p)) : s.onLnk p g = s.onLnk p g' := by
  unfold State.onLnk
  exact congrArg (fun l => s.onFab fun f => { f with ports := f.ports.set p l }) h

/-- A port changed into itself is no change. -/
theorem onLnk_self {g : LichenPort → LichenPort} (h : g (s.lnk p) = s.lnk p) : s.onLnk p g = s := by
  have hports : s.fabric.ports.set p (g (s.fabric.ports.get p)) = s.fabric.ports :=
    (congrArg (s.fabric.ports.set p) h).trans (quad_set_get ..)
  exact congrArg (fun q => s.onFab fun f => { f with ports := q }) hports

@[simp] theorem rd_onLnk (r : Nat) : (s.onLnk p g).rd r = s.rd r := rfl
@[simp] theorem b_onLnk (r i : Nat) : (s.onLnk p g).b r i = s.b r i := rfl
@[simp] theorem f_onLnk (r hi lo : Nat) : (s.onLnk p g).f r hi lo = s.f r hi lo := rfl
@[simp] theorem lnkState_onLnk (q : Nat) : (s.onLnk p g).lnkState q = s.lnkState q := rfl
@[simp] theorem b_onFab (g : Fabric → Fabric) (r i : Nat) : (s.onFab g).b r i = s.b r i := rfl
@[simp] theorem lnkState_emit (o : Out) (q : Nat) : (s.emit o).lnkState q = s.lnkState q := rfl

@[simp] theorem lnk_wr (off : Nat) (v : Word) : (s.wr off v).lnk p = s.lnk p := rfl
@[simp] theorem lnk_putF (off hi lo x : Nat) : (s.putF off hi lo x).lnk p = s.lnk p := rfl
@[simp] theorem lnk_setB (off i : Nat) (v : Bool) : (s.setB off i v).lnk p = s.lnk p := rfl
@[simp] theorem lnk_count (off w n : Nat) : (s.count off w n).lnk p = s.lnk p := rfl
@[simp] theorem lnk_emit (o : Out) : (s.emit o).lnk p = s.lnk p := rfl
@[simp] theorem lnk_guard (i : Nat) : (s.guard i).lnk p = s.lnk p := rfl
end

namespace SameData

section
variable {s u : State} (h : SameData s u)
include h

theorem onFab {g : Fabric → Fabric} : SameData s (u.onFab g) := ⟨h.jobs, h.threads, h.cells⟩
theorem onLnk {p : Nat} {g : LichenPort → LichenPort} : SameData s (u.onLnk p g) := ⟨h.jobs, h.threads, h.cells⟩
end
end SameData

/-! ### Registers written one after the other -/

theorem SameRegsBut.refl (l : List Nat) (s : State) : SameRegsBut l s s := fun _ _ => rfl

namespace SameRegsBut

section
variable {l : List Nat} {s u : State} (h : SameRegsBut l s u) {off : Nat} (ho : off ∈ l)
include h

theorem trans {v : State} (h2 : SameRegsBut l u v) : SameRegsBut l s v := fun r hr => (h2 r hr).trans (h r hr)

theorem rd {r : Nat} (hr : r ∉ l) : u.rd r = s.rd r := h r hr
theorem b {r i : Nat} (hr : r ∉ l) : u.b r i = s.b r i := b_of_rd (h r hr) i
theorem f {r hi lo : Nat} (hr : r ∉ l) : u.f r hi lo = s.f r hi lo := congrArg (fld · hi lo) (h r hr)

theorem mono {l2 : List Nat} (hl : l ⊆ l2) : SameRegsBut l2 s u := fun r hr => h r fun hr1 => hr (hl hr1)

theorem onFab {g : Fabric → Fabric} : SameRegsBut l s (u.onFab g) := h
theorem onLnk {p : Nat} {g : LichenPort → LichenPort} : SameRegsBut l s (u.onLnk p g) := h
theorem emit {o : Out} : SameRegsBut l s (u.emit o) := h

include ho

theorem wr {v : Word} : SameRegsBut l s (u.wr off v) :=
  fun r hr => (rd_wr_other u v fun e : r = off => hr (e ▸ ho)).trans (h r hr)
theorem putF {hi lo x : Nat} : SameRegsBut l s (u.putF off hi lo x) := h.wr ho
theorem setB {i : Nat} {v : Bool} : SameRegsBut l s (u.setB off i v) := h.wr ho
theorem count {w n : Nat} : SameRegsBut l s (u.count off w n) := h.wr ho
end
end SameRegsBut

/-- LNKp_STAT.STATE after it was set. -/
theorem lnkState_putF {s : State} {p n : Nat} (hn : n < 8) : (s.putF (R.LNK_STAT p) 2 0 n).lnkState p = n :=
  (f_putF_same s _ n (by decide) (by decide)).trans (Nat.mod_eq_of_lt hn)

section
variable (s : State) (p : Nat)

theorem lnkState_setB {r i : Nat} {v : Bool} (h : R.LNK_STAT p ≠ r) : (s.setB r i v).lnkState p = s.lnkState p :=
  congrArg (fld · 2 0) (rd_setB_other s i v h)

/-- The registers that a change of a port's state can write. -/
def stateRegs (p : Nat) : List Nat := [R.LNK_STAT p, R.LNK_INT p]

theorem setLnkState_within {n : Nat} (h : (s.lnkState p == 4) = (n == 4)) :
    s.setLnkState p n = s.putF (R.LNK_STAT p) 2 0 n := if_neg (by simp [h])

theorem setLnkState_across {n : Nat} (h : (s.lnkState p == 4) ≠ (n == 4)) :
    s.setLnkState p n = (s.putF (R.LNK_STAT p) 2 0 n).setB (R.LNK_INT p) 0 true := if_pos (by simpa using h)

theorem setLnkState_cases (n : Nat) : s.setLnkState p n = s.putF (R.LNK_STAT p) 2 0 n ∨
    s.setLnkState p n = (s.putF (R.LNK_STAT p) 2 0 n).setB (R.LNK_INT p) 0 true := by
  by_cases h : (s.lnkState p == 4) = (n == 4)
  · exact .inl (setLnkState_within s p h)
  · exact .inr (setLnkState_across s p h)

theorem lnkState_setLnkState {n : Nat} (hn : n < 8) : (s.setLnkState p n).lnkState p = n := by
  rcases setLnkState_cases s p n with h | h
  · rw [h, lnkState_putF hn]
  · rw [h, lnkState_setB _ _ (by simp), lnkState_putF hn]

@[simp] theorem lnk_setLnkState (n q : Nat) : (s.setLnkState p n).lnk q = s.lnk q := by
  rcases setLnkState_cases s p n with h | h <;> (rw [h]; rfl)

@[simp] theorem fabric_setLnkState (n : Nat) : (s.setLnkState p n).fabric = s.fabric := by
  rcases setLnkState_cases s p n with h | h <;> (rw [h]; rfl)

theorem regs_setLnkState (n : Nat) : SameRegsBut (stateRegs p) s (s.setLnkState p n) := by
  have h0 : SameRegsBut (stateRegs p) s (s.putF (R.LNK_STAT p) 2 0 n) := (SameRegsBut.refl _ s).putF (by simp [stateRegs])
  rcases setLnkState_cases s p n with h | h
  · rw [h]
    exact h0
  · rw [h]
    exact h0.setB (by simp [stateRegs])

theorem sameData_setLnkState {s u : State} (h : SameData s u) (n : Nat) : SameData s (u.setLnkState p n) := by
  rcases setLnkState_cases u p n with e | e
  · rw [e]
    exact h.putF
  · rw [e]
    exact h.putF.setB
end

/-! ### Packets that a port drops, and jobs charged on its route (R40, R299) -/

/-- The registers that count what a port drops. -/
def dropRegs (p : Nat) : List Nat := [R.LNK_INT p, R.LNK_DROPCNT p]

section
variable (s : State) (p : Nat)

theorem dropPacket_cases (n : Nat) : n = 0 ∧ s.dropPacket p n = s ∨
    0 < n ∧ s.dropPacket p n = (s.count (R.LNK_DROPCNT p) 32 n).setB (R.LNK_INT p) 3 true := by
  rcases Nat.eq_zero_or_pos n with h | h
  · exact .inl ⟨h, if_pos h⟩
  · exact .inr ⟨h, if_neg (by omega)⟩

@[simp] theorem fabric_dropPacket (n : Nat) : (s.dropPacket p n).fabric = s.fabric := by
  rcases dropPacket_cases s p n with ⟨_, h⟩ | ⟨_, h⟩
  · rw [h]
  · rw [h, fabric_setB, fabric_count]

@[simp] theorem lnk_dropPacket (n q : Nat) : (s.dropPacket p n).lnk q = s.lnk q := by
  rw [State.lnk, fabric_dropPacket, ← State.lnk]

theorem regs_dropPacket (n : Nat) : SameRegsBut (dropRegs p) s (s.dropPacket p n) := by
  rcases dropPacket_cases s p n with ⟨_, h⟩ | ⟨_, h⟩
  · rw [h]
    exact .refl _ s
  · rw [h]
    exact ((SameRegsBut.refl _ s).count (by simp [dropRegs])).setB (by simp [dropRegs])

theorem sameData_dropPacket {s u : State} (h : SameData s u) (n : Nat) : SameData s (u.dropPacket p n) := by
  rcases dropPacket_cases u p n with ⟨_, e⟩ | ⟨_, e⟩
  · rwa [e]
  · rw [e]
    exact h.count.setB

theorem dropcnt_dropPacket (n : Nat) :
    (s.dropPacket p n).f (R.LNK_DROPCNT p) 31 0 = satAdd 32 (s.f (R.LNK_DROPCNT p) 31 0) n := by
  rcases dropPacket_cases s p n with ⟨rfl, h⟩ | ⟨_, h⟩
  · have hmax : s.f (R.LNK_DROPCNT p) 31 0 < 2 ^ 32 := fld_lt (s.rd (R.LNK_DROPCNT p)) 31 0
    rw [h, satAdd]
    omega
  · rw [h, State.f, rd_setB_other _ 3 true (by simp)]
    exact f_count s (R.LNK_DROPCNT p) n (w := 32) (by decide) (by decide)

theorem drop_dropPacket {n : Nat} (hn : 0 < n) : (s.dropPacket p n).b (R.LNK_INT p) 3 = true := by
  rcases dropPacket_cases s p n with ⟨h0, _⟩ | ⟨_, h⟩
  · omega
  · rw [h]
    exact b_setB_same _ _ _ _ (by decide)

theorem int_dropPacket {n i : Nat} (hi : i ≠ 3) : (s.dropPacket p n).b (R.LNK_INT p) i = s.b (R.LNK_INT p) i := by
  rcases dropPacket_cases s p n with ⟨_, h⟩ | ⟨_, h⟩
  · rw [h]
  · rw [h, b_setB _ _ _ _ _ _ (by decide), if_neg (by simp [hi])]
    exact b_of_rd (rd_count_other s 32 n (by simp)) i

theorem linkGuard_cases : s.linkGuard p = s ∨ s.linkGuard p = s.guard 5 := by
  unfold State.linkGuard
  split
  · exact .inr rfl
  · exact .inl rfl

@[simp] theorem lnk_linkGuard (q : Nat) : (s.linkGuard p).lnk q = s.lnk q := by
  rcases linkGuard_cases s p with h | h
  · rw [h]
  · rw [h, lnk_guard]

theorem rd_linkGuard_other {r : Nat} (hr : r ≠ R.LDG_GUARD) : (s.linkGuard p).rd r = s.rd r := by
  rcases linkGuard_cases s p with h | h
  · rw [h]
  · rw [h, rd_guard_other s 5 hr]

theorem sameData_linkGuard {s u : State} (h : SameData s u) : SameData s (u.linkGuard p) := by
  rcases linkGuard_cases u p with e | e
  · rwa [e]
  · rw [e]
    exact h.guard

/-! ### Retrain (R291, R298) -/

/-- What a port keeps in a retrain that begins at an instant. -/
def LichenPort.retrained (l : LichenPort) (now : Nat) : LichenPort :=
  { l with retrainAt := now, audit := none, fecAt := [], resyncSent := false, txq := l.txq.map (fun k => { k with late := true }) }

theorem beginRetrain_eq : s.beginRetrain p = (((s.setB (R.LNK_INT p) 2 true).count (R.LNK_RETRAINCNT p) 32 1).linkGuard p).onLnk p
    (fun l => l.retrained s.now) := rfl

/-- The registers of a port lie above the ledger's. -/
theorem ldgGuard_lt {base : Nat} (h : R.LDG_GUARD < base) (x : Nat) : R.LDG_GUARD < base + x := Nat.lt_add_right x h

theorem rd_beginRetrain {r : Nat} (hr : R.LDG_GUARD < r) :
    (s.beginRetrain p).rd r = ((s.setB (R.LNK_INT p) 2 true).count (R.LNK_RETRAINCNT p) 32 1).rd r := by
  rw [beginRetrain_eq, rd_onLnk, rd_linkGuard_other _ _ (by omega)]

theorem lnk_beginRetrain : (s.beginRetrain p).lnk p = (s.lnk p).retrained s.now := by
  rw [beginRetrain_eq, lnk_onLnk_same, lnk_linkGuard, lnk_count, lnk_setB]

theorem sameData_beginRetrain {s u : State} (h : SameData s u) : SameData s (u.beginRetrain p) := by
  rw [beginRetrain_eq]
  exact (sameData_linkGuard p h.setB.count).onLnk

/-- What a port that enters RETRAIN shows. -/
structure Retrained (s u : State) (p : Nat) : Prop where
  state : u.lnkState p = 5
  int : ∀ i, u.b (R.LNK_INT p) i = (decide (i = 2) || decide (i = 0) || s.b (R.LNK_INT p) i)
  count : u.f (R.LNK_RETRAINCNT p) 31 0 = satAdd 32 (s.f (R.LNK_RETRAINCNT p) 31 0) 1
  port : u.lnk p = (s.lnk p).retrained s.now
  data : SameData s u

theorem enterRetrain_facts (h : s.lnkState p = 4) : Retrained s (s.enterRetrain p) p := by
  have henter : s.enterRetrain p = (s.setLnkState p 5).beginRetrain p := if_neg (by simp [h])
  have hacross : s.setLnkState p 5 = (s.putF (R.LNK_STAT p) 2 0 5).setB (R.LNK_INT p) 0 true :=
    setLnkState_across s p (by simp [h])
  have hnow : (s.setLnkState p 5).now = s.now := by rw [hacross, now_setB, now_putF]
  rw [henter]
  refine ⟨?_, fun i => ?_, ?_, ?_, sameData_beginRetrain p (sameData_setLnkState p (.refl s) 5)⟩
  · refine Eq.trans ?_ (lnkState_setLnkState s p (by decide))
    refine congrArg (fld · 2 0) ((rd_beginRetrain _ p (ldgGuard_lt (by decide) _)).trans ?_)
    rw [rd_count_other _ 32 1 (by simp), rd_setB_other _ 2 true (by simp)]
  · rw [b_of_rd (rd_beginRetrain _ p (ldgGuard_lt (by decide) _)), b_of_rd (rd_count_other _ 32 1 (by simp)), b_setB _ _ _ _ _ _ (by decide),
      hacross, b_setB _ _ _ _ _ _ (by decide), b_of_rd (rd_putF_other s 2 0 5 (by simp))]
    by_cases h2 : i = 2
    · simp [h2]
    · by_cases h0 : i = 0
      · simp [h0]
      · simp [h2, h0]
  · rw [State.f, rd_beginRetrain _ p (ldgGuard_lt (by decide) _)]
    refine (f_count _ (R.LNK_RETRAINCNT p) 1 (w := 32) (by decide) (by decide)).trans ?_
    rw [State.f, rd_setB_other _ 2 true (by simp), (regs_setLnkState s p 5).rd (by simp [stateRegs]), ← State.f]
  · rw [lnk_beginRetrain, lnk_setLnkState, hnow]
end

/-! ### Acknowledgement and credit of a link header (R293, R296, R297) -/

/-- A packet of the retry buffer that an acknowledgement retires. -/
def ackRetires (h : LinkHeader) (e : Nat × Packet) : Bool := decide ((h.ack.toNat + 4096 - e.1) % 4096 < 2048)

/-- A port that has taken the acknowledgement and the credit of a header. -/
def LichenPort.acked (l : LichenPort) (h : LinkHeader) (clk : Nat) : LichenPort :=
  let a := l.vc.get h.crvc.toNat
  { l with
    retry := l.retry.filter (fun e => !ackRetires h e), resend := l.resend.filter (fun e => !ackRetires h e)
    ackClk := if l.retry.any (ackRetires h) then clk else l.ackClk, rounds := if l.retry.any (ackRetires h) then 0 else l.rounds
    vc := l.vc.set h.crvc.toNat { a with
      cr := min (vcBuffer h.crvc.toNat) (a.cr + h.crcnt.toNat), rxc := wrapAdd 32 a.rxc h.crcnt.toNat } }

/-- A port whose next packet returns the credit of the channel with most flits freed. -/
def LichenPort.credited (l : LichenPort) : LichenPort :=
  let a := l.vc.get l.owed.1
  { l with vc := l.vc.set l.owed.1 { a with ret := wrapAdd 32 a.ret l.owed.2, pend := a.pend - l.owed.2 } }

/-- The link header of that packet. -/
def LichenPort.header (l : LichenPort) (seq : Nat) (nak : Bool) : LinkHeader :=
  { seq := BitVec.ofNat 12 seq, ack := BitVec.ofNat 12 l.ackSeq, nak := nak, crcnt := BitVec.ofNat 16 l.owed.2
    crvc := BitVec.ofNat 2 l.owed.1 }

section
variable (s : State) (p : Nat) (h : LinkHeader)

theorem takeHeader_acked : s.takeHeader p h =
    if h.nak ∧ ((s.onLnk p (fun l => l.acked h s.clk)).lnk p).retry ≠ [] then
      (s.onLnk p (fun l => l.acked h s.clk)).resendAll p
    else s.onLnk p (fun l => l.acked h s.clk) := by
  have hport : ((s.onLnk p (fun l => { l with
        retry := l.retry.filter (fun e => !ackRetires h e), resend := l.resend.filter (fun e => !ackRetires h e)
        ackClk := if (s.lnk p).retry.any (ackRetires h) then s.clk else l.ackClk
        rounds := if (s.lnk p).retry.any (ackRetires h) then 0 else l.rounds })).onVc p h.crvc.toNat (fun a =>
      { a with cr := min (vcBuffer h.crvc.toNat) (a.cr + h.crcnt.toNat), rxc := wrapAdd 32 a.rxc h.crcnt.toNat })) =
      s.onLnk p (fun l => l.acked h s.clk) := (onLnk_onLnk ..).trans (onLnk_congr s p rfl)
  rw [← hport]
  rfl

theorem takeHeader_eq (hn : h.nak = false) : s.takeHeader p h = s.onLnk p (fun l => l.acked h s.clk) :=
  (takeHeader_acked s p h).trans (if_neg (by simp [hn]))

/-- A NAK of packets still held is an acknowledgement and a resend. -/
theorem takeHeader_resends (hr : (s.lnk p).retry.filter (fun e => !ackRetires h e) ≠ []) :
    s.takeHeader p { h with nak := true } = (s.takeHeader p { h with nak := false }).resendAll p := by
  rw [takeHeader_eq s p { h with nak := false } rfl, takeHeader_acked, if_pos]
  · rfl
  · exact ⟨rfl, by rwa [lnk_onLnk_same]⟩

theorem nextHeader_eq (seq : Nat) (nak : Bool) :
    s.nextHeader p seq nak = (s.onLnk p LichenPort.credited, (s.lnk p).header seq nak) := rfl

theorem sendControl_eq (kind : Nat) (nak : Bool) (fields : List Nat) : s.sendControl p kind nak fields =
    (s.onLnk p LichenPort.credited).emit (.control p kind ((s.lnk p).header 0 nak) fields) := rfl

/-- A port that has sent its RESYNC. -/
def LichenPort.resynced (l : LichenPort) : LichenPort := { l with resyncSent := true }.credited

theorem sendResync_eq (hs : (s.lnk p).resyncSent = false) : s.sendResync p =
    (s.onLnk p LichenPort.resynced).emit (.control p 4 ((s.lnk p).header 0 false)
      ((List.range 4).flatMap (fun v => [((s.lnk p).resynced.vc.get v).rx, ((s.lnk p).resynced.vc.get v).ret]) ++
        [(s.lnk p).rxNext])) := by
  unfold State.sendResync
  rw [if_neg (by simp [hs])]
  dsimp only
  rw [nextHeader_eq, onLnk_onLnk]
  simp only [lnk_onLnk_same]
  rfl

theorem sameData_sendResync : SameData s (s.sendResync p) := by
  cases hs : (s.lnk p).resyncSent with
  | true =>
    rw [State.sendResync, if_pos hs]
    exact .refl s
  | false =>
    rw [sendResync_eq s p hs]
    exact (SameData.refl s).onLnk.emit
end

/-! ### The states of a port in order (R291) -/

section
variable {s s1 : State} {p : Nat}

theorem signalDetect_facts (hrun : s.running = true) (hdown : s.lnkState p = 0) (hmode : s.f (R.LNK_CTL p) 1 0 ≠ 0) :
    (s.signalDetect p).lnkState p = 1 ∧ (s.signalDetect p).b (R.LNK_INT p) 0 = s.b (R.LNK_INT p) 0 ∧
    SameRegsBut [R.LNK_STAT p] s (s.signalDetect p) ∧ SameMemory s (s.signalDetect p) := by
  have heq : s.signalDetect p = (s.putF (R.LNK_STAT p) 2 0 1).onLnk p (fun l => { l with retrainAt := s.now }) :=
    (if_pos ⟨hrun, hdown, hmode⟩).trans (by rw [setLnkState_within s p (by simp [hdown])])
  rw [heq]
  refine ⟨?_, ?_, ((SameRegsBut.refl _ s).putF (by simp)).onLnk, (SameData.refl s).putF.onLnk.sameMemory⟩
  · rw [lnkState_onLnk, lnkState_putF (by decide)]
  · rw [b_onLnk, b_of_rd (rd_putF_other s 2 0 1 (by simp))]

theorem linkTrained_ok (h : s.lnkState p = 1) : s.linkTrained p true = s.putF (R.LNK_STAT p) 2 0 2 :=
  ((if_neg (by simp [h])).trans (if_pos rfl)).trans (setLnkState_within s p (by simp [h]))

theorem linkTrained_fails (h : s.lnkState p = 1) :
    s.linkTrained p false = (s.untilTime ((s.lnk p).retrainAt + usTime 500000)).setLnkState p 0 :=
  (if_neg (by simp [h])).trans (if_neg (by decide))

theorem linkAligned_init (h : s.lnkState p = 2) : s.linkAligned p =
    (s.putF (R.LNK_STAT p) 2 0 3).sendControl p 2 false [Config.otpUid.toNat, s.prio, s.idByte] :=
  (if_pos h).trans (by rw [setLnkState_within s p (by simp [h])])

theorem linkAligned_retrain (h : s.lnkState p = 5) : s.linkAligned p = s.sendResync p :=
  (if_neg (by simp [h])).trans (if_pos h)

end

/-! ### What counting leaves alone (R416, R419, R420, R424) -/

/-- From s to u only performance counters have counted: elapsed time has not moved on, and nothing has left. -/
structure Counted (s u : State) : Prop where
  now : u.now = s.now
  out : u.out = s.out

namespace Counted

theorem refl (s : State) : Counted s s := ⟨rfl, rfl⟩

section
variable {s u : State} (h : Counted s u)
include h

theorem ite {c : Prop} [Decidable c] {v : State} (h2 : Counted s v) : Counted s (if c then u else v) := by split <;> assumption

theorem each {α : Type} {l : List α} {g : State → α → State} (hg : ∀ u a, Counted s u → Counted s (g u a)) :
    Counted s (u.each l g) := by
  induction l generalizing u with
  | nil => exact h
  | cons a t ih => exact ih (hg u a h)

theorem setPmc {k v : Nat} : Counted s (u.setPmc k v) := ⟨h.now, h.out⟩
theorem setB {off i : Nat} {v : Bool} : Counted s (u.setB off i v) := ⟨h.now, h.out⟩
theorem onPmc {g : Pmc → Pmc} : Counted s (u.onPmc g) := ⟨h.now, h.out⟩

theorem pmcAdd {k x : Nat} : Counted s (u.pmcAdd k x) := h.setPmc.ite h.setPmc.setB
theorem pmcEdge {k clks : Nat} : Counted s (u.pmcEdge k clks) := h.onPmc.ite h.onPmc.pmcAdd

theorem pmcHit {k x clks : Nat} : Counted s (u.pmcHit k x clks) := by
  unfold State.pmcHit
  split
  · exact h.pmcAdd
  · exact h.pmcEdge

theorem eventOver {code unit k clks : Nat} : Counted s (u.eventOver code unit k clks) :=
  (h.each fun _ _ h1 => h1.pmcHit.ite h1).ite h

theorem moved {kind id n : Nat} : Counted s (u.moved kind id n) := (h.each fun _ _ h1 => h1.onPmc.ite h1).ite h

theorem occupancy {code unit level clks : Nat} : Counted s (u.occupancy code unit level clks) := by
  unfold State.occupancy
  refine h.each fun v k h1 => ?_
  refine ite ?_ h1
  extract_lets +onlyGivenNames thr
  split
  · exact h1.pmcAdd.ite h1
  · exact h1.pmcAdd.ite h1
  · exact h1.pmcEdge.ite h1
  · exact h1

theorem sample {k : Nat} : Counted s (u.sample k) := by
  unfold State.sample
  refine ite ?_ h
  have h1 : Counted s (u.eventOver 0x01 0 k k) := h.eventOver
  extract_lets +onlyGivenNames s1 s2 s3 s4 s5
  have h2 : Counted s s2 := h1.each fun _ _ hu => hu.eventOver.ite hu
  have h3 : Counted s s3 := h2.each fun _ _ hu => hu.occupancy
  have h4 : Counted s s4 := h3.each fun _ _ hu => hu.occupancy
  have h5 : Counted s s5 := h4.each fun _ _ hu => hu.occupancy
  exact h5.each fun _ _ hu => hu.occupancy
end
end Counted

section
variable (s : State)

theorem now_passTime (d : Nat) : (s.passTime d).now = s.now + d := by
  unfold State.passTime
  extract_lets s1 s2
  split
  · rfl
  · rfl

theorem now_advance (n : Nat) : (s.advance n).now = s.now + n * s.clkSixteenths := by
  unfold State.advance
  extract_lets s1 s2
  rw [((Counted.refl s2).sample (k := n)).now, now_passTime]
  rfl

theorem clkSixteenths_pos : 0 < s.clkSixteenths := Nat.mul_pos (by decide) (Nat.two_pow_pos _)

theorem le_ceilDiv_mul (a : Nat) {b : Nat} (hb : 0 < b) : a ≤ ceilDiv a b * b := by
  have hlt := Nat.lt_mul_div_succ (a + b - 1) hb
  rw [ceilDiv, if_neg (by omega), Nat.mul_comm]
  rw [Nat.mul_add] at hlt
  omega

/-- Waiting for an instant of elapsed time ends there or later. -/
theorem le_now_untilTime (t : Nat) : t ≤ (s.untilTime t).now := by
  have hpos := clkSixteenths_pos s
  unfold State.untilTime
  split
  next h =>
    rw [now_advance]
    have hceil := le_ceilDiv_mul (t - s.now) hpos
    omega
  next h => exact Nat.not_lt.mp h

/-- It is no wait when that instant has come. -/
theorem untilTime_past {t : Nat} (h : t ≤ s.now) : s.untilTime t = s := if_neg (Nat.not_lt.mpr h)
end

/-! ### Training, INIT and the fall of a port (R291, R298, R299) -/

section
variable {s s1 : State} {p : Nat}

theorem linkTrained_fails_facts (h : s.lnkState p = 1) :
    let due := (s.lnk p).retrainAt + usTime 500000
    let u := s.linkTrained p false
    u.lnkState p = 0 ∧ due ≤ u.now ∧ (due ≤ s.now → u.now = s.now) ∧ SameMemory s u := by
  intro due u
  have hu : u = (s.untilTime due).setLnkState p 0 := linkTrained_fails h
  have hnow : u.now = (s.untilTime due).now := by
    rw [hu]
    rcases setLnkState_cases (s.untilTime due) p 0 with e | e
    · rw [e, now_putF]
    · rw [e, now_setB, now_putF]
  refine ⟨?_, ?_, fun hdue => ?_, ?_⟩
  · rw [hu, lnkState_setLnkState _ _ (by decide)]
  · rw [hnow]
    exact le_now_untilTime s due
  · rw [hnow, untilTime_past s hdue]
  · rw [hu]
    exact (sameData_setLnkState p (sameData_untilTime s due) 0).sameMemory

/-- A port with new accounts, and its partner's UID and device ID. -/
def State.renewed (s : State) (p : Nat) (uid : DWord) (id : Nat) : State :=
  let acct := fun v => ({ cr := vcBuffer v } : VcAcct)
  let s1 := s.onLnk p (fun l => { txq := l.txq, delays := l.delays, vc := ⟨acct 0, acct 1, acct 2, acct 3⟩, ackClk := s.clk })
  ((((s1.wr (R.LNK_PEERUID_LO p) (BitVec.ofNat 32 uid.toNat)).wr (R.LNK_PEERUID_HI p)
    (BitVec.ofNat 32 (uid.toNat / 2 ^ 32))).putF (R.LNK_STAT p) 9 4 id).setB (R.LNK_STAT p) 10 (id < 64))

theorem linkInit_eq (h : s.lnkState p = 3) (hdr : LinkHeader) (uid : DWord) (id : Nat) :
    s.linkInit p hdr uid id = (((s.renewed p uid id).setLnkState p 4).takeHeader p hdr).newEpoch := if_neg (by simp [h])

theorem linkAligned_init_facts (h : s.lnkState p = 2) : ∃ k : LinkHeader, (s.linkAligned p).lnkState p = 3 ∧
    (s.linkAligned p).out = .control p 2 k [Config.otpUid.toNat, s.prio, s.idByte] :: s.out ∧ k.nak = false ∧
    k.ack = BitVec.ofNat 12 (s.lnk p).ackSeq ∧ SameRegsBut [R.LNK_STAT p] s (s.linkAligned p) := by
  rw [linkAligned_init h, sendControl_eq]
  refine ⟨_, ?_, rfl, rfl, rfl, ((SameRegsBut.refl _ s).putF (by simp)).onLnk.emit⟩
  rw [lnkState_emit, lnkState_onLnk, lnkState_putF (by decide)]

theorem sendResync_facts (hs : (s.lnk p).resyncSent = false) : ∃ k : LinkHeader,
    (s.sendResync p).out = .control p 4 k ((List.range 4).flatMap (fun v =>
      [(((s.sendResync p).lnk p).vc.get v).rx, (((s.sendResync p).lnk p).vc.get v).ret]) ++ [(s.lnk p).rxNext]) :: s.out ∧
    ((s.sendResync p).lnk p).resyncSent = true ∧ SameRegsBut [] s (s.sendResync p) ∧ SameMemory s (s.sendResync p) := by
  have heq := sendResync_eq s p hs
  have hport : (s.sendResync p).lnk p = (s.lnk p).resynced := by rw [heq, lnk_emit, lnk_onLnk_same]
  rw [hport, heq]
  exact ⟨_, rfl, rfl, (SameRegsBut.refl _ s).onLnk.emit, (SameData.refl s).onLnk.emit.sameMemory⟩

theorem takeHeader_empty (h : LinkHeader) (hr : (s.lnk p).retry = []) :
    s.takeHeader p h = s.onLnk p (fun l => l.acked h s.clk) := by
  refine (takeHeader_acked s p h).trans (if_neg fun hn => hn.2 ?_)
  rw [lnk_onLnk_same]
  unfold LichenPort.acked
  rw [hr]
  rfl

theorem lnk_renewed (uid : DWord) (id : Nat) : (s.renewed p uid id).lnk p =
    { txq := (s.lnk p).txq, delays := (s.lnk p).delays, ackClk := s.clk
      vc := ⟨{ cr := vcBuffer 0 }, { cr := vcBuffer 1 }, { cr := vcBuffer 2 }, { cr := vcBuffer 3 }⟩ } := by
  unfold State.renewed
  rw [lnk_setB, lnk_putF, lnk_wr, lnk_wr, lnk_onLnk_same]

theorem lnkState_renewed (uid : DWord) (id : Nat) : (s.renewed p uid id).lnkState p = s.lnkState p := by
  unfold State.renewed State.lnkState
  rw [f_setB_other _ _ _ _ (by decide) (by decide) (by decide), f_putF_other _ _ _ (by decide) (by decide) (by decide) (by decide),
    State.f, rd_wr_other _ _ (by simp), rd_wr_other _ _ (by simp), rd_onLnk, ← State.f]

theorem peerUid_renewed (uid : DWord) (id : Nat) : ((s.renewed p uid id).rd (R.LNK_PEERUID_LO p)).toNat +
    ((s.renewed p uid id).rd (R.LNK_PEERUID_HI p)).toNat * 2 ^ 32 = uid.toNat := by
  have hmax := uid.isLt
  unfold State.renewed
  rw [rd_setB_other _ 10 _ (by simp), rd_putF_other _ 9 4 id (by simp), rd_wr_other _ _ (by simp), rd_wr_same,
    rd_setB_other _ 10 _ (by simp), rd_putF_other _ 9 4 id (by simp), rd_wr_same, BitVec.toNat_ofNat, BitVec.toNat_ofNat]
  omega

theorem sameData_renewed (uid : DWord) (id : Nat) : SameData s (s.renewed p uid id) :=
  (SameData.refl s).onLnk.wr.wr.putF.setB

/-- The credit of a header on new accounts: full credit, and the flits returned counted. -/
theorem acked_newAccounts (l : LichenPort) (h : LinkHeader) (clk : Nat)
    (hvc : l.vc = ⟨{ cr := vcBuffer 0 }, { cr := vcBuffer 1 }, { cr := vcBuffer 2 }, { cr := vcBuffer 3 }⟩) {v : Nat} (hv : v < 4) :
    (l.acked h clk).vc.get v = { cr := vcBuffer v, rxc := if v = h.crvc.toNat then h.crcnt.toNat else 0 } := by
  have hnew : ∀ k < 4, l.vc.get k = { cr := vcBuffer k } := fun k hk => by
    rw [hvc]
    interval_cases k <;> rfl
  have hcrvc := h.crvc.isLt
  have hcrcnt := h.crcnt.isLt
  have hcount : wrapAdd 32 0 h.crcnt.toNat = h.crcnt.toNat := by
    unfold wrapAdd
    omega
  unfold LichenPort.acked
  dsimp only
  rw [hnew _ hcrvc]
  by_cases hvh : v = h.crvc.toNat
  · rw [hvh, quad_get_set_same, if_pos rfl, hcount, Nat.min_eq_left (Nat.le_add_right _ _)]
  · rw [quad_get_set_other _ _ hcrvc hv hvh, hnew v hv, if_neg hvh]

/-- INIT takes a port UP with new accounts, full credit and the partner's UID. -/
theorem linkInit_facts (h : s.lnkState p = 3) (hdr : LinkHeader) (uid : DWord) (id : Nat) :
    ∃ s1 : State, s.linkInit p hdr uid id = s1.newEpoch ∧ s1.lnkState p = 4 ∧ s1.b (R.LNK_INT p) 0 = true ∧
    (∀ v, v < 4 → (s1.lnk p).vc.get v = { cr := vcBuffer v, rxc := if v = hdr.crvc.toNat then hdr.crcnt.toNat else 0 }) ∧
    (s1.lnk p).txq = (s.lnk p).txq ∧ (s1.lnk p).txSeq = 0 ∧ (s1.lnk p).rxNext = 0 ∧ (s1.lnk p).retry = [] ∧
    (s1.rd (R.LNK_PEERUID_LO p)).toNat + (s1.rd (R.LNK_PEERUID_HI p)).toNat * 2 ^ 32 = uid.toNat ∧ SameMemory s s1 := by
  have hstate := (lnkState_renewed (s := s) (p := p) uid id).trans h
  have hacross : (s.renewed p uid id).setLnkState p 4 = ((s.renewed p uid id).putF (R.LNK_STAT p) 2 0 4).setB (R.LNK_INT p) 0 true :=
    setLnkState_across _ p (by simp [hstate])
  have hregs := regs_setLnkState (s.renewed p uid id) p 4
  have hport : ((s.renewed p uid id).setLnkState p 4).lnk p = _ := (lnk_setLnkState ..).trans (lnk_renewed uid id)
  refine ⟨_, linkInit_eq h hdr uid id, ?_⟩
  rw [takeHeader_empty hdr (by rw [hport]), rd_onLnk, rd_onLnk, hregs.rd (by simp [stateRegs]), hregs.rd (by simp [stateRegs])]
  refine ⟨(lnkState_onLnk ..).trans (lnkState_setLnkState _ p (by decide)), ?_, fun v hv => ?_, ?_, ?_, ?_, ?_,
    peerUid_renewed uid id, ((sameData_setLnkState p (sameData_renewed uid id) 4).onLnk).sameMemory⟩
  · rw [b_onLnk, hacross, b_setB_same _ _ _ _ (by decide)]
  · rw [lnk_onLnk_same]
    exact acked_newAccounts _ hdr _ (by rw [hport]) hv
  all_goals
    rw [lnk_onLnk_same, hport]
    rfl

/-- A port that goes DOWN while no request is outstanding. -/
theorem portDown_eq (hup : s.lnkState p ≠ 0) (hout : s.fabric.outstanding = []) : s.portDown p =
    (((s.setLnkState p 0).dropPacket p ((s.lnk p).retry.length + (s.lnk p).rxq.length)).onLnk p (fun l =>
      { txq := l.txq.filter (fun k => !(decide (k.op.toNat ≤ 2) && k.src == s.srcId)), delays := l.delays })).putF
        (R.LNK_STAT p) 12 4 0 := by
  unfold State.portDown
  rw [if_neg hup]
  extract_lets l s1 s2 s3
  have hnone : s3.fabric.outstanding = [] := by
    have h3 : s3.fabric.outstanding = s1.fabric.outstanding := by simp [s3, s2]
    rw [h3, fabric_dropPacket, fabric_setLnkState, hout]
  unfold State.failRoute
  rw [hnone]
  rfl

theorem portDown_facts (hup : s.lnkState p ≠ 0) (hout : s.fabric.outstanding = []) :
    let l := s.lnk p
    let n := l.retry.length + l.rxq.length
    let u := s.portDown p
    u.lnkState p = 0 ∧
    u.lnk p = { txq := l.txq.filter (fun k => !(decide (k.op.toNat ≤ 2) && k.src == s.srcId)), delays := l.delays } ∧
    u.f (R.LNK_DROPCNT p) 31 0 = satAdd 32 (s.f (R.LNK_DROPCNT p) 31 0) n ∧ (0 < n → u.b (R.LNK_INT p) 3 = true) ∧
    (s.lnkState p = 4 → u.b (R.LNK_INT p) 0 = true) ∧
    SameRegsBut [R.LNK_STAT p, R.LNK_INT p, R.LNK_DROPCNT p] s u ∧ SameData s u := by
  intro l n u
  have hu : u = _ := portDown_eq hup hout
  have hstat : ∀ r, r ≠ R.LNK_STAT p → u.rd r = ((s.setLnkState p 0).dropPacket p n).rd r := fun r hr => by
    rw [hu, rd_putF_other _ 12 4 0 hr, rd_onLnk]
  have hstate := regs_setLnkState s p 0
  have hdrop := regs_dropPacket (s.setLnkState p 0) p n
  refine ⟨?_, ?_, ?_, fun hn => ?_, fun h4 => ?_, fun r hr => ?_, ?_⟩
  · rw [hu, State.lnkState, f_putF_other _ _ _ (by decide) (by decide) (by decide) (by decide), f_onLnk,
      hdrop.f (by simp [dropRegs]), ← State.lnkState, lnkState_setLnkState _ _ (by decide)]
  · rw [hu, lnk_putF, lnk_onLnk_same, lnk_dropPacket, lnk_setLnkState]
  · rw [State.f, hstat _ (by simp), ← State.f, dropcnt_dropPacket, hstate.f (by simp [stateRegs])]
  · rw [b_of_rd (hstat _ (by simp)), drop_dropPacket _ _ hn]
  · rw [b_of_rd (hstat _ (by simp)), int_dropPacket _ _ (by decide), setLnkState_across s p (by simp [h4]),
      b_setB_same _ _ _ _ (by decide)]
  · simp only [List.mem_cons, List.not_mem_nil, or_false, not_or] at hr
    obtain ⟨h1, h2, h3⟩ := hr
    rw [hstat r h1, hdrop.rd (by simp [dropRegs, h2, h3]), hstate.rd (by simp [stateRegs, h1, h2])]
  · rw [hu]
    exact (sameData_dropPacket p (sameData_setLnkState p (.refl s) 0) n).onLnk.putF

theorem linkDown_up (h : s.linkUp p = true) : s.linkDown p = (s.portDown p).partnerGone p := by
  have hnz : s.lnkState p ≠ 0 := fun h0 => by
    have h0 : s.f (R.LNK_STAT p) 2 0 = 0 := h0
    simp [State.linkUp, h0] at h
  exact (if_neg hnz).trans (if_pos h)

theorem linkDown_notUp (h : s.linkUp p = false) : s.linkDown p = s.portDown p := by
  by_cases h0 : s.lnkState p = 0
  · exact (if_pos h0).trans (if_pos h0).symm
  · exact (if_neg h0).trans (if_neg (by simp [h]))
end

/-! ### Codewords and RESYNC (R291, R298, R301) -/

section
variable {s s1 : State} {p n : Nat} {o : Origin} {v : Word}

theorem linkRetrain_lock (h : s.lnkState p = 4) : s.linkRetrain p 0 = s.enterRetrain p :=
  (if_neg (by simp [h])).trans (if_pos rfl)

/-- The uncorrectable codewords of the last 1 ms. -/
def LichenPort.recentFec (l : LichenPort) (now : Nat) : List Nat := l.fecAt.filter (fun t => decide (now ≤ t + usTime 1000))

/-- The state with n uncorrectable codewords noted. -/
def State.fecNoted (s : State) (p n : Nat) : State :=
  ((s.count (R.LNK_FECUE p) 32 n).setB (R.LNK_INT p) 4 true).onLnk p (fun l => l.noteFec n s.now)

theorem fecNoted_eq : s.fecNoted p n = ((s.count (R.LNK_FECUE p) 32 n).setB (R.LNK_INT p) 4 true).onLnk p (fun l =>
    { l with fecAt := (List.replicate (min n 8) s.now ++ (s.lnk p).recentFec s.now).take 8 }) :=
  onLnk_congr _ p (by rw [lnk_setB, lnk_count, LichenPort.noteFec, LichenPort.recentFec])

theorem linkRetrain_codewords (h : s.lnkState p = 4) (hn : 0 < n) : s.linkRetrain p n =
    if 8 ≤ n + ((s.lnk p).recentFec s.now).length then (s.fecNoted p n).enterRetrain p else s.fecNoted p n := by
  have heq : s.linkRetrain p n = if ((s.fecNoted p n).lnk p).fecAt.length = 8 then (s.fecNoted p n).enterRetrain p
      else s.fecNoted p n := (if_neg (by simp [h])).trans (if_neg (by omega))
  have hport : (s.fecNoted p n).lnk p = (s.lnk p).noteFec n s.now := by
    rw [State.fecNoted, lnk_onLnk_same, lnk_setB, lnk_count]
  have hlen : ((s.lnk p).noteFec n s.now).fecAt.length = 8 ↔ 8 ≤ n + ((s.lnk p).recentFec s.now).length := by
    unfold LichenPort.noteFec LichenPort.recentFec
    simp only [List.length_take, List.length_append, List.length_replicate]
    omega
  rw [heq, hport]
  simp only [hlen]

theorem resyncOk_facts {acct : List (Nat × Nat)} {next : Nat} (h : s.resyncOk p acct next = some s1) :
    s1.lnkState p = 4 ∧ SameData s s1 ∧ (s1.lnk p).failed = 0 ∧ (s1.lnk p).rounds = 0 := by
  unfold State.resyncOk at h
  extract_lets l occ ok at h
  split at h
  · obtain rfl := Option.some.inj h
    refine ⟨lnkState_setLnkState _ p (by decide),
      sameData_setLnkState p ((SameData.refl s).each fun _ _ hu => hu.onLnk).onLnk 4, ?_, ?_⟩
    · rw [lnk_setLnkState, lnk_onLnk_same]
    · rw [lnk_setLnkState, lnk_onLnk_same]
  · cases h

theorem resync_ends {h : LinkHeader} {acct : List (Nat × Nat)} {next : Nat} (h5 : s.lnkState p = 5) {r : Option State}
    (hr : ((s.sendResync p).takeHeader p { h with nak := false }).resyncOk p acct next = r) :
    s.resync p h acct next = r.getD (s.failRetrain p).resumeAll := by
  unfold State.resync
  rw [if_neg (by simp [h5]), hr]
  cases r with
  | some s1 => rfl
  | none => rfl

theorem sameData_takeHeader (h : LinkHeader) (hn : h.nak = false) : SameData s (s.takeHeader p h) := by
  rw [takeHeader_eq s p h hn]
  exact (SameData.refl s).onLnk

end

/-! ### A write of LNKp_CTL (R291, R321) -/

section
variable {s s1 : State} {p : Nat} {o : Origin} {off c : Nat} {v : Word}

/-- The registers of the fabric read no descriptor when they are written, and ask no rights of a whole block. -/
theorem lichen_plainWrite (hlo : 0x280000 ≤ off) (hhi : off < 0x290000) :
    s.descAsk o off v = none ∧ s.blockRights o off = true := by
  have hblock : ¬ (off / 0x10000 = 1 ∨ off / 0x10000 = 20 ∨ off / 0x10000 = 48 ∨ off / 0x10000 = 52 ∨ off / 0x10000 = 56) := by
    omega
  refine ⟨descAsk_plain ?_ ?_ fun t ht => ?_, if_neg hblock⟩
  · simp only [R.TRP_MTVS, R.TRP_STVS, R.TRP_MSTK, R.TRP_SSTK]
    omega
  · simp only [R.DBG_TREG]
    omega
  · simp only [R.STM_CTL]
    omega

/-- What LNKp_CTL refuses: MODE 3, VC share 0, and a change of MODE outside Config. -/
def State.badLnkCtl (s : State) (p : Nat) (v : Word) : Prop :=
  fld v 1 0 = 3 ∨ fld v 15 8 = 0 ∨ (fld v 1 0 ≠ s.f (R.LNK_CTL p) 1 0 ∧ s.mode ≠ 2)

theorem csWrite_lnkCtl (hp : p < 4) (h : Reaches s o (R.LNK_CTL p)) (hv : Takes (R.LNK_CTL p) v) (hm : s.machineOrigin o = true) :
    (¬ s.badLnkCtl p v → s.csWrite o (R.LNK_CTL p) 4 v = (s.writeLnkCtl p v, none)) ∧
    (s.badLnkCtl p v → s.csWrite o (R.LNK_CTL p) 4 v = (s, some 7)) := by
  obtain ⟨r, hrow, haccepts⟩ := hv
  have hrange : 0x280000 ≤ R.LNK_CTL p ∧ R.LNK_CTL p < 0x284000 ∧ R.LNK_CTL p % 4 = 0 ∧ R.LNK_CTL p / 0x10000 = 40 ∧
      idx (R.LNK_CTL p) (R.LNK_CTL 0) 0x1000 = p := by
    simp only [R.LNK_CTL, idx]
    omega
  obtain ⟨hlo, hhi, halign, hblock, hidx⟩ := hrange
  have hwrite : s.csWrite o (R.LNK_CTL p) 4 v = refuseIf (fld v 1 0 == 3 || fld v 15 8 == 0 ||
      (fld v 1 0 != s.f (R.LNK_CTL p) 1 0 && !s.inConfig)) 7 s (s.writeLnkCtl p v, none) := by
    rw [csWrite_block h hrow haccepts (lichen_plainWrite (v := v) hlo (by omega)).2 halign]
    unfold State.writeBlock
    rw [hblock]
    unfold State.writeLichen
    rw [if_neg (by simp only [R.FAB_ATOM_ADDR_LO]; omega), if_neg (by simp [hm]), if_pos (by simp only [R.FAB_CTL]; omega), hidx]
    exact if_pos rfl
  have hbad : (fld v 1 0 == 3 || fld v 15 8 == 0 || (fld v 1 0 != s.f (R.LNK_CTL p) 1 0 && !s.inConfig)) = true ↔
      s.badLnkCtl p v := by
    simp [State.badLnkCtl, State.inConfig, or_assoc]
  refine ⟨fun hok => ?_, fun hno => ?_⟩
  · rw [hwrite]
    exact if_neg fun hc => hok (hbad.mp hc)
  · rw [hwrite]
    exact if_pos (hbad.mpr hno)

theorem regWrite_lnkCtl (hp : p < 4) (h : Reaches s o (R.LNK_CTL p)) (hv : Takes (R.LNK_CTL p) v) (hm : s.machineOrigin o = true) :
    (¬ s.badLnkCtl p v → s.regWrite o (R.LNK_CTL p) v = (s.writeLnkCtl p v).accepted o) ∧
    (s.badLnkCtl p v → s.regWrite o (R.LNK_CTL p) v = s.accessDone.refused o true 7 (R.LNK_CTL p)) := by
  obtain ⟨hok, hno⟩ := csWrite_lnkCtl hp h hv hm
  have hask : s.descAsk o (R.LNK_CTL p) v = none :=
    (lichen_plainWrite (by simp only [R.LNK_CTL]; omega) (by simp only [R.LNK_CTL]; omega)).1
  exact ⟨fun hb => regWrite_accepted h hask (hok hb), fun hb => regWrite_refused h hask (hno hb)⟩

/-- The state with LNKp_CTL stored. -/
def State.lnkCtlStored (s : State) (p : Nat) (v : Word) : State := s.wr (R.LNK_CTL p) (v &&& 0xFF13)

theorem writeLnkCtl_retrain (hmode : fld v 1 0 ≠ 0) (hdown : v.getLsbD 3 = false) (hre : v.getLsbD 2 = true) :
    s.writeLnkCtl p v = (s.lnkCtlStored p v).enterRetrain p := by
  unfold State.writeLnkCtl
  rw [if_neg (by rw [hdown]; simpa using hmode), if_pos hre]
  rfl

theorem writeLnkCtl_down (hre : v.getLsbD 2 = false) (hdown : fld v 1 0 = 0 ∨ v.getLsbD 3 = true) :
    s.writeLnkCtl p v = (s.lnkCtlStored p v).linkDown p := by
  unfold State.writeLnkCtl
  rw [if_pos hdown, if_neg (by rw [hre]; decide)]
  rfl
end

/-- Settles O41: the states in order, each by the lemma of its function; a retrain and its ends; the fall of a port; LNKp_CTL. -/
theorem linkStates : Obligations.LinkStates := by
  refine ⟨fun s p h uid prioId => ?_, fun s s1 p h n acct next => ?_, fun s p hup hout => ?_, fun s o p v h hv hm => ?_⟩
  · refine ⟨fun hrun hdown hmode => ⟨_, rfl, signalDetect_facts hrun hdown hmode⟩, fun h1 => ⟨_, rfl, ?_⟩,
      fun h1 => ⟨_, rfl, linkTrained_fails_facts h1⟩, fun h2 => ?_, fun h5 hsent => ?_, fun h5 hsent => ?_, fun h3 => ?_⟩
    · rw [linkTrained_ok h1]
      exact ⟨lnkState_putF (by decide), (SameRegsBut.refl _ s).putF (by simp), (SameData.refl s).putF.sameMemory⟩
    · obtain ⟨k, hfacts⟩ := linkAligned_init_facts h2
      exact ⟨_, k, rfl, hfacts⟩
    · obtain ⟨k, hfacts⟩ := sendResync_facts hsent
      exact ⟨_, k, congrArg Host.Outcome.next (linkAligned_retrain h5), hfacts⟩
    · exact congrArg Host.Outcome.next ((linkAligned_retrain h5).trans (if_pos hsent))
    · obtain ⟨s1, heq, hfacts⟩ := linkInit_facts h3 h uid prioId.2.toNat
      exact ⟨s1, congrArg Host.Outcome.next heq, hfacts⟩
  · intro due counted met
    have hnoted : s.fecNoted p.val n = counted := fecNoted_eq
    have hmet : SameData s met := (sameData_sendResync s p.val).trans (sameData_takeHeader _ rfl)
    refine ⟨fun h4 hn => ?_, fun h4 hn hfew => ?_, fun h4 hn hmany => ?_, fun h5 hok => ?_, fun h5 hno => ?_, fun h5 => ?_,
      fun hlink => ?_, fun hlink => ?_⟩
    · subst hn
      have hre := enterRetrain_facts s p.val h4
      refine ⟨_, congrArg Host.Outcome.next (linkRetrain_lock h4), hre.state, ?_, hre.count, ?_, ?_, ?_, hre.data.sameMemory⟩
      · rw [hre.int]
        simp
      all_goals
        rw [hre.port]
        rfl
    · rw [← hnoted]
      exact congrArg Host.Outcome.next ((linkRetrain_codewords h4 hn).trans (if_neg (Nat.not_le.mpr hfew)))
    · rw [← hnoted]
      exact congrArg Host.Outcome.next ((linkRetrain_codewords h4 hn).trans (if_pos hmany))
    · obtain ⟨hstate, hdata, hfailed, hrounds⟩ := resyncOk_facts hok
      exact ⟨congrArg Host.Outcome.next (resync_ends h5 hok), hstate, (hmet.trans hdata).sameMemory, hfailed, hrounds⟩
    · exact congrArg Host.Outcome.next (resync_ends h5 hno)
    · exact congrArg Host.Outcome.next (if_pos h5)
    · exact congrArg (fun u : State => Host.Outcome.next u.resumeAll) (linkDown_up hlink)
    · exact congrArg (fun u : State => Host.Outcome.next u.resumeAll) (linkDown_notUp hlink)
  · intro l n u
    obtain ⟨hstate, hport, hcnt, hint, hchg, hregs, hdata⟩ := portDown_facts hup hout
    exact ⟨hstate, hport, hcnt, hint, hchg, hregs, hdata.sameMemory, hdata.jobs, hdata.threads⟩
  · intro bad s1
    obtain ⟨hok, hno⟩ := regWrite_lnkCtl p.isLt h hv hm
    refine ⟨fun hb hmode hdown hre => ?_, fun hb hre hdown => ?_,
      fun hb => ⟨congrArg Host.Outcome.next (hno hb), congrArg Host.Outcome.next (hno hb)⟩⟩
    · refine congrArg Host.Outcome.next ((hok hb).trans ?_)
      rw [writeLnkCtl_retrain hmode hdown hre]
      rfl
    · refine congrArg Host.Outcome.next ((hok hb).trans ?_)
      rw [writeLnkCtl_down hre hdown]
      rfl

end Sys2Proof.Machine

/-! ## Packets, acknowledgements, audits and delay on a link (O42) -/

namespace Sys2Proof.Machine

/-! ### Packets that leave (R292, R296, R297, R302) -/

/-- A port from which a new packet has left with the next SEQ, before the credit that it returns. -/
def LichenPort.sent (l : LichenPort) (k : Packet) (w clk : Nat) : LichenPort :=
  let a := l.vc.get k.vc.toNat
  { l with
    txq := l.txq.erase k, wrr := w, txSeq := (l.txSeq + 1) % 4096, retry := l.retry ++ [(l.txSeq, k)]
    ackClk := if l.retry = [] then clk else l.ackClk
    vc := l.vc.set k.vc.toNat { a with cr := a.cr - pktFlits k, tx := wrapAdd 32 a.tx (pktFlits k) } }

section
variable {s : State} {p q w : Nat} {k : Packet} {t : List (Nat × Packet)}

/-- The state with a data packet on the wire, not yet counted. -/
def State.onWire (s : State) (p q : Nat) (k : Packet) : State :=
  (s.onLnk p LichenPort.credited).emit (.packet p (wireBytes ((s.lnk p).header q false) (s.departing k)))

theorem launch_facts (s : State) (p q : Nat) (k : Packet) :
    (s.launch p q k).out = .packet p (wireBytes ((s.lnk p).header q false) (s.departing k)) :: s.out ∧
    (s.launch p q k).lnk p = (s.lnk p).credited ∧ SameData s (s.launch p q k) := by
  have hE : Elapsed 0 (s.onWire p q k) (s.launch p q k) := (Elapsed.refl (s.onWire p q k)).eventOver.moved
  have hC : Counted (s.onWire p q k) (s.launch p q k) := (Counted.refl (s.onWire p q k)).eventOver.moved
  have hfab : (s.launch p q k).fabric = (s.onWire p q k).fabric := (congrArg State.fabric hE.untimed :)
  refine ⟨hC.out, ?_, (SameData.refl s).onLnk.emit.trans hE.sameData⟩
  rw [State.lnk, hfab, State.onWire, ← State.lnk, lnk_emit, lnk_onLnk_same]

theorem packetSend_disabled (h4 : s.lnkState p = 4) (hen : s.b R.FAB_CTL 0 = false) : s.packetSend p = s.ackIfOwed p :=
  (if_neg (by simp [h4])).trans (if_pos hen)

theorem packetSend_resend (h4 : s.lnkState p = 4) (hen : s.b R.FAB_CTL 0 = true) (hr : (s.lnk p).resend = (q, k) :: t) :
    s.packetSend p = ((((s.onLnk p (fun l => { l with resend := t })).launch p q { k with late := true }).count
      (R.LNK_RETRYCNT p) 32 1).event 0x39 p 1) := by
  unfold State.packetSend
  rw [if_neg (by simp [h4]), if_neg (by simp [hen])]
  simp only [hr]

theorem packetSend_new (h4 : s.lnkState p = 4) (hen : s.b R.FAB_CTL 0 = true) (hr : (s.lnk p).resend = [])
    (hk : s.nextPacket p = some (k, w)) (hfits : (s.lnk p).fits k = true) :
    s.packetSend p = (s.onLnk p (fun l => l.sent k w s.clk)).launch p (s.lnk p).txSeq k := by
  unfold State.packetSend
  rw [if_neg (by simp [h4]), if_neg (by simp [hen])]
  simp only [hr, hk, Option.filter_some, if_pos hfits]
  exact congrArg (fun u : State => u.launch p (s.lnk p).txSeq k) ((onLnk_onLnk ..).trans (onLnk_congr s p rfl))

theorem packetSend_none (h4 : s.lnkState p = 4) (hen : s.b R.FAB_CTL 0 = true) (hr : (s.lnk p).resend = [])
    (hk : s.nextPacket p = none ∨ s.nextPacket p = some (k, w) ∧ (s.lnk p).fits k = false) : s.packetSend p = s.ackIfOwed p := by
  have hnone : (s.nextPacket p).filter (fun x => (s.lnk p).fits x.1) = none := by
    rcases hk with hk | ⟨hk, hfits⟩
    · rw [hk, Option.filter_none]
    · rw [hk, Option.filter_some, if_neg (by simp [hfits])]
  unfold State.packetSend
  rw [if_neg (by simp [h4]), if_neg (by simp [hen])]
  simp only [hr, hnone]

/-- A new packet leaves with the next SEQ and stays in the retry buffer; its flits leave the credit of its channel. -/
theorem packetSend_new_facts (h4 : s.lnkState p = 4) (hen : s.b R.FAB_CTL 0 = true) (hr : (s.lnk p).resend = [])
    (hk : s.nextPacket p = some (k, w)) (hfits : (s.lnk p).fits k = true) :
    let l := s.lnk p
    let u := s.packetSend p
    ∃ h : LinkHeader, u.out = .packet p (wireBytes h (s.departing k)) :: s.out ∧ h.seq = BitVec.ofNat 12 l.txSeq ∧ h.nak = false ∧
      (u.lnk p).txSeq = (l.txSeq + 1) % 4096 ∧ (u.lnk p).retry = l.retry ++ [(l.txSeq, k)] ∧ (u.lnk p).txq = l.txq.erase k ∧
      ((u.lnk p).vc.get k.vc.toNat).cr = (l.vc.get k.vc.toNat).cr - pktFlits k ∧ SameData s u := by
  intro l u
  have hu : u = _ := packetSend_new h4 hen hr hk hfits
  obtain ⟨hout, hport, hdata⟩ := launch_facts (s.onLnk p (fun l => l.sent k w s.clk)) p (s.lnk p).txSeq k
  rw [lnk_onLnk_same] at hport
  rw [hu]
  refine ⟨_, hout, rfl, rfl, ?_, ?_, ?_, ?_, (SameData.refl s).onLnk.trans hdata⟩
  · rw [hport]
    rfl
  · rw [hport]
    rfl
  · rw [hport]
    rfl
  · rw [hport]
    have hsame : ∀ l : LichenPort, (l.credited.vc.get k.vc.toNat).cr = (l.vc.get k.vc.toNat).cr :=
      fun l => quad_field_set VcAcct.cr l.vc (by rfl) _
    exact (hsame _).trans (congrArg VcAcct.cr (quad_get_set_same ..))
end

/-! ### Packets that arrive (R292-R297) -/

/-- A port that has taken in the packet it expected, of n flits. -/
def LichenPort.accepts (l : LichenPort) (k : Packet) (n : Nat) : LichenPort :=
  let a := l.vc.get k.vc.toNat
  { l with
    rxNext := (l.rxNext + 1) % 4096, nakSent := false, rxq := l.rxq ++ [k]
    vc := l.vc.set k.vc.toNat { a with rx := wrapAdd 32 a.rx n, occ := a.occ + n } }

/-- A port that has discarded the packet it expected, of n flits: their credit is to be returned. -/
def LichenPort.discards (l : LichenPort) (k : Packet) (n : Nat) : LichenPort :=
  let a := l.vc.get k.vc.toNat
  { l with
    rxNext := (l.rxNext + 1) % 4096, nakSent := false
    vc := l.vc.set k.vc.toNat { a with rx := wrapAdd 32 a.rx n, pend := a.pend + n } }

section
variable {s : State} {p mark : Nat} {b : List Byte} {h : LinkHeader} {acct : List (Nat × Nat × Nat)}

theorem dataReceive_badCrc (h4 : s.lnkState p = 4) (hcrc : wireGood b = false) :
    s.dataReceive p b = (s.count (R.LNK_CRCERR p) 32 1).nakOnce p := (if_neg (by simp [h4])).trans (if_pos hcrc)

theorem dataReceive_goodCrc (h4 : s.lnkState p = 4) (hcrc : wireGood b = true) : s.dataReceive p b =
    if wireKind b = 0 then (s.takeHeader p (wireLink b)).bySeq p b
    else if 6 ≤ wireKind b then (s.takeHeader p (wireLink b)).dropPacket p 1 else s.takeHeader p (wireLink b) :=
  (if_neg (by simp [h4])).trans (if_neg (by simp [hcrc]))

/-- What a data packet as received must be to be the one expected. -/
def LichenPort.expects (l : LichenPort) (b : List Byte) : Prop :=
  wireGood b = true ∧ wireKind b = 0 ∧ (wireLink b).nak = false ∧ (wireLink b).seq.toNat = l.rxNext ∧ l.audit = none

theorem judgeAudit_none (ha : (s.lnk p).audit = none) : s.judgeAudit p = s := by
  unfold State.judgeAudit
  rw [ha]

theorem dataReceive_expected (h4 : s.lnkState p = 4) (he : (s.lnk p).expects b) :
    s.dataReceive p b = (s.onLnk p (fun l => l.acked (wireLink b) s.clk)).acceptPacket p b := by
  obtain ⟨hcrc, hkind, hnak, hseq, -⟩ := he
  rw [dataReceive_goodCrc h4 hcrc, if_pos hkind, takeHeader_eq s p _ hnak]
  unfold State.bySeq
  have hnext : ((s.onLnk p (fun l => l.acked (wireLink b) s.clk)).lnk p).rxNext = (s.lnk p).rxNext := by
    rw [lnk_onLnk_same]
    rfl
  rw [if_pos]
  rw [hnext, hseq]
  omega

theorem acceptPacket_valid (ha : (s.lnk p).audit = none) (hv : wireValid b = true) :
    s.acceptPacket p b = s.onLnk p (fun l => l.accepts (wirePacket b) (b.length / 64)) := by
  unfold State.acceptPacket State.onVc
  simp only [hv, if_true, onLnk_onLnk]
  exact judgeAudit_none (by rwa [lnk_onLnk_same])

theorem acceptPacket_invalid (ha : (s.lnk p).audit = none) (hv : wireValid b = false) :
    s.acceptPacket p b = (s.onLnk p (fun l => l.discards (wirePacket b) (b.length / 64))).dropPacket p 1 := by
  unfold State.acceptPacket State.onVc
  simp only [hv, Bool.false_eq_true, if_false, onLnk_onLnk]
  exact judgeAudit_none (by rwa [lnk_dropPacket, lnk_onLnk_same])

/-- A link header leaves what was received on a channel alone. -/
theorem acked_received (l : LichenPort) (h : LinkHeader) (clk v : Nat) :
    (((l.acked h clk).vc.get v).rx = (l.vc.get v).rx ∧ ((l.acked h clk).vc.get v).occ = (l.vc.get v).occ) ∧
    ((l.acked h clk).vc.get v).pend = (l.vc.get v).pend :=
  ⟨⟨quad_field_set VcAcct.rx l.vc (by rfl) v, quad_field_set VcAcct.occ l.vc (by rfl) v⟩,
    quad_field_set VcAcct.pend l.vc (by rfl) v⟩

theorem receive_valid_facts (h4 : s.lnkState p = 4) (he : (s.lnk p).expects b) (hv : wireValid b = true) :
    let l := s.lnk p
    let k := wirePacket b
    let u := s.dataReceive p b
    (u.lnk p).rxNext = (l.rxNext + 1) % 4096 ∧ (u.lnk p).rxq = l.rxq ++ [k] ∧
    ((u.lnk p).vc.get k.vc.toNat).occ = (l.vc.get k.vc.toNat).occ + pktFlits k ∧
    ((u.lnk p).vc.get k.vc.toNat).rx = wrapAdd 32 (l.vc.get k.vc.toNat).rx (pktFlits k) ∧ SameRegsBut [] s u ∧ SameMemory s u := by
  intro l k u
  have hu : u = s.onLnk p (fun l => (l.acked (wireLink b) s.clk).accepts k (b.length / 64)) := by
    refine ((dataReceive_expected h4 he).trans (acceptPacket_valid ?_ hv)).trans (onLnk_onLnk ..)
    obtain ⟨-, -, -, -, haudit⟩ := he
    rwa [lnk_onLnk_same]
  have hport : u.lnk p = _ := hu ▸ lnk_onLnk_same s p _
  have hlen : b.length / 64 = pktFlits k := by
    have hflits : b.length = 64 * pktFlits k := by
      unfold wireValid at hv
      simp only [Bool.and_eq_true, beq_iff_eq] at hv
      exact hv.2
    omega
  obtain ⟨⟨hrx, hocc⟩, -⟩ := acked_received l (wireLink b) s.clk k.vc.toNat
  refine ⟨?_, ?_, ?_, ?_, ?_, ?_⟩
  · rw [hport]
    rfl
  · rw [hport]
    rfl
  · rw [hport, ← hlen, ← hocc]
    exact congrArg VcAcct.occ (quad_get_set_same ..)
  · rw [hport, ← hlen, ← hrx]
    exact congrArg VcAcct.rx (quad_get_set_same ..)
  · rw [hu]
    exact (SameRegsBut.refl _ s).onLnk
  · rw [hu]
    exact (SameData.refl s).onLnk.sameMemory

theorem receive_invalid_facts (h4 : s.lnkState p = 4) (he : (s.lnk p).expects b) (hv : wireValid b = false) :
    let l := s.lnk p
    let k := wirePacket b
    let u := s.dataReceive p b
    (u.lnk p).rxNext = (l.rxNext + 1) % 4096 ∧ (u.lnk p).rxq = l.rxq ∧ u.b (R.LNK_INT p) 3 = true ∧
    u.f (R.LNK_DROPCNT p) 31 0 = satAdd 32 (s.f (R.LNK_DROPCNT p) 31 0) 1 ∧
    ((u.lnk p).vc.get k.vc.toNat).pend = (l.vc.get k.vc.toNat).pend + b.length / 64 ∧
    SameRegsBut [R.LNK_INT p, R.LNK_DROPCNT p] s u ∧ SameMemory s u := by
  intro l k u
  have hu : u = (s.onLnk p (fun l => (l.acked (wireLink b) s.clk).discards k (b.length / 64))).dropPacket p 1 := by
    refine ((dataReceive_expected h4 he).trans (acceptPacket_invalid ?_ hv)).trans ?_
    · obtain ⟨-, -, -, -, haudit⟩ := he
      rwa [lnk_onLnk_same]
    · rw [onLnk_onLnk]
  have hport : u.lnk p = (l.acked (wireLink b) s.clk).discards k (b.length / 64) := by
    rw [hu, lnk_dropPacket, lnk_onLnk_same]
  obtain ⟨-, hpend⟩ := acked_received l (wireLink b) s.clk k.vc.toNat
  refine ⟨?_, ?_, ?_, ?_, ?_, ?_, ?_⟩
  · rw [hport]
    rfl
  · rw [hport]
    rfl
  · rw [hu]
    exact drop_dropPacket _ p (by decide)
  · rw [hu]
    exact dropcnt_dropPacket _ p 1
  · rw [hport, ← hpend]
    exact congrArg VcAcct.pend (quad_get_set_same ..)
  · rw [hu]
    exact regs_dropPacket _ p 1
  · rw [hu]
    exact (sameData_dropPacket p (SameData.refl s).onLnk 1).sameMemory

/-! ### Audits and delay (R300, R311) -/

/-- Whether the MARK of an audit has been accepted. -/
def LichenPort.reached (l : LichenPort) (mark : Nat) : Prop := (l.ackSeq + 4096 - mark) % 4096 < 2048

/-- A port at which an audit has arrived. -/
def State.auditHeld (s : State) (p : Nat) (h : LinkHeader) (acct : List (Nat × Nat × Nat)) (mark : Nat) : State :=
  (s.takeHeader p h).onLnk p (fun l => { l with audit := some (acct, mark) })

theorem judgeAudit_waits (ha : (s.lnk p).audit = some (acct, mark)) (hm : ¬ (s.lnk p).reached mark) : s.judgeAudit p = s := by
  unfold State.judgeAudit
  rw [ha]
  exact if_neg hm

/-- Every channel passes an audit. -/
def LichenPort.auditPasses (l : LichenPort) (acct : List (Nat × Nat × Nat)) : Bool :=
  (List.range 4).all (fun v => (l.vc.get v).auditOk v (acct.getD v (0, 0, 0)))

theorem auditPasses_iff (l : LichenPort) (acct : List (Nat × Nat × Nat)) :
    l.auditPasses acct = true ↔ ∀ v, v < 4 → (l.vc.get v).auditOk v (acct.getD v (0, 0, 0)) = true := by
  simp only [LichenPort.auditPasses, List.all_eq_true, List.mem_range]

theorem judgeAudit_judges (ha : (s.lnk p).audit = some (acct, mark)) (hm : (s.lnk p).reached mark) : s.judgeAudit p =
    if (s.lnk p).auditPasses acct then s.onLnk p (fun l => { l with audit := none })
    else (((s.onLnk p (fun l => { l with audit := none })).setB (R.LNK_INT p) 1 true).count (R.LNK_AUDERRCNT p) 32 1).enterRetrain p := by
  unfold State.judgeAudit
  rw [ha]
  refine (if_pos hm).trans ?_
  dsimp only
  rw [lnk_onLnk_same]
  rfl

section
variable (hn : h.nak = false)
include hn

theorem auditHeld_eq : s.auditHeld p h acct mark = s.onLnk p (fun l => { l.acked h s.clk with audit := some (acct, mark) }) :=
  (congrArg (State.onLnk · p _) (takeHeader_eq s p h hn)).trans (onLnk_onLnk ..)

theorem audit_waits (hm : ¬ (s.lnk p).reached mark) :
    (s.auditHeld p h acct mark).judgeAudit p = s.auditHeld p h acct mark := by
  rw [auditHeld_eq hn]
  exact judgeAudit_waits (acct := acct) (mark := mark) (by rw [lnk_onLnk_same]) (by rwa [lnk_onLnk_same])

theorem audit_judged (hm : (s.lnk p).reached mark) : (s.auditHeld p h acct mark).judgeAudit p =
    if ((s.lnk p).acked h s.clk).auditPasses acct then s.onLnk p (fun l => { l.acked h s.clk with audit := none })
    else (((s.onLnk p (fun l => { l.acked h s.clk with audit := none })).setB (R.LNK_INT p) 1 true).count
      (R.LNK_AUDERRCNT p) 32 1).enterRetrain p := by
  rw [auditHeld_eq hn, judgeAudit_judges (acct := acct) (mark := mark) (by rw [lnk_onLnk_same]) (by rwa [lnk_onLnk_same]),
    onLnk_onLnk, lnk_onLnk_same]
  rfl

/-- The state that the header of a packet leaves: the port alone is changed. -/
theorem takeHeader_frame : (s.takeHeader p h).tb = s.tb ∧ ((s.takeHeader p h).lnk p).delayT1 = (s.lnk p).delayT1 ∧
    ((s.takeHeader p h).lnk p).delays = (s.lnk p).delays ∧ (∀ l, SameRegsBut l s (s.takeHeader p h)) ∧
    SameData s (s.takeHeader p h) := by
  rw [takeHeader_eq s p h hn, lnk_onLnk_same]
  exact ⟨rfl, rfl, rfl, fun l => (SameRegsBut.refl l s).onLnk, (SameData.refl s).onLnk⟩

theorem delayPacket_reply {t1 t2 t3 : Nat} (h1 : (s.lnk p).delayT1 = some t1) :
    (s.takeHeader p h).delayPacket p true t2 t3 =
      (s.takeHeader p h).noteDelay p (((s.tb : Int) - t1 - ((t3 : Int) - t2)) / 2).toNat := by
  obtain ⟨htb, hsince, -⟩ := takeHeader_frame (s := s) (p := p) hn
  unfold State.delayPacket
  rw [if_neg (by decide), hsince, h1, htb]

theorem delayPacket_unasked {t2 t3 : Nat} (h1 : (s.lnk p).delayT1 = none) :
    (s.takeHeader p h).delayPacket p true t2 t3 = s.takeHeader p h := by
  obtain ⟨-, hsince, -⟩ := takeHeader_frame (s := s) (p := p) hn
  unfold State.delayPacket
  rw [if_neg (by decide), hsince, h1]
end

theorem noteDelay_facts (d : Nat) :
    let ds := (d :: (s.lnk p).delays).take 8
    ((s.noteDelay p d).lnk p).delays = ds ∧ (s.noteDelay p d).f (R.LNK_DELAY p) 23 0 = min (2 ^ 24 - 1) (ds.sum / ds.length) ∧
    SameRegsBut [R.LNK_DELAY p] s (s.noteDelay p d) ∧ SameMemory s (s.noteDelay p d) := by
  intro ds
  have heq : s.noteDelay p d = (s.onLnk p (fun x => { x with delays := ds, delayT1 := none })).putF (R.LNK_DELAY p) 23 0
      (min (2 ^ 24 - 1) (ds.sum / ds.length)) := rfl
  rw [heq]
  refine ⟨?_, ?_, ((SameRegsBut.refl _ s).onLnk).putF (by simp), (SameData.refl s).onLnk.putF.sameMemory⟩
  · rw [lnk_putF, lnk_onLnk_same]
  · rw [f_putF_same _ _ _ (by decide) (by decide)]
    exact Nat.mod_eq_of_lt (by omega)

theorem auditFails_facts (h4 : s.lnkState p = 4) :
    let u := ((s.setB (R.LNK_INT p) 1 true).count (R.LNK_AUDERRCNT p) 32 1).enterRetrain p
    u.lnkState p = 5 ∧ u.b (R.LNK_INT p) 1 = true := by
  have hstate : ((s.setB (R.LNK_INT p) 1 true).count (R.LNK_AUDERRCNT p) 32 1).lnkState p = 4 := by
    rw [State.lnkState, State.f, rd_count_other _ 32 1 (by simp), rd_setB_other _ 1 true (by simp)]
    exact h4
  have hre := enterRetrain_facts _ p hstate
  refine ⟨hre.state, ?_⟩
  rw [hre.int, b_of_rd (rd_count_other _ 32 1 (by simp)), b_setB_same _ _ _ _ (by decide)]
  simp
end

/-- Settles O42: packets sent, packets received, acknowledgements, audits and delay, each by the lemma of its function. -/
theorem linkPackets : Obligations.LinkPackets := by
  refine ⟨fun s p k w h4 hen => ?_, fun s p h4 hen => congrArg Host.Outcome.next (packetSend_disabled h4 hen),
    fun s p h b1 b2 b3 h4 => ?_, fun s p h acct mark t1 t2 t3 h4 hn => ?_⟩
  · intro l fits
    have hfit : l.fits k = true ↔ fits := by simp [LichenPort.fits, fits]
    refine ⟨fun q t hr => congrArg Host.Outcome.next (packetSend_resend h4 hen hr), fun hr hk hf => ?_, fun hr hk howed => ?_⟩
    · obtain ⟨hd, hout, hseq, hnak, htx, hretry, htxq, hcr, hdata⟩ := packetSend_new_facts h4 hen hr hk (hfit.mpr hf)
      exact ⟨_, hd, rfl, hout, hseq, hnak, htx, hretry, htxq, hcr, hdata.sameMemory, hdata.jobs⟩
    · have hnone : s.nextPacket p.val = none ∨ s.nextPacket p.val = some (k, w) ∧ (s.lnk p.val).fits k = false :=
        hk.imp_right fun hk => ⟨hk.1, Bool.eq_false_iff.mpr fun hf => hk.2 (hfit.mp hf)⟩
      exact congrArg Host.Outcome.next ((packetSend_none h4 hen hr hnone).trans (if_pos howed))
  · intro b l k expected gone
    refine ⟨fun hcrc hsent => ?_, fun hcrc hsent => ?_, fun he hv => ⟨_, rfl, receive_valid_facts h4 he hv⟩,
      fun he hv => ⟨_, rfl, receive_invalid_facts h4 he hv⟩, fun hcrc hkind => ?_, ?_, fun hr => ?_, fun hen hr => ?_⟩
    · exact congrArg Host.Outcome.next ((dataReceive_badCrc h4 hcrc).trans (if_pos hsent))
    · exact congrArg Host.Outcome.next ((dataReceive_badCrc h4 hcrc).trans (if_neg (ne_true_of_eq_false hsent)))
    · refine congrArg Host.Outcome.next ((dataReceive_goodCrc h4 hcrc).trans ?_)
      rw [if_neg (by omega), if_pos hkind]
    · refine ⟨_, congrArg Host.Outcome.next ((if_pos h4).trans (takeHeader_eq s p.val _ rfl)), ?_, ?_, ?_,
        (SameRegsBut.refl _ s).onLnk, (SameData.refl s).onLnk.sameMemory⟩
      · rw [lnk_onLnk_same]
        rfl
      · rw [lnk_onLnk_same]
        exact congrArg VcAcct.cr (quad_get_set_same ..)
      · rw [lnk_onLnk_same]
        rfl
    · exact congrArg Host.Outcome.next ((if_pos h4).trans (takeHeader_resends s p.val h hr))
    · exact congrArg Host.Outcome.next (if_pos ⟨h4, hen, hr⟩)
  · intro l s1 judged d ds
    have hs1 : s1 = s.onLnk p.val (fun l => l.acked h s.clk) := takeHeader_eq s p.val h hn
    have hport : s1.lnk p.val = l.acked h s.clk := by rw [hs1, lnk_onLnk_same]
    obtain ⟨htb, -, hdelays, hfree, hdata⟩ := takeHeader_frame (s := s) (p := p.val) hn
    have hheld : exec (.audit p h (acct, mark)) s = .next ((s.auditHeld p.val h acct mark.toNat).judgeAudit p.val) :=
      congrArg Host.Outcome.next (if_pos h4)
    refine ⟨congrArg Host.Outcome.next (if_pos h4), fun hm => ?_, fun hm hall => ?_, fun hm hone => ?_,
      congrArg Host.Outcome.next (if_pos h4), ?_, fun h1 => ?_, fun h1 => ?_⟩
    · exact hheld.trans (congrArg Host.Outcome.next (audit_waits hn (Nat.not_lt.mpr hm)))
    · have hpass : (l.acked h s.clk).auditPasses acct = true := (auditPasses_iff ..).mpr (hport ▸ hall)
      refine ⟨_, hheld.trans (congrArg Host.Outcome.next ((audit_judged hn hm).trans (if_pos hpass))), ?_, h4,
        (SameRegsBut.refl _ s).onLnk, (SameData.refl s).onLnk.sameMemory⟩
      rw [lnk_onLnk_same]
    · obtain ⟨v, hv, hbad⟩ := hone
      have hfail : ¬ (l.acked h s.clk).auditPasses acct = true := fun hpass => by
        have hok := (auditPasses_iff ..).mp hpass v hv
        rw [← hport] at hok
        exact absurd (hbad.symm.trans hok) (by decide)
      exact ⟨_, hheld.trans (congrArg Host.Outcome.next ((audit_judged hn hm).trans (if_neg hfail))), auditFails_facts h4⟩
    · refine congrArg Host.Outcome.next ((if_pos h4).trans ((if_pos rfl).trans ?_))
      rw [htb]
    · obtain ⟨hlist, hshown, hregs, hmem⟩ := noteDelay_facts (s := s1) (p := p.val) d
      rw [hdelays] at hlist hshown
      exact ⟨_, congrArg Host.Outcome.next ((if_pos h4).trans (delayPacket_reply hn h1)), hlist, hshown,
        (hfree _).trans hregs, fun a => (hmem a).trans (hdata.sameMemory a)⟩
    · exact congrArg Host.Outcome.next ((if_pos h4).trans (delayPacket_unasked hn h1))

end Sys2Proof.Machine

/-! ## Remote operations at the serving device and the requester (O45) -/

namespace Sys2Proof.Machine

section
variable {s u : State} {p op : Nat} {k : Packet} {serve : State → State} {o : Outstanding}

/-! ### A request that arrives, and a packet that nothing answers (R294, R302, R306) -/

theorem inbound_mine (hrun : s.running = true) (hop : k.op.toNat = op) (hv : pktValid k = true) (hen : s.fabEn = true)
    (hmine : s.isMine k = true) : s.inbound p k op serve = serve s :=
  ((if_neg (by simp [hrun])).trans (if_neg (by simp [hop, hv, hen]))).trans (if_pos hmine)

theorem inbound_other (hrun : s.running = true) (hop : k.op.toNat = op) (hv : pktValid k = true) (hen : s.fabEn = true)
    (hmine : s.isMine k = false) :
    s.inbound p k op serve = ((s.takeRx p k).sendOn k).getD ((s.takeRx p k).respond p k 3 [] 0) :=
  ((if_neg (by simp [hrun])).trans (if_neg (by simp [hop, hv, hen]))).trans (if_neg (by simp [hmine]))

theorem inbound_discarded (hrun : s.running = true) (hbad : k.op.toNat ≠ op ∨ pktValid k = false ∨ s.fabEn = false) :
    s.inbound p k op serve = (s.takeRx p k).dropPacket p 1 := (if_neg (by simp [hrun])).trans (if_pos hbad)

theorem oneWay_mine (hrun : s.running = true) (hop : k.op.toNat = op) (hv : pktValid k = true) (hen : s.fabEn = true)
    (hmine : s.isMine k = true) : s.oneWay p k op serve = serve (s.takeRx p k) :=
  ((if_neg (by simp [hrun])).trans (if_neg (by simp [hop, hv, hen]))).trans (if_pos hmine)

theorem oneWay_other (hrun : s.running = true) (hop : k.op.toNat = op) (hv : pktValid k = true) (hen : s.fabEn = true)
    (hmine : s.isMine k = false) : s.oneWay p k op serve = (s.takeRx p k).passOn p k :=
  ((if_neg (by simp [hrun])).trans (if_neg (by simp [hop, hv, hen]))).trans (if_neg (by simp [hmine]))

/-! ### Responses (R307, R309) -/

theorem takeResp_outstanding (ho : s.fabric.outstanding.find? (fun o => o.tag == k.tag.toNat) = some o) :
    s.takeResp p k = (s.complete o (k.sub.toNat + b2n k.hi * 4) k.payload k.late).resumeAll := by
  unfold State.takeResp
  rw [ho]

theorem takeResp_late (ho : s.fabric.outstanding.find? (fun o => o.tag == k.tag.toNat) = none) :
    s.takeResp p k = (s.dropPacket p 1).onFab (fun f => { f with lateResponses := f.lateResponses + 1 }) := by
  unfold State.takeResp
  rw [ho]

theorem responseTimeout_outstanding {tag : Nat} (ho : s.fabric.outstanding.find? (fun o => o.tag == tag) = some o) :
    s.responseTimeout tag =
      (((s.untilTime (o.since + usTime (s.f R.FAB_RSPTO 15 0))).complete o 4 [] false).fabInt 10).resumeAll := by
  unfold State.responseTimeout
  rw [ho]

/-- The row of a request packet by its OP. -/
def requestRow (p : Fin 4) (k : Packet) (waited op : Nat) : Instr :=
  match op with
  | 0 => .remoteRead p k waited
  | 1 => .remoteWrite p k waited
  | _ => .remoteAtomic p k waited

/-- Each of the three request rows is the one way in, with a serving of its own. -/
theorem exec_requestRow (p : Fin 4) (k : Packet) (waited : Nat) {op : Nat} (hop : op < 3) :
    ∃ serve : State → State, ∀ s : State, exec (requestRow p k waited op) s = .next (s.inbound p.val k op serve) := by
  match op, hop with
  | 0, _ => exact ⟨_, fun _ => rfl⟩
  | 1, _ => exact ⟨_, fun _ => rfl⟩
  | 2, _ => exact ⟨_, fun _ => rfl⟩
end

/-- Settles O45: an inbound packet is discarded, passed on or taken; what it does here is the serving of its OP. -/
theorem remoteRequestsServed : Obligations.RemoteRequestsServed := by
  refine ⟨fun s s1 p k waited st d hrun => ?_, fun s p k o tag hrun => ?_⟩
  · intro s0 row
    refine ⟨fun hen hv hmine => ⟨fun hop hserve hst => ?_, fun hop hserve => ?_, fun hop hserve => ?_⟩,
      fun op hlt hen hv hop hother => ?_, fun op hlt hbad => ?_⟩
    · refine congrArg Host.Outcome.next ((inbound_mine hrun (by rw [hop]; rfl) hv hen hmine).trans ?_)
      dsimp only
      rw [hserve]
      exact if_neg hst
    · refine congrArg Host.Outcome.next ((inbound_mine hrun (by rw [hop]; rfl) hv hen hmine).trans ?_)
      dsimp only
      rw [hserve]
    · refine congrArg Host.Outcome.next ((inbound_mine hrun (by rw [hop]; rfl) hv hen hmine).trans ?_)
      dsimp only
      rw [hserve]
    · obtain ⟨serve, hrow⟩ := exec_requestRow p k waited hlt
      have hrow : exec (row op) s = .next ((s0.sendOn k).getD (s0.respond p.val k 3 [] 0)) :=
        (hrow s).trans (congrArg Host.Outcome.next (inbound_other hrun hop hv hen hother))
      exact ⟨fun u hu => by rw [hrow, hu]; rfl, fun hu => by rw [hrow, hu]; rfl⟩
    · obtain ⟨serve, hrow⟩ := exec_requestRow p k waited hlt
      exact (hrow s).trans (congrArg Host.Outcome.next (inbound_discarded hrun hbad))
  · intro s0
    refine ⟨fun hen hv hmine => ⟨fun hop ho => ?_, fun hop ho => ?_, fun hop => ?_, fun hop => ?_⟩,
      fun hen hv hother => ⟨fun hop => ?_, fun hop => ?_, fun hop => ?_⟩,
      fun ho => congrArg Host.Outcome.next (responseTimeout_outstanding ho)⟩
    · exact congrArg Host.Outcome.next ((oneWay_mine hrun (by rw [hop]; rfl) hv hen hmine).trans (takeResp_outstanding ho))
    · exact congrArg Host.Outcome.next ((oneWay_mine hrun (by rw [hop]; rfl) hv hen hmine).trans (takeResp_late ho))
    · exact congrArg Host.Outcome.next (oneWay_mine hrun (by rw [hop]; rfl) hv hen hmine)
    · exact congrArg Host.Outcome.next (oneWay_mine hrun (by rw [hop]; rfl) hv hen hmine)
    · exact congrArg Host.Outcome.next (oneWay_other hrun (by rw [hop]; rfl) hv hen hother)
    · exact congrArg Host.Outcome.next (oneWay_other hrun (by rw [hop]; rfl) hv hen hother)
    · exact congrArg Host.Outcome.next (oneWay_other hrun (by rw [hop]; rfl) hv hen hother)

end Sys2Proof.Machine

/-! ## Adverts, members and the packets of an epoch (O43) -/

namespace Sys2Proof.Machine

/-! ### Packets of the domain taken from their port (R295) -/

/-- From s to u one received packet may have left a port's buffer, its flits freed. -/
def Freed (p : Nat) (s u : State) : Prop := ∃ q vc, u = s.onLnk p (fun l => { l with rxq := q, vc := vc })

theorem freed_takeRx (s : State) (p : Nat) (k : Packet) : Freed p s (s.takeRx p k) := by
  unfold State.takeRx
  split
  · unfold State.freeFlits State.onVc
    rw [onLnk_onLnk]
    exact ⟨_, _, onLnk_congr s p rfl⟩
  · exact ⟨(s.lnk p).rxq, (s.lnk p).vc, (onLnk_self s p rfl).symm⟩

theorem freed_takeTyped (s : State) (p op sub : Nat) (b : List Byte) : Freed p s (s.takeTyped p op sub b) := by
  unfold State.takeTyped
  split
  · exact freed_takeRx ..
  · exact ⟨(s.lnk p).rxq, (s.lnk p).vc, (onLnk_self s p rfl).symm⟩

section
variable {s u : State} {p : Nat} (h : Freed p s u)
include h

theorem Freed.members : u.fabric.members = s.fabric.members := by
  obtain ⟨q, vc, rfl⟩ := h
  rfl

theorem Freed.fabUp : u.fabUp = s.fabUp := by
  obtain ⟨q, vc, rfl⟩ := h
  rfl

theorem Freed.regs (l : List Nat) : SameRegsBut l s u := by
  obtain ⟨q, vc, rfl⟩ := h
  exact (SameRegsBut.refl l s).onLnk

theorem Freed.data : SameData s u := by
  obtain ⟨q, vc, rfl⟩ := h
  exact (SameData.refl s).onLnk
end

/-! ### Adverts (R295, R303) -/

section
variable {s : State} {p : Nat} {a : Advert}

/-- The partners that have not advertised for 20 us. -/
def State.silentPorts (s : State) : List Nat :=
  s.upPorts.filter (fun q => (s.lnk q).advSeen && decide ((s.lnk q).advAt + usTime 20 < s.now))

theorem silentPorts_none (h : ∀ q : Fin 4, (s.lnk q.val).advSeen = true → s.now ≤ (s.lnk q.val).advAt + usTime 20) :
    s.silentPorts = [] := by
  refine List.filter_eq_nil_iff.mpr fun q hq => ?_
  have hlt : q < 4 := List.mem_range.mp (List.mem_filter.mp hq).1
  intro hsilent
  obtain ⟨hseen, hlate⟩ := Bool.and_eq_true_iff.mp hsilent
  exact Nat.not_le.mpr (of_decide_eq_true hlate) (h ⟨q, hlt⟩ hseen)

theorem advertTime_fresh (h : s.silentPorts = []) : s.advertTime = s.sendAdverts := by
  cases hen : s.fabEn with
  | true =>
    refine (if_pos hen).trans ?_
    exact congrArg (fun l => (s.each l fun s q => s.partnerGone q).sendAdverts) h
  | false =>
    refine (if_neg (by simp [hen])).trans ?_
    exact (if_neg (by simp [hen])).symm

/-- The state with an ADVERT noted at its port, before the election. -/
def State.advertNoted (s : State) (p : Nat) (a : Advert) : State :=
  let s1 := (s.takeTyped p 6 1 (advertBytes a)).onLnk p (fun l => l.noteAdvert a s.now)
  let s2 := (s1.putF (R.LNK_STAT p) 9 4 a.ownId.toNat).setB (R.LNK_STAT p) 10 (a.ownId.toNat < 64)
  if s.pathOver p && (s2.lnk p).advUid != s.fabric.bestUid then s2.forgetPairs.onLnk p (fun l => l.noteAdvert a s.now) else s2

theorem advert_eq (hen : s.fabEn = true) (hup : s.linkUp p = true) : s.advert p a =
    if !(s.lnk p).advSeen then (s.advertNoted p a).newEpoch else (s.advertNoted p a).reelect := if_neg (by simp [hen, hup])

theorem forgetPairs_regs (s : State) (l : List Nat) : SameRegsBut l s s.forgetPairs := by
  unfold State.forgetPairs State.each
  simp only [show List.range 4 = [0, 1, 2, 3] from rfl, List.foldl]
  exact (SameRegsBut.refl l s).onLnk.onLnk.onLnk.onLnk

theorem forgetPairs_data (s : State) : SameData s s.forgetPairs := (SameData.refl s).each fun _ _ h => h.onLnk

/-- What a port shows of its partner's ADVERT. -/
theorem advertNoted_facts : (∃ l : LichenPort, (s.advertNoted p a).lnk p = l.noteAdvert a s.now) ∧
    (s.advertNoted p a).f (R.LNK_STAT p) 9 4 = a.ownId.toNat % 64 ∧
    (s.advertNoted p a).b (R.LNK_STAT p) 10 = decide (a.ownId.toNat < 64) ∧
    SameRegsBut [R.LNK_STAT p] s (s.advertNoted p a) ∧ SameMemory s (s.advertNoted p a) := by
  unfold State.advertNoted
  extract_lets s1 s2
  have hfreed := freed_takeTyped s p 6 1 (advertBytes a)
  have hport : s2.lnk p = ((s.takeTyped p 6 1 (advertBytes a)).lnk p).noteAdvert a s.now := by
    rw [lnk_setB, lnk_putF, lnk_onLnk_same]
  have hid : s2.f (R.LNK_STAT p) 9 4 = a.ownId.toNat % 64 :=
    (f_setB_other _ _ _ _ (by decide) (by decide) (by decide)).trans (f_putF_same _ _ _ (by decide) (by decide))
  have hvalid : s2.b (R.LNK_STAT p) 10 = decide (a.ownId.toNat < 64) := b_setB_same _ _ _ _ (by decide)
  have hregs : SameRegsBut [R.LNK_STAT p] s s2 := ((hfreed.regs _).onLnk.putF (by simp)).setB (by simp)
  have hdata : SameData s s2 := hfreed.data.onLnk.putF.setB
  split
  · have hforget := (forgetPairs_regs s2 []).onLnk (p := p) (g := fun l => l.noteAdvert a s.now)
    exact ⟨⟨_, lnk_onLnk_same ..⟩, (hforget.f (by simp)).trans hid, (hforget.b (by simp)).trans hvalid,
      hregs.trans (hforget.mono (by simp)), (hdata.trans (forgetPairs_data s2).onLnk).sameMemory⟩
  · exact ⟨⟨_, hport⟩, hid, hvalid, hregs, hdata.sameMemory⟩

theorem noteAdvert_near (l : LichenPort) (now : Nat) (hnear : a.hops.toNat < 63) : (l.noteAdvert a now).advPrio = a.bestPrio.toNat ∧
    (l.noteAdvert a now).advUid = a.bestUid ∧ (l.noteAdvert a now).advHops = a.hops.toNat := by
  have hfar : ¬ decide (63 ≤ a.hops.toNat) = true := by
    rw [decide_eq_true_eq]
    omega
  exact ⟨if_neg hfar, if_neg hfar, if_neg hfar⟩
end

/-! ### Member reports (R295, R303) -/

section
variable {s : State} {p : Nat} {i x : MemberInfo} {m : MemberReport}

/-- A MEMBER packet as a report. -/
def reportOf (m : MemberReport) : MemberInfo :=
  { uid := m.uid, weight := m.weight.toNat, pin := m.pin, pinId := m.pinId.toNat, prevId := m.prevId.toNat
    prevQuorate := m.prevQuorate, links := m.links.map (fun k => (k.1.val, k.2)) }

theorem memberReport_member {q : Nat} (hen : s.fabEn = true) (hkey : s.isKeystone = false) (hport : s.fabric.bestPort = some q) :
    s.memberReport p m = (s.takeTyped p 6 2 (memberBytes (reportOf m))).queueDomain q 0 6 2 (memberBytes (reportOf m)) := by
  unfold State.memberReport
  rw [if_neg (by simp [hen]), if_neg (by simp [hkey]), hport]
  rfl

theorem memberHeard_new (hfind : s.fabric.members.find? (fun x => x.uid == i.uid) = none) :
    s.memberHeard i = s.collect (s.fabric.members.filter (fun x => x.uid != i.uid) ++ [i]) := by
  unfold State.memberHeard
  rw [hfind]

theorem memberHeard_relinked (hfind : s.fabric.members.find? (fun x => x.uid == i.uid) = some x) (hlinks : x.links ≠ i.links) :
    s.memberHeard i = s.collect (s.fabric.members.filter (fun x => x.uid != i.uid) ++ [i]) := by
  unfold State.memberHeard
  rw [hfind]
  exact if_neg fun h => hlinks h.1

theorem memberHeard_known (hfind : s.fabric.members.find? (fun x => x.uid == i.uid) = some x) (hlinks : x.links = i.links)
    (hup : s.fabUp = true) (hq : x.prevQuorate = i.prevQuorate) : s.memberHeard i =
      s.onFab (fun f => { f with members := s.fabric.members.filter (fun x => x.uid != i.uid) ++ [i] }) := by
  unfold State.memberHeard
  rw [hfind]
  refine (if_pos ⟨hlinks, hup⟩).trans ?_
  dsimp only
  split
  · exact if_neg (by rw [hq]; rintro ⟨h1, h2, -⟩; rw [h1] at h2; cases h2)
  · rfl

theorem memberReport_keystone (hen : s.fabEn = true) (hkey : s.isKeystone = true) :
    s.memberReport p m = (s.takeTyped p 6 2 (memberBytes (reportOf m))).memberHeard (reportOf m) :=
  (if_neg (by simp [hen])).trans (if_pos hkey)

/-- The reports that the keystone holds of other members than m. -/
def State.othersThan (s : State) (m : MemberReport) : List MemberInfo :=
  s.fabric.members.filter (fun x => x.uid != (reportOf m).uid)

section
variable (hen : s.fabEn = true) (hkey : s.isKeystone = true)
include hen hkey

theorem memberReport_new (hfind : s.fabric.members.find? (fun x => x.uid == (reportOf m).uid) = none) :
    s.memberReport p m = (s.takeTyped p 6 2 (memberBytes (reportOf m))).collect (s.othersThan m ++ [reportOf m]) := by
  have hfreed := freed_takeTyped s p 6 2 (memberBytes (reportOf m))
  rw [memberReport_keystone hen hkey, memberHeard_new (by rwa [hfreed.members]), hfreed.members, State.othersThan]

theorem memberReport_relinked (hfind : s.fabric.members.find? (fun x => x.uid == (reportOf m).uid) = some x)
    (hlinks : x.links ≠ (reportOf m).links) :
    s.memberReport p m = (s.takeTyped p 6 2 (memberBytes (reportOf m))).collect (s.othersThan m ++ [reportOf m]) := by
  have hfreed := freed_takeTyped s p 6 2 (memberBytes (reportOf m))
  rw [memberReport_keystone hen hkey, memberHeard_relinked (by rwa [hfreed.members]) hlinks, hfreed.members, State.othersThan]

theorem memberReport_known (hfind : s.fabric.members.find? (fun x => x.uid == (reportOf m).uid) = some x)
    (hlinks : x.links = (reportOf m).links) (hup : s.fabUp = true) (hq : x.prevQuorate = (reportOf m).prevQuorate) :
    s.memberReport p m = (s.takeTyped p 6 2 (memberBytes (reportOf m))).onFab
      (fun f => { f with members := s.othersThan m ++ [reportOf m] }) := by
  have hfreed := freed_takeTyped s p 6 2 (memberBytes (reportOf m))
  rw [memberReport_keystone hen hkey, memberHeard_known (by rwa [hfreed.members]) hlinks (hfreed.fabUp.trans hup) hq,
    hfreed.members, State.othersThan]
end
end

/-! ### ASSIGN, ROUTE and QUORUM at a device (R304, R306, R315) -/

section
variable {s : State} {p dst : Nat} {epoch frame : DWord} {l : List (DWord × Nat)} {t : List Word} {q : QuorumDecision}

theorem assignPacket_taken (hen : s.fabEn = true) (hkey : s.isKeystone = false)
    (hnew : epoch ≠ s.fabric.epoch ∨ l ≠ s.fabric.ids) : s.assignPacket p epoch l =
      ((s.takeTyped p 6 3 (assignBytes epoch l)).takeAssign epoch l).floodDomain p 3 (assignBytes epoch l) := by
  refine if_neg ?_
  simp only [hen, hkey, Bool.true_eq_false, Bool.false_eq_true, false_or]
  rintro ⟨he, hl⟩
  exact hnew.elim (fun h => h he) fun h => h hl

theorem assignPacket_keystone (hkey : s.isKeystone = true) : s.assignPacket p epoch l = s.takeTyped p 6 3 (assignBytes epoch l) :=
  if_pos (.inr (.inl hkey))

theorem quorumPacket_taken (hen : s.fabEn = true) (hkey : s.isKeystone = false) (he : q.epoch = s.fabric.epoch)
    (hnew : s.fabric.decision ≠ some q) : s.quorumPacket p q =
      ((s.takeTyped p 6 5 (quorumBytes q)).takeDecision q).floodDomain p 5 (quorumBytes q) :=
  if_neg (by simp [hen, hkey, he, hnew])

theorem quorumPacket_keystone (hkey : s.isKeystone = true) : s.quorumPacket p q = s.takeTyped p 6 5 (quorumBytes q) :=
  if_pos (.inr (.inl hkey))

theorem routePacket_mine (hen : s.fabEn = true) (hmine : s.ownId = some dst) : s.routePacket p dst epoch frame t =
    if s.isKeystone = true ∨ epoch ≠ s.fabric.epoch then s.takeTyped p 6 4 (routeBytes epoch frame t)
    else (s.takeTyped p 6 4 (routeBytes epoch frame t)).takeRoute frame (t.map (fun w => w &&& 0x3FF)) :=
  (if_neg (by simp [hen])).trans (if_neg (by simp [hmine]))

theorem routePacket_keystone (hmine : s.ownId = some dst) (hkey : s.isKeystone = true) :
    s.routePacket p dst epoch frame t = s.takeTyped p 6 4 (routeBytes epoch frame t) := by
  cases hen : s.fabEn with
  | true => exact (routePacket_mine hen hmine).trans (if_pos (.inl hkey))
  | false => exact if_pos hen

/-- A received packet that a command stands for has the payload and the OP of the command. -/
theorem typedPacket_getD {sub : Nat} {b : List Byte} {d : Packet} (hpayload : d.payload = b) (hop : d.op = 6) :
    ((s.typedPacket p 6 sub b).getD d).payload = b ∧ ((s.typedPacket p 6 sub b).getD d).op = 6 := by
  cases hk : s.typedPacket p 6 sub b with
  | none => exact ⟨hpayload, hop⟩
  | some k =>
    have hfound := List.find?_some hk
    simp only [Bool.and_eq_true, beq_iff_eq] at hfound
    obtain ⟨⟨hk6, -⟩, hkb⟩ := hfound
    exact ⟨hkb, BitVec.eq_of_toNat_eq hk6⟩

/-- A ROUTE for another device goes on as the packet received, or as one that says the same. -/
theorem routePacket_other (hen : s.fabEn = true) (hother : s.ownId ≠ some dst) : ∃ k : Packet,
    k.payload = routeBytes epoch frame t ∧ k.op = 6 ∧
    s.routePacket p dst epoch frame t = (s.takeTyped p 6 4 (routeBytes epoch frame t)).passOn p k := by
  obtain ⟨hpayload, hop⟩ := typedPacket_getD (s := s) (p := p) (sub := 4)
    (d := domainPacket (s.f R.FAB_STAT 13 8) dst 6 4 (routeBytes epoch frame t)) rfl rfl
  exact ⟨_, hpayload, hop, (if_neg (by simp [hen])).trans (if_pos hother)⟩
end

/-! ### Interrupts of the fabric (R321, R333) -/

section
variable (s : State) (i : Nat)

theorem sendMsi_frame (v : Nat) : (s.sendMsi v).csr = s.csr ∧ (s.sendMsi v).fabric = s.fabric ∧ SameData s (s.sendMsi v) := by
  unfold State.sendMsi
  split
  · exact ⟨rfl, rfl, .refl s⟩
  · split
    · exact ⟨rfl, rfl, rfl, rfl, rfl⟩
    · exact ⟨rfl, rfl, (SameData.refl s).emit⟩

theorem signalHost_frame (k : Nat) :
    (s.signalHost k).csr = s.csr ∧ (s.signalHost k).fabric = s.fabric ∧ SameData s (s.signalHost k) := by
  obtain ⟨hcsr, hfab, hdata⟩ := sendMsi_frame (s.onHost (fun h => { h with ep3 := putBit h.ep3 (16 + k) true })) (16 + k)
  exact ⟨hcsr, hfab, hdata.jobs, hdata.threads, hdata.cells⟩

/-- A FAB_INT bit set and noted for FABRIC_STATUS, before the host hears of it. -/
def State.intNoted (s : State) (i : Nat) : State :=
  (s.setB R.FAB_INT i true).onFab (fun f => { f with intSince := putBit f.intSince i true })

theorem rd_fabInt (r : Nat) : (s.fabInt i).rd r = (s.setB R.FAB_INT i true).rd r := by
  obtain ⟨hcsr, -, -⟩ := signalHost_frame (s.intNoted i) 3
  exact congrArg (sget regReset · r) hcsr

theorem fabric_fabInt : (s.fabInt i).fabric = { s.fabric with intSince := putBit s.fabric.intSince i true } := by
  obtain ⟨-, hfab, -⟩ := signalHost_frame (s.intNoted i) 3
  exact hfab

theorem sameData_fabInt {s u : State} (h : SameData s u) : SameData s (u.fabInt i) := by
  obtain ⟨-, -, hdata⟩ := signalHost_frame (u.intNoted i) 3
  exact h.setB.onFab.trans hdata

theorem regs_fabInt : SameRegsBut [R.FAB_INT] s (s.fabInt i) :=
  fun r hr => (rd_fabInt s i r).trans (rd_setB_other s i true (by simpa using hr))

theorem b_fabInt (hi : i < 32) (j : Nat) : (s.fabInt i).b R.FAB_INT j = (decide (j = i) || s.b R.FAB_INT j) := by
  rw [b_of_rd (rd_fabInt s i _), b_setB _ _ _ _ _ _ hi]
  by_cases h : j = i
  · simp [h]
  · simp [h]
end

/-! ### What an ASSIGN leaves (R303, R304) -/

section
variable (s : State) (epoch : DWord) (l : List (DWord × Nat))

theorem enterEpoch_facts : s.enterEpoch.fabric.decision = none ∧ s.enterEpoch.b R.FAB_INT 0 = true ∧ SameData s s.enterEpoch := by
  unfold State.enterEpoch
  refine ⟨?_, ?_, sameData_fabInt 0 (SameData.refl s).onFab.setB⟩
  · rw [fabric_fabInt]
    rfl
  · rw [b_fabInt _ 0 (by decide)]
    rfl

/-- The member at the beginning of an assignment. -/
def State.atEpoch (s : State) (epoch : DWord) : State := if epoch = s.fabric.epoch then s else s.enterEpoch

/-- The assignment in the fabric's state and in FAB_EPOCH. -/
def State.inEpoch (s : State) (epoch : DWord) (l : List (DWord × Nat)) : State :=
  ((s.atEpoch epoch).onFab (fun f => { f with epoch := epoch, ids := l })).wr R.FAB_EPOCH (BitVec.ofNat 32 epoch.toNat)

/-- The assignment as FAB_STAT shows it, to the keystone's ID ks and the own one. -/
def State.showAssign (s : State) (n ks id : Nat) : State :=
  ((((s.putF R.FAB_STAT 22 16 n).putF R.FAB_STAT 13 8 ks).setB R.FAB_STAT 6 (id != 255)).setB R.FAB_STAT 23 (id == 255)).putF
    R.FAB_STAT 5 0 (if id = 255 then 0 else id)

theorem takeAssign_cases : ∃ ks,
    s.takeAssign epoch l = (s.inEpoch epoch l).showAssign l.length ks (idOf l Config.otpUid) ∨
    s.takeAssign epoch l = ((s.inEpoch epoch l).showAssign l.length ks (idOf l Config.otpUid)).fabInt 9 := by
  refine ⟨idOf l s.fabric.bestUid, ?_⟩
  unfold State.takeAssign
  extract_lets had id ks s0 s1 s2 s3
  split
  · exact .inr rfl
  · exact .inl rfl

theorem fabric_showAssign (n ks id : Nat) : (s.showAssign n ks id).fabric = s.fabric := by
  rw [State.showAssign, fabric_putF, fabric_setB, fabric_setB, fabric_putF, fabric_putF]

theorem showAssign_facts (n ks id : Nat) :
    let u := s.showAssign n ks id
    u.f R.FAB_STAT 22 16 = n % 128 ∧ u.b R.FAB_STAT 6 = (id != 255) ∧ u.b R.FAB_STAT 23 = (id == 255) ∧
    u.f R.FAB_STAT 5 0 = (if id = 255 then 0 else id) % 64 ∧ SameRegsBut [R.FAB_STAT] s u := by
  intro u
  refine ⟨?_, ?_, ?_, f_putF_same _ _ _ (by decide) (by decide), ?_⟩
  · unfold u State.showAssign
    rw [f_putF_other _ _ _ (by decide) (by decide) (by decide) (by decide), f_setB_other _ _ _ _ (by decide) (by decide) (by decide),
      f_setB_other _ _ _ _ (by decide) (by decide) (by decide), f_putF_other _ _ _ (by decide) (by decide) (by decide) (by decide),
      f_putF_same _ _ _ (by decide) (by decide)]
    rfl
  · unfold u State.showAssign
    rw [b_putF_other _ _ _ (by decide) (by decide) (by decide), b_setB _ _ _ _ _ _ (by decide), if_neg (by decide),
      b_setB_same _ _ _ _ (by decide)]
  · unfold u State.showAssign
    rw [b_putF_other _ _ _ (by decide) (by decide) (by decide), b_setB_same _ _ _ _ (by decide)]
  · have hmem : R.FAB_STAT ∈ [R.FAB_STAT] := List.mem_singleton_self _
    exact (((((SameRegsBut.refl _ s).putF hmem).putF hmem).setB hmem).setB hmem).putF hmem

theorem inEpoch_facts :
    let u := s.inEpoch epoch l
    u.fabric.epoch = epoch ∧ u.fabric.ids = l ∧ u.rd R.FAB_EPOCH = BitVec.ofNat 32 epoch.toNat ∧
    (epoch ≠ s.fabric.epoch → u.fabric.decision = none ∧ u.b R.FAB_INT 0 = true) ∧ SameData s u := by
  intro u
  have hfab : u.fabric = { (s.atEpoch epoch).fabric with epoch := epoch, ids := l } := by
    rw [show u = s.inEpoch epoch l from rfl, State.inEpoch, fabric_wr, fabric_onFab]
  obtain ⟨hdec, hint, hdata⟩ := enterEpoch_facts s
  refine ⟨by rw [hfab], by rw [hfab], rd_wr_same .., fun hne => ?_, ?_⟩
  · have hat : s.atEpoch epoch = s.enterEpoch := if_neg hne
    rw [hfab, hat]
    refine ⟨hdec, ?_⟩
    unfold u State.inEpoch
    rw [b_of_rd (rd_wr_other _ _ (by decide)), b_onFab, hat]
    exact hint
  · unfold u State.inEpoch State.atEpoch
    exact ((SameData.refl s).ite hdata).onFab.wr

/-- What an assignment shows, whether or not it says that the device's ID has changed. -/
theorem takeAssign_facts :
    let u := s.takeAssign epoch l
    let id := idOf l Config.otpUid
    u.fabric.epoch = epoch ∧ u.fabric.ids = l ∧ u.rd R.FAB_EPOCH = BitVec.ofNat 32 epoch.toNat ∧ u.f R.FAB_STAT 22 16 = l.length % 128 ∧
    u.b R.FAB_STAT 6 = (id != 255) ∧ u.b R.FAB_STAT 23 = (id == 255) ∧ u.f R.FAB_STAT 5 0 = (if id = 255 then 0 else id) % 64 ∧
    (epoch ≠ s.fabric.epoch → u.fabric.decision = none ∧ u.b R.FAB_INT 0 = true) ∧ SameData s u := by
  intro u id
  obtain ⟨ks, hcases⟩ := takeAssign_cases s epoch l
  obtain ⟨hepoch, hids, hreg, hnew, hdata⟩ := inEpoch_facts s epoch l
  obtain ⟨hcount, hvalid, hnoid, hid, hregs⟩ := showAssign_facts (s.inEpoch epoch l) l.length ks id
  have hshown : SameData s ((s.inEpoch epoch l).showAssign l.length ks id) := hdata.putF.putF.setB.setB.putF
  rcases hcases with hu | hu
  · have hu : u = _ := hu
    rw [hu, fabric_showAssign]
    exact ⟨hepoch, hids, (hregs.rd (by decide)).trans hreg, hcount, hvalid, hnoid, hid,
      fun hne => (hnew hne).imp_right (hregs.b (by decide)).trans, hshown⟩
  · have hu : u = _ := hu
    have hsame := regs_fabInt ((s.inEpoch epoch l).showAssign l.length ks id) 9
    rw [hu, fabric_fabInt, fabric_showAssign]
    refine ⟨hepoch, hids, (hsame.rd (by decide)).trans ((hregs.rd (by decide)).trans hreg), (hsame.f (by decide)).trans hcount,
      (hsame.b (by decide)).trans hvalid, (hsame.b (by decide)).trans hnoid, (hsame.f (by decide)).trans hid,
      fun hne => ?_, sameData_fabInt 9 hshown⟩
    obtain ⟨hdec, hint⟩ := hnew hne
    exact ⟨hdec, by rw [b_fabInt _ 9 (by decide), hregs.b (by decide), hint, Bool.or_true]⟩
end

/-- Settles O43: adverts and reports, the packets of an epoch, and what an assignment leaves, each by the lemma of its function. -/
theorem domainEpochs : Obligations.DomainEpochs := by
  refine ⟨fun s p a m q => ?_, fun s p dst epoch frame ids t q => ?_, fun s epoch l => ?_⟩
  · intro i s1 others s2 noted
    have hnoted : noted (s.advertNoted p.val a) := by
      obtain ⟨⟨l, hport⟩, hid, hvalid, hregs, hmem⟩ := advertNoted_facts (s := s) (p := p.val) (a := a)
      refine ⟨?_, hid, hvalid, ?_, ?_, fun hnear => ?_, hregs, hmem⟩
      · rw [hport]
        rfl
      · rw [hport]
        rfl
      · rw [hport]
        rfl
      · rw [hport]
        exact noteAdvert_near l s.now hnear
    refine ⟨fun hrun hfresh => ?_, fun hrun hen => ?_, fun hen hup hseen => ?_, fun hen hup hseen => ?_, fun hen hkey hfind => ?_,
      fun x hen hkey hfind => ?_, fun hen hkey hport => congrArg Host.Outcome.next (memberReport_member hen hkey hport)⟩
    · exact congrArg Host.Outcome.next ((if_pos hrun).trans (advertTime_fresh (silentPorts_none hfresh)))
    · exact congrArg Host.Outcome.next ((if_pos hrun).trans (if_pos hen))
    · exact ⟨_, congrArg Host.Outcome.next ((advert_eq hen hup).trans (if_pos (by simp [hseen]))), hnoted⟩
    · exact ⟨_, congrArg Host.Outcome.next ((advert_eq hen hup).trans (if_neg (by simp [hseen]))), hnoted⟩
    · have heq := memberReport_new (p := p.val) (m := m) hen hkey hfind
      exact ⟨fun hall => congrArg Host.Outcome.next (heq.trans (if_pos hall)),
        fun hmissing => congrArg Host.Outcome.next (heq.trans (if_neg (ne_true_of_eq_false hmissing)))⟩
    · exact ⟨fun hlinks hall => congrArg Host.Outcome.next ((memberReport_relinked hen hkey hfind hlinks).trans (if_pos hall)),
        fun hlinks hup hq => congrArg Host.Outcome.next (memberReport_known hen hkey hfind hlinks hup hq)⟩
  · intro l e r d
    refine ⟨fun hen hkey => ⟨fun hnew => ?_, fun hmine he => ?_, fun hmine he => ?_, fun he hnew => ?_⟩, fun hen hother => ?_,
      fun hkey => ⟨?_, ?_, fun hmine => ?_⟩⟩
    · exact congrArg Host.Outcome.next (assignPacket_taken hen hkey hnew)
    · exact congrArg Host.Outcome.next ((routePacket_mine hen hmine).trans (if_neg (by simp [hkey, he])))
    · exact congrArg Host.Outcome.next ((routePacket_mine hen hmine).trans (if_pos (.inr he)))
    · exact congrArg Host.Outcome.next (quorumPacket_taken hen hkey he hnew)
    · obtain ⟨k, hpayload, hop, heq⟩ := routePacket_other (p := p.val) (epoch := epoch) (frame := frame) (t := t) hen hother
      exact ⟨k, hpayload, hop, congrArg Host.Outcome.next heq⟩
    · exact congrArg Host.Outcome.next (assignPacket_keystone hkey)
    · exact congrArg Host.Outcome.next (quorumPacket_keystone hkey)
    · exact congrArg Host.Outcome.next (routePacket_keystone hmine hkey)
  · intro u id
    obtain ⟨hepoch, hids, hreg, hcount, hvalid, hnoid, hid, hnew, hdata⟩ := takeAssign_facts s epoch l
    refine ⟨hepoch, hids, hreg, hcount, hvalid, hnoid, fun hlt => hid.trans ?_, fun hnone => hid.trans ?_, hnew, hdata.sameMemory,
      hdata.jobs, hdata.threads⟩
    · rw [if_neg (by omega), Nat.mod_eq_of_lt hlt]
    · rw [if_pos hnone]

end Sys2Proof.Machine

/-! ## Mailboxes, doorbells and the host's window (O47, O48, O49) -/

namespace Sys2Proof.Machine

/-! ### What messages to the host leave alone (R333, R338) -/

/-- A property that holds at 0 and is carried over each index holds after a change folded over the indices below n. -/
theorem each_range {P : Nat → State → Prop} {g : State → Nat → State} {s : State} (h0 : P 0 s)
    (hstep : ∀ k u, P k u → P (k + 1) (g u k)) : ∀ n, P n (s.each (List.range n) g)
  | 0 => h0
  | n + 1 => by
    unfold State.each
    rw [List.range_succ, List.foldl_append]
    exact hstep n _ (each_range h0 hstep n)

/-- A register that no change of a list writes reads as before. -/
theorem rd_each {α : Type} {s : State} {r : Nat} {g : State → α → State} {l : List α} (hg : ∀ u, ∀ a ∈ l, (g u a).rd r = u.rd r) :
    (s.each l g).rd r = s.rd r := by
  induction l generalizing s with
  | nil => rfl
  | cons a t ih =>
    exact (ih fun u b hb => hg u b (List.mem_cons_of_mem a hb)).trans (hg s a List.mem_cons_self)

/-- The state without its register file, the host interface and its outputs. -/
def State.besidesHost (s : State) : State :=
  { s with csr := [], events := [], brought := [], eventClk := 0, host := {}, out := [] }

/-- From s to u at most registers, the host interface and outputs have changed. -/
structure HostOnly (s u : State) : Prop where
  same : u.besidesHost = s.besidesHost

namespace HostOnly

theorem refl (s : State) : HostOnly s s := ⟨rfl⟩

section
variable {s u : State} (h : HostOnly s u)
include h

theorem trans {v : State} (h2 : HostOnly u v) : HostOnly s v := ⟨h2.same.trans h.same⟩

theorem wr {off : Nat} {x : Word} : HostOnly s (u.wr off x) := ⟨h.same⟩
theorem setB {off i : Nat} {x : Bool} : HostOnly s (u.setB off i x) := ⟨h.same⟩
theorem putF {off hi lo x : Nat} : HostOnly s (u.putF off hi lo x) := ⟨h.same⟩
theorem onHost {g : HostIf → HostIf} : HostOnly s (u.onHost g) := ⟨h.same⟩
theorem emit {o : Out} : HostOnly s (u.emit o) := ⟨h.same⟩

theorem ite {c : Prop} [Decidable c] {v : State} (h2 : HostOnly s v) : HostOnly s (if c then u else v) := by split <;> assumption

theorem each {α : Type} {l : List α} {g : State → α → State} (hg : ∀ u a, HostOnly s u → HostOnly s (g u a)) :
    HostOnly s (u.each l g) := by
  induction l generalizing u with
  | nil => exact h
  | cons a t ih => exact ih (hg u a h)

theorem sendMsi {v : Nat} : HostOnly s (u.sendMsi v) := h.ite (h.onHost.ite h.emit)

theorem mem : u.mem = s.mem := (congrArg State.mem h.same :)
theorem jobs : u.jobs = s.jobs := (congrArg State.jobs h.same :)
theorem threads : u.threads = s.threads := (congrArg State.threads h.same :)
theorem ledger : u.ledger = s.ledger := (congrArg State.ledger h.same :)
theorem fw : u.fw = s.fw := (congrArg State.fw h.same :)
theorem upd : u.upd = s.upd := (congrArg State.upd h.same :)

theorem sameMemory : SameMemory s u := .of_mem h.mem
end
end HostOnly

section
variable (s : State) (v : Nat)

@[simp] theorem rd_onHost (g : HostIf → HostIf) (r : Nat) : (s.onHost g).rd r = s.rd r := rfl
@[simp] theorem rd_emit (o : Out) (r : Nat) : (s.emit o).rd r = s.rd r := rfl

theorem sendMsi_off (h : s.host.msixEn = false) : s.sendMsi v = s := if_pos h

theorem sendMsi_masked (h : s.host.msixEn = true) (hm : (s.msixWord (4 * v + 3)).getLsbD 0 = true) :
    s.sendMsi v = s.onHost (fun x => { x with msixPending := putBit x.msixPending v true }) :=
  (if_neg (by simp [h])).trans (if_pos hm)

theorem sendMsi_sent (h : s.host.msixEn = true) (hm : (s.msixWord (4 * v + 3)).getLsbD 0 = false) :
    s.sendMsi v = s.emit (.msix v) := (if_neg (by simp [h])).trans (if_neg (ne_true_of_eq_false hm))

theorem rd_sendMsi (r : Nat) : (s.sendMsi v).rd r = s.rd r := by
  obtain ⟨hcsr, -, -⟩ := sendMsi_frame s v
  exact congrArg (sget regReset · r) hcsr

/-- A bit that is set in a number is there. -/
theorem testBit_putBit_true (x i : Nat) : (putBit x i true).testBit i = true := by
  unfold putBit
  split
  next h => exact h
  next h =>
    rw [if_pos rfl, Nat.add_comm, Nat.testBit_two_pow_add_eq]
    simpa using h
end

/-! ### The publish (R338) -/

section
variable (s : State) (n : Nat)

/-- The first k staged words shown in the result area. -/
def State.resultsShown (s : State) (n k : Nat) : State :=
  s.each (List.range k) (fun s w => s.wr (R.MBX_RES n w) (s.stagingWord n w))

theorem host_resultsShown (k : Nat) : (s.resultsShown n k).host = s.host ∧ (s.resultsShown n k).out = s.out :=
  each_range (P := fun _ u => u.host = s.host ∧ u.out = s.out) (g := fun s w => s.wr (R.MBX_RES n w) (s.stagingWord n w))
    ⟨rfl, rfl⟩ (fun _ _ h => h) k

theorem hostOnly_resultsShown (k : Nat) : HostOnly s (s.resultsShown n k) := (HostOnly.refl s).each fun _ _ h => h.wr

theorem rd_resultsShown (r : Nat) : ∀ k,
    (∀ w, w < k → r = R.MBX_RES n w → (s.resultsShown n k).rd r = s.stagingWord n w) ∧
    ((∀ w, w < k → r ≠ R.MBX_RES n w) → (s.resultsShown n k).rd r = s.rd r)
  | 0 => ⟨by simp, fun _ => rfl⟩
  | k + 1 => by
    obtain ⟨hin, hout⟩ := rd_resultsShown r k
    obtain ⟨hhost, -⟩ := host_resultsShown s n k
    have hsucc : s.resultsShown n (k + 1) = (s.resultsShown n k).wr (R.MBX_RES n k) (s.stagingWord n k) := by
      unfold State.resultsShown State.each at hhost ⊢
      rw [List.range_succ, List.foldl_append, List.foldl_cons, List.foldl_nil]
      exact congrArg (fun h : HostIf => State.wr _ _ (sget (fun _ => 0) h.staging (32 * n + k))) hhost
    rw [hsucc]
    refine ⟨fun w hw hr => ?_, fun hr => ?_⟩
    · by_cases hk : w = k
      · rw [hr, hk, rd_wr_same]
      · rw [rd_wr_other _ _ (by simp only [hr, R.MBX_RES]; omega)]
        exact hin w (by omega) hr
    · rw [rd_wr_other _ _ (hr k (by omega))]
      exact hout fun w hw => hr w (by omega)

/-- The registers of mailbox n as a publish writes them. -/
def State.shown (s : State) (n code : Nat) : State :=
  (((s.resultsShown n 30).wr (R.MBX_SEQ n) (s.rd (R.MBX_DOORBELL n))).wr (R.MBX_STATUS n)
    (BitVec.ofNat 32 (code % 256 + 2 ^ 31))).setB (R.MBX_DBSTAT n) 9 false

/-- The host interface after a publish in mailbox n that the host has yet to hear of. -/
def HostIf.published (h : HostIf) (n : Nat) : HostIf :=
  { h with
    ep3 := putBit h.ep3 n true
    waits := h.waits.filter (fun e => e.1 != n)
    asked := h.asked.filter (fun x => x != n)
    answers := h.answers.filter (fun e => e.1 != n) }

variable (code : Nat)

theorem publish_eq : s.publish n code = ((s.shown n code).onHost (HostIf.published · n)).sendMsi n := rfl

theorem hostOnly_publish : HostOnly s (s.publish n code) := by
  rw [publish_eq]
  exact (hostOnly_resultsShown s n 30).wr.wr.setB.onHost.sendMsi

theorem rd_publish_eq (r : Nat) : (s.publish n code).rd r = (s.shown n code).rd r := by
  rw [publish_eq, rd_sendMsi, rd_onHost]

theorem host_shown : (s.shown n code).host = s.host ∧ (s.shown n code).out = s.out := by
  unfold State.shown
  rw [host_setB, host_wr, host_wr, out_setB, out_wr, out_wr]
  exact host_resultsShown s n 30

/-- The registers that a publish writes. -/
theorem rd_publish (hcode : code < 256) :
    let u := s.publish n code
    (∀ w, w < 30 → u.rd (R.MBX_RES n w) = s.stagingWord n w) ∧ u.rd (R.MBX_SEQ n) = s.rd (R.MBX_DOORBELL n) ∧
    u.rd (R.MBX_STATUS n) = BitVec.ofNat 32 (code + 2 ^ 31) ∧ u.inProgress n = false ∧
    (∀ r, (∀ w, w < 30 → r ≠ R.MBX_RES n w) → r ≠ R.MBX_SEQ n → r ≠ R.MBX_STATUS n → r ≠ R.MBX_DBSTAT n → u.rd r = s.rd r) := by
  intro u
  refine ⟨fun w hw => ?_, ?_, ?_, ?_, fun r hres hseq hstatus hstat => ?_⟩
  · rw [rd_publish_eq, State.shown, rd_setB_other _ _ _ (by simp only [R.MBX_RES, R.MBX_DBSTAT]; omega),
      rd_wr_other _ _ (by simp only [R.MBX_RES, R.MBX_STATUS]; omega), rd_wr_other _ _ (by simp only [R.MBX_RES, R.MBX_SEQ]; omega)]
    obtain ⟨hin, -⟩ := rd_resultsShown s n (R.MBX_RES n w) 30
    exact hin w hw rfl
  · rw [rd_publish_eq, State.shown, rd_setB_other _ _ _ (by simp), rd_wr_other _ _ (by simp), rd_wr_same]
  · rw [rd_publish_eq, State.shown, rd_setB_other _ _ _ (by simp), rd_wr_same, Nat.mod_eq_of_lt hcode]
  · exact (congrArg (BitVec.getLsbD · 9) (rd_publish_eq s n code _)).trans (b_setB_same _ _ 9 false (by decide))
  · rw [rd_publish_eq, State.shown, rd_setB_other _ _ _ hstat, rd_wr_other _ _ hstatus, rd_wr_other _ _ hseq]
    obtain ⟨-, hout⟩ := rd_resultsShown s n r 30
    exact hout hres

/-- The vector of a mailbox is sent, kept pending while it is masked, or without effect. -/
theorem publish_signals :
    let u := s.publish n code
    (s.host.msixEn = true → (s.msixWord (4 * n + 3)).getLsbD 0 = false → u.out = .msix n :: s.out) ∧
    (s.host.msixEn = true → (s.msixWord (4 * n + 3)).getLsbD 0 = true → u.host.msixPending.testBit n = true ∧ u.out = s.out) ∧
    (s.host.msixEn = false → u.out = s.out ∧ u.host.msixPending = s.host.msixPending) := by
  obtain ⟨hhost, hout⟩ := host_shown s n code
  generalize hu : (s.shown n code).onHost (HostIf.published · n) = u
  have hu_host : u.host = s.host.published n := by rw [← hu, host_onHost, hhost]
  have hu_out : u.out = s.out := by rw [← hu, out_onHost, hout]
  have hen : u.host.msixEn = s.host.msixEn := by rw [hu_host]; rfl
  have hword : u.msixWord (4 * n + 3) = s.msixWord (4 * n + 3) := by unfold State.msixWord; rw [hu_host]; rfl
  rw [publish_eq, hu]
  refine ⟨fun he hm => ?_, fun he hm => ?_, fun he => ?_⟩
  · rw [sendMsi_sent _ _ (hen.trans he) (hword ▸ hm), out_emit, hu_out]
  · rw [sendMsi_masked _ _ (hen.trans he) (hword ▸ hm), host_onHost, out_onHost]
    exact ⟨testBit_putBit_true _ n, hu_out⟩
  · rw [sendMsi_off _ _ (hen.trans he), hu_host]
    exact ⟨hu_out, rfl⟩
end

/-! ### What an answer of firmware leaves (R335, R338) -/

section
variable (s : State) (n : Nat) (res : List Nat)

/-- Firmware's first k result words staged, those it does not define 0. -/
def State.staged (s : State) (n : Nat) (res : List Nat) (k : Nat) : State :=
  s.each (List.range k) (fun s w => s.setStaging n w (BitVec.ofNat 32 (res.getD w 0)))

theorem reply_eq (code : Nat) : s.reply n code res = (s.staged n res 30).publish n code := rfl

theorem hostOnly_staged (k : Nat) : HostOnly s (s.staged n res k) := (HostOnly.refl s).each fun _ _ h => h.onHost

theorem rd_staged (k r : Nat) : (s.staged n res k).rd r = s.rd r := rd_each fun _ _ _ => rfl

theorem stagingWord_staged (k : Nat) : ∀ w, w < k → (s.staged n res k).stagingWord n w = BitVec.ofNat 32 (res.getD w 0) := by
  refine each_range (P := fun k u => ∀ w, w < k → u.stagingWord n w = BitVec.ofNat 32 (res.getD w 0)) (by simp)
    (fun k u h w hw => ?_) k
  unfold State.setStaging State.stagingWord
  rw [host_onHost, sget_sput]
  by_cases hk : w = k
  · rw [if_pos (by omega), hk]
  · rw [if_neg (by omega)]
    exact h w (by omega)

theorem hostOnly_reply (code : Nat) : HostOnly s (s.reply n code res) :=
  (hostOnly_staged s n res 30).trans (hostOnly_publish (s.staged n res 30) n code)

/-- The registers that an answer writes. -/
theorem rd_reply {code : Nat} (hcode : code < 256) :
    let u := s.reply n code res
    (∀ w, w < 30 → u.rd (R.MBX_RES n w) = BitVec.ofNat 32 (res.getD w 0)) ∧ u.rd (R.MBX_STATUS n) = BitVec.ofNat 32 (code + 2 ^ 31) ∧
    u.rd (R.MBX_SEQ n) = s.rd (R.MBX_DOORBELL n) ∧ u.inProgress n = false ∧
    (∀ r, (∀ w, w < 30 → r ≠ R.MBX_RES n w) → r ≠ R.MBX_SEQ n → r ≠ R.MBX_STATUS n → r ≠ R.MBX_DBSTAT n → u.rd r = s.rd r) := by
  obtain ⟨hres, hseq, hstatus, hprog, hother⟩ := rd_publish (s.staged n res 30) n code hcode
  exact ⟨fun w hw => (hres w hw).trans (stagingWord_staged s n res 30 w hw), hstatus, hseq.trans (rd_staged s n res 30 _), hprog,
    fun r h1 h2 h3 h4 => (hother r h1 h2 h3 h4).trans (rd_staged s n res 30 r)⟩
end

/-! ### Writes of the host interface from control space (R338, R360) -/

section
variable {s s1 : State} {o : Origin} {off c : Nat} {v : Word}

/-- The registers of the host interface read no descriptor when they are written. -/
theorem descAsk_hif (hlo : 0x300000 ≤ off) (hhi : off < 0x310000) : s.descAsk o off v = none := by
  refine descAsk_plain ?_ ?_ fun t ht => ?_
  · simp only [R.TRP_MTVS, R.TRP_STVS, R.TRP_MSTK, R.TRP_SSTK]
    omega
  · simp only [R.DBG_TREG]
    omega
  · simp only [R.STM_CTL]
    omega

/-- A write of Machine origin comes to the block's rule. -/
theorem csWrite_hif (hlo : 0x300000 ≤ off) (hhi : off < 0x310000) (ha : off % 4 = 0) (h : Reaches s o off) (hv : Takes off v)
    (hm : s.machineOrigin o = true) : ∃ r, s.csWrite o off 4 v = s.writeHif o r off v := by
  obtain ⟨r, hrow, haccepts⟩ := hv
  have hblock : off / 0x10000 = 48 := by omega
  have hrights : s.blockRights o off = true := by
    unfold State.blockRights
    simp only [hblock, hm]
    rfl
  refine ⟨r, (csWrite_block h hrow haccepts hrights ha).trans ?_⟩
  unfold State.writeBlock
  rw [hblock]
  rfl

theorem regWrite_pub {n : Fin 16} (h : Reaches s o (R.MBX_PUB n.val)) (hv : Takes (R.MBX_PUB n.val) v)
    (hm : s.machineOrigin o = true) :
    (s.inProgress n.val = true → s.regWrite o (R.MBX_PUB n.val) v = (s.publish n.val (fld v 7 0)).accepted o) ∧
    (s.inProgress n.val = false → s.regWrite o (R.MBX_PUB n.val) v = s.accessDone.refused o true 7 (R.MBX_PUB n.val)) := by
  have hrange : 0x300000 ≤ R.MBX_PUB n.val ∧ R.MBX_PUB n.val < R.HIF_AP 0 ∧ R.MBX_PUB n.val % 4 = 0 ∧
      idx (R.MBX_PUB n.val) (R.MBX_CMD 0 0) 0x100 = n.val := by
    simp only [R.MBX_PUB, R.HIF_AP, R.MBX_CMD, idx]
    omega
  obtain ⟨hlo, hhi, halign, hidx⟩ := hrange
  have hask : s.descAsk o (R.MBX_PUB n.val) v = none := descAsk_hif hlo (by simp only [R.HIF_AP] at hhi; omega)
  obtain ⟨r, hw⟩ := csWrite_hif hlo (by simp only [R.HIF_AP] at hhi; omega) halign h hv hm
  have hpub : s.csWrite o (R.MBX_PUB n.val) 4 v =
      if s.inProgress n.val then (s.publish n.val (fld v 7 0), none) else (s, some 7) := by
    rw [hw]
    unfold State.writeHif
    rw [if_neg (by simp [hm]), if_pos hhi, hidx]
    exact if_pos rfl
  exact ⟨fun hp => regWrite_accepted h hask (hpub.trans (if_pos hp)),
    fun hp => regWrite_refused h hask (hpub.trans (if_neg (by simp [hp])))⟩

theorem regWrite_msireq (h : Reaches s o R.HIF_MSIREQ) (hv : Takes R.HIF_MSIREQ v) (hm : s.machineOrigin o = true) :
    s.regWrite o R.HIF_MSIREQ v = (s.msiRequest (fld v 3 0)).accepted o := by
  obtain ⟨r, hw⟩ := csWrite_hif (by decide) (by decide) (by decide) h hv hm
  refine regWrite_accepted h (descAsk_hif (by decide) (by decide)) (hw.trans ?_)
  unfold State.writeHif
  rw [if_neg (by simp [hm]), if_neg (by decide), if_pos rfl]
end

/-- Settles O49: what an answer and a publish leave, register by register, and the writes that reach them. -/
theorem mailboxPublish : Obligations.MailboxPublish := by
  refine ⟨fun s n code res hcode => ?_, fun s o n v hm => ?_⟩
  · obtain ⟨hres, hstatus, hseq, hprog, hother⟩ := rd_reply s n.val res hcode
    have hsame := hostOnly_reply s n.val res code
    exact ⟨hres, hstatus, hseq, hprog, hother, hsame.sameMemory, congrArg Memory.flash hsame.mem, hsame.jobs, hsame.threads,
      hsame.ledger⟩
  · obtain ⟨hres, hseq, hstatus, hprog, hother⟩ := rd_publish s n.val (fld v 7 0) (fld_lt v 7 0)
    obtain ⟨hsent, hmasked, hoff⟩ := publish_signals s n.val (fld v 7 0)
    have hsame := hostOnly_publish s n.val (fld v 7 0)
    refine ⟨fun h hv => ?_, hres, hseq, hstatus, hprog, hother, hsame.sameMemory, hsame.jobs, hsame.threads, hsent, hmasked, hoff,
      fun h hv => congrArg Host.Outcome.next (regWrite_msireq h hv hm)⟩
    obtain ⟨hbusy, hidle⟩ := regWrite_pub h hv hm
    exact ⟨fun hp => congrArg Host.Outcome.next (hbusy hp), fun hp => congrArg Host.Outcome.next (hidle hp)⟩

/-! ### Doorbells and the command area (R332, R336, R337) -/

section
variable {s : State} {n : Nat} {v : Word}

/-- A master with nothing outstanding has nothing to complete. -/
theorem hostDrain_idle (h : s.outstandingOf 12 = 0) : s.hostDrain = s := by
  unfold State.outstandingOf at h
  have hnone : ∀ {α : Type} (l : List α) (p : α → Bool), (l.filter p).length = 0 →
      l.filter p = [] ∧ l.filter (fun x => !p x) = l := fun l p hl => by
    have he := List.length_eq_zero_iff.mp hl
    exact ⟨he, List.filter_eq_self.mpr fun x hx => by simpa using List.filter_eq_nil_iff.mp he x hx⟩
  obtain ⟨hw, hw2⟩ := hnone s.matrix.waiting (fun q => q.master == 12) (by omega)
  obtain ⟨hh, hh2⟩ := hnone s.matrix.held (fun q => q.master == 12) (by omega)
  obtain ⟨-, hr2⟩ := hnone s.matrix.responses (fun r => r.master == 12) (by omega)
  have hflush : s.flushMaster 12 = some s := by
    unfold State.flushMaster State.onMtx bne
    dsimp only
    rw [hw, hh, hw2, hh2, hr2]
    rfl
  unfold State.hostDrain
  dsimp only
  rw [List.filter_append, hw, hh]
  exact congrArg (Option.getD · s) hflush

/-- A word with an upper half of 0 is its lower half. -/
theorem ofNat_fld_low (h : fld v 31 16 = 0) : BitVec.ofNat 32 (fld v 15 0) = v := by
  have hlt := v.isLt
  apply BitVec.eq_of_toNat_eq
  rw [BitVec.toNat_ofNat]
  unfold fld bits at *
  omega

theorem ring_busy (h : s.inProgress n = true) : s.ring n v = s.putF (R.MBX_DBSTAT n) 7 0 2 := if_pos h

theorem ring_repeat (h : s.inProgress n = false) (hx : fld v 15 0 = s.f (R.MBX_SEQ n) 15 0) :
    s.ring n v = s.putF (R.MBX_DBSTAT n) 7 0 4 := (if_neg (ne_true_of_eq_false h)).trans (if_pos hx)

theorem ring_new (h : s.inProgress n = false) (hx : fld v 15 0 ≠ s.f (R.MBX_SEQ n) 15 0) : s.ring n v =
    (((((s.putF (R.MBX_DBSTAT n) 7 0 0).setB (R.MBX_DBSTAT n) 9 true).wr (R.MBX_DOORBELL n) (BitVec.ofNat 32 (fld v 15 0))).wr
      (R.MBX_STATUS n) 1).setB R.HIF_DBPEND n true) := (if_neg (ne_true_of_eq_false h)).trans (if_neg hx)

/-- What a doorbell that is refused leaves: its error code. -/
theorem refusedRing_facts (s : State) (n : Nat) {code : Nat} (hcode : code < 256) :
    let u := s.putF (R.MBX_DBSTAT n) 7 0 code
    u.f (R.MBX_DBSTAT n) 7 0 = code ∧ u.inProgress n = s.inProgress n ∧ SameRegsBut [R.MBX_DBSTAT n] s u ∧ SameMemory s u :=
  ⟨(f_putF_same s _ code (by decide) (by decide)).trans (Nat.mod_eq_of_lt hcode),
    b_putF_other s _ code (by decide) (by decide) (by decide),
    (SameRegsBut.refl _ s).putF (by simp), fun _ => rfl⟩

/-- What a doorbell that is accepted leaves. -/
theorem ring_new_facts (hn : n < 16) (h : s.inProgress n = false) (hx : fld v 15 0 ≠ s.f (R.MBX_SEQ n) 15 0)
    (hv : fld v 31 16 = 0) :
    let u := s.ring n v
    u.inProgress n = true ∧ u.rd (R.MBX_STATUS n) = 1 ∧ u.rd (R.MBX_DOORBELL n) = v ∧ u.b R.HIF_DBPEND n = true ∧
    u.f (R.MBX_DBSTAT n) 7 0 = 0 ∧
    SameRegsBut [R.MBX_DBSTAT n, R.MBX_STATUS n, R.MBX_DOORBELL n, R.HIF_DBPEND] s u ∧ SameMemory s u := by
  have hne : R.MBX_STATUS n ≠ R.HIF_DBPEND ∧ R.MBX_DOORBELL n ≠ R.HIF_DBPEND ∧ R.MBX_DBSTAT n ≠ R.HIF_DBPEND := by
    simp only [R.MBX_STATUS, R.MBX_DOORBELL, R.MBX_DBSTAT, R.HIF_DBPEND]
    omega
  obtain ⟨hstatus, hdoor, hstat⟩ := hne
  rw [ring_new h hx, ofNat_fld_low hv]
  generalize hu : (s.putF (R.MBX_DBSTAT n) 7 0 0).setB (R.MBX_DBSTAT n) 9 true = u
  have hreg : (((u.wr (R.MBX_DOORBELL n) v).wr (R.MBX_STATUS n) 1).setB R.HIF_DBPEND n true).rd (R.MBX_DBSTAT n) =
      u.rd (R.MBX_DBSTAT n) := by
    rw [rd_setB_other _ _ _ hstat, rd_wr_other _ _ (by simp), rd_wr_other _ _ (by simp)]
  refine ⟨?_, ?_, ?_, b_setB_same _ _ n true (by omega), ?_, ?_, ?_⟩
  · unfold State.inProgress
    rw [b_of_rd hreg, ← hu, b_setB_same _ _ 9 true (by decide)]
  · rw [rd_setB_other _ _ _ hstatus, rd_wr_same]
  · rw [rd_setB_other _ _ _ hdoor, rd_wr_other _ _ (by simp), rd_wr_same]
  · refine (congrArg (fld · 7 0) hreg).trans ?_
    rw [← hu]
    exact (f_setB_other _ _ 9 true (by decide) (by decide) (by decide)).trans (f_putF_same s _ 0 (by decide) (by decide))
  · rw [← hu]
    exact ((((SameRegsBut.refl _ s).putF (by simp)).setB (by simp)).wr (by simp)).wr (by simp) |>.setB (by simp)
  · rw [← hu]
    exact ((SameData.refl s).putF.setB.wr.wr.setB).sameMemory

theorem doorbell_rings (hup : s.hostUp = true) {m : Fin 16} (hv : fld v 31 16 = 0) :
    exec (.doorbell m v) s = .next (s.hostDrain.ring m.val v).accessDone :=
  congrArg Host.Outcome.next ((if_neg (by simp [hup])).trans (if_pos hv))

theorem doorbell_reserved (hup : s.hostUp = true) {m : Fin 16} (hv : fld v 31 16 ≠ 0) :
    exec (.doorbell m v) s = .next (s.hostDrain.busError 12 30 true 7 (csBase + R.MBX_DOORBELL m.val)) :=
  congrArg Host.Outcome.next ((if_neg (by simp [hup])).trans (if_neg hv))

theorem commandArea_stored (hup : s.hostUp = true) {m w : Fin 16} (h : s.inProgress m.val = false) :
    exec (.commandAreaWrite m w v) s = .next (s.soft (R.MBX_CMD m.val w.val) v).accessDone :=
  congrArg Host.Outcome.next ((if_pos hup).trans (congrArg State.accessDone (if_neg (ne_true_of_eq_false h))))

theorem commandArea_discarded (hup : s.hostUp = true) {m w : Fin 16} (h : s.inProgress m.val = true) :
    exec (.commandAreaWrite m w v) s = .next (s.setB (R.MBX_DBSTAT m.val) 8 true).accessDone :=
  congrArg Host.Outcome.next ((if_pos hup).trans (congrArg State.accessDone (if_pos h)))

/-- Sources 84 to 99 are the doorbells of the mailboxes. -/
theorem sourcePending_doorbell (s : State) (m : Fin 16) : s.sourcePending (84 + m.val) = s.b R.HIF_DBPEND m.val := by
  have hlt := m.isLt
  unfold State.sourcePending
  rw [if_neg (by omega), if_neg (by omega), if_neg (by omega), if_neg (by omega), if_neg (by omega), if_neg (by omega),
    if_neg (by omega), if_neg (by omega), if_neg (by omega), if_neg (by omega), if_pos (by omega), Nat.add_sub_cancel_left]
end

/-- Settles O48: the three answers to a doorbell, each after the host's older requests, and the two to a command word. -/
theorem doorbellsAndCommandArea : Obligations.DoorbellsAndCommandArea := by
  intro s n m v x hup
  refine ⟨doorbell_rings hup, doorbell_reserved hup, fun hv hidle => ?_⟩
  have hring : exec (.doorbell n v) s = .next (s.ring n.val v).accessDone := by rw [doorbell_rings hup hv, hostDrain_idle hidle]
  refine ⟨fun hp hx => ⟨_, hring, ring_new_facts n.isLt hp hx hv⟩, fun hp => ⟨_, hring, ?_⟩, fun hp hx => ⟨_, hring, ?_⟩,
    sourcePending_doorbell s n, commandArea_stored hup, commandArea_discarded hup⟩
  · obtain ⟨hcode, hprog, hregs, hmem⟩ := refusedRing_facts s n.val (code := 2) (by decide)
    rw [ring_busy hp]
    exact ⟨hcode, hprog.trans hp, hregs, hmem⟩
  · obtain ⟨hcode, hprog, hregs, hmem⟩ := refusedRing_facts s n.val (code := 4) (by decide)
    rw [ring_repeat hp hx]
    exact ⟨hcode, hprog.trans hp, hregs, hmem⟩

/-! ### Link training and function reset (R323, R333, R334) -/

section
variable (s : State)

/-- The first k apertures disabled. -/
def State.aperturesOff (s : State) (k : Nat) : State := s.each (List.range k) (fun s a => s.setB (R.HIF_AP a) 31 false)

theorem functionReset_eq :
    s.functionReset = (s.aperturesOff 16).onHost (fun h => { h with msixEn := false, reads := [] }) := rfl

theorem msixEn_functionReset : s.functionReset.host.msixEn = false := by rw [functionReset_eq, host_onHost]

theorem hostOnly_functionReset : HostOnly s s.functionReset := by
  rw [functionReset_eq]
  exact ((HostOnly.refl s).each fun _ _ h => h.setB).onHost

theorem rd_aperturesOff_other {r k : Nat} (hr : ∀ a, a < k → r ≠ R.HIF_AP a) : (s.aperturesOff k).rd r = s.rd r :=
  rd_each fun u a ha => rd_setB_other u 31 false (hr a (List.mem_range.mp ha))

theorem b_aperturesOff (k : Nat) : ∀ a, a < k → (s.aperturesOff k).b (R.HIF_AP a) 31 = false := by
  refine each_range (P := fun k u => ∀ a, a < k → u.b (R.HIF_AP a) 31 = false) (g := fun u a => u.setB (R.HIF_AP a) 31 false)
    (by simp) (fun k u h a ha => ?_) k
  rw [b_setB _ _ _ _ _ _ (by decide)]
  by_cases hk : a = k
  · rw [if_pos ⟨by rw [hk], rfl⟩]
  · rw [if_neg (by simp only [R.HIF_AP]; omega)]
    exact h a (by omega)

theorem apertures_functionReset {a : Nat} (ha : a < 16) : s.functionReset.b (R.HIF_AP a) 31 = false := by
  rw [functionReset_eq, State.b, rd_onHost]
  exact b_aperturesOff s 16 a ha

/-- The PCIe tunnel that comes up lets pending vectors go and writes no register. -/
theorem tunnelUp_frame : HostOnly s s.tunnelUp ∧ ∀ r, s.tunnelUp.rd r = s.rd r := by
  unfold State.tunnelUp
  dsimp only
  refine ⟨((HostOnly.refl s).onHost).each fun _ _ h => h.onHost.emit.ite h, fun r => ?_⟩
  rw [rd_each fun u v _ => ?_, rd_onHost]
  split
  · rw [rd_emit, rd_onHost]
  · rfl

variable (up pcie : Bool) (gen : Nat)

/-- HIF_LINK as link training writes it, before LINKCHG. -/
def State.linkShown (s : State) (up : Bool) (gen : Nat) (pcie : Bool) : State :=
  ((s.setB R.HIF_LINK 0 up).putF R.HIF_LINK 2 1 gen).setB R.HIF_LINK 3 pcie

theorem linkShown_fields (hgen : gen < 4) : (s.linkShown up gen pcie).b R.HIF_LINK 0 = up ∧
    (s.linkShown up gen pcie).f R.HIF_LINK 2 1 = gen ∧ (s.linkShown up gen pcie).b R.HIF_LINK 3 = pcie := by
  unfold State.linkShown
  refine ⟨?_, ?_, b_setB_same _ _ 3 pcie (by decide)⟩
  · rw [b_setB _ _ _ _ _ _ (by decide), if_neg (by decide), b_putF_other _ _ _ (by decide) (by decide) (by decide),
      b_setB_same _ _ 0 up (by decide)]
  · rw [f_setB_other _ _ 3 pcie (by decide) (by decide) (by decide), f_putF_same _ _ _ (by decide) (by decide)]
    exact Nat.mod_eq_of_lt hgen

/-- Training beside the fields of the link sets LINKCHG, resets a function whose tunnel is lost, and brings one up. -/
theorem setUsb4_frame : HostOnly s (s.setUsb4 up gen pcie) ∧
    ((s.setUsb4 up gen pcie).rd R.HIF_LINK = (s.linkShown up gen pcie).rd R.HIF_LINK ∨
      (s.setUsb4 up gen pcie).rd R.HIF_LINK = ((s.linkShown up gen pcie).setB R.HIF_LINK 5 true).rd R.HIF_LINK) := by
  let P : State → Prop := fun u => HostOnly s u ∧
    (u.rd R.HIF_LINK = (s.linkShown up gen pcie).rd R.HIF_LINK ∨
      u.rd R.HIF_LINK = ((s.linkShown up gen pcie).setB R.HIF_LINK 5 true).rd R.HIF_LINK)
  have hshown : HostOnly s (s.linkShown up gen pcie) := (HostOnly.refl s).setB.putF.setB
  have hreset : ∀ u, P u → P u.functionReset := fun u ⟨hu, hr⟩ => by
    refine ⟨hu.trans (hostOnly_functionReset u), ?_⟩
    rw [functionReset_eq, rd_onHost, rd_aperturesOff_other u (r := R.HIF_LINK) (fun a ha => ?_)]
    · exact hr
    · simp only [R.HIF_LINK, R.HIF_AP]
      omega
  have hchanged : P (if (s.linkShown up gen pcie).f R.HIF_LINK 4 0 = s.f R.HIF_LINK 4 0 then s.linkShown up gen pcie
      else (s.linkShown up gen pcie).setB R.HIF_LINK 5 true) := by
    split
    · exact ⟨hshown, .inl rfl⟩
    · exact ⟨hshown.setB, .inr rfl⟩
  change P (if _ then _ else _)
  split
  · exact hreset _ hchanged
  · exact hchanged

theorem setUsb4_fields (hgen : gen < 4) : (s.setUsb4 up gen pcie).b R.HIF_LINK 0 = up ∧
    (s.setUsb4 up gen pcie).f R.HIF_LINK 2 1 = gen ∧ (s.setUsb4 up gen pcie).b R.HIF_LINK 3 = pcie := by
  obtain ⟨h0, h21, h3⟩ := linkShown_fields s up pcie gen hgen
  obtain ⟨-, hr | hr⟩ := setUsb4_frame s up pcie gen
  · exact ⟨(b_of_rd hr 0).trans h0, (congrArg (fld · 2 1) hr).trans h21, (b_of_rd hr 3).trans h3⟩
  · refine ⟨(b_of_rd hr 0).trans ?_, (congrArg (fld · 2 1) hr).trans ?_, (b_of_rd hr 3).trans ?_⟩
    · rw [b_setB _ _ _ _ _ _ (by decide), if_neg (by decide), h0]
    · exact (f_setB_other _ _ 5 true (by decide) (by decide) (by decide)).trans h21
    · rw [b_setB _ _ _ _ _ _ (by decide), if_neg (by decide), h3]

theorem usb4Train_facts (hgen : gen < 4) : (s.usb4Train gen pcie).b R.HIF_LINK 0 = (gen != 0) ∧
    (s.usb4Train gen pcie).f R.HIF_LINK 2 1 = gen ∧ (s.usb4Train gen pcie).b R.HIF_LINK 3 = (pcie && gen != 0) ∧
    HostOnly s (s.usb4Train gen pcie) := by
  obtain ⟨h0, h21, h3⟩ := setUsb4_fields s (gen != 0) (pcie && gen != 0) gen hgen
  obtain ⟨hsame, -⟩ := setUsb4_frame s (gen != 0) (pcie && gen != 0) gen
  obtain ⟨hup, hr⟩ := tunnelUp_frame (s.setUsb4 (gen != 0) gen (pcie && gen != 0))
  unfold State.usb4Train
  dsimp only
  split
  · exact ⟨(b_of_rd (hr _) 0).trans h0, (congrArg (fld · 2 1) (hr _)).trans h21, (b_of_rd (hr _) 3).trans h3, hsame.trans hup⟩
  · exact ⟨h0, h21, h3, hsame⟩
end

/-! ### The error log of the window (R331) -/

/-- An error's entry in HIF_WINERR. -/
def winWord (c : Nat) (w : Bool) : Word := BitVec.ofNat 32 (c + b2n w * 16 + 2 ^ 31)

/-- The fields of the entry: they do not overlap. -/
theorem winWord_fields {c : Nat} (w : Bool) (hc : c < 16) :
    (winWord c w).getLsbD 31 = true ∧ fld (winWord c w) 3 0 = c ∧ (winWord c w).getLsbD 4 = w := by
  have hw : b2n w < 2 := by cases w <;> decide
  have hdir : decide (b2n w = 1) = w := by cases w <;> rfl
  have hnat : (winWord c w).toNat = c + b2n w * 16 + 2 ^ 31 := by
    unfold winWord
    rw [BitVec.toNat_ofNat]
    omega
  have hbit : ∀ i, (winWord c w).getLsbD i = decide ((winWord c w).toNat / 2 ^ i % 2 = 1) := fun i =>
    Nat.testBit_eq_decide_div_mod_eq
  simp only [hbit, fld, bits, hnat]
  refine ⟨?_, ?_, ?_⟩
  · simp only [decide_eq_true_eq]
    omega
  · omega
  · rw [show (c + b2n w * 16 + 2 ^ 31) / 2 ^ 4 % 2 = b2n w by omega, hdir]

section
variable (s : State) (c a : Nat) (w : Bool)

/-- The entry of an error that the window records. -/
def State.winLogged (s : State) (c a : Nat) (w : Bool) : State :=
  ((s.wr R.HIF_WINERR (winWord c w)).wr R.HIF_WINADDR_LO (BitVec.ofNat 32 a)).wr R.HIF_WINADDR_HI
    (BitVec.ofNat 32 (a / 2 ^ 32 % 65536))

/-- The window's registers change with the first error alone; a write reports its error besides. -/
theorem winError_eq : s.winError c a w =
    if w then (if s.b R.HIF_WINERR 31 then s else s.winLogged c a w).emit .postedError
    else if s.b R.HIF_WINERR 31 then s else s.winLogged c a w := rfl

theorem rd_winError (r : Nat) : (s.winError c a w).rd r = (if s.b R.HIF_WINERR 31 then s else s.winLogged c a w).rd r := by
  rw [winError_eq]
  cases w with
  | false => rw [if_neg (by decide)]
  | true => rw [if_pos rfl, rd_emit]

theorem hostOnly_winError : HostOnly s (s.winError c a w) := by
  have h0 : HostOnly s (if s.b R.HIF_WINERR 31 then s else s.winLogged c a w) := (HostOnly.refl s).ite (HostOnly.refl s).wr.wr.wr
  rw [winError_eq]
  exact h0.emit.ite h0

theorem rd_winError_held (h : s.b R.HIF_WINERR 31 = true) (r : Nat) : (s.winError c a w).rd r = s.rd r := by
  rw [rd_winError, if_pos h]

theorem rd_winError_free (h : s.b R.HIF_WINERR 31 = false) :
    (s.winError c a w).rd R.HIF_WINERR = winWord c w ∧ (s.winError c a w).rd R.HIF_WINADDR_LO = BitVec.ofNat 32 a ∧
    (s.winError c a w).rd R.HIF_WINADDR_HI = BitVec.ofNat 32 (a / 2 ^ 32 % 65536) := by
  simp only [rd_winError, if_neg (ne_true_of_eq_false h), State.winLogged]
  refine ⟨?_, ?_, rd_wr_same _ _ _⟩
  · rw [rd_wr_other _ _ (by decide), rd_wr_other _ _ (by decide), rd_wr_same]
  · rw [rd_wr_other _ _ (by decide), rd_wr_same]

theorem regs_winError : SameRegsBut [R.HIF_WINERR, R.HIF_WINADDR_LO, R.HIF_WINADDR_HI] s (s.winError c a w) := fun r hr => by
  rw [rd_winError]
  split
  · rfl
  · exact ((((SameRegsBut.refl _ s).wr (by simp)).wr (by simp)).wr (by simp)).rd hr
end

/-! ### Accesses through BAR2 (R330, R331) -/

section
variable {s s1 : State} {off len c : Nat} {b d : List Byte}

theorem bar2Read_refused (hup : s.hostUp = true) (hc : s.barRefuses off false = some c) :
    exec (.bar2Read off len) s = .next ((s.winError c (s.barAddr off) false).emit (.readCompletion 1 [])) := by
  refine congrArg Host.Outcome.next ((if_pos hup).trans ?_)
  unfold State.barRead
  rw [hc]

theorem barRead_local (hc : s.barRefuses off false = none) (hlocal : s.hostDrain.hostRemote (s.barAddr off) = none) :
    s.barRead off len = s.hostDrain.hostLocal (s.barAddr off) len := by
  unfold State.barRead
  extract_lets a s0
  rw [hc, show s0.hostRemote a = none from hlocal]

theorem hostLocal_answered {a : Nat} (hread : s.readNow hostWho a len = (s1, .ok b)) :
    s.hostLocal a len = s1.emit (.readCompletion 0 b) := by
  unfold State.hostLocal
  rw [hread]

theorem bar2Read_local (hup : s.hostUp = true) (hc : s.barRefuses off false = none)
    (hlocal : s.hostDrain.hostRemote (s.barAddr off) = none)
    (hread : s.hostDrain.readNow hostWho (s.barAddr off) len = (s1, .ok b)) :
    exec (.bar2Read off len) s = .next (s1.emit (.readCompletion 0 b)) :=
  congrArg Host.Outcome.next ((if_pos hup).trans ((barRead_local hc hlocal).trans (hostLocal_answered hread)))

theorem bar2Write_refused (hup : s.hostUp = true) (hc : s.barRefuses off true = some c) :
    exec (.bar2Write off d) s = .next (s.winError c (s.barAddr off) true) := by
  refine congrArg Host.Outcome.next ((if_pos hup).trans ?_)
  unfold State.barWrite
  rw [hc]

theorem bar2Write_enters (hup : s.hostUp = true) (hc : s.barRefuses off true = none)
    (hroom : s.outstandingOf 12 + (s.lineWrites hostWho (pieces (s.barAddr off) d.length) d).length ≤ 32) :
    exec (.bar2Write off d) s =
      .next (s.each (s.lineWrites hostWho (pieces (s.barAddr off) d.length) d) (fun s q => s.enqueue q)) := by
  refine congrArg Host.Outcome.next ((if_pos hup).trans ?_)
  unfold State.barWrite
  dsimp only
  rw [hc]
  dsimp only
  rw [if_neg (show ¬ writeLimit 12 < _ from Nat.not_lt.mpr hroom)]
end

/-- Settles O47: training and reset, the accesses through the window by their apertures, and the window's error log. -/
theorem hostWindow : Obligations.HostWindow := by
  refine ⟨fun s s1 gen pcie off len d b => ⟨fun hrun => ⟨_, congrArg Host.Outcome.next (if_pos hrun), ?_⟩,
    fun hup => ⟨_, congrArg Host.Outcome.next (if_pos hup), ?_⟩, fun hup c hc => bar2Read_refused hup hc,
    fun hup c hc => bar2Write_refused hup hc, bar2Read_local, bar2Write_enters⟩, fun s c a w hc ha => ?_⟩
  · obtain ⟨h0, h21, h3, hsame⟩ := usb4Train_facts s pcie gen.val gen.isLt
    exact ⟨h0, h21, h3, hsame.sameMemory, hsame.jobs⟩
  · exact ⟨fun a => apertures_functionReset s a.isLt, msixEn_functionReset s, (hostOnly_functionReset s).sameMemory⟩
  · have hsame := hostOnly_winError s c a w
    refine ⟨fun h r _ => rd_winError_held s c a w h r, fun h => ?_, regs_winError s c a w, hsame.sameMemory, hsame.jobs,
      hsame.threads⟩
    obtain ⟨herr, hlo, hhi⟩ := rd_winError_free s c a w h
    obtain ⟨hvalid, hcause, hdir⟩ := winWord_fields w hc
    unfold State.b State.f
    rw [herr, hlo, hhi, BitVec.toNat_ofNat, BitVec.toNat_ofNat]
    exact ⟨hvalid, hcause, hdir, by omega⟩

end Sys2Proof.Machine

/-! ## The USB 2.0 port (O50) -/

namespace Sys2Proof.Machine

/-! ### Requests on EP1 and the report on EP3 (R326, R327) -/

section
variable {s : State} {h : UsbHeader} {l : List Word} {d : List Byte}

theorem usbReady_free (hrun : s.running = true) (hfree : s.host.usb = none) : s.usbReady ≠ false := by
  simp [State.usbReady, hrun, hfree]

/-- A word differs from a number of 32 bits where its value does. -/
theorem len_ne_of_toNat {w : Word} {n : Nat} (hn : n < 2 ^ 32) : w ≠ BitVec.ofNat 32 n ↔ w.toNat ≠ n := by
  rw [ne_eq, ne_eq, ← BitVec.toNat_inj, BitVec.toNat_ofNat, Nat.mod_eq_of_lt hn]

/-- The bytes of a request that holds as many as its LEN says. -/
theorem take_pad_of_length {n : Nat} (hd : d.length = n) : d.take n ++ List.replicate (n - d.length) 0 = d := by
  simp [hd]

theorem rd_usbConfigured {r : Nat} (hr : r ≠ R.HIF_LINK) : s.usbConfigured.rd r = s.rd r := by
  unfold State.usbConfigured
  split
  · rfl
  · rw [rd_setB_other _ _ _ hr, rd_setB_other _ _ _ hr]

/-- HIF_LINK, which the first request writes, is no word of a result area. -/
theorem resultBytes_usbConfigured (n : Fin 16) : s.usbConfigured.resultBytes n.val = s.resultBytes n.val := by
  refine List.flatMap_congr fun w hw => ?_
  have hw32 := List.mem_range.mp hw
  rw [rd_usbConfigured (by simp only [R.MBX_SEQ, R.HIF_LINK]; omega)]

variable (hready : s.usbReady ≠ false)
include hready

theorem mbxWrite_badLen (hn : h.len.toNat ≠ 64) :
    exec (.mbxWrite h l) s = .next (s.usbConfigured.emit (.usb 2 h.tag.toNat [])) :=
  congrArg Host.Outcome.next ((if_neg hready).trans (if_pos ((len_ne_of_toNat (by decide)).mpr hn)))

theorem mbxWrite_rings (hn : h.len.toNat = 64) :
    exec (.mbxWrite h l) s = .next (s.usbConfigured.usbMailbox h.mbx.val (fld h.word2 15 0) h.tag.toNat l) :=
  congrArg Host.Outcome.next ((if_neg hready).trans (if_neg fun hne => (len_ne_of_toNat (by decide)).mp hne hn))

theorem mbxRead_badLen (hn : h.len.toNat ≠ 128) : exec (.mbxRead h) s = .next (s.usbConfigured.emit (.usb 2 h.tag.toNat [])) :=
  congrArg Host.Outcome.next ((if_neg hready).trans (if_pos ((len_ne_of_toNat (by decide)).mpr hn)))

theorem mbxRead_answers (hn : h.len.toNat = 128) :
    exec (.mbxRead h) s = .next (s.usbConfigured.emit (.usb 0 h.tag.toNat (s.usbConfigured.resultBytes h.mbx.val))) :=
  congrArg Host.Outcome.next ((if_neg hready).trans ((if_neg fun hne => (len_ne_of_toNat (by decide)).mp hne hn).trans
    (congrArg (fun b => s.usbConfigured.emit (.usb 0 h.tag.toNat b)) (resultBytes_usbConfigured h.mbx).symm)))

theorem memWrite_bad (hok : UsbHeader.memOk h = false) :
    exec (.memWrite h d) s = .next (s.usbConfigured.emit (.usb 2 h.tag.toNat [])) :=
  congrArg Host.Outcome.next ((if_neg hready).trans (if_pos hok))

theorem memRead_bad (hok : UsbHeader.memOk h = false) :
    exec (.memRead h) s = .next (s.usbConfigured.emit (.usb 2 h.tag.toNat [])) :=
  congrArg Host.Outcome.next ((if_neg hready).trans (if_pos hok))

theorem memWrite_lines (hok : UsbHeader.memOk h = true) (hd : d.length = h.len.toNat) : exec (.memWrite h d) s =
    .next (s.usbConfigured.hostDrain.usbLines h.tag.toNat true (pieces (UsbHeader.addr h) h.len.toNat) d) :=
  congrArg Host.Outcome.next ((if_neg hready).trans ((if_neg (by simp [hok])).trans
    (congrArg (s.usbConfigured.hostDrain.usbLines h.tag.toNat true (pieces (UsbHeader.addr h) h.len.toNat)) (take_pad_of_length hd))))

theorem memRead_lines (hok : UsbHeader.memOk h = true) : exec (.memRead h) s =
    .next (s.usbConfigured.hostDrain.usbLines h.tag.toNat false (pieces (UsbHeader.addr h) h.len.toNat) []) :=
  congrArg Host.Outcome.next ((if_neg hready).trans (if_neg (by simp [hok])))
end

/-- Settles O50: the port is free, so each request is answered by its length and address alone. -/
theorem usbRequests : Obligations.UsbRequests := by
  intro s h l d hrun hfree
  have hready := usbReady_free hrun hfree
  exact ⟨mbxWrite_badLen hready, mbxWrite_rings hready, mbxRead_badLen hready, mbxRead_answers hready,
    fun hok => ⟨memWrite_bad hready hok, memRead_bad hready hok⟩, memWrite_lines hready, memRead_lines hready,
    congrArg Host.Outcome.next (if_pos hrun)⟩

end Sys2Proof.Machine

/-! ## Firmware's checks and the commands that report (O52) -/

namespace Sys2Proof.Machine

/-! ### The checks of R343 -/

section
variable {s u : State} {n code used i : Nat} {modes : List Nat} {bad : Nat → List Nat} {body : State → State} {c : Instr}

/-- The row of a command that passes the checks carries it out. -/
theorem served_next (hexec : exec c s = .next (s.serve n code modes used bad body)) (h : Served s n code modes used)
    (hc : assignedCodes.contains code = true) (hbody : body s = u) : exec c s = .next u := by
  rw [hexec, serve_ok h hc, hbody]

/-- The mode is allowed, and Fiddlehead, where it serves, serves the code. -/
theorem modeCheck_passed (hf : s.fw.fiddlehead = true → s.fiddleServes code = true) (hm : s.mode ∈ modes) :
    ((s.fw.fiddlehead && !s.fiddleServes code) || !modes.contains s.mode) = false := by
  cases hh : s.fw.fiddlehead with
  | false => simp [hm]
  | true => simp [hm, hf hh]

variable (h : s.toServe n = true) (hcode : fld (s.cmdWord n 0) 15 0 = code) (hc : assignedCodes.contains code = true)
  (hf : s.fw.fiddlehead = true → s.fiddleServes code = true) (hm : s.mode ∈ modes)
include h hcode hc hf hm

theorem serve_reserved (hres : fld (s.cmdWord n 0) 31 16 ≠ 0) : s.serve n code modes used bad body = s.reply n 4 (bad 0) := by
  unfold State.serve
  dsimp only
  rw [hcode, if_neg (by simp [h]), if_neg (by rw [hc]; decide), if_neg (by simp), modeCheck_passed hf hm, if_neg (by decide), if_pos hres]

theorem serve_extraArg (hres : fld (s.cmdWord n 0) 31 16 = 0) (harg : s.extraArg n used = some i) :
    s.serve n code modes used bad body = s.reply n 4 (bad i) := by
  unfold State.serve
  dsimp only
  rw [hcode, if_neg (by simp [h]), if_neg (by rw [hc]; decide), if_neg (by simp), modeCheck_passed hf hm, if_neg (by decide),
    if_neg (by simp [hres]), harg]
end

section
variable {s : State} {n : Nat}

/-- Firmware serves a mailbox in a running mode alone. -/
theorem mode_of_toServe (h : s.toServe n = true) : s.mode ∈ [2, 3, 4, 5] := by
  simp only [State.toServe, State.running, Bool.and_eq_true, decide_eq_true_eq] at h
  obtain ⟨⟨⟨⟨hlo, hhi⟩, -⟩, -⟩, -⟩ := h
  simp only [List.mem_cons, List.not_mem_nil, or_false]
  omega

theorem extraArg_of_ne {used i : Nat} (h1 : used < i) (h2 : i ≤ 15) (hi : s.cmdWord n i ≠ 0) : ∃ j, s.extraArg n used = some j := by
  refine Option.ne_none_iff_exists'.mp fun hnone => ?_
  have hall := List.find?_eq_none.mp hnone i (List.mem_map.mpr ⟨i - 1, List.mem_range.mpr (by omega), by omega⟩)
  have harg : s.arg n i ≠ 0 := fun h => hi (BitVec.eq_of_toNat_eq h)
  exact hall (by simp [h1, harg])

/-- IDENTIFY is one of Fiddlehead's own codes. -/
theorem fiddleServes_identify : s.fiddleServes 1 = true := rfl

/-- GET_MODE is none of them, outside a recovery. -/
theorem fiddleServes_getMode (h : s.recovering = false) : s.fiddleServes 0x11 = false := by
  unfold State.fiddleServes
  rw [h]
  rfl
end

/-- Settles O52: the checks one after the other on IDENTIFY, then each report by the body of its row. -/
theorem firmwareChecksAndReports : Obligations.FirmwareChecksAndReports := by
  refine ⟨fun s n => ?_, fun s n => ?_⟩
  · intro c done
    refine ⟨fun h => congrArg Host.Outcome.next (serve_idle h), fun h hc => ?_, fun h hc hne => ?_, fun h hc hres => ?_,
      fun h hc hres harg => ?_, fun h hc hm => ?_, fun h hfid hrec hc => ?_⟩
    · exact congrArg Host.Outcome.next (serve_unassigned h (Bool.eq_false_of_not_eq_true fun e => hc (List.contains_iff_mem.mp e)))
    · exact congrArg Host.Outcome.next (serve_other h (List.contains_iff_mem.mpr hc) hne)
    · exact congrArg Host.Outcome.next (serve_reserved h hc rfl (fun _ => fiddleServes_identify) (mode_of_toServe h) hres)
    · obtain ⟨i, h1, h2, hi⟩ := harg
      obtain ⟨j, hj⟩ := extraArg_of_ne h1 h2 hi
      exact congrArg Host.Outcome.next (serve_extraArg h hc rfl (fun _ => fiddleServes_identify) (mode_of_toServe h) hres hj)
    · exact congrArg Host.Outcome.next (serve_mode h hc rfl (.inl (by simpa using hm)))
    · exact congrArg Host.Outcome.next (serve_mode h hc rfl (.inr ⟨hfid, fiddleServes_getMode hrec⟩))
  · exact ⟨fun h => served_next rfl h rfl rfl, fun h => served_next rfl h rfl rfl, fun h => served_next rfl h rfl rfl,
      fun h => served_next rfl h rfl rfl, fun h => served_next rfl h rfl rfl, fun h => served_next rfl h rfl rfl⟩

end Sys2Proof.Machine

/-! ## SET_MODE, plans and regions (O53) -/

namespace Sys2Proof.Machine

/-! ### SET_MODE (R348, R437) -/

/-- The waits of SET_MODE commands. -/
def MailboxWait.isSetMode : MailboxWait → Bool
  | .setMode _ => true
  | _ => false

/-- A mode that is none is refused; one that is becomes the request, or waits for the request before it. -/
theorem setMode_cases {s : State} {n : Fin 16} (h : Served s n.val 0x10 [2, 3, 4, 5] 1) :
    ((s.arg n.val 1 = 0 ∨ 5 < s.arg n.val 1) → exec (.setMode n) s = .next (s.reply n.val 4 [])) ∧
    (1 ≤ s.arg n.val 1 → s.arg n.val 1 ≤ 5 → s.b R.PWR_MODEREQ 3 = false → s.power.safePending = none →
      s.waiting MailboxWait.isSetMode = [] → exec (.setMode n) s =
        .next ((s.onHost (fun x => { x with waits := x.waits ++ [(n.val, .setMode (s.arg n.val 1))] })).requestMode (s.arg n.val 1))) ∧
    (1 ≤ s.arg n.val 1 → s.arg n.val 1 ≤ 5 → s.b R.PWR_MODEREQ 3 = true → exec (.setMode n) s = .next s) := by
  refine ⟨fun ht => ?_, fun hlo hhi hreq hsafe hwait => ?_, fun hlo hhi hreq => ?_⟩
  · exact served_next rfl h rfl (if_pos (by omega))
  · refine served_next rfl h rfl ((if_neg (by omega)).trans (if_neg ?_))
    rintro (hr | hs | hw)
    · exact absurd (hr.symm.trans hreq) (by decide)
    · exact absurd ((congrArg Option.isSome hsafe).symm.trans hs) (by decide)
    · exact hw hwait
  · exact served_next rfl h rfl ((if_neg (by omega)).trans (if_pos (.inl hreq)))

/-! ### The plan commands (R45, R351) -/

/-- PLAN_ACTIVATE: DENIED with an empty slot, at once in Config, and else waiting for the tick. -/
theorem planActivate_cases {s : State} {n : Fin 16} (h : Served s n.val 0x31 [2, 3, 4] 0) (htaken : s.taken n.val = false) :
    (s.slot (1 - s.ledger.actSlot) = [] → exec (.planActivate n) s = .next (s.reply n.val 5 [])) ∧
    (s.slot (1 - s.ledger.actSlot) ≠ [] → s.mode = 2 → exec (.planActivate n) s =
      .next ((s.onLdg (fun l => { l with swapPending := true })).reply n.val 0 [0, 0, 1])) ∧
    (s.slot (1 - s.ledger.actSlot) ≠ [] → s.mode ≠ 2 → exec (.planActivate n) s =
      .next ((s.onLdg (fun l => { l with swapPending := true })).onHost (fun x =>
        { x with waits := x.waits ++ [(n.val, .planActivate)] }))) := by
  have hfree := ne_true_of_eq_false htaken
  refine ⟨fun hslot => ?_, fun hslot hmode => ?_, fun hslot hmode => ?_⟩
  · exact served_next rfl h rfl ((if_neg hfree).trans (if_pos hslot))
  · exact served_next rfl h rfl ((if_neg hfree).trans ((if_neg hslot).trans (if_pos (by simp [State.inConfig, hmode]))))
  · exact served_next rfl h rfl ((if_neg hfree).trans ((if_neg hslot).trans (if_neg (by simp [State.inConfig, hmode]))))

section
variable {s : State} {n a : Nat}

/-- PLAN_LOAD whose arguments are in range: the state of its owner, a pending swap, then entry by entry and the ledger's check. -/
theorem planLoad_cases (ha : s.argAddr n 1 = some a) (hcnt : 1 ≤ s.arg n 3) (hcnt2 : s.arg n 3 ≤ 1024) (hown : 2 ≤ s.arg n 4)
    (hown2 : s.arg n 4 ≤ 7) (hddr : s.inDdr a (16 * s.arg n 3) = true) (halign : a % 4 = 0) :
    ((s.thr (s.arg n 4)).st = .stopped → s.planLoad n = s.reply n 4 []) ∧
    ((s.thr (s.arg n 4)).st = .active → s.ledger.swapPending = true → s.planLoad n = s.reply n 2 []) ∧
    ((s.thr (s.arg n 4)).st = .active → s.ledger.swapPending = false → s.taken n = false →
      ∀ s1 s2 tbl l, s.fwTable fwWho n 16 16 (s.arg n 3) a [] = (s1, .ok tbl) →
        s1.planEntries n (s.arg n 4) tbl 0 [] = (s2, .ok l) →
        (s2.planFails l = none → s.planLoad n = (s2.replacePlan (1 - s.ledger.actSlot) l).reply n 0 [1 - s.ledger.actSlot, s.arg n 3]) ∧
        (∀ r, s2.planFails l = some r → s.planLoad n = (s2.replacePlan (1 - s.ledger.actSlot) []).reply n 7 [0, 0, r, 0])) := by
  unfold State.planLoad
  dsimp only
  rw [ha]
  dsimp only
  rw [if_neg (by simp [hddr, halign]; omega)]
  refine ⟨fun hst => if_pos (by simp [hst]), fun hst hswap => ?_, fun hst hswap htaken s1 s2 tbl l htbl hent => ?_⟩
  · rw [if_neg (by simp [hst]), if_pos (.inl hswap)]
  · rw [if_neg (by simp [hst]), if_neg (by simp [hswap, htaken]), htbl]
    unfold fwThen
    dsimp only
    rw [hent]
    dsimp only
    exact ⟨fun hfit => by rw [hfit], fun r hfail => by rw [hfail]⟩
end

/-! ### The region commands (R349, R350) -/

section
variable {s : State} {n code kind a b : Nat} {w : RegionWork}

/-- A region command that no part of it waits for begins with its checks. -/
theorem region_begins (hwait : s.host.waits.find? (fun e => e.1 == n) = none) (h : Served s n code allModes 6)
    (hc : assignedCodes.contains code = true) (ha : s.argAddr n 1 = some a)
    (hb : (if kind = 2 then some (s.arg n 3 + s.arg n 4 * 2 ^ 32) else s.argAddr n 3) = some b) (hflags : fld (s.cmdWord n 6) 15 4 = 0) :
    s.region n code kind = if s.regionCheck (s.regionOf n kind a b) ≠ 0 then s.reply n (s.regionCheck (s.regionOf n kind a b)) [0]
      else s.regionNext n (s.regionOf n kind a b) := by
  unfold State.region
  rw [hwait]
  dsimp only
  rw [serve_ok h hc, ha, hb]
  exact if_neg (not_not.mpr hflags)

theorem region_goesOn (hwait : s.host.waits.find? (fun e => e.1 == n) = some (n, .region w)) (hkind : w.kind = kind)
    (hrun : s.running = true) (hasked : s.host.asked.contains n = false) : s.region n code kind = s.regionOn n w := by
  unfold State.region
  rw [hwait]
  exact if_neg (not_or.mpr ⟨not_not.mpr hkind, not_or.mpr ⟨ne_false_of_eq_true hrun, ne_true_of_eq_false hasked⟩⟩)

theorem regionNext_done (hdone : w.len ≤ w.done) : s.regionNext n w = s.regionEnd n 0 w 0 0 := if_pos hdone

theorem regionNext_late (hmore : w.done < w.len) (hlate : s.regionLate w = true) :
    s.regionNext n w = s.regionEnd n 0x0B w 0 0 := (if_neg (Nat.not_le.mpr hmore)).trans (if_pos hlate)

theorem regionNext_safe (hmore : w.done < w.len) (hlate : s.regionLate w = false) (hmode : s.mode = 5) :
    s.regionNext n w = s.regionCopy n (w.len / 8) w :=
  (if_neg (Nat.not_le.mpr hmore)).trans ((if_neg (by simp [hlate])).trans (if_pos hmode))

theorem regionNext_config (hmore : w.done < w.len) (hlate : s.regionLate w = false) (hmode : s.mode = 2) :
    s.regionNext n w = s.regionIssue n w :=
  (if_neg (Nat.not_le.mpr hmore)).trans ((if_neg (by simp [hlate])).trans ((if_neg (by simp [hmode])).trans
    (if_neg (by simp [State.inFrame, hmode]))))
end

/-- Settles O53: SET_MODE and the plan commands by their checks in order; a region command at its start, its end and between. -/
theorem modePlanAndRegionCommands : Obligations.ModePlanAndRegionCommands := by
  refine ⟨fun s n a => ?_, fun s n a b w => ?_⟩
  · intro m t none'
    refine ⟨setMode_cases, planActivate_cases, fun h ha hcnt hcnt2 hown hown2 hddr halign => ?_⟩
    obtain ⟨hstopped, hpending, hread⟩ := planLoad_cases ha hcnt hcnt2 hown hown2 hddr halign
    refine ⟨fun hst => served_next rfl h rfl (hstopped hst), fun hst hswap => served_next rfl h rfl (hpending hst hswap),
      fun hst hswap htaken s1 s2 tbl l htbl hent => ?_⟩
    obtain ⟨hfits, hfails⟩ := hread hst hswap htaken s1 s2 tbl l htbl hent
    exact ⟨fun hfit => served_next rfl h rfl (hfits hfit), fun r hfail => served_next rfl h rfl (hfails r hfail)⟩
  · intro m row asks w0 fill
    have hbegins : ∀ k, k < 3 → asks k → (if k = 2 then some fill else s.argAddr m 3) = some b → exec (row k) s =
        .next (if s.regionCheck (w0 k) ≠ 0 then s.reply m (s.regionCheck (w0 k)) [0] else s.regionNext m (w0 k)) := by
      intro k hk ⟨hwait, h, ha, hflags⟩ hb
      match k, hk with
      | 0, _ => exact congrArg Host.Outcome.next (region_begins hwait h rfl ha hb hflags)
      | 1, _ => exact congrArg Host.Outcome.next (region_begins hwait h rfl ha hb hflags)
      | 2, _ => exact congrArg Host.Outcome.next (region_begins hwait h rfl ha hb hflags)
    refine ⟨fun h hb hok => (hbegins 0 (by decide) h hb).trans ?_, fun h hb hok => (hbegins 1 (by decide) h hb).trans ?_,
      fun h hb hok => (hbegins 2 (by decide) h (congrArg some hb.symm)).trans ?_,
      fun h hb hno => (hbegins 0 (by decide) h hb).trans ?_, fun h hb hno => (hbegins 1 (by decide) h hb).trans ?_,
      fun h hb hno => (hbegins 2 (by decide) h (congrArg some hb.symm)).trans ?_,
      regionNext_done, regionNext_late, regionNext_safe, regionNext_config, fun k hk hwait hkind hrun hasked => ?_⟩
    · rw [if_neg (not_not.mpr hok)]
    · rw [if_neg (not_not.mpr hok)]
    · rw [if_neg (not_not.mpr hok)]
    · rw [if_pos hno]
    · rw [if_pos hno]
    · rw [if_pos hno]
    · match k, hk with
      | 0, _ => exact congrArg Host.Outcome.next (region_goesOn hwait hkind hrun hasked)
      | 1, _ => exact congrArg Host.Outcome.next (region_goesOn hwait hkind hrun hasked)
      | 2, _ => exact congrArg Host.Outcome.next (region_goesOn hwait hkind hrun hasked)

end Sys2Proof.Machine

/-! ## The loads and the commands with subcommands (O54) -/

namespace Sys2Proof.Machine

/-! ### TICK_CONFIG (R20, R352) -/

section
variable (s : State) (n : Nat)

/-- The registers of the ledger lie below the mailboxes, and an answer leaves them alone. -/
theorem rd_reply_low (res : List Nat) {code r : Nat} (hcode : code < 256) (hr : r < 0x300000) :
    (s.reply n code res).rd r = s.rd r := by
  obtain ⟨-, -, -, -, hother⟩ := rd_reply s n res hcode
  exact hother r (fun w _ => by simp only [R.MBX_RES]; omega) (by simp only [R.MBX_SEQ]; omega) (by simp only [R.MBX_STATUS]; omega)
    (by simp only [R.MBX_DBSTAT]; omega)

/-- A write of LDG_CTL before 802.1AS time that is not synchronised is lost. -/
def State.ldgCtlStored (s : State) (v : Word) : State :=
  (((s.wr R.LDG_CTL (v &&& 0xF)).setB R.LDG_STAT 2 false).putF R.LDG_STAT 1 0 (fld v 1 0)).onLdg (fun l =>
    { l with lost := false, back := none })

theorem writeLdgCtl_eq (v : Word) : s.writeLdgCtl v =
    if fld v 1 0 = 3 ∧ s.io.synced = false then (s.ldgCtlStored v).loseSource else s.ldgCtlStored v := rfl

theorem ldgCtlStored_facts (v : Word) : (s.ldgCtlStored v).rd R.LDG_CTL = v &&& 0xF ∧ (s.ldgCtlStored v).jobs = s.jobs ∧
    (s.ldgCtlStored v).mem = s.mem := by
  unfold State.ldgCtlStored
  refine ⟨?_, by simp, by simp⟩
  rw [rd_onLdg, rd_putF_other _ _ _ _ (by decide), rd_setB_other _ _ _ (by decide), rd_wr_same]

theorem writeLdgCtl_facts (v : Word) : (s.writeLdgCtl v).rd R.LDG_CTL = v &&& 0xF ∧ (s.writeLdgCtl v).jobs = s.jobs ∧
    (s.writeLdgCtl v).mem = s.mem := by
  obtain ⟨hctl, hjobs, hmem⟩ := ldgCtlStored_facts s v
  obtain ⟨-, -, hjobs2, hmem2, hregs⟩ := loseSource_frame (s.ldgCtlStored v)
  rw [writeLdgCtl_eq]
  split
  · exact ⟨(hregs.rd (by decide)).trans hctl, hjobs2.trans hjobs, hmem2.trans hmem⟩
  · exact ⟨hctl, hjobs, hmem⟩

/-- The registers that TICK_CONFIG writes from its arguments. -/
def State.ticksConfigured (s : State) (n : Nat) : State :=
  let a := s.cmdWord n
  let s1 := ((((s.writeLdgCtl (a 1)).wr R.LDG_PERIOD (a 2)).wr R.LDG_TCUT (a 3)).wr R.LDG_TDL (a 4)).wr R.LDG_TOUT (a 5)
  let s2 := ((s1.wr R.LDG_TICKWIN (a 6)).wr R.LDG_ASPHASE (a 7)).wr R.LDG_TICKOUT (a 8)
  (s2.putF R.LDG_DERATE 25 16 (s.arg n 9)).wr R.LDG_VCSHARE (a 10)

theorem ticksConfigured_regs :
    let u := s.ticksConfigured n
    u.rd R.LDG_PERIOD = s.cmdWord n 2 ∧ u.rd R.LDG_TCUT = s.cmdWord n 3 ∧ u.rd R.LDG_TDL = s.cmdWord n 4 ∧
    u.rd R.LDG_TOUT = s.cmdWord n 5 ∧ u.rd R.LDG_TICKWIN = s.cmdWord n 6 ∧ u.rd R.LDG_VCSHARE = s.cmdWord n 10 ∧
    u.rd R.LDG_CTL = s.cmdWord n 1 &&& 0xF := by
  obtain ⟨hctl, -, -⟩ := writeLdgCtl_facts s (s.cmdWord n 1)
  simp only [State.ticksConfigured, State.putF, rd_wr, hctl]
  exact ⟨rfl, rfl, rfl, rfl, rfl, rfl, rfl⟩

theorem ticksConfigured_frame : (s.ticksConfigured n).jobs = s.jobs ∧ (s.ticksConfigured n).mem = s.mem := by
  obtain ⟨-, hjobs, hmem⟩ := writeLdgCtl_facts s (s.cmdWord n 1)
  have hsame : HostOnly (s.writeLdgCtl (s.cmdWord n 1)) (s.ticksConfigured n) := (HostOnly.refl _).wr.wr.wr.wr.wr.wr.wr.putF.wr
  exact ⟨hsame.jobs.trans hjobs, hsame.mem.trans hmem⟩

variable {s n}

/-- Accepted arguments keep the limits of R20 and of each field. -/
theorem tickArgs_limits (h : s.tickArgs n = none) : s.arg n 1 < 16 ∧ 5000 ≤ s.arg n 2 ∧ s.arg n 2 ≤ 10000000 ∧
    s.arg n 3 ≤ s.arg n 4 ∧ 1000 ≤ s.arg n 4 ∧ s.arg n 4 + 500 ≤ s.arg n 5 ∧ s.arg n 5 + 500 ≤ s.arg n 2 := by
  unfold State.tickArgs at h
  simp only [Option.map_eq_none_iff, List.find?_eq_none, List.mem_cons, List.not_mem_nil, or_false, forall_eq_or_imp, forall_eq,
    Bool.not_eq_true, Bool.not_eq_false', Bool.and_eq_true, decide_eq_true_eq] at h
  omega

/-- A word below the limit of a field at bit 0 is that field. -/
theorem fld_zero_of_lt {v : Word} {hi : Nat} (h : v.toNat < 2 ^ (hi + 1)) : fld v hi 0 = v.toNat := by
  unfold fld bits
  rw [Nat.pow_zero, Nat.div_one, Nat.sub_zero, Nat.mod_eq_of_lt h]

theorem tickConfig_accepted {n : Fin 16} (h : Served s n.val 0x40 [2] 15) (hextra : s.extraArg n.val 10 = none)
    (hargs : s.tickArgs n.val = none) : exec (.tickConfig n) s = .next ((s.ticksConfigured n.val).reply n.val 0 []) := by
  refine served_next rfl h rfl ?_
  rw [hargs, hextra]
  rfl

theorem tickConfig_facts (hargs : s.tickArgs n = none) :
    let u := (s.ticksConfigured n).reply n 0 []
    u.rd R.LDG_PERIOD = s.cmdWord n 2 ∧ u.rd R.LDG_TCUT = s.cmdWord n 3 ∧ u.rd R.LDG_TDL = s.cmdWord n 4 ∧
    u.rd R.LDG_TOUT = s.cmdWord n 5 ∧ u.rd R.LDG_TICKWIN = s.cmdWord n 6 ∧ u.rd R.LDG_VCSHARE = s.cmdWord n 10 ∧
    u.f R.LDG_CTL 3 0 = fld (s.cmdWord n 1) 3 0 ∧ u.phasesOk = true ∧ SameMemory s u ∧ u.jobs = s.jobs := by
  intro u
  obtain ⟨hperiod, hcut, hdl, hout, hwin, hshare, hctl⟩ := ticksConfigured_regs s n
  obtain ⟨hjobs, hmem⟩ := ticksConfigured_frame s n
  have hsame := hostOnly_reply (s.ticksConfigured n) n [] 0
  have hrd : ∀ r, r < 0x300000 → u.rd r = (s.ticksConfigured n).rd r := fun r => rd_reply_low _ n [] (by decide)
  have hP := (hrd R.LDG_PERIOD (by decide)).trans hperiod
  have hC := (hrd R.LDG_TCUT (by decide)).trans hcut
  have hD := (hrd R.LDG_TDL (by decide)).trans hdl
  have hO := (hrd R.LDG_TOUT (by decide)).trans hout
  refine ⟨hP, hC, hD, hO, (hrd _ (by decide)).trans hwin, (hrd _ (by decide)).trans hshare, ?_, ?_,
    .of_mem (hsame.mem.trans hmem), hsame.jobs.trans hjobs⟩
  · unfold State.f
    rw [hrd _ (by decide), hctl]
    unfold fld bits
    rw [BitVec.toNat_and, Nat.pow_zero, Nat.div_one, Nat.div_one]
    exact (congrArg (· % 16) (Nat.and_two_pow_sub_one_eq_mod _ 4)).trans (Nat.mod_mod _ 16)
  · obtain ⟨h1, h2, h3, h4, h5, h6, h7⟩ := tickArgs_limits hargs
    unfold State.arg at h1 h2 h3 h4 h5 h6 h7
    unfold State.phasesOk State.f
    rw [hP, hC, hD, hO, fld_zero_of_lt (by omega), fld_zero_of_lt (by omega), fld_zero_of_lt (by omega), fld_zero_of_lt (by omega)]
    simp only [Bool.and_eq_true, decide_eq_true_eq]
    omega
end

/-! ### The loads of tables (R265, R271, R276, R282, R352) -/

section
variable {α : Type} {s s1 s2 : State} {n : Nat} {res : List Nat} {k : State → α → State} {x : α}

/-- A command goes on with what firmware has read. -/
theorem fwThen_ok : fwThen n (s, .ok x) res k = k s x := rfl

variable {n : Fin 16} {a b : Nat} {st ft : List (List Byte)}

theorem ioMapLoad_read (h : Served s n.val 0x50 [2] 5) (ha : s.argAddr n.val 1 = some a) (hb : s.argAddr n.val 3 = some b)
    (hda : s.inDdr a 16384 = true) (hdb : s.inDdr b 2097152 = true) (hty : s.arg n.val 5 < 65536)
    (hst : s.fwTable sorterWho n.val 32 32 512 a [] = (s1, .ok st)) (hft : s1.fwTable sorterWho n.val 32 32 65536 b [] = (s2, .ok ft)) :
    exec (.ioMapLoad n) s = .next (s2.ioMap n.val st ft) := by
  refine served_next rfl h rfl ?_
  rw [ha, hb]
  dsimp only
  rw [if_neg (by simp [hda, hdb, hty]), hst, fwThen_ok, hft, fwThen_ok]

theorem fiuRulesLoad_read (h : Served s n.val 0x51 [2] 3) (ha : s.argAddr n.val 1 = some a) (hc : s.arg n.val 3 ≤ 16384)
    (hd : s.inDdr a (32 * s.arg n.val 3) = true) (hst : s.fwTable sorterWho n.val 32 32 (s.arg n.val 3) a [] = (s1, .ok st)) :
    (∀ i r, s1.rulesBad st 0 [] = some (i, r) → exec (.fiuRulesLoad n) s = .next (s1.reply n.val 4 [0, 0, i, 0, r])) ∧
    (s1.rulesBad st 0 [] = none → exec (.fiuRulesLoad n) s = .next ((s1.onIo (fun i =>
      { i with rules := (List.range (st.filterMap parseRule).length).zip (st.filterMap parseRule) })).reply n.val 0 [s.arg n.val 3])) := by
  refine ⟨fun i r hbad => served_next rfl h rfl ?_, fun hgood => served_next rfl h rfl ?_⟩
  · rw [ha]
    dsimp only
    rw [if_neg (by simp [hc, hd]), hst, fwThen_ok, hbad]
  · rw [ha]
    dsimp only
    rw [if_neg (by simp [hc, hd]), hst, fwThen_ok, hgood]

theorem egressTemplateLoad_read (h : Served s n.val 0x52 [2] 5) (ha : s.argAddr n.val 1 = some a) (hb : s.argAddr n.val 3 = some b)
    (hda : s.inDdr a 1048576 = true) (hc : s.arg n.val 5 ≤ 6144) (hdb : s.inDdr b (32 * s.arg n.val 5) = true)
    (hst : s.fwTable composerWho n.val 2048 2048 512 a [] = (s1, .ok st))
    (hft : s1.fwTable composerWho n.val 32 32 (s.arg n.val 5) b [] = (s2, .ok ft)) :
    exec (.egressTemplateLoad n) s = .next (s2.egressLoad n.val st ft) := by
  refine served_next rfl h rfl ?_
  rw [ha, hb]
  dsimp only
  rw [if_neg (by simp [hda, hdb, hc]), hst, fwThen_ok, hft, fwThen_ok]
end

/-! ### HOST_CHANNEL (R354) -/

section
variable {s u : State} {n sub used : Nat} {body : State → Nat → State} {c : Instr}

/-- A subcommand whose arguments are in range acts on a channel that the host owns; a read takes any. -/
theorem hostChannel_ok (h : Served s n 0xD0 [2, 3, 4] used) (hsub : fld (s.cmdWord n 1) 15 8 = sub) (hle : sub ≤ 3)
    (hres : fld (s.cmdWord n 1) 31 16 = 0)
    (hprod : sub = 1 → s.arg n 2 ≤ 3 ∧ spcKinds.contains (fld (s.cmdWord n 3) 7 0) = true) :
    s.hostChannel n sub used body = if sub ≠ 0 ∧ s.f (R.CH_CFG (fld (s.cmdWord n 1) 7 0)) 1 0 ≠ 1 then s.reply n 5 []
      else body s (fld (s.cmdWord n 1) 7 0) := by
  have hargs : ¬ (sub = 1 ∧ (3 < s.arg n 2 ∨ spcKinds.contains (fld (s.cmdWord n 3) 7 0) = false)) := by
    rintro ⟨h1, h2 | h2⟩
    · exact absurd (hprod h1).1 (Nat.not_le.mpr h2)
    · exact absurd ((hprod h1).2.symm.trans h2) (by decide)
  unfold State.hostChannel
  exact (serveSub_ok h rfl hsub hle).trans ((if_neg (not_not.mpr hres)).trans (if_neg hargs))

/-- The host owns the channel of the command. -/
def State.ownsChannel (s : State) (n : Nat) : Prop := s.f (R.CH_CFG (fld (s.cmdWord n 1) 7 0)) 1 0 = 1

/-- A row of HOST_CHANNEL on a channel that the host owns, or a read of any. -/
theorem hostChannel_next (hexec : exec c s = .next (s.hostChannel n sub used body)) (h : Served s n 0xD0 [2, 3, 4] used)
    (hsub : fld (s.cmdWord n 1) 15 8 = sub) (hle : sub ≤ 3) (hres : fld (s.cmdWord n 1) 31 16 = 0)
    (hprod : sub = 1 → s.arg n 2 ≤ 3 ∧ spcKinds.contains (fld (s.cmdWord n 3) 7 0) = true) (hown : sub = 0 ∨ s.ownsChannel n)
    (hbody : body s (fld (s.cmdWord n 1) 7 0) = u) : exec c s = .next u := by
  rw [hexec, hostChannel_ok h hsub hle hres hprod, if_neg, hbody]
  rintro ⟨h0, hcfg⟩
  rcases hown with h1 | h1
  · exact h0 h1
  · exact hcfg h1
end

/-! ### FABRIC_CONFIG (R353) -/

section
variable {s s1 u : State} {sub used : Nat} {modes : List Nat} {body : State → State} {c : Instr}

/-- A row of FABRIC_CONFIG whose A1 is its subcommand carries it out. -/
theorem fabConfig_next {n : Nat} (hexec : exec c s = .next (s.fabConfig n sub used modes body)) (h : Served s n 0x61 modes used)
    (hsub : s.arg n 1 = sub) (hle : sub ≤ 4) (hbody : body s = u) : exec c s = .next u := by
  have hfld : fld (s.cmdWord n 1) (0 + 7) 0 = sub := by
    unfold State.arg at hsub
    rw [fld_zero_of_lt (by omega), hsub]
  rw [hexec, State.fabConfig, serveSub_ok h rfl hfld hle, if_neg (by omega), hbody]

variable {n : Fin 16} {a : Nat} {l : List (List Byte)}

/-- FAB_WITNESS as FABRIC_CONFIG writes it: TOKEN stays. -/
def State.witnessKept (s : State) (n : Nat) : Word := setFld (s.cmdWord n 5) 8 8 (s.f R.FAB_WITNESS 8 8)

theorem fabricConfigDomain_stores (h : Served s n.val 0x61 [2] 5) (hsub : s.arg n.val 1 = 0)
    (hctl : s.fwRegOk R.FAB_CTL (s.cmdWord n.val 2) = true) (hprio : s.fwRegOk R.FAB_PRIO (s.cmdWord n.val 3) = true)
    (h4 : s.arg n.val 4 < 65536) (hvote : s.fwRegOk R.FAB_VOTE (s.cmdWord n.val 4) = true) (h5 : s.arg n.val 5 < 256)
    (hwit : s.fwRegOk R.FAB_WITNESS (s.witnessKept n.val) = true) :
    exec (.fabricConfigDomain n) s = .next (((((s.fwReg R.FAB_PRIO (s.cmdWord n.val 3)).fwReg R.FAB_VOTE (s.cmdWord n.val 4)).fwReg
      R.FAB_WITNESS (s.witnessKept n.val)).fwReg R.FAB_CTL (s.cmdWord n.val 2)).fabReply n.val) := by
  refine fabConfig_next rfl h hsub (by decide) ((if_neg (by simp [hctl])).trans ((if_neg (by simp [hprio])).trans
    ((if_neg (by simp [h4, hvote])).trans (if_neg ?_))))
  rintro (h256 | hbad)
  · exact absurd h5 (Nat.not_lt.mpr h256)
  · exact absurd (hwit.symm.trans hbad) (by decide)

theorem fabricConfigRejoinRegions_stores (h : Served s n.val 0x61 [2] 4) (hsub : s.arg n.val 1 = 3) (ha : s.argAddr n.val 2 = some a)
    (hc : s.arg n.val 4 ≤ 16) (hd : s.inDdr a (32 * s.arg n.val 4) = true)
    (hl : s.fwTable fwWho n.val 32 32 (s.arg n.val 4) a [] = (s1, .ok l))
    (hgood : firstBad (fun b => (s1.parseRegion b).isSome) l 0 = none) : exec (.fabricConfigRejoinRegions n) s =
      .next ((s1.onFab (fun f => { f with regions := l.filterMap s1.parseRegion })).fabReply n.val) := by
  refine fabConfig_next rfl h hsub (by decide) ?_
  rw [ha]
  dsimp only
  rw [if_neg (by omega), if_neg (by simp [hd]), hl, fwThen_ok, hgood]

theorem fabricConfigTwinRegions_stores (h : Served s n.val 0x61 [2] 4) (hsub : s.arg n.val 1 = 4) (ha : s.argAddr n.val 2 = some a)
    (hc : s.arg n.val 4 ≤ 16) (hd : s.inDdr a (16 * s.arg n.val 4) = true)
    (hl : s.fwTable fwWho n.val 16 16 (s.arg n.val 4) a [] = (s1, .ok l))
    (hgood : firstBad (fun b => (s1.parseTwin b).isSome) l 0 = none) (hsum : overTotal (l.filterMap s1.parseTwin) 0 0 = none) :
    exec (.fabricConfigTwinRegions n) s =
      .next ((s1.onFab (fun f => { f with twinRegions := l.filterMap s1.parseTwin })).fabReply n.val) := by
  refine fabConfig_next rfl h hsub (by decide) ?_
  rw [ha]
  dsimp only
  rw [if_neg (by omega), if_neg (by simp [hd]), hl, fwThen_ok, hgood]
  dsimp only
  rw [hsum]
end

/-- Settles O54: each load by the tables that were read, then each subcommand once its words are accepted. -/
theorem loadsAndSubcommands : Obligations.LoadsAndSubcommands := by
  refine ⟨fun s s1 s2 n a b st ft => ?_, fun s s1 n a l => ?_⟩
  · intro m
    refine ⟨fun h i hi => served_next rfl h rfl ?_, fun h hextra hargs => ⟨_, tickConfig_accepted h hextra hargs, tickConfig_facts hargs⟩,
      ioMapLoad_read, fiuRulesLoad_read, egressTemplateLoad_read⟩
    rw [hi]
  · intro m k chan fab
    refine ⟨fun ⟨h, hsub, hres⟩ => ?_, fun ⟨h, hsub, hres⟩ h2 h3 hown hok => ?_, fun ⟨h, hsub, hres⟩ hown => ?_,
      fun ⟨h, hsub, hres⟩ hown => ?_, fun ⟨h, hsub, hres⟩ hown => ?_, fun ⟨h, hsub⟩ hbad => ?_,
      fun ⟨h, hsub⟩ => fabricConfigDomain_stores h hsub, fun ⟨h, hsub⟩ h2 => ?_, fun ⟨h, hsub⟩ h2 hok => ?_,
      fun ⟨h, hsub⟩ => fabricConfigRejoinRegions_stores h hsub, fun ⟨h, hsub⟩ => fabricConfigTwinRegions_stores h hsub⟩
    · exact hostChannel_next rfl h hsub (by decide) hres (fun e => absurd e (by decide)) (.inl rfl) rfl
    · exact hostChannel_next rfl h hsub (by decide) hres (fun _ => ⟨h2, h3⟩) (.inr hown) (if_pos hok)
    · exact hostChannel_next rfl h hsub (by decide) hres (fun e => absurd e (by decide)) (.inr hown) rfl
    · exact hostChannel_next rfl h hsub (by decide) hres (fun e => absurd e (by decide)) (.inr hown) rfl
    · exact congrArg Host.Outcome.next
        ((hostChannel_ok h hsub (by decide) hres (fun e => absurd e (by decide))).trans (if_pos ⟨by decide, hown⟩))
    · exact fabConfig_next rfl h hsub (by decide) (if_pos hbad)
    · exact fabConfig_next rfl h hsub (by decide) (if_neg (Nat.not_le.mpr h2))
    · exact fabConfig_next rfl h hsub (by decide) (if_neg (not_or.mpr ⟨Nat.not_le.mpr h2, ne_false_of_eq_true hok⟩))

end Sys2Proof.Machine

/-! ## Tests, counters and tasks; updates and settings (O55, O56) -/

namespace Sys2Proof.Machine

/-! ### BIST_CONFIG, COUNTERS_READ and EVENT_LOG_READ (R356, R359) -/

section
variable {s s1 s2 : State} {n : Fin 16} {a b : Nat} {img : List Byte} {l : List (List Byte)}

theorem countersRead_answers (h : Served s n.val 0x90 [2, 3, 4, 5] 1) (h7 : fld (s.cmdWord n.val 1) 7 6 = 0)
    (h15 : fld (s.cmdWord n.val 1) 15 12 = 0) (h31 : fld (s.cmdWord n.val 1) 31 17 = 0) (hc : fld (s.cmdWord n.val 1) 11 8 ≠ 0)
    (hlast : fld (s.cmdWord n.val 1) 5 0 + fld (s.cmdWord n.val 1) 11 8 ≤ 64) :
    exec (.countersRead n) s = .next (s.reply n.val 0 ((List.range (fld (s.cmdWord n.val 1) 11 8)).flatMap (fun i =>
      s.counterWords ((s.cmdWord n.val 1).getLsbD 16) (fld (s.cmdWord n.val 1) 5 0 + i)))) :=
  served_next rfl h rfl (if_neg (by simp only [h7, h15, h31]; omega))

/-- What EVENT_LOG_READ leaves: its answer, and the log as it was. -/
theorem eventLogRead_facts (h : Served s n.val 0xC0 [2, 3, 4, 5] 2) (hlo : 1 ≤ s.arg n.val 2) (hhi : s.arg n.val 2 ≤ 7) :
    ∃ u : State, exec (.eventLogRead n) s = .next u ∧ u.rd (R.MBX_STATUS n.val) = BitVec.ofNat 32 (2 ^ 31) ∧
      u.fw.events = s.fw.events ∧ SameMemory s u := by
  have hanswer : ∀ res, (s.reply n.val 0 res).rd (R.MBX_STATUS n.val) = BitVec.ofNat 32 (2 ^ 31) ∧
      (s.reply n.val 0 res).fw.events = s.fw.events ∧ SameMemory s (s.reply n.val 0 res) := fun res => by
    obtain ⟨-, hstatus, -, -, -⟩ := rd_reply s n.val res (code := 0) (by decide)
    have hsame := hostOnly_reply s n.val res 0
    exact ⟨hstatus, congrArg Firmware.events hsame.fw, hsame.sameMemory⟩
  exact ⟨_, served_next rfl h rfl (if_neg (by omega)), hanswer _⟩

/-! ### The task commands (R357) -/

theorem taskStart_denied (h : Served s n.val 0xA1 [2, 3, 4] 1) (hfree : s.taken n.val = false) (hlow : s.arg n.val 1 < 2) :
    exec (.taskStart n) s = .next (s.reply n.val 5 []) :=
  served_next rfl h rfl ((if_neg (by omega)).trans ((if_neg (ne_true_of_eq_false hfree)).trans (if_pos hlow)))

/-- TASK_START of a thread whose start reads no descriptor of another device. -/
theorem taskStart_starts (h : Served s n.val 0xA1 [2, 3, 4] 1) (hfree : s.taken n.val = false) (hlo : 2 ≤ s.arg n.val 1)
    (hhi : s.arg n.val 1 ≤ 7)
    (hask : s.descAsk (.lichen true) (R.STM_CTL (s.arg n.val 1)) (setFld 1 5 4 (s.f (R.STM_CTL (s.arg n.val 1)) 5 4)) = none) :
    let s3 := s.writeStmCtl s.ctlAns (s.arg n.val 1) (setFld 1 5 4 (s.f (R.STM_CTL (s.arg n.val 1)) 5 4))
    exec (.taskStart n) s = .next (s3.reply n.val (if (s3.thr (s.arg n.val 1)).st = .stopped then 4 else 0)
      [(s3.stmStat (s.arg n.val 1)).toNat]) := by
  refine served_next rfl h rfl ((if_neg (by omega)).trans ((if_neg (ne_true_of_eq_false hfree)).trans ((if_neg (by omega)).trans ?_)))
  dsimp only
  rw [hask, fwThen_ok]

theorem taskStop_stopped (h : Served s n.val 0xA2 [2, 3, 4] 1) (hfree : s.taken n.val = false) (hlo : 2 ≤ s.arg n.val 1)
    (hhi : s.arg n.val 1 ≤ 7) (hst : (s.thr (s.arg n.val 1)).st = .stopped) : exec (.taskStop n) s =
      .next (s.reply n.val 0 [(s.thr (s.arg n.val 1)).pc.toNat, (s.stmStat (s.arg n.val 1)).toNat]) :=
  served_next rfl h rfl ((if_neg (by omega)).trans ((if_neg (ne_true_of_eq_false hfree)).trans ((if_neg (by omega)).trans (if_pos hst))))

/-- TASK_STOP of a thread that runs stops it and waits. -/
theorem taskStop_waits (h : Served s n.val 0xA2 [2, 3, 4] 1) (hfree : s.taken n.val = false) (hlo : 2 ≤ s.arg n.val 1)
    (hhi : s.arg n.val 1 ≤ 7) (hst : (s.thr (s.arg n.val 1)).st ≠ .stopped) : exec (.taskStop n) s =
      .next ((s.onHost (fun x => { x with waits := x.waits ++ [(n.val, .taskStop (s.arg n.val 1))] })).writeStmCtl [] (s.arg n.val 1)
        (setFld 2 5 4 (s.f (R.STM_CTL (s.arg n.val 1)) 5 4))) :=
  served_next rfl h rfl ((if_neg (by omega)).trans ((if_neg (ne_true_of_eq_false hfree)).trans ((if_neg (by omega)).trans (if_neg hst))))

/-- TASK_LOAD whose arguments are in range, once image and descriptors have been read. -/
theorem taskLoad_read (h : Served s n.val 0xA0 [2, 3, 4] 10) (hfree : s.taken n.val = false) (ha : s.argAddr n.val 2 = some a)
    (hb : s.argAddr n.val 8 = some b) (hlo : 2 ≤ s.arg n.val 1) (hhi : s.arg n.val 1 ≤ 7) (hst : (s.thr (s.arg n.val 1)).st = .stopped)
    (hlen : 0 < s.arg n.val 4) (hlen4 : s.arg n.val 4 % 4 = 0) (hbank : s.arg n.val 4 ≤ bankSize 16) (hoff : s.arg n.val 5 % 64 = 0)
    (harea : s.fw.fwArea ≤ s.arg n.val 5) (hent4 : s.arg n.val 6 % 4 = 0) (hent : s.arg n.val 6 < s.arg n.val 4) (hpl : s.arg n.val 7 ≤ 1)
    (hcnt : s.arg n.val 10 ≤ 7) (hddr : s.arg n.val 10 ≠ 0 → s.inDdr b (16 * s.arg n.val 10) = true) (haway : s.fabricAway a = false)
    (himg : s.fwRead n.val a (s.arg n.val 4) = (s1, .ok img))
    (hl : s1.fwTable fwWho n.val 16 16 (s.arg n.val 10) b [] = (s2, .ok l)) :
    exec (.taskLoad n) s = .next (s2.taskFit n.val (s.arg n.val 1) img l) := by
  have hlist : ¬ (s.arg n.val 10 ≠ 0 ∧ s.inDdr b (16 * s.arg n.val 10) = false) :=
    fun ⟨h0, hout⟩ => absurd ((hddr h0).symm.trans hout) (by decide)
  refine served_next rfl h rfl ?_
  rw [ha, hb]
  dsimp only
  rw [if_neg (by simp only [hlist, or_false]; omega), if_neg (ne_true_of_eq_false hfree), if_neg (not_or.mpr ⟨by omega, not_not.mpr hst⟩),
    if_neg (ne_true_of_eq_false haway), if_neg (Nat.not_lt.mpr hbank), himg, fwThen_ok, hl, fwThen_ok]
end

/-- Settles O55: each row by the checks of its arguments in order. -/
theorem tasksAndCounters : Obligations.TasksAndCounters := by
  intro s s1 s2 n a b img l m t c start s3
  exact ⟨fun h h1 h2 => served_next rfl h rfl (if_neg (not_or.mpr ⟨Nat.not_le.mpr h1, Nat.not_le.mpr h2⟩)), countersRead_answers,
    eventLogRead_facts, fun h hbad => served_next rfl h rfl (if_pos (hbad.imp_left Nat.lt_one_iff.mpr)), taskStart_denied,
    taskStart_starts, taskStop_stopped, taskStop_waits, taskLoad_read⟩

/-! ### The update commands (R355, R369, R371-R373, R382) -/

section
variable {s s1 : State} {n : Fin 16} {a x : Nat} {h d : List Byte}

theorem updateBegin_busy (hs : Served s n.val 0x70 [2, 3, 4, 5] 2) (ha : s.argAddr n.val 1 = some a) (htaken : s.taken n.val = true) :
    exec (.updateBegin n) s = .next (s.reply n.val 2 []) := by
  refine served_next rfl hs rfl ?_
  rw [ha]
  exact if_pos htaken

theorem updateBegin_read (hs : Served s n.val 0x70 [2, 3, 4, 5] 2) (ha : s.argAddr n.val 1 = some a) (hfree : s.taken n.val = false)
    (haway : s.fabricAway a = false) (hh : s.fwRead n.val a 512 = (s1, .ok h)) :
    exec (.updateBegin n) s = .next (s1.updateBegin n.val h) := by
  refine served_next rfl hs rfl ?_
  rw [ha]
  dsimp only
  rw [if_neg (ne_true_of_eq_false hfree), if_neg (ne_true_of_eq_false haway), hh, fwThen_ok]

/-- The steps of R369 in their order, the last one the lock of the staging area. -/
theorem updateBegin_steps (s : State) (m : Nat) (h : List Byte) : s.updateBegin m h =
    if imgWellFormed h = false then s.reply m 4 [] else if imgAuthentic h = false then s.reply m 8 []
    else if imgArb h < s.arbCount ∨ s.trialSlot.isSome = true then s.reply m 5 [] else if maxPayload < imgPlen h then s.reply m 0x0A []
    else ((s.lockFor .host h).map (fun u => u.reply m 0 [imgPlen h, leField h 8 4])).getD (s.reply m 2 []) := by
  unfold State.updateBegin
  cases s.lockFor .host h with
  | none => rfl
  | some u => rfl

theorem updateBlock_denied (hs : Served s n.val 0x71 [2, 3, 4, 5] 4) (ha : s.argAddr n.val 1 = some a) (hlo : 1 ≤ s.arg n.val 4)
    (hhi : s.arg n.val 4 ≤ 65536) (hfree : s.taken n.val = false) (hatt : s.attached .host = false) :
    exec (.updateBlock n) s = .next (s.reply n.val 5 []) := by
  refine served_next rfl hs rfl ?_
  rw [ha]
  dsimp only
  rw [if_neg (by omega), if_neg (ne_true_of_eq_false hfree), if_pos (.inl hatt)]

theorem updateBlock_read (hs : Served s n.val 0x71 [2, 3, 4, 5] 4) (ha : s.argAddr n.val 1 = some a) (hlo : 1 ≤ s.arg n.val 4)
    (hhi : s.arg n.val 4 ≤ 65536) (hfree : s.taken n.val = false) (hatt : s.attached .host = true) (hok : s.upd.failedHost = false)
    (haway : s.fabricAway a = false) (hd : s.fwRead n.val a (s.arg n.val 4) = (s1, .ok d)) :
    exec (.updateBlock n) s = .next (s1.updateBlock n.val d) := by
  refine served_next rfl hs rfl ?_
  rw [ha]
  dsimp only
  rw [if_neg (by omega), if_neg (ne_true_of_eq_false hfree), if_neg (by simp [hatt, hok]), if_neg (ne_true_of_eq_false haway), hd,
    fwThen_ok]

section
variable (hs : Served s n.val 0x72 [2, 3, 4, 5] 0) (hfree : s.taken n.val = false)
include hs hfree

theorem updateCommit_denied (hatt : s.attached .host = false) : exec (.updateCommit n) s = .next (s.reply n.val 5 []) :=
  served_next rfl hs rfl ((if_neg (ne_true_of_eq_false hfree)).trans (if_pos hatt))

theorem updateCommit_incomplete (hatt : s.attached .host = true) (o : Nat) (ho : s.commitStaging = (s1, some o)) :
    exec (.updateCommit n) s = .next (s1.reply n.val 9 [0, o]) := by
  refine served_next rfl hs rfl ?_
  rw [if_neg (ne_true_of_eq_false hfree), if_neg (by simp [hatt]), ho]

theorem updateCommit_whole (hatt : s.attached .host = true) (ho : s.commitStaging = (s1, none)) :
    exec (.updateCommit n) s = .next (s1.reply n.val 0 [1 - s1.boot.active]).recovered := by
  refine served_next rfl hs rfl ?_
  rw [if_neg (ne_true_of_eq_false hfree), if_neg (by simp [hatt]), ho]
end

theorem updateAbort_holder (hs : Served s n.val 0x73 [2, 3, 4, 5] 0) (hfree : s.taken n.val = false)
    (hh : s.upd.holder = some .host) : exec (.updateAbort n) s = .next ((s.detach .host none).reply n.val 0 []) :=
  served_next rfl hs rfl ((if_neg (ne_true_of_eq_false hfree)).trans (if_pos hh))

theorem updateAbort_denied (hs : Served s n.val 0x73 [2, 3, 4, 5] 0) (hfree : s.taken n.val = false)
    (hh : s.upd.holder ≠ some .host) : exec (.updateAbort n) s = .next (s.reply n.val 5 []) :=
  served_next rfl hs rfl ((if_neg (ne_true_of_eq_false hfree)).trans (if_neg hh))

/-- What UPDATE_STATUS leaves: its answer, and the update engine as it was. -/
theorem updateStatus_facts (hs : Served s n.val 0x74 [2, 3, 4, 5] 0) : ∃ u : State, exec (.updateStatus n) s = .next u ∧
    u.rd (R.MBX_RES n.val 0) = BitVec.ofNat 32 s.updState ∧ u.rd (R.MBX_RES n.val 1) = s.rd R.UPD_RECV ∧
    u.rd (R.MBX_STATUS n.val) = BitVec.ofNat 32 (2 ^ 31) ∧ u.upd = s.upd := by
  have hanswer : ∀ l, let u := s.reply n.val 0 (s.updState :: (s.rd R.UPD_RECV).toNat :: l)
      u.rd (R.MBX_RES n.val 0) = BitVec.ofNat 32 s.updState ∧ u.rd (R.MBX_RES n.val 1) = s.rd R.UPD_RECV ∧
      u.rd (R.MBX_STATUS n.val) = BitVec.ofNat 32 (2 ^ 31) ∧ u.upd = s.upd := fun l => by
    obtain ⟨hres, hstatus, -, -, -⟩ := rd_reply s n.val (s.updState :: (s.rd R.UPD_RECV).toNat :: l) (code := 0) (by decide)
    exact ⟨hres 0 (by decide), (hres 1 (by decide)).trans ((BitVec.ofNat_toNat 32 _).trans (BitVec.setWidth_eq _)), hstatus,
      (hostOnly_reply s n.val _ 0).upd⟩
  exact ⟨_, served_next rfl hs rfl rfl, hanswer _⟩

theorem updateConfirm_denied (hs : Served s n.val 0x75 [2, 3, 4, 5] 0) (hfree : s.taken n.val = false)
    (ht : s.trialSlot = none) : exec (.updateConfirm n) s = .next (s.reply n.val 5 []) := by
  refine served_next rfl hs rfl ?_
  rw [if_neg (ne_true_of_eq_false hfree), ht]

theorem updateConfirm_trial (hs : Served s n.val 0x75 [2, 3, 4, 5] 0) (hfree : s.taken n.val = false)
    (ht : s.trialSlot = some x) : exec (.updateConfirm n) s = .next ((s.confirm x).reply n.val 0 [x]) := by
  refine served_next rfl hs rfl ?_
  rw [if_neg (ne_true_of_eq_false hfree), ht]
end

/-! ### The settings store (R358, R381) -/

section
variable {s s1 : State} {n : Fin 16} {a : Nat} {r : SettingsRec} {d e : List Byte}

/-- SETTINGS_READ of a key: BAD_ARG where it has no record, else its data copied and its length and schema answered. -/
theorem settingsRead_cases (hs : Served s n.val 0xB0 [2, 3, 4, 5] 4) (ha : s.argAddr n.val 2 = some a) (hkey : s.arg n.val 1 < 65536)
    (hfree : s.taken n.val = false) :
    (s.fw.settings.find? (fun r => r.key == s.arg n.val 1) = none → exec (.settingsRead n) s = .next (s.reply n.val 4 [0, 0, 1])) ∧
    (s.fw.settings.find? (fun r => r.key == s.arg n.val 1) = some r → s.fabricAway a = false →
      s.fwWrite n.val a (r.data.take (s.arg n.val 4)) = (s1, .ok e) →
      exec (.settingsRead n) s = .next (s1.reply n.val 0 [r.data.length, r.schema])) := by
  refine ⟨fun hnone => served_next rfl hs rfl ?_, fun hsome haway hcopy => served_next rfl hs rfl ?_⟩
  · rw [ha]
    dsimp only
    rw [if_neg (Nat.not_le.mpr hkey), if_neg (ne_true_of_eq_false hfree), hnone]
  · rw [ha]
    dsimp only
    rw [if_neg (Nat.not_le.mpr hkey), if_neg (ne_true_of_eq_false hfree), hsome]
    dsimp only
    rw [if_neg (ne_true_of_eq_false haway), hcopy, fwThen_ok]

/-- SETTINGS_WRITE of arguments in range: not on trial, within the schemas of the image, then with its data, of length 0 or read. -/
theorem settingsWrite_cases (hs : Served s n.val 0xB1 [2] 5) (ha : s.argAddr n.val 2 = some a) (hkey : s.arg n.val 1 < 65535)
    (hlen : s.arg n.val 4 ≤ 4096) (hsch : s.arg n.val 5 < 65536) (hfree : s.taken n.val = false) :
    (s.trialSlot.isSome = true → exec (.settingsWrite n) s = .next (s.reply n.val 5 [])) ∧
    (s.trialSlot = none → (s.arg n.val 5 < s.fw.schMin ∨ s.fw.schMax < s.arg n.val 5) →
      exec (.settingsWrite n) s = .next (s.reply n.val 0x0D [])) ∧
    (s.trialSlot = none → s.fw.schMin ≤ s.arg n.val 5 → s.arg n.val 5 ≤ s.fw.schMax → s.arg n.val 4 = 0 →
      exec (.settingsWrite n) s = .next (s.settingsWrite n.val [])) ∧
    (s.trialSlot = none → s.fw.schMin ≤ s.arg n.val 5 → s.arg n.val 5 ≤ s.fw.schMax → s.arg n.val 4 ≠ 0 → s.fabricAway a = false →
      s.fwRead n.val a (s.arg n.val 4) = (s1, .ok d) → exec (.settingsWrite n) s = .next (s1.settingsWrite n.val d)) := by
  have hexec : exec (.settingsWrite n) s = .next (if s.trialSlot.isSome then s.reply n.val 5 []
      else if s.arg n.val 5 < s.fw.schMin ∨ s.fw.schMax < s.arg n.val 5 then s.reply n.val 0x0D []
      else if s.arg n.val 4 = 0 then s.settingsWrite n.val []
      else if s.fabricAway a then s.reply n.val 0x0C []
      else fwThen n.val (s.fwRead n.val a (s.arg n.val 4)) [] fun s1 d => s1.settingsWrite n.val d) := by
    refine served_next rfl hs rfl ?_
    rw [ha]
    dsimp only
    rw [if_neg (by omega), if_neg (ne_true_of_eq_false hfree)]
  rw [hexec]
  refine ⟨fun ht => by rw [if_pos ht], fun ht hout => ?_, fun ht hmin hmax h0 => ?_, fun ht hmin hmax h0 haway hd => ?_⟩
  · rw [if_neg (by simp [ht]), if_pos hout]
  · rw [if_neg (by simp [ht]), if_neg (by omega), if_pos h0]
  · rw [if_neg (by simp [ht]), if_neg (by omega), if_neg h0, if_neg (ne_true_of_eq_false haway), hd, fwThen_ok]
end

/-- Settles O56: each row by its checks in order, and the steps of R369 as the model takes them. -/
theorem updateAndSettings : Obligations.UpdateAndSettings := by
  refine ⟨fun s s1 n a x h d => ?_, fun s s1 n a r d e => ⟨settingsRead_cases, settingsWrite_cases⟩⟩
  intro m all
  exact ⟨updateBegin_busy, updateBegin_read, updateBegin_steps s m h, updateBlock_denied, updateBlock_read, updateCommit_denied,
    updateCommit_incomplete, updateCommit_whole, updateAbort_holder, updateAbort_denied, updateStatus_facts, updateConfirm_denied,
    updateConfirm_trial⟩

end Sys2Proof.Machine

namespace Sys2Proof.Machine

/-! ## The step (O1) -/

/-- Settles O1: both are the two branches of the step. -/
theorem stepRunsFrontCommand : Obligations.StepRunsFrontCommand := by
  refine fun s => ⟨fun c rest h => ?_, fun h => ?_⟩
  · unfold step
    rw [h]
  · unfold step
    rw [h]

/-! ## Registers written by a rule of their block -/

section
variable {s s1 : State} {o : Origin} {off c : Nat} {v : Word}

/-- Outside the blocks of the threads and of the traps only DBG_TREG reads a descriptor when it is written. -/
theorem descAsk_outside (hstm : off / 0x10000 ≠ 16) (htrp : off / 0x10000 ≠ 20) (htreg : off ≠ R.DBG_TREG) :
    s.descAsk o off v = none := by
  refine descAsk_plain ?_ htreg fun t ht => ?_
  · simp only [R.TRP_MTVS, R.TRP_STVS, R.TRP_MSTK, R.TRP_SSTK]
    omega
  · simp only [R.STM_CTL]
    omega

theorem blockRights_machine (hm : s.machineOrigin o = true) : s.blockRights o off = true := by
  unfold State.blockRights
  simp only [hm, ite_self]

/-- Debug, the counters and the watchdog ask no rights of a whole block. -/
theorem blockRights_open (hblock : 57 ≤ off / 0x10000) : s.blockRights o off = true := if_neg (by omega)

/-- A word that a register takes, from a master with the rights of its block, comes to the block's rule. -/
theorem csWrite_rule (h : Reaches s o off) (hv : Takes off v) (halign : off % 4 = 0) (hb : s.blockRights o off = true)
    {x : State × Option Nat} (hw : ∀ r, regRow off = some r → s.writeBlock o r off v = x) : s.csWrite o off 4 v = x := by
  obtain ⟨r, hrow, haccepts⟩ := hv
  exact (csWrite_block h hrow haccepts hb halign).trans (hw r hrow)

theorem takes_whole {r : RegRow} (hrow : regRow off = some r) (hknown : BitVec.ofNat 32 r.known = 0xFFFFFFFF#32) : Takes off v :=
  ⟨r, hrow, by simp [RegRow.accepts, hknown]⟩
end

end Sys2Proof.Machine

/-! ## Update timeouts, trials, the relay, fuses and the key lock (O57) -/

namespace Sys2Proof.Machine

section
variable {s s1 : State} {p : Fin 4} {k : Packet} {o : Origin} {v : Word} {x : Nat}

/-! ### The lock's timeout and a trial's minutes (R373, R380) -/

/-- Waiting does not touch the lock, which is then released. -/
theorem releaseLock_untilTime (hheld : s.upd.holder.isSome = true) (t : Nat) :
    (s.untilTime t).releaseLock = (s.untilTime t).dropStaging (some 0) := by
  obtain ⟨n, he⟩ := Elapsed.of_untilTime s t
  have hupd : (s.untilTime t).upd = s.upd := (congrArg State.upd he.untimed :)
  refine if_neg ?_
  rw [hupd, Option.isNone_eq_false_iff.mpr hheld]
  decide

theorem updateLockTimeout_releases (hrun : s.running = true) (hheld : s.upd.holder.isSome = true) : exec .updateLockTimeout s =
    .next ((s.untilTime (s.upd.lastBlock + usTime 10000000)).dropStaging (some 0)) := by
  rw [← releaseLock_untilTime hheld]
  change execUpdateLockTimeout s = _
  unfold execUpdateLockTimeout
  rw [if_pos (by simp [hrun, hheld])]

/-- A minute of Run on trial counts, and at the thirtieth falls back. -/
theorem trialMinute_counts (htrial : s.trialSlot = some x) (hmode : s.mode = 3) (hstat : s.b R.UPD_STAT 7 = true) :
    let m := s.untilTime (s.upd.minuteAt + usTime 60000000)
    let w := (m.onUpd (fun u => { u with minuteAt := m.now })).setBoot (fun b => { b with runmin := b.runmin + 1 })
    s.trialMinute = if 30 ≤ w.boot.runmin then (w.fallBack x 2).fwReset else w.showUpd := by
  unfold State.trialMinute
  rw [htrial]
  dsimp only
  rw [if_neg (by simp [hmode, hstat])]

theorem trialMinute_cases (htrial : s.trialSlot = some x) (hmode : s.mode = 3) (hstat : s.b R.UPD_STAT 7 = true) :
    let m := s.untilTime (s.upd.minuteAt + usTime 60000000)
    let w := (m.onUpd (fun u => { u with minuteAt := m.now })).setBoot (fun b => { b with runmin := b.runmin + 1 })
    (30 ≤ w.boot.runmin → exec .trialMinute s = .next (w.fallBack x 2).fwReset) ∧
    (w.boot.runmin < 30 → exec .trialMinute s = .next w.showUpd) := by
  have hminute := trialMinute_counts htrial hmode hstat
  have hexec : exec .trialMinute s = .next s.trialMinute := rfl
  dsimp only at hminute ⊢
  rw [hexec, hminute]
  exact ⟨fun hlate => by rw [if_pos hlate], fun hearly => by rw [if_neg (Nat.not_le.mpr hearly)]⟩

/-! ### The relay (R374, R375) -/

theorem relayTaken_member (hrun : s.running = true) (hfab : s.fabEn = true) (take : State → State) :
    s.relayTaken p.val k take = take s := by
  unfold State.relayTaken
  rw [if_neg (by simp [hrun]), if_neg (by simp [hfab])]

theorem relayBegin_closed (hsub : relaySub k = 1) (haddr : k.addr.toNat / 16 % 16 = 0) (hin : s.b R.UPD_CTL 1 = false) :
    s.relayBegin p.val k = ((s.takeRx p.val k).relayForward k).relayAnswer p.val k.tag.toNat 4 :=
  (if_neg (by simp [hsub, haddr])).trans (if_pos hin)

theorem relayBegin_locks (hsub : relaySub k = 1) (haddr : k.addr.toNat / 16 % 16 = 0) (hin : s.b R.UPD_CTL 1 = true)
    (hlock : ((s.takeRx p.val k).setB R.UPD_INT 1 true).lockFor .fabric (k.payload.take 512) = some s1) :
    s.relayBegin p.val k = (s1.relayForward k).relayAnswer p.val k.tag.toNat 0 := by
  unfold State.relayBegin
  rw [if_neg (by simp [hsub, haddr]), if_neg (by simp [State.relayIn, hin])]
  dsimp only
  rw [hlock]

theorem relayBegin_busy (hsub : relaySub k = 1) (haddr : k.addr.toNat / 16 % 16 = 0) (hin : s.b R.UPD_CTL 1 = true)
    (hlock : ((s.takeRx p.val k).setB R.UPD_INT 1 true).lockFor .fabric (k.payload.take 512) = none) : s.relayBegin p.val k =
      (((s.takeRx p.val k).setB R.UPD_INT 1 true).relayForward k).relayAnswer p.val k.tag.toNat 2 := by
  unfold State.relayBegin
  rw [if_neg (by simp [hsub, haddr]), if_neg (by simp [State.relayIn, hin])]
  dsimp only
  rw [hlock]

/-- A block goes on down the tree; a source that fails is told so. -/
theorem relayBlock_open {r : BlockRes} (hsub : relaySub k = 2) (haddr : k.addr.toNat / 16 % 16 = 0) (hin : s.b R.UPD_CTL 1 = true)
    (hblock : s.stageBlock .fabric (k.addr.toNat / 256 % 2 ^ 24) k.payload = (s1, r)) :
    s.relayBlock p.val k = if r = .failed then ((s1.takeRx p.val k).relayForward k).relayAnswer p.val k.tag.toNat 5
      else (s1.takeRx p.val k).relayForward k := by
  unfold State.relayBlock
  rw [if_neg (by simp [hsub, haddr]), if_neg (by simp [State.relayIn, hin]), hblock]
  cases r <;> rfl

/-- A commit of an attached source answers 1 with the image whole, and 3 with a unit missing. -/
theorem relayCommit_open {r : Option Nat} (hsub : relaySub k = 3) (haddr : k.addr.toNat / 16 % 16 = 0) (hin : s.b R.UPD_CTL 1 = true)
    (hfailed : s.upd.failedFab = false) (hatt : s.attached .fabric = true) (hcommit : (s.takeRx p.val k).commitStaging = (s1, r)) :
    s.relayCommit p.val k = ((s1.relayForward k).relayAnswer p.val k.tag.toNat (if r = none then 1 else 3), r.isNone) := by
  unfold State.relayCommit
  dsimp only
  rw [if_neg (by simp [hsub, haddr]), if_neg (by simp [State.relayIn, hin]), if_neg (by simp [hfailed]), if_neg (by simp [hatt]),
    hcommit]
  cases r <;> rfl

theorem exec_relayCommit (hrun : s.running = true) (hfab : s.fabEn = true) {c : State × Bool} (hc : s.relayCommit p.val k = c) :
    exec (.relayCommit p k) s = .next (if c.2 then c.1.recovered else c.1) := by
  refine congrArg Host.Outcome.next ((relayTaken_member hrun hfab _).trans ?_)
  rw [hc]
  obtain ⟨u, b⟩ := c
  cases b <;> rfl

theorem relayResult_mine (hrun : s.running = true) (hfab : s.fabEn = true) (hmine : s.isMine k = true) : exec (.relayResult p k) s =
    .next ((s.takeRx p.val k).onUpd (fun u => { u with results := u.results ++ [(k.src.toNat, k.addr.toNat / 256 % 256)] })) :=
  congrArg Host.Outcome.next ((relayTaken_member hrun hfab _).trans (if_pos hmine))

/-! ### Fuses and the key lock (R367, R368) -/

/-- A write of a register of the update engine by Machine origin comes to the engine's rule. -/
theorem regWrite_upd {off : Nat} (h : Reaches s o off) (hv : Takes off v) (hm : s.machineOrigin o = true)
    (hoff : off / 0x10000 = 52 ∧ off % 4 = 0)
    (hw : ∀ r, regRow off = some r → (if off = R.UPD_FUSE then s.writeFuse v else (s.plain r off v, none)) = (s1, none)) :
    s.regWrite o off v = s1.accepted o := by
  obtain ⟨hblock, halign⟩ := hoff
  refine regWrite_accepted h (descAsk_outside (by omega) (by omega) ?_)
    (csWrite_rule h hv halign (blockRights_machine hm) fun r hrow => ?_)
  · simp only [R.DBG_TREG]
    omega
  · unfold State.writeBlock
    rw [hblock]
    exact (if_neg (by simp [hm])).trans (hw r hrow)

theorem regWrite_fuse (h : Reaches s o R.UPD_FUSE) (hv : Takes R.UPD_FUSE v) (hm : s.machineOrigin o = true) (ht : fld v 6 0 ≤ 64)
    (hidle : s.b R.UPD_FUSE 7 = false) : s.regWrite o R.UPD_FUSE v = State.accepted (if fld v 6 0 ≤ s.arbCount then s
      else (s.setB R.UPD_FUSE 7 true).onUpd (fun u => { u with fuseTarget := fld v 6 0 })) o := by
  refine regWrite_upd h hv hm (by decide) fun r _ => (if_pos rfl).trans ((if_neg (by simp [hidle]; omega)).trans ?_)
  split <;> rfl

/-- Blowing leaves the higher of the count and its target, with DONE set if that is more than before. -/
theorem blow_facts {n : Nat} (hn : n ≤ 64) : (s.blow n).arbCount = max s.arbCount n ∧
    (s.arbCount < n → (s.blow n).b R.UPD_INT 3 = true) ∧ SameRegsBut [R.UPD_INT] s (s.blow n) ∧ SameMemory s (s.blow n) := by
  by_cases h : n ≤ s.arbCount
  · have heq : s.blow n = s := if_pos h
    rw [heq]
    exact ⟨by omega, fun hlt => absurd h (by omega), .refl _ s, fun _ => rfl⟩
  · have heq : s.blow n = (s.onUpd (fun u => { u with fusesBlown := n - Config.otpArb.val })).setB R.UPD_INT 3 true := if_neg h
    rw [heq]
    refine ⟨?_, fun _ => b_setB_same _ _ _ _ (by decide), fun r hr => rd_setB_other _ 3 true (by simpa using hr), fun _ => rfl⟩
    unfold State.arbCount at h ⊢
    change min 64 (Config.otpArb.val + (n - Config.otpArb.val)) = _
    omega

theorem fuseDone_facts (hrun : s.running = true) (hbusy : s.b R.UPD_FUSE 7 = true) (ht : s.upd.fuseTarget ≤ 64) :
    ∃ u : State, exec .fuseDone s = .next u ∧ u.b R.UPD_FUSE 7 = false ∧ u.arbCount = max s.arbCount s.upd.fuseTarget ∧
      (s.arbCount < s.upd.fuseTarget → u.b R.UPD_INT 3 = true) ∧ SameMemory s u := by
  obtain ⟨hcount, hint, hregs, hmem⟩ := blow_facts (s := s.setB R.UPD_FUSE 7 false) ht
  refine ⟨_, congrArg Host.Outcome.next (if_pos (by simp [hrun, hbusy])), ?_, hcount, hint, hmem⟩
  rw [hregs.b (by simp), b_setB_same _ _ _ _ (by decide)]

/-- The bit of a WL field: the first write sets it, none after that changes it. -/
theorem b_plain_lock {r : RegRow} {off i : Nat} (hi : i < 32) (hwl : r.wl.testBit i = true) (hrw : r.rw = 0) (hw1c : r.w1c = 0)
    (hw1s : r.w1s = 0) : (s.plain r off v).b off i = if s.locked.contains off then s.b off i else v.getLsbD i := by
  rw [b_plain s r off v hi]
  cases hl : s.locked.contains off with
  | false => rw [if_pos ⟨hwl, rfl⟩, if_neg Bool.false_ne_true]
  | true =>
    have hkept : (s.codes r off v).getLsbD i = s.b off i := by simp [getLsbD_codes s r off v hi, hrw, hw1c, hw1s]
    rw [if_neg (by simp), if_pos rfl, hkept, ite_self]

theorem regWrite_keylock (h : Reaches s o R.UPD_KEYLOCK) (hv : Takes R.UPD_KEYLOCK v) (hm : s.machineOrigin o = true) :
    ∃ r : RegRow, r = { off := R.UPD_KEYLOCK, wl := 1 } ∧
      s.regWrite o R.UPD_KEYLOCK v = (s.plain r R.UPD_KEYLOCK v).accepted o :=
  ⟨_, rfl, regWrite_upd h hv hm (by decide) fun r hrow => by
    have hr : r = { off := R.UPD_KEYLOCK, wl := 1 } := (Option.some.inj hrow).symm
    rw [if_neg (by decide), hr]⟩
end

/-- Settles O57: each event by the branch its hypotheses select, and the writes by the update engine's rule. -/
theorem updateEvents : Obligations.UpdateEvents := by
  intro s s1 p k o v x r s0
  refine ⟨updateLockTimeout_releases, trialMinute_cases, fun hrun hfab hsub haddr => ?_,
    fun hrun hfab hsub haddr hin hblock => ?_, fun hrun hfab hsub haddr hin hfailed hatt => ?_, relayResult_mine,
    fun h hv hm ht hidle => ?_, fuseDone_facts, fun h hv hm => ?_⟩
  · have hexec : exec (.relayBegin p k) s = .next (s.relayBegin p.val k) :=
      congrArg Host.Outcome.next (relayTaken_member hrun hfab _)
    exact ⟨fun hin => hexec.trans (congrArg Host.Outcome.next (relayBegin_closed hsub haddr hin)),
      fun hin hlock => hexec.trans (congrArg Host.Outcome.next (relayBegin_locks hsub haddr hin hlock)),
      fun hin hlock => hexec.trans (congrArg Host.Outcome.next (relayBegin_busy hsub haddr hin hlock))⟩
  · have hexec : exec (.relayBlock p k) s = .next (s.relayBlock p.val k) :=
      congrArg Host.Outcome.next (relayTaken_member hrun hfab _)
    have hopen := relayBlock_open (p := p) hsub haddr hin hblock
    exact ⟨fun hr => hexec.trans (congrArg Host.Outcome.next (hopen.trans (if_neg hr))), fun hr => hexec.trans (congrArg Host.Outcome.next (hopen.trans (if_pos hr)))⟩
  · exact ⟨fun hc => exec_relayCommit hrun hfab (relayCommit_open hsub haddr hin hfailed hatt hc),
      fun hc => exec_relayCommit hrun hfab (relayCommit_open hsub haddr hin hfailed hatt hc)⟩
  · have hfuse := regWrite_fuse h hv hm ht hidle
    exact ⟨fun hle => congrArg Host.Outcome.next (hfuse.trans (by rw [if_pos hle])),
      fun hlt => congrArg Host.Outcome.next (hfuse.trans (by rw [if_neg (Nat.not_le.mpr hlt)]))⟩
  · obtain ⟨r, hr, hwrite⟩ := regWrite_keylock h hv hm
    obtain ⟨hregs, hmem, -, -⟩ := plain_frame s r R.UPD_KEYLOCK v
    exact ⟨_, congrArg Host.Outcome.next hwrite,
      b_plain_lock (by decide) (by simp [hr]) (by simp [hr]) (by simp [hr]) (by simp [hr]), hregs, hmem⟩

end Sys2Proof.Machine

/-! ## The watchdog, the timers, the pins and the management target (O60) -/

namespace Sys2Proof.Machine

/-! ### Writes of the registers of debug, the counters and the watchdog -/

section
variable {s s1 : State} {o : Origin} {off c : Nat} {v : Word} {x : State × Option Nat}

/-- A register of the blocks that ask no rights as a whole, but DBG_TREG. -/
def OpenBlock (off : Nat) : Prop := 57 ≤ off / 0x10000 ∧ off % 4 = 0 ∧ off ≠ R.DBG_TREG

theorem regWrite_open (hoff : OpenBlock off) (h : Reaches s o off) (hv : Takes off v)
    (hw : ∀ r, regRow off = some r → s.writeBlock o r off v = (s1, none)) : s.regWrite o off v = s1.accepted o := by
  obtain ⟨hblock, halign, htreg⟩ := hoff
  exact regWrite_accepted h (descAsk_outside (by omega) (by omega) htreg) (csWrite_rule h hv halign (blockRights_open hblock) hw)

theorem regWrite_open_refused (hoff : OpenBlock off) (h : Reaches s o off) (hv : Takes off v)
    (hw : ∀ r, regRow off = some r → s.writeBlock o r off v = (s1, some c)) :
    s.regWrite o off v = s1.accessDone.refused o true c off := by
  obtain ⟨hblock, halign, htreg⟩ := hoff
  exact regWrite_refused h (descAsk_outside (by omega) (by omega) htreg) (csWrite_rule h hv halign (blockRights_open hblock) hw)

theorem writeBlock_wdg (h : off / 0x10000 = 68) (r : RegRow) : s.writeBlock o r off v = s.writeWdg o r off v := by
  unfold State.writeBlock
  rw [h]
  rfl
end

/-! ### What the watchdog leaves alone (R409, R410) -/

section
variable (s : State)

theorem regs_wdgReload : SameRegsBut [R.WDG_COUNT] s s.wdgReload := fun _ hr => rd_wr_other _ _ (by simpa using hr)

theorem left_wdgReload : s.wdgReload.wdg.left = s.f R.WDG_PERIOD 23 0 * 16000 := rfl

/-- The freeze shows in WDG_STAT, and its end reloads a watchdog that is enabled. -/
theorem wdgCheck_cases : s.wdgCheck = s ∨ (∃ b, s.wdgCheck = s.setB R.WDG_STAT 2 b) ∨
    s.wdgCheck = (s.setB R.WDG_STAT 2 false).wdgReload := by
  unfold State.wdgCheck
  extract_lets stop s1
  split
  · exact .inr (.inl ⟨true, rfl⟩)
  · split
    · split
      · exact .inr (.inr rfl)
      · exact .inr (.inl ⟨false, rfl⟩)
    · exact .inl rfl

theorem regs_wdgCheck : SameRegsBut [R.WDG_STAT, R.WDG_COUNT] s s.wdgCheck := by
  rcases wdgCheck_cases s with h | ⟨b, h⟩ | h <;> rw [h]
  · exact .refl _ s
  · exact (SameRegsBut.refl _ s).setB (by simp)
  · exact ((SameRegsBut.refl _ s).setB (by simp)).trans ((regs_wdgReload _).mono (by simp))

theorem dbg_wdgCheck : s.wdgCheck.dbg = s.dbg := by
  rcases wdgCheck_cases s with h | ⟨b, h⟩ | h <;> exact (congrArg State.dbg h :)

/-- A watchdog with its full period has it still. -/
theorem left_wdgCheck (h : s.wdg.left = s.f R.WDG_PERIOD 23 0 * 16000) : s.wdgCheck.wdg.left = s.f R.WDG_PERIOD 23 0 * 16000 := by
  rcases wdgCheck_cases s with e | ⟨b, e⟩ | e <;> rw [e]
  · exact h
  · exact h
  · exact congrArg (fld · 23 0 * 16000) (rd_setB_other s 2 false (by decide))
end

theorem Elapsed.wdgCheck {n : Nat} {s u : State} (h : Elapsed n s u) : Elapsed n s u.wdgCheck := by
  have hreload : ∀ w : State, Elapsed n s w → Elapsed n s w.wdgReload := fun w hw =>
    ⟨hw.clk, hw.untimed, fun r hr => (rd_wr_other _ _ fun e => by subst e; exact absurd hr (by decide)).trans (hw.regs r hr)⟩
  rcases wdgCheck_cases u with e | ⟨b, e⟩ | e <;> rw [e]
  · exact h
  · exact h.setB (by decide)
  · exact hreload _ (h.setB (by decide))

/-! ### The watchdog's registers and its two bites (R409) -/

section
variable {s : State} {o : Origin} {v : Word}

theorem watchdogEnable_written (h : Reaches s o R.WDG_CTL) (hv : Takes R.WDG_CTL v) (hd : s.debugRights o = true) :
    exec (.watchdogEnable o v) s = .next (State.accepted (s.writeWdgCtl v) o) := by
  refine congrArg Host.Outcome.next (regWrite_open (by unfold OpenBlock; decide) h hv fun r _ => ?_)
  rw [writeBlock_wdg (by decide)]
  unfold State.writeWdg
  rw [if_neg (by decide), if_neg (by decide), if_neg (by simp [hd]), if_pos rfl]

/-- The first write of WDG_CTL: EN and TESTEN as written, and EN locked from then on. -/
def State.wdgCtlWritten (s : State) (v : Word) : State :=
  { (s.setB R.WDG_CTL 1 (v.getLsbD 1)).setB R.WDG_CTL 0 (v.getLsbD 0) with locked := R.WDG_CTL :: s.locked }

theorem b_wdgCtlWritten : (s.wdgCtlWritten v).b R.WDG_CTL 0 = v.getLsbD 0 :=
  b_setB_same (s.setB R.WDG_CTL 1 (v.getLsbD 1)) _ 0 _ (by decide)

theorem f_wdgCtlWritten : (s.wdgCtlWritten v).f R.WDG_PERIOD 23 0 = s.f R.WDG_PERIOD 23 0 :=
  congrArg (fld · 23 0) ((rd_setB_other (s.setB R.WDG_CTL 1 (v.getLsbD 1)) 0 _ (by decide)).trans (rd_setB_other s 1 _ (by decide)))

theorem writeWdgCtl_first (hfree : s.locked.contains R.WDG_CTL = false) (hen : v.getLsbD 0 = true) :
    (s.writeWdgCtl v).b R.WDG_CTL 0 = true ∧ (s.writeWdgCtl v).wdg.left = s.f R.WDG_PERIOD 23 0 * 16000 := by
  have heq : s.writeWdgCtl v = (s.wdgCtlWritten v).wdgReload.wdgCheck :=
    (if_neg (by simpa using hfree)).trans (congrArg State.wdgCheck (if_pos hen))
  have hperiod : (s.wdgCtlWritten v).wdgReload.f R.WDG_PERIOD 23 0 = s.f R.WDG_PERIOD 23 0 :=
    ((regs_wdgReload _).f (by simp)).trans f_wdgCtlWritten
  rw [heq]
  refine ⟨?_, (left_wdgCheck _ ?_).trans (congrArg (· * 16000) hperiod)⟩
  · rw [(regs_wdgCheck _).b (by simp), (regs_wdgReload _).b (by simp), b_wdgCtlWritten, hen]
  · rw [left_wdgReload, hperiod, f_wdgCtlWritten]

theorem writeWdgCtl_locked (hlocked : s.locked.contains R.WDG_CTL = true) :
    (s.writeWdgCtl v).b R.WDG_CTL 0 = s.b R.WDG_CTL 0 := by
  have heq : s.writeWdgCtl v = (s.setB R.WDG_CTL 1 (v.getLsbD 1)).wdgCheck := if_pos hlocked
  rw [heq, (regs_wdgCheck _).b (by simp), b_setB _ _ _ _ _ _ (by decide), if_neg (by decide)]

theorem writeBlock_svc (r : RegRow) : s.writeBlock o r R.WDG_SVC v = s.writeWdgSvc o v :=
  (writeBlock_wdg (by decide) r).trans (if_pos rfl)

theorem watchdogService_key (h : Reaches s o R.WDG_SVC) (hm : s.machineOrigin o = true) (hkey : v = 0xA5C3) :
    exec (.watchdogService o v) s =
      .next (State.accepted (if s.b R.WDG_CTL 0 = true ∧ s.wdg.left ≠ 0 then s.wdgReload else s) o) :=
  congrArg Host.Outcome.next (regWrite_open (by unfold OpenBlock; decide) h (takes_whole rfl rfl) fun r _ =>
    (writeBlock_svc r).trans (if_pos ⟨hkey, hm⟩))

theorem watchdogService_other (h : Reaches s o R.WDG_SVC) (hm : s.machineOrigin o = true) (hkey : v ≠ 0xA5C3) :
    exec (.watchdogService o v) s = .next ((s.setB R.WDG_STAT 1 true).accessDone.refused o true 7 R.WDG_SVC) :=
  congrArg Host.Outcome.next (regWrite_open_refused (by unfold OpenBlock; decide) h (takes_whole rfl rfl) fun r _ =>
    (writeBlock_svc r).trans ((if_neg fun hc => hkey hc.1).trans (by rw [if_pos hm])))

theorem watchdogPrebite_first (hruns : s.wdgRuns = true) (hquiet : s.wdg.prebitten = false) : exec .watchdogPrebite s =
    (let w := s.advance (s.wdgClk (s.f R.WDG_PERIOD 23 0 * 4000))
     .next ((({ w with wdg := { w.wdg with prebitten := true } } : State).setB R.WDG_STAT 0 true).raiseMachine 1)) :=
  congrArg Host.Outcome.next (if_pos (by simp [hruns, hquiet]))

theorem watchdogPrebite_again (hbitten : s.wdg.prebitten = true) : s.watchdogPrebite = s := if_neg (by simp [hbitten])

theorem watchdogBite_safe (hruns : s.wdgRuns = true) (hbitten : s.wdg.prebitten = true) :
    exec .watchdogBite s = .next ((s.advance (s.wdgClk 0)).safeEntry 3) := by
  refine congrArg Host.Outcome.next ((if_pos hruns).trans ?_)
  rw [watchdogPrebite_again hbitten]
end

/-! ### Timers (R417) -/

section
variable {s : State} {o : Origin} {v : Word} {n : Fin 4}

/-- A write of TMRn_CTL by Supervisor origin or debug comes to the timer's rule. -/
theorem writeBlock_tmr (hrights : s.supervisorOrigin o = true ∨ s.debugRights o = true) (r : RegRow) :
    s.writeBlock o r (R.TMR_CTL n.val) v = s.writeTmrCtl n.val v := by
  rw [writeBlock_wdg (by simp only [R.TMR_CTL]; omega)]
  unfold State.writeWdg
  rw [if_neg (by simp only [R.TMR_CTL, R.WDG_SVC]; omega), if_pos (by simp only [R.TMR_CTL]; omega)]
  have hidx : idx (R.TMR_CTL n.val) (R.TMR_CTL 0) 0x10 = n.val := by
    simp only [R.TMR_CTL, idx]
    omega
  rw [hidx]
  refine (if_neg ?_).trans (if_pos rfl)
  rcases hrights with h | h <;> simp [h]

theorem openBlock_tmr : OpenBlock (R.TMR_CTL n.val) := by
  simp only [OpenBlock, R.TMR_CTL, R.DBG_TREG]
  omega

/-- TMRn_CTL written and the timer replaced: nothing but TMRn_CTL and TMRn_STAT reads otherwise. -/
theorem timerWritten_facts (s : State) (x : Word) (t : Timer) :
    let u := (s.wr (R.TMR_CTL n.val) x).setTmr n.val t
    u.tmr n.val = t ∧ u.b (R.TMR_STAT n.val) 1 = t.run ∧ u.rd (R.TMR_CTL n.val) = x ∧
    SameRegsBut [R.TMR_CTL n.val, R.TMR_STAT n.val] s u ∧ SameMemory s u := by
  intro u
  refine ⟨quad_get_set_same .., b_setB_same _ _ _ _ (by decide), ?_, fun r hr => ?_, fun _ => rfl⟩
  · exact (rd_setB_other _ 1 _ (by simp)).trans (rd_wr_same ..)
  · simp only [List.mem_cons, List.not_mem_nil, or_false, not_or] at hr
    exact (rd_setB_other _ 1 _ hr.2).trans (rd_wr_other s x hr.1)

variable (h : Reaches s o (R.TMR_CTL n.val)) (hv : Takes (R.TMR_CTL n.val) v)
  (hrights : s.supervisorOrigin o = true ∨ s.debugRights o = true)
include h hv hrights

theorem timerStart_counts (hstart : v.getLsbD 0 = true) (hgo : v.getLsbD 3 = false) (hload : (s.rd (R.TMR_LOAD n.val)).toNat ≠ 0) :
    exec (.timerStart o n v) s = .next (State.accepted ((s.wr (R.TMR_CTL n.val) (v &&& 6)).setTmr n.val
      { run := true, left := (s.rd (R.TMR_LOAD n.val)).toNat * 160 }) o) := by
  refine congrArg Host.Outcome.next (regWrite_open openBlock_tmr h hv fun r _ => (writeBlock_tmr hrights r).trans ?_)
  unfold State.writeTmrCtl
  dsimp only
  rw [if_neg (by simp [hload]), if_neg (ne_true_of_eq_false hgo), if_pos hstart]

theorem timerStop_stops (hstop : v.getLsbD 3 = true) : exec (.timerStop o n v) s =
    .next (State.accepted ((s.wr (R.TMR_CTL n.val) (v &&& 6)).setTmr n.val { s.tmr n.val with run := false }) o) := by
  refine congrArg Host.Outcome.next (regWrite_open openBlock_tmr h hv fun r _ => (writeBlock_tmr hrights r).trans ?_)
  unfold State.writeTmrCtl
  dsimp only
  rw [if_neg (by simp [hstop]), if_pos hstop]

theorem timerStart_refused (hstart : v.getLsbD 0 = true) (hgo : v.getLsbD 3 = false) (hload : (s.rd (R.TMR_LOAD n.val)).toNat = 0) :
    exec (.timerStart o n v) s = .next (s.accessDone.refused o true 7 (R.TMR_CTL n.val)) :=
  congrArg Host.Outcome.next (regWrite_open_refused openBlock_tmr h hv fun r _ =>
    (writeBlock_tmr hrights r).trans (if_pos ⟨hstart, hgo, hload⟩))
end

/-! ### Pins and the management target (R466, R467) -/

section
variable {s : State} {b : Byte} {l : List Byte}

/-- The bit of a number that was given. -/
theorem testBit_putBit_same (x i : Nat) (b : Bool) : (putBit x i b).testBit i = b := by
  cases b with
  | true => exact testBit_putBit_true x i
  | false =>
    unfold putBit
    split
    next h =>
      obtain ⟨y, hy⟩ := Nat.exists_eq_add_of_le (Nat.ge_two_pow_of_testBit h)
      rw [hy, Nat.testBit_two_pow_add_eq] at h
      rw [if_neg (by decide), hy, Nat.add_sub_cancel_left]
      simpa using h
    next h => simpa using h

/-- A pin's level as it is shown, before the interrupt and the event of its edge. -/
def State.pinShown (s : State) (pin : Nat) (level : Bool) : State :=
  ({ s with pins := { s.pins with gpio := putBit s.pins.gpio pin level } } : State).setB R.GLB_GPIO_IN pin level

theorem gpio_pinShown (pin : Nat) (level : Bool) : (s.pinShown pin level).pins.gpio = putBit s.pins.gpio pin level := rfl

theorem b_pinShown {pin : Nat} (level : Bool) (hpin : pin < 32) : (s.pinShown pin level).b R.GLB_GPIO_IN pin = level :=
  b_setB_same _ _ _ _ hpin

theorem mem_pinShown (pin : Nat) (level : Bool) : (s.pinShown pin level).mem = s.mem := rfl

theorem jobs_pinShown (pin : Nat) (level : Bool) : (s.pinShown pin level).jobs = s.jobs := rfl

theorem gpioLevel_new {pin : Nat} {level : Bool} (h : s.pins.gpio.testBit pin ≠ level) : ∃ k,
    s.gpioLevel pin level = (s.pinShown pin level).produce 0x21 k ∨
    s.gpioLevel pin level = ((s.pinShown pin level).setB R.GLB_GPIO_INT pin true).produce 0x21 k := by
  refine ⟨pin + (if level then 16 else 32), ?_⟩
  unfold State.gpioLevel
  rw [if_neg h]
  extract_lets p s1 s2 edge hit
  cases hit
  · exact .inl rfl
  · exact .inr rfl

theorem gpioLevel_facts (pin : Nat) (level : Bool) : (s.gpioLevel pin level).pins.gpio.testBit pin = level ∧
    SameMemory s (s.gpioLevel pin level) ∧ (s.gpioLevel pin level).jobs = s.jobs := by
  by_cases h : s.pins.gpio.testBit pin = level
  · rw [show s.gpioLevel pin level = s from if_pos h]
    exact ⟨h, fun _ => rfl, rfl⟩
  · have hpin : (s.pinShown pin level).pins.gpio.testBit pin = level := by rw [gpio_pinShown, testBit_putBit_same]
    obtain ⟨k, e | e⟩ := gpioLevel_new h <;> rw [e]
    · exact ⟨hpin, .of_mem (mem_pinShown pin level), jobs_pinShown pin level⟩
    · exact ⟨hpin, .of_mem (mem_pinShown pin level), jobs_pinShown pin level⟩

/-- A changed level shows in GLB_GPIO_IN. -/
theorem gpioLevel_shows {pin : Nat} {level : Bool} (hpin : pin < 32) (h : s.pins.gpio.testBit pin ≠ level) :
    (s.gpioLevel pin level).b R.GLB_GPIO_IN pin = level := by
  obtain ⟨k, e | e⟩ := gpioLevel_new h <;> rw [e]
  · exact b_pinShown level hpin
  · exact (b_of_rd (rd_setB_other (s.pinShown pin level) pin true (by decide)) pin).trans (b_pinShown level hpin)

theorem i2cRead_facts (hup : s.power.up = true) (hptr : s.pins.ptr ≠ 6) : ∃ u : State, exec .i2cRead s = .next u ∧
    u.out = .i2c (s.pins.mgt.getD s.pins.ptr 0) :: s.out ∧ u.pins.ptr = (s.pins.ptr + 1) % 256 ∧ u.pins.mgt = s.pins.mgt ∧
    SameRegsBut [] s u ∧ SameMemory s u := by
  refine ⟨_, congrArg Host.Outcome.next (if_pos hup), ?_, rfl, rfl, .refl _ s, fun _ => rfl⟩
  dsimp only [State.emit]
  rw [if_neg hptr]

theorem i2cWrite_points (hup : s.power.up = true) :
    exec (.i2cWrite (b :: l)) s = .next { s with pins := { s.pins with ptr := b.toNat } } := by
  change execI2cWrite (b :: l) s = _
  unfold execI2cWrite
  rw [hup]
end

/-- Settles O60: each register's write by its rule, and each event by the branch its hypotheses select. -/
theorem supervision : Obligations.Supervision := by
  intro s o v n pin level b l ctl load rights
  refine ⟨watchdogEnable_written, writeWdgCtl_first, writeWdgCtl_locked, fun h hm => ⟨fun hkey hen hleft => ?_, fun hkey hlate => ?_,
    watchdogService_other h hm⟩, watchdogPrebite_first, fun hruns hbitten => ⟨congrArg Host.Outcome.next
      (watchdogPrebite_again hbitten), watchdogBite_safe hruns hbitten⟩, fun h hv hrights => ⟨fun hstart hgo hload => ?_,
    fun hstop => ?_, timerStart_refused h hv hrights⟩, fun hrun hclk => ?_, fun hrun hdir => ?_,
    fun _ => gpioLevel_shows (by omega), fun hup => ⟨congrArg Host.Outcome.next (if_pos hup), i2cWrite_points hup,
      i2cRead_facts hup⟩⟩
  · rw [watchdogService_key h hm hkey, if_pos ⟨hen, hleft⟩]
  · rw [watchdogService_key h hm hkey, if_neg]
    rintro ⟨hen, hleft⟩
    rcases hlate with hoff | hzero
    · exact absurd (hen.symm.trans hoff) (by decide)
    · exact hleft hzero
  · obtain ⟨htmr, hrun, hctl, hregs, hmem⟩ := timerWritten_facts (n := n) s (v &&& 6) { run := true, left := load * 160 }
    exact ⟨_, timerStart_counts h hv hrights hstart hgo hload, htmr, hrun, hctl, hregs, hmem⟩
  · obtain ⟨htmr, hrun, hctl, hregs, hmem⟩ := timerWritten_facts (n := n) s (v &&& 6) { s.tmr n.val with run := false }
    exact ⟨_, timerStop_stops h hv hrights hstop, congrArg Timer.run htmr, hrun, hctl, hregs, hmem⟩
  · exact congrArg Host.Outcome.next (if_pos ⟨hrun, hclk⟩)
  · obtain ⟨hpin, hmem, hjobs⟩ := gpioLevel_facts (s := s) pin.val level
    exact ⟨_, congrArg Host.Outcome.next (if_pos (by simp [hrun, hdir])), hpin, hmem, hjobs⟩

end Sys2Proof.Machine

/-! ## The debug port, authorisation, halt, step, trace (O59) -/

namespace Sys2Proof.Machine

/-! ### Writes of the debug registers -/

section
variable {s s1 : State} {o : Origin} {off c : Nat} {v : Word} {x : State × Option Nat}

theorem writeBlock_dbg (h : off / 0x10000 = 60) (r : RegRow) : s.writeBlock o r off v = s.writeDbg o r off v := by
  unfold State.writeBlock
  rw [h]
  rfl

/-- A register of the debug block that asks the debug rights, from a master that has them. -/
theorem writeDbg_rights (hd : s.debugRights o = true) (hsp : off < R.DBG_SP 0) (hauth : off ≠ R.DBG_AUTH)
    (hresp : ¬ (R.DBG_RESP 0 ≤ off ∧ off ≤ R.DBG_RESP 7)) (hnonce : ¬ (R.DBG_NONCE 0 ≤ off ∧ off ≤ R.DBG_NONCE 7)) (r : RegRow) :
    s.writeDbg o r off v =
      if off = R.DBG_HALT then s.writeHalt o v
      else if off = R.DBG_RESUME then s.writeResume o v
      else if off = R.DBG_STEP then s.writeStep o v
      else if off = R.DBG_TREG then s.tregWrite s.ctlAns o v
      else if off = R.DBG_XMASK then (s.setReg off (v &&& (if s.machineOrigin o then 0xFFFF else 0xFC)), none)
      else if off = R.DBG_TSEL then refuseIf (decide (19 < fld v 7 3)) 7 s (s.plain r off v, none)
      else if off = R.DBG_TRCCTL then s.writeTrcCtl v
      else if off = R.DBG_TRCSIZE then refuseIf (fld v 5 0 != 0 || decide (v.toNat < 4096)) 7 s (s.plain r off v, none)
      else (s.plain r off v, none) := by
  unfold State.writeDbg
  rw [if_neg (by omega), if_neg hauth, if_neg hresp, if_neg hnonce, if_neg (by simp [hd])]

/-- A register takes a word below a power of two when its row describes the bits below. -/
theorem takes_low {r : RegRow} {k : Nat} (hrow : regRow off = some r)
    (hlow : ∀ low : BitVec k, (low.setWidth 32 &&& ~~~ BitVec.ofNat 32 r.known) == 0) (hv : v.toNat < 2 ^ k) : Takes off v := by
  have hv32 : v = (v.setWidth k).setWidth 32 := by
    apply BitVec.eq_of_toNat_eq
    rw [BitVec.toNat_setWidth, BitVec.toNat_setWidth, Nat.mod_eq_of_lt hv, Nat.mod_eq_of_lt v.isLt]
  refine ⟨r, hrow, ?_⟩
  rw [hv32]
  exact hlow (v.setWidth k)

theorem debugRights_machine (hm : s.machineOrigin o = true) : s.debugRights o = true := by simp [State.debugRights, hm]

theorem mayName_machine (hm : s.machineOrigin o = true) (t : Nat) : s.mayName o t = true := by simp [State.mayName, hm]
end

/-! ### The debug port (R399, R400) -/

section
variable {s : State} {a : BitVec 48} {v : Word} (halive : s.portAlive = true)
include halive

theorem dbgaccUpdate_collides (op : BitVec 2) (hbusy : s.dbg.status = 3) :
    exec (.dbgaccUpdate op a v) s = .next (s.setB R.DBG_STAT 8 true) :=
  congrArg Host.Outcome.next ((if_neg (by simp [halive])).trans (if_pos hbusy))

variable (hidle : s.dbg.status ≠ 3)
include hidle

theorem dbgaccUpdate_idle {op : BitVec 2} (hop : op = 1 ∨ op = 2) : exec (.dbgaccUpdate op a v) s =
    .next (if s.debugAllows a.toNat = false then s.dbgDone 2 0
      else if op = 1 then s.debugRead a.toNat else s.debugWrite a.toNat v) :=
  congrArg Host.Outcome.next ((if_neg (by simp [halive])).trans ((if_neg hidle).trans (if_neg (by tauto))))

theorem dbgaccUpdate_denied {op : BitVec 2} (hop : op = 1 ∨ op = 2) (hdeny : s.debugAllows a.toNat = false) :
    exec (.dbgaccUpdate op a v) s = .next (s.dbgDone 2 0) :=
  (dbgaccUpdate_idle halive hidle hop).trans (congrArg Host.Outcome.next (if_pos hdeny))

theorem dbgaccUpdate_allowed {op : BitVec 2} (hop : op = 1 ∨ op = 2) (hallow : s.debugAllows a.toNat = true) :
    exec (.dbgaccUpdate op a v) s = .next (if op = 1 then s.debugRead a.toNat else s.debugWrite a.toNat v) :=
  (dbgaccUpdate_idle halive hidle hop).trans (congrArg Host.Outcome.next (if_neg (by simp [hallow])))
end

/-! ### Authorisation (R401, R402) -/

theorem locateIn_dbgAuth (remap : Bool) : locateIn remap (csBase + R.DBG_AUTH) = .control R.DBG_AUTH := by
  cases remap <;> decide

section
variable {s : State}

/-- Every level lets the debug port reach DBG_AUTH. -/
theorem debugAllows_auth : s.debugAllows (csBase + R.DBG_AUTH) = true := by
  unfold State.debugAllows State.locate
  rw [locateIn_dbgAuth]
  match s.dbgLevel with
  | 0 => rfl
  | 1 => rfl
  | _ + 2 => rfl

theorem reaches_dbgAuth (halive : s.portAlive = true) (hidle : s.dbg.status ≠ 3) (holder : s.olderDone .debug = some s) :
    Reaches s .debug R.DBG_AUTH := by
  refine ⟨?_, ?_, holder, .inr ⟨rfl, by decide⟩⟩
  · simp [State.reaches, halive, hidle]
  · simp [State.dbgDenies, debugAllows_auth]

theorem regWrite_auth {v : Word} (h : Reaches s .debug R.DBG_AUTH) (hv : Takes R.DBG_AUTH v) :
    s.regWrite .debug R.DBG_AUTH v = State.accepted (s.writeAuth .debug v).1 .debug := by
  have hok : s.writeAuth .debug v = ((s.writeAuth .debug v).1, none) := by
    unfold State.writeAuth
    rw [if_neg (fun h => h.1 rfl)]
  refine regWrite_open (by unfold OpenBlock; decide) h hv fun r _ => ((writeBlock_dbg (by decide) r).trans ?_).trans hok
  unfold State.writeDbg
  rw [if_neg (by decide), if_pos rfl]

theorem takes_auth {v : Word} (hv : v.toNat < 32) : Takes R.DBG_AUTH v := takes_low (k := 5) rfl (by decide) hv

theorem auth_written (halive : s.portAlive = true) (hidle : s.dbg.status ≠ 3) (holder : s.olderDone .debug = some s)
    (level : BitVec 2) :
    exec (.dbgAuthNew .debug) s = .next (State.accepted s.authNew .debug) ∧
    exec (.dbgAuthSubmit .debug level) s = .next (State.accepted (s.authSubmit level.toNat) .debug) ∧
    exec (.dbgAuthRevoke .debug) s = .next (State.accepted s.authEnd .debug) := by
  have h := reaches_dbgAuth halive hidle holder
  have hcode : ∀ level : BitVec 2, (word (2 + level.toNat * 4)).toNat < 32 ∧ (word (2 + level.toNat * 4)).getLsbD 4 = false ∧
      (word (2 + level.toNat * 4)).getLsbD 1 = true ∧ (word (2 + level.toNat * 4)).getLsbD 0 = false ∧
      fld (word (2 + level.toNat * 4)) 3 2 = level.toNat := by decide
  obtain ⟨hlt, hrevoke, hsubmit, hnew, hlevel⟩ := hcode level
  refine ⟨congrArg Host.Outcome.next (regWrite_auth h (takes_auth (by decide))),
    congrArg Host.Outcome.next ((regWrite_auth h (takes_auth hlt)).trans ?_),
    congrArg Host.Outcome.next (regWrite_auth h (takes_auth (by decide)))⟩
  unfold State.writeAuth
  dsimp only
  rw [if_neg (by simp), hrevoke, hsubmit, hnew, hlevel]
  rfl

theorem mem_untilTime (t : Nat) : (s.untilTime t).mem = s.mem := by
  obtain ⟨n, h⟩ := Elapsed.of_untilTime s t
  exact h.mem

/-- AUTH_DELAY_EXPIRE clears WAIT. -/
theorem authDelayExpire_facts (hwait : s.b R.DBG_STAT 4 = true) :
    ∃ u : State, exec .authDelayExpire s = .next u ∧ u.b R.DBG_STAT 4 = false ∧ SameMemory s u := by
  refine ⟨_, congrArg Host.Outcome.next (if_pos hwait), b_setB_same _ _ _ _ (by decide), .of_mem ?_⟩
  refine (mem_setB ..).trans ?_
  split
  · exact mem_untilTime _
  · rfl

theorem dbgLevel_setB {i : Nat} {b : Bool} (hlo : 2 ≤ i) (hhi : i < 32) : (s.setB R.DBG_STAT i b).dbgLevel = s.dbgLevel :=
  f_putF_other s R.DBG_STAT (b2n b) (le_refl i) hhi (.inl (by omega)) (by decide)

theorem authNew_fresh (hfree : s.b R.DBG_STAT 4 = false) : s.authNew.dbg.fresh = true := by
  unfold State.authNew
  rw [if_neg (by simp [hfree])]
  rfl

theorem trstN_facts : ∃ u : State, exec .trstN s = .next u ∧ u.dbgLevel = 0 ∧ u.dbg.status = 0 ∧ u.power.fails = s.power.fails ∧
    u.power.lockout = s.power.lockout ∧ SameRegsBut [R.DBG_STAT] s u ∧ SameMemory s u :=
  ⟨_, rfl, f_putF_same s R.DBG_STAT 0 (hi := 1) (lo := 0) (by decide) (by decide), rfl, rfl, rfl,
    (SameRegsBut.refl _ s).putF (by simp), fun _ => rfl⟩

/-- A right response to a nonce not yet used grants its level. -/
theorem authSubmit_right {level : Nat} (hfresh : s.dbg.fresh = true) (hlock : s.power.lockout = false) (hlo : 1 ≤ level) (hhi : level ≤ 2)
    (hresp : s.authGiven = s.authWants level) : (s.authSubmit level).dbgLevel = level ∧ (s.authSubmit level).power = s.power := by
  have heq : s.authSubmit level = (s.onDbg (fun d => { d with fresh := false })).putF R.DBG_STAT 1 0 level := by
    unfold State.authSubmit
    dsimp only
    rw [if_pos (by simp [hfresh, hresp]; omega), if_neg (by simp [hlock])]
  rw [heq]
  refine ⟨(f_putF_same _ R.DBG_STAT level (hi := 1) (lo := 0) (by decide) (by decide)).trans (Nat.mod_eq_of_lt (by omega)), rfl⟩

/-- A failed submission counted and shown, before the delay that follows it. -/
def State.failCounted (s : State) : State :=
  ((s.onPwr (fun p => { p with
    fails := min 3 (s.power.fails + 1), lockout := p.lockout || decide (3 ≤ min 3 (s.power.fails + 1)) })).showFails).setB R.DBG_INT 0 true

theorem authFails_cases : s.authFails = s.failCounted ∨
    ∃ w, s.authFails = (s.failCounted.setB R.DBG_STAT 4 true).onDbg (fun d => { d with waitUntil := w }) := by
  unfold State.authFails
  dsimp only
  split
  · exact .inr ⟨_, rfl⟩
  · exact .inl rfl

theorem dbgLevel_showFails : s.showFails.dbgLevel = s.dbgLevel :=
  (dbgLevel_setB (s := s.putF R.DBG_STAT 3 2 s.power.fails) (by decide) (by decide)).trans
    (f_putF_other s R.DBG_STAT s.power.fails (by decide) (by decide) (.inl (by decide)) (by decide))

theorem dbgLevel_failCounted : s.failCounted.dbgLevel = s.dbgLevel :=
  (congrArg (fld · 1 0) (rd_setB_other _ 0 true (by decide))).trans dbgLevel_showFails

theorem power_failCounted : s.failCounted.power.fails = min 3 (s.power.fails + 1) ∧
    s.failCounted.power.lockout = (s.power.lockout || decide (2 ≤ s.power.fails)) :=
  ⟨rfl, congrArg (s.power.lockout || ·) (decide_eq_decide.mpr (by omega))⟩

theorem authFails_facts : s.authFails.dbgLevel = s.dbgLevel ∧ s.authFails.power.fails = min 3 (s.power.fails + 1) ∧
    s.authFails.power.lockout = (s.power.lockout || decide (2 ≤ s.power.fails)) := by
  rcases authFails_cases (s := s) with h | ⟨w, h⟩ <;> rw [h]
  · exact ⟨dbgLevel_failCounted, power_failCounted⟩
  · rw [power_onDbg, power_setB]
    have hlevel : (s.failCounted.setB R.DBG_STAT 4 true).dbgLevel = s.failCounted.dbgLevel := dbgLevel_setB (by decide) (by decide)
    exact ⟨hlevel.trans dbgLevel_failCounted, power_failCounted⟩

/-- Any other submission is a failure. -/
theorem authSubmit_wrong {level : Nat} (h : s.dbg.fresh = false ∨ level = 0 ∨ level = 3 ∨ s.authGiven ≠ s.authWants level) :
    s.authSubmit level = (s.onDbg (fun d => { d with fresh := false })).authFails := by
  unfold State.authSubmit
  dsimp only
  rw [if_neg]
  simp only [Bool.and_eq_true, Bool.or_eq_true, beq_iff_eq]
  rintro ⟨⟨hfresh, hlevel⟩, hresp⟩
  rcases h with h | h | h | h
  · simp [h] at hfresh
  · omega
  · omega
  · exact h hresp
end

/-! ### Threads and Fronds replaced one after another -/

/-- The members of an eight that a list names, replaced each by its own function. -/
theorem oct_fold_get {α : Type} (g : Nat → α → α) {l : List Nat} (hl : l.Nodup) (hlt : ∀ k ∈ l, k < 8) (x : Oct α)
    {k : Nat} (hk : k < 8) :
    (l.foldl (fun x t => x.set t (g t (x.get t))) x).get k = if k ∈ l then g k (x.get k) else x.get k := by
  induction l generalizing x with
  | nil => rfl
  | cons t l ih =>
    obtain ⟨hnot, hl⟩ := List.nodup_cons.mp hl
    have ht : t < 8 := hlt t List.mem_cons_self
    have hset := oct_get_set x (g t (x.get t)) ⟨t, ht⟩ ⟨k, hk⟩
    rw [List.foldl_cons, ih hl (fun k h => hlt k (List.mem_cons_of_mem t h)), hset]
    by_cases hkt : k = t
    · subst hkt
      simp [hnot]
    · simp [hkt]

section
variable {s : State} {l : List Nat}

theorem each_onThr_eq (g : Nat → Thread → Thread) (l : List Nat) (s : State) :
    s.each l (fun s t => s.onThr t (g t)) = { s with threads := l.foldl (fun x t => x.set t (g t (x.get t))) s.threads } := by
  induction l generalizing s with
  | nil => rfl
  | cons t l ih => exact ih (s.onThr t (g t))

theorem each_onFrd_eq (g : Nat → Frond → Frond) (l : List Nat) (s : State) :
    s.each l (fun s k => s.onFrd k (g k)) = { s with fronds := l.foldl (fun x t => x.set t (g t (x.get t))) s.fronds } := by
  induction l generalizing s with
  | nil => rfl
  | cons t l ih => exact ih (s.onFrd t (g t))

theorem units_nodup (p : Nat → Bool) : ((List.range 8).filter p).Nodup := List.nodup_range.filter _

theorem lt_of_mem_units {p : Nat → Bool} {k : Nat} (h : k ∈ (List.range 8).filter p) : k < 8 :=
  List.mem_range.mp (List.mem_of_mem_filter h)
end

/-! ### What the end of a halt shows (R404) -/

/-- Trace, the watchdog's check and the note of a halt leave threads, Fronds, jobs, memory and DBG_STAT as they are. -/
structure Shown (s u : State) : Prop where
  threads : u.threads = s.threads
  fronds : u.fronds = s.fronds
  jobs : u.jobs = s.jobs
  mem : u.mem = s.mem
  halting : u.dbg.halting = s.dbg.halting
  stat : u.rd R.DBG_STAT = s.rd R.DBG_STAT
  done : u.b R.DBG_INT 1 = s.b R.DBG_INT 1

namespace Shown

theorem refl (s : State) : Shown s s := ⟨rfl, rfl, rfl, rfl, rfl, rfl, rfl⟩

section
variable {s u : State} (h : Shown s u)
include h

theorem ite {c : Prop} [Decidable c] {v : State} (h2 : Shown s v) : Shown s (if c then u else v) := by split <;> assumption

theorem setB {off i : Nat} {v : Bool} (hstat : R.DBG_STAT ≠ off) (hint : R.DBG_INT ≠ off) : Shown s (u.setB off i v) :=
  ⟨h.threads, h.fronds, h.jobs, h.mem, h.halting, (rd_setB_other u i v hstat).trans h.stat,
    (b_of_rd (rd_setB_other u i v hint) 1).trans h.done⟩

theorem wr {off : Nat} {v : Word} (hstat : R.DBG_STAT ≠ off) (hint : R.DBG_INT ≠ off) : Shown s (u.wr off v) :=
  ⟨h.threads, h.fronds, h.jobs, h.mem, h.halting, (rd_wr_other u v hstat).trans h.stat,
    (b_of_rd (rd_wr_other u v hint) 1).trans h.done⟩

theorem onDbg {g : Debug → Debug} (hg : (g u.dbg).halting = u.dbg.halting) : Shown s (u.onDbg g) :=
  ⟨h.threads, h.fronds, h.jobs, h.mem, hg.trans h.halting, h.stat, h.done⟩

theorem onLdg {g : Ledger → Ledger} : Shown s (u.onLdg g) := ⟨h.threads, h.fronds, h.jobs, h.mem, h.halting, h.stat, h.done⟩

theorem lost : Shown s (u.setB R.DBG_INT 2 true) :=
  ⟨h.threads, h.fronds, h.jobs, h.mem, h.halting, (rd_setB_other u 2 true (by decide)).trans h.stat,
    ((b_setB u R.DBG_INT R.DBG_INT 2 1 true (by decide)).trans (if_neg (by decide))).trans h.done⟩

theorem tracePush {l : List Byte} : Shown s (u.tracePush l) := (h.onDbg rfl).ite (h.onDbg rfl).lost

theorem traceSync : Shown s u.traceSync := h.tracePush.onDbg rfl

theorem traceOvf : Shown s u.traceOvf := h.ite (h.tracePush.onDbg rfl).traceSync

theorem tracePacket {type sub : Nat} {l : List Byte} : Shown s (u.tracePacket type sub l) :=
  h.ite (h.traceOvf.tracePush.traceSync.ite h.traceOvf.tracePush)

theorem traceHalt {sub threads fronds : Nat} : Shown s (u.traceHalt sub threads fronds) := h.tracePacket.ite h

theorem wdgReload : Shown s u.wdgReload :=
  ⟨h.threads, h.fronds, h.jobs, h.mem, h.halting, (regs_wdgReload u _ (by decide)).trans h.stat,
    (b_of_rd (regs_wdgReload u _ (by decide)) 1).trans h.done⟩

theorem wdgCheck : Shown s u.wdgCheck := by
  rcases wdgCheck_cases u with e | ⟨b, e⟩ | e <;> rw [e]
  · exact h
  · exact h.setB (by decide) (by decide)
  · exact (h.setB (by decide) (by decide)).wdgReload

theorem noteHalt : Shown s u.noteHalt := h.onLdg.ite h
end
end Shown

section
variable {s : State}

/-- HALTED and the halt's interrupt shown, before its trace packet. -/
def State.haltMarked (s : State) : State := ((s.setB R.DBG_STAT 6 true).setB R.DBG_INT 1 true).produce 0x29 1

theorem b_haltMarked : s.haltMarked.b R.DBG_STAT 6 = true ∧ s.haltMarked.b R.DBG_INT 1 = true := by
  constructor
  · change ((s.setB R.DBG_STAT 6 true).setB R.DBG_INT 1 true).b R.DBG_STAT 6 = true
    rw [b_setB _ _ _ _ _ _ (by decide), if_neg (by decide), b_setB_same _ _ _ _ (by decide)]
  · exact b_setB_same (s.setB R.DBG_STAT 6 true) _ 1 true (by decide)

theorem haltMarked_data : s.haltMarked.threads = s.threads ∧ s.haltMarked.fronds = s.fronds ∧ s.haltMarked.jobs = s.jobs ∧
    s.haltMarked.mem = s.mem ∧ s.haltMarked.dbg.halting = s.dbg.halting := by
  simp only [State.haltMarked, State.produce, threads_onSpo, fronds_onSpo, jobs_onSpo, mem_onSpo, dbg_onSpo, threads_setB, fronds_setB,
    jobs_setB, mem_setB, dbg_setB, and_self]

theorem haltDone_shown (ts fs : List Nat) : Shown s.haltMarked (s.haltDone ts fs) := (Shown.refl _).traceHalt.wdgCheck.noteHalt

theorem haltDone_data (ts fs : List Nat) : (s.haltDone ts fs).threads = s.threads ∧ (s.haltDone ts fs).fronds = s.fronds ∧
    (s.haltDone ts fs).jobs = s.jobs ∧ (s.haltDone ts fs).mem = s.mem ∧ (s.haltDone ts fs).dbg.halting = s.dbg.halting := by
  obtain ⟨hthreads, hfronds, hjobs, hmem, hhalting⟩ := haltMarked_data (s := s)
  have h := haltDone_shown (s := s) ts fs
  exact ⟨h.threads.trans hthreads, h.fronds.trans hfronds, h.jobs.trans hjobs, h.mem.trans hmem, h.halting.trans hhalting⟩

theorem b_haltDone (ts fs : List Nat) : (s.haltDone ts fs).b R.DBG_STAT 6 = true ∧ (s.haltDone ts fs).b R.DBG_INT 1 = true := by
  have h := haltDone_shown (s := s) ts fs
  exact ⟨(b_of_rd h.stat 6).trans b_haltMarked.1, h.done.trans b_haltMarked.2⟩

/-- The threads that a halt request has named and stopped. -/
def State.haltingThreads (s : State) : List Nat := (List.range 8).filter (fun k => (s.thr k).haltReq)

/-- The Fronds that a halt request has named and stopped. -/
def State.haltingFronds (s : State) : List Nat := (List.range 8).filter (fun k => (s.fronds.get k).haltReq)

/-- A Frond halts. -/
def Frond.halt (f : Frond) : Frond := { f with halted := true, haltReq := false }

/-- The named units halted, the request over. -/
def State.unitsHalted (s : State) : State :=
  ((s.each s.haltingThreads (fun s t => s.onThr t Thread.halt)).each s.haltingFronds (fun s k => s.onFrd k Frond.halt)).onDbg
    (fun d => { d with halting := false })

theorem unitsHalted_data : s.unitsHalted.threads = s.haltingThreads.foldl (fun x t => x.set t (x.get t).halt) s.threads ∧
    s.unitsHalted.fronds = s.haltingFronds.foldl (fun x k => x.set k (x.get k).halt) s.fronds ∧
    s.unitsHalted.jobs = s.jobs ∧ s.unitsHalted.mem = s.mem ∧ s.unitsHalted.dbg.halting = false := by
  unfold State.unitsHalted
  rw [each_onThr_eq (fun _ => Thread.halt), each_onFrd_eq (fun _ => Frond.halt)]
  exact ⟨rfl, rfl, rfl, rfl, rfl⟩

theorem haltComplete_eq (hreq : s.dbg.halting = true) (hdone : ∀ k ∈ s.haltingThreads, (s.thr k).remote = none) :
    s.haltComplete = s.unitsHalted.haltDone s.haltingThreads s.haltingFronds := by
  have hnone : ¬ (s.dbg.halting = false ∨ s.haltingThreads.any (fun t => (s.thr t).remote.isSome) = true) := by
    simp only [hreq, List.any_eq_true, not_or]
    refine ⟨by decide, ?_⟩
    rintro ⟨k, hk, hsome⟩
    rw [hdone k hk] at hsome
    exact absurd hsome (by decide)
  exact if_neg hnone

theorem haltComplete_facts (hrun : s.running = true) (hreq : s.dbg.halting = true)
    (hdone : ∀ k ∈ s.haltingThreads, (s.thr k).remote = none) : ∃ u : State, exec .haltComplete s = .next u ∧
    (∀ k ∈ s.haltingThreads, (u.thr k).st = .halted ∧ (u.thr k).haltReq = false ∧ (u.thr k).resv = none) ∧
    (∀ k, k < 8 → k ∉ s.haltingThreads → u.thr k = s.thr k) ∧ (∀ k ∈ s.haltingFronds, (u.fronds.get k).halted = true) ∧
    u.dbg.halting = false ∧ u.b R.DBG_STAT 6 = true ∧ u.b R.DBG_INT 1 = true ∧ SameMemory s u ∧ u.jobs = s.jobs := by
  obtain ⟨hthreads, hfronds, hjobs, hmem, hhalting⟩ := haltDone_data (s := s.unitsHalted) s.haltingThreads s.haltingFronds
  obtain ⟨hstat, hint⟩ := b_haltDone (s := s.unitsHalted) s.haltingThreads s.haltingFronds
  obtain ⟨hthreads0, hfronds0, hjobs0, hmem0, hhalting0⟩ := unitsHalted_data (s := s)
  have hthr : ∀ k, k < 8 → (s.unitsHalted.haltDone s.haltingThreads s.haltingFronds).thr k =
      if k ∈ s.haltingThreads then (s.thr k).halt else s.thr k := fun k hk =>
    (congrArg (Oct.get · k) (hthreads.trans hthreads0)).trans
      (oct_fold_get (fun _ => Thread.halt) (units_nodup _) (fun _ => lt_of_mem_units) s.threads hk)
  have hfrd : ∀ k, k < 8 → (s.unitsHalted.haltDone s.haltingThreads s.haltingFronds).fronds.get k =
      if k ∈ s.haltingFronds then (s.fronds.get k).halt else s.fronds.get k := fun k hk =>
    (congrArg (Oct.get · k) (hfronds.trans hfronds0)).trans
      (oct_fold_get (fun _ => Frond.halt) (units_nodup _) (fun _ => lt_of_mem_units) s.fronds hk)
  refine ⟨_, congrArg Host.Outcome.next ((if_pos hrun).trans (haltComplete_eq hreq hdone)), fun k hk => ?_, fun k hk hout => ?_,
    fun k hk => ?_, hhalting.trans hhalting0, hstat, hint, .of_mem (hmem.trans hmem0), hjobs.trans hjobs0⟩
  · rw [hthr k (lt_of_mem_units hk), if_pos hk]
    exact ⟨rfl, rfl, rfl⟩
  · rw [hthr k hk, if_neg hout]
  · rw [hfrd k (lt_of_mem_units hk), if_pos hk]
    rfl
end

/-! ### Halt, resume and step (R403, R406) -/

section
variable {s : State} {o : Origin} {v : Word} {t : Nat}

theorem debugHalt_written (h : Reaches s o R.DBG_HALT) (hv : Takes R.DBG_HALT v) (hm : s.machineOrigin o = true) :
    exec (.debugHalt o v) s = .next (State.accepted (s.requestHalt ((List.range 8).filter (fun k => v.getLsbD k))
      ((List.range 8).filter (fun k => v.getLsbD (8 + k)))) o) := by
  have hd : s.debugRights o = true := debugRights_machine hm
  refine congrArg Host.Outcome.next (regWrite_open (by unfold OpenBlock; decide) h hv fun r _ => ?_)
  rw [writeBlock_dbg (by decide), writeDbg_rights hd (by decide) (by decide) (by decide) (by decide), if_pos rfl]
  simp only [State.writeHalt, hd, State.named, mayName_machine hm, hm, Bool.and_true]
  rfl

/-- A halted thread as DBG_RESUME or DBG_STEP releases it, beside the jobs in flight. -/
def Thread.released (h : Thread) (s : State) (step : Option Bool) : Thread :=
  let done : Bool := match h.waitFor with
    | .job v => h.haltFrom == .waiting && (s.jobAt v).isNone
    | _ => false
  if done then { h with st := .active, waitFor := .nothing, step := step } else { h with st := h.haltFrom, step := step }

theorem released_free {h : Thread} (hfree : h.waitFor = .nothing) (step : Option Bool) :
    h.released s step = { h with st := h.haltFrom, step := step } := by
  unfold Thread.released
  rw [hfree]
  rfl

/-- A release looks at the jobs in flight alone. -/
theorem released_congr {u : State} (hjobs : u.jobs = s.jobs) (h : Thread) (step : Option Bool) : h.released u step = h.released s step := by
  unfold Thread.released State.jobAt
  rw [hjobs]

theorem each_release_eq (l : List Nat) (u : State) (hjobs : u.jobs = s.jobs) :
    u.each l (fun u t => u.release t none) = u.each l (fun u t => u.onThr t (fun h => h.released s none)) := by
  induction l generalizing u with
  | nil => rfl
  | cons t l ih =>
    have hstep : u.release t none = u.onThr t (fun h => h.released s none) :=
      congrArg (u.onThr t) (funext fun h => released_congr hjobs h none)
    change (u.release t none).each l _ = (u.onThr t _).each l _
    rw [hstep]
    exact ih _ hjobs

/-- The threads that a write of DBG_RESUME releases. -/
def State.resumedThreads (s : State) (o : Origin) (v : Word) : List Nat :=
  (s.named o (v &&& ~~~ s.fresh R.DBG_RESUME)).1.filter (fun t => (s.thr t).st == .halted)

/-- The Fronds that a write of DBG_RESUME releases. -/
def State.resumedFronds (s : State) (o : Origin) (v : Word) : List Nat :=
  (s.named o (v &&& ~~~ s.fresh R.DBG_RESUME)).2.filter (fun k => (s.fronds.get k).halted)

/-- The named units go on. -/
def State.unitsResumed (s : State) (o : Origin) (v : Word) : State :=
  (s.each (s.resumedThreads o v) (fun s t => s.release t none)).each (s.resumedFronds o v)
    (fun s k => s.onFrd k (fun f => { f with halted := false }))

theorem unitsResumed_data : (s.unitsResumed o v).threads =
      (s.resumedThreads o v).foldl (fun x t => x.set t ((x.get t).released s none)) s.threads ∧
    (s.unitsResumed o v).jobs = s.jobs ∧ (s.unitsResumed o v).mem = s.mem := by
  unfold State.unitsResumed
  rw [each_release_eq _ s rfl, each_onThr_eq (fun _ h => h.released s none), each_onFrd_eq (fun _ f => { f with halted := false })]
  exact ⟨rfl, rfl, rfl⟩

theorem writeResume_eq (hd : s.debugRights o = true) : s.writeResume o v =
    ((s.unitsResumed o v).showHalted.traceHalt 1 (maskOf (s.resumedThreads o v)) (maskOf (s.resumedFronds o v)), none) :=
  if_neg (by simp [hd])

theorem showHalted_data (sub a b : Nat) : (s.showHalted.traceHalt sub a b).threads = s.threads ∧
    (s.showHalted.traceHalt sub a b).jobs = s.jobs ∧ (s.showHalted.traceHalt sub a b).mem = s.mem := by
  have h : Shown (s.setB R.DBG_STAT 6 s.held) (s.showHalted.traceHalt sub a b) := (Shown.refl _).wdgCheck.traceHalt
  exact ⟨h.threads.trans (threads_setB ..), h.jobs.trans (jobs_setB ..), h.mem.trans (mem_setB ..)⟩

theorem resumedThreads_nodup : (s.resumedThreads o v).Nodup := by
  unfold State.resumedThreads State.named
  dsimp only
  exact (units_nodup _).filter _

theorem mem_resumedThreads {k : Nat} : k ∈ s.resumedThreads o v ↔
    k < 8 ∧ (v.getLsbD k = true ∧ (s.fresh R.DBG_RESUME).getLsbD k = false) ∧
    s.mayName o k = true ∧ (s.thr k).st = .halted := by
  simp only [State.resumedThreads, State.named, List.mem_filter, List.mem_range, Bool.and_eq_true, beq_iff_eq, BitVec.getLsbD_and,
    BitVec.getLsbD_not]
  constructor
  · rintro ⟨⟨hk, ⟨hv, hlt, hf⟩, hn⟩, hh⟩
    exact ⟨hk, ⟨hv, by simpa using hf⟩, hn, hh⟩
  · rintro ⟨hk, ⟨hv, hf⟩, hn, hh⟩
    exact ⟨⟨hk, ⟨hv, by simp; omega, by simp [hf]⟩, hn⟩, hh⟩

theorem thr_resumed (hd : s.debugRights o = true) {k : Nat} (hk : k < 8) : ((s.writeResume o v).1).thr k =
    if k ∈ s.resumedThreads o v then (s.thr k).released s none else s.thr k := by
  obtain ⟨hthreads, _, _⟩ := unitsResumed_data (s := s) (o := o) (v := v)
  obtain ⟨hshown, _, _⟩ := showHalted_data (s := s.unitsResumed o v) 1 (maskOf (s.resumedThreads o v)) (maskOf (s.resumedFronds o v))
  rw [writeResume_eq hd]
  exact (congrArg (Oct.get · k) (hshown.trans hthreads)).trans (oct_fold_get (fun _ h => h.released s none) resumedThreads_nodup
    (fun _ h => (mem_resumedThreads.mp h).1) s.threads hk)

theorem debugResume_facts (h : Reaches s o R.DBG_RESUME) (hv : Takes R.DBG_RESUME v) (hd : s.debugRights o = true) :
    ∃ u : State, exec (.debugResume o v) s = .next (State.accepted u o) ∧ SameMemory s u ∧ u.jobs = s.jobs ∧
      (∀ k : Fin 8, v.getLsbD k.val = true → (s.fresh R.DBG_RESUME).getLsbD k.val = false → s.mayName o k.val = true →
        (s.thr k.val).st = .halted → (s.thr k.val).waitFor = .nothing →
          u.thr k.val = { s.thr k.val with st := (s.thr k.val).haltFrom, step := none }) ∧
      (∀ k : Fin 8, (v.getLsbD k.val = false ∨ (s.fresh R.DBG_RESUME).getLsbD k.val = true) → u.thr k.val = s.thr k.val) := by
  obtain ⟨_, hjobs, hmem⟩ := unitsResumed_data (s := s) (o := o) (v := v)
  obtain ⟨_, hjobs1, hmem1⟩ := showHalted_data (s := s.unitsResumed o v) 1 (maskOf (s.resumedThreads o v)) (maskOf (s.resumedFronds o v))
  refine ⟨(s.writeResume o v).1, congrArg Host.Outcome.next (regWrite_open (by unfold OpenBlock; decide) h hv fun r _ => ?_),
    .of_mem ?_, ?_, fun k hk hf hn hh hfree => ?_, fun k hk => ?_⟩
  · rw [writeBlock_dbg (by decide), writeDbg_rights hd (by decide) (by decide) (by decide) (by decide), if_neg (by decide), if_pos rfl,
      writeResume_eq hd]
  · rw [writeResume_eq hd]
    exact hmem1.trans hmem
  · rw [writeResume_eq hd]
    exact hjobs1.trans hjobs
  · rw [thr_resumed hd k.isLt, if_pos (mem_resumedThreads.mpr ⟨k.isLt, ⟨hk, hf⟩, hn, hh⟩), released_free hfree]
  · rw [thr_resumed hd k.isLt, if_neg]
    intro hin
    obtain ⟨_, ⟨hv, hf⟩, _, _⟩ := mem_resumedThreads.mp hin
    rcases hk with hk | hk
    · exact absurd (hk.symm.trans hv) (by decide)
    · exact absurd (hk.symm.trans hf) (by decide)

theorem writeBlock_step (hd : s.debugRights o = true) (r : RegRow) : s.writeBlock o r R.DBG_STEP v = s.writeStep o v := by
  rw [writeBlock_dbg (by decide), writeDbg_rights hd (by decide) (by decide) (by decide) (by decide), if_neg (by decide),
    if_neg (by decide), if_pos rfl]

theorem debugStep_facts (h : Reaches s o R.DBG_STEP) (hv : Takes R.DBG_STEP v) (hd : s.debugRights o = true)
    (hn : s.mayName o (fld v 2 0) = true) :
    ((s.thr (fld v 2 0)).st = .halted →
      exec (.debugStep o v) s = .next (State.accepted ((s.release (fld v 2 0) (some (v.getLsbD 3))).showHalted) o)) ∧
    ((s.thr (fld v 2 0)).st ≠ .halted → exec (.debugStep o v) s = .next (s.accessDone.refused o true 7 R.DBG_STEP)) := by
  have hallowed : ¬ (s.debugRights o = false ∨ s.mayName o (fld v 2 0) = false) := by simp [hd, hn]
  refine ⟨fun hhalted => congrArg Host.Outcome.next (regWrite_open (by unfold OpenBlock; decide) h hv fun r _ =>
    (writeBlock_step hd r).trans ((if_neg hallowed).trans (if_neg (not_not_intro hhalted)))),
    fun hgoes => congrArg Host.Outcome.next (regWrite_open_refused (by unfold OpenBlock; decide) h hv fun r _ =>
    (writeBlock_step hd r).trans ((if_neg hallowed).trans (if_pos hgoes)))⟩

theorem stepComplete_halts {t : Tid} (hrun : s.running = true) (hdone : (s.thr t.val).stepDone = true) (hfree : (s.thr t.val).remote = none) :
    exec (.stepComplete t) s = .next (((s.produce 0x29 0).onThr t.val Thread.halt).haltDone [t.val] []) :=
  congrArg Host.Outcome.next ((if_pos hrun).trans (if_pos ⟨hdone, hfree⟩))

theorem stepComplete_waits {t : Tid} (hdone : (s.thr t.val).stepDone = false) : exec (.stepComplete t) s = .next s := by
  have h : s.stepComplete t.val = s := if_neg (by simp [hdone])
  refine congrArg Host.Outcome.next ?_
  rw [h, ite_self]
end

/-! ### DBG_TREG (R407) -/

section
variable {s : State} {o : Origin} {v x : Word}

/-- The thread that DBG_TSEL selects. -/
def State.selected (s : State) : Nat := s.f R.DBG_TSEL 2 0

theorem descAsk_treg (h : (s.thr s.selected).st ≠ .halted ∨ 16 ≤ s.f R.DBG_TSEL 7 3) : s.descAsk o R.DBG_TREG v = none := by
  have hnone : s.descOf o R.DBG_TREG v = none := by
    unfold State.descOf
    dsimp only
    rw [if_neg (by decide), if_pos rfl, if_neg]
    rintro ⟨_, hhalted, _, hlt, _⟩
    rcases h with h | h
    · exact h hhalted
    · omega
  unfold State.descAsk
  rw [hnone]

theorem csWrite_treg (h : Reaches s o R.DBG_TREG) (hd : s.debugRights o = true) :
    s.csWrite o R.DBG_TREG 4 v = s.tregWrite s.ctlAns o v := by
  refine csWrite_rule h (takes_whole rfl rfl) (by decide) (blockRights_open (by decide)) fun r _ => ?_
  rw [writeBlock_dbg (by decide), writeDbg_rights hd (by decide) (by decide) (by decide) (by decide), if_neg (by decide),
    if_neg (by decide), if_neg (by decide), if_pos rfl]

theorem tregWrite_named (hd : s.debugRights o = true) (hn : s.mayName o s.selected = true) :
    ¬ (s.debugRights o = false ∨ s.mayName o (s.f R.DBG_TSEL 2 0) = false) := by
  have hn : s.mayName o (s.f R.DBG_TSEL 2 0) = true := hn
  simp [hd, hn]

theorem tregWrite_running (h : Reaches s o R.DBG_TREG) (hd : s.debugRights o = true) (hn : s.mayName o s.selected = true)
    (hgoes : (s.thr s.selected).st ≠ .halted) :
    exec (.dbgTregAccess o (some v)) s = .next (s.accessDone.refused o true 7 R.DBG_TREG) :=
  congrArg Host.Outcome.next (regWrite_refused h (descAsk_treg (.inl hgoes))
    ((csWrite_treg h hd).trans ((if_neg (tregWrite_named hd hn)).trans (if_pos hgoes))))

theorem dbgTregAccess_core (h : Reaches s o R.DBG_TREG) (hd : s.debugRights o = true) {k : Nat} (hsel : s.f R.DBG_TSEL 7 3 = k)
    (hk : 16 ≤ k) {s1 : State} (hw : s.tregWrite s.ctlAns o v = (s1, none)) :
    exec (.dbgTregAccess o (some v)) s = .next (State.accepted s1 o) :=
  congrArg Host.Outcome.next (regWrite_accepted h (descAsk_treg (.inr (hsel ▸ hk))) ((csWrite_treg h hd).trans hw))

/-- ACC, X, Y and PC of a halted thread take the word. -/
theorem tregWrite_core (hd : s.debugRights o = true) (hn : s.mayName o s.selected = true) (hhalted : (s.thr s.selected).st = .halted) :
    (s.f R.DBG_TSEL 7 3 = 16 → s.tregWrite s.ctlAns o v = (s.onThr s.selected (fun k => { k with acc := v }), none)) ∧
    (s.f R.DBG_TSEL 7 3 = 17 → s.tregWrite s.ctlAns o v = (s.onThr s.selected (fun k => { k with x := v }), none)) ∧
    (s.f R.DBG_TSEL 7 3 = 18 → s.tregWrite s.ctlAns o v = (s.onThr s.selected (fun k => { k with y := v }), none)) ∧
    (s.f R.DBG_TSEL 7 3 = 19 → s.tregWrite s.ctlAns o v = (s.onThr s.selected (fun k => { k with pc := v, fbuf := [] }), none)) := by
  have hnamed := tregWrite_named hd hn
  refine ⟨fun hsel => ?_, fun hsel => ?_, fun hsel => ?_, fun hsel => ?_⟩ <;>
  · unfold State.tregWrite
    rw [hsel]
    exact (if_neg hnamed).trans (if_neg (not_not_intro hhalted))

theorem tregRead_shown (h : Reaches s o R.DBG_TREG) (ho : o ≠ .debug) (hread : s.tregRead o = some x) :
    exec (.dbgTregAccess o none) s = .next (s.accessDone.emit (.readData x)) := by
  refine congrArg Host.Outcome.next (regRead_ok h (s1 := s) ?_ ho)
  have hrow : ∃ r, regRow R.DBG_TREG = some r := ⟨_, rfl⟩
  obtain ⟨r, hrow⟩ := hrow
  unfold State.csRead
  rw [if_neg h.isOpen, if_neg (by decide), hrow]
  dsimp only
  rw [if_neg (fun hc => absurd hc.1 (by decide)), if_neg ?_, if_pos rfl, hread]
  rw [show decide (R.DBG_TREG < R.FAB_ATOM_RES_LO 8) = false from by decide, Bool.and_false, Bool.false_and]
  decide
end

/-! ### Trace (R414, R415) -/

section
variable {s : State} {o : Origin} {v : Word} {n : Fin 32}

theorem writeBlock_stim (r : RegRow) : s.writeBlock o r (R.DBG_SP n.val) v = s.writeStim o n.val v := by
  rw [writeBlock_dbg (by simp only [R.DBG_SP]; omega)]
  have hidx : idx (R.DBG_SP n.val) (R.DBG_SP 0) 4 = n.val := by
    simp only [R.DBG_SP, idx]
    omega
  refine (if_pos (by simp only [R.DBG_SP]; omega)).trans ?_
  rw [hidx]

theorem openBlock_stim : OpenBlock (R.DBG_SP n.val) := by
  simp only [OpenBlock, R.DBG_SP, R.DBG_TREG]
  omega

theorem takes_stim : Takes (R.DBG_SP n.val) v := by
  have hrow : ∀ n : Fin 32, (regRow (R.DBG_SP n.val)).map RegRow.known = some 0xFFFFFFFF := by decide
  obtain ⟨r, hr, hknown⟩ := Option.map_eq_some_iff.mp (hrow n)
  exact takes_whole hr (by rw [hknown])

theorem stimulusWrite_sends (h : Reaches s o (R.DBG_SP n.val)) (hrights : n.val < 16 ∨ s.machineOrigin o = true) :
    exec (.stimulusWrite o n v) s =
      .next (State.accepted (s.tracePacket 1 0 (BitVec.ofNat 8 n.val :: leBytes 4 v.toNat ++ s.traceTs)) o) := by
  refine congrArg Host.Outcome.next (regWrite_open openBlock_stim h takes_stim fun r _ => (writeBlock_stim r).trans (if_neg ?_))
  rintro ⟨hhigh, hm⟩
  rcases hrights with hlow | hmach
  · omega
  · exact absurd (hmach.symm.trans hm) (by decide)

theorem stimulusWrite_refused (h : Reaches s o (R.DBG_SP n.val)) (hhigh : 16 ≤ n.val) (hm : s.machineOrigin o = false) :
    exec (.stimulusWrite o n v) s = .next (s.accessDone.refused o true 5 (R.DBG_SP n.val)) :=
  congrArg Host.Outcome.next (regWrite_open_refused openBlock_stim h takes_stim fun r _ => (writeBlock_stim r).trans (if_pos ⟨hhigh, hm⟩))

theorem traceDrain_balls (hrun : s.running = true) (hsome : s.dbg.trace ≠ []) (hballs : s.b R.DBG_TRCCTL 1 = false) : exec .traceDrain s =
    .next (((s.onDbg (fun d => { d with trace := [] })).emit (.trace s.dbg.trace)).traceOvf) :=
  congrArg Host.Outcome.next ((if_neg (by simp [hrun, hsome])).trans (if_pos hballs))
end

/-- Settles O59: the port's accesses and the authorisation by their branches, each register of the debug block by its rule. -/
theorem debugAccess : Obligations.DebugAccess := by
  refine ⟨fun s a v lvl halive => ⟨dbgaccUpdate_collides halive 1, fun hidle hdeny => ?_, fun hidle hallow => ?_,
    congrArg Host.Outcome.next (if_pos halive), fun hidle holder => auth_written halive hidle holder lvl,
    fun hwait => ⟨if_pos hwait, authDelayExpire_facts hwait⟩, authNew_fresh, trstN_facts, authSubmit_right, fun h => ?_⟩,
    fun s o t v x n => ⟨debugHalt_written, haltComplete_facts, debugResume_facts, debugStep_facts, stepComplete_halts, stepComplete_waits,
      fun h hd hn hhalted => ?_, tregWrite_running, stimulusWrite_sends, stimulusWrite_refused, traceDrain_balls⟩⟩
  · exact ⟨dbgaccUpdate_denied halive hidle (.inl rfl) hdeny, dbgaccUpdate_denied halive hidle (.inr rfl) hdeny⟩
  · exact ⟨dbgaccUpdate_allowed halive hidle (.inl rfl) hallow, dbgaccUpdate_allowed halive hidle (.inr rfl) hallow⟩
  · rw [authSubmit_wrong h]
    exact authFails_facts
  · obtain ⟨hacc, hx, hy, hpc⟩ := tregWrite_core (v := v) hd hn hhalted
    exact ⟨fun hsel => dbgTregAccess_core h hd hsel (by decide) (hacc hsel), fun hsel => dbgTregAccess_core h hd hsel (by decide) (hx hsel),
      fun hsel => dbgTregAccess_core h hd hsel (by decide) (hy hsel), fun hsel => dbgTregAccess_core h hd hsel (by decide) (hpc hsel),
      tregRead_shown h⟩

end Sys2Proof.Machine

/-! ## Resets and power-up (O21) -/

namespace Sys2Proof.Machine

/-! ### Writes of the power registers by Machine origin -/

section
variable {s s1 : State} {o : Origin} {off c : Nat} {v : Word} {x : State × Option Nat}

/-- A register of the power block. -/
def PowerBlock (off : Nat) : Prop := off / 0x10000 = 1 ∧ off % 4 = 0

theorem csWrite_pwr (hoff : PowerBlock off) (h : Reaches s o off) (hv : Takes off v) (hm : s.machineOrigin o = true)
    (hw : ∀ r, s.writePwr o r off v = x) : s.csWrite o off 4 v = x := by
  obtain ⟨hblock, halign⟩ := hoff
  refine csWrite_rule h hv halign (blockRights_machine hm) fun r _ => ?_
  unfold State.writeBlock
  rw [hblock]
  exact hw r

theorem descAsk_pwr (hoff : PowerBlock off) : s.descAsk o off v = none := by
  obtain ⟨hblock, _⟩ := hoff
  refine descAsk_outside (by omega) (by omega) ?_
  rintro rfl
  exact absurd hblock (by decide)

theorem regWrite_pwr (hoff : PowerBlock off) (h : Reaches s o off) (hv : Takes off v) (hm : s.machineOrigin o = true)
    (hw : ∀ r, s.writePwr o r off v = (s1, none)) : s.regWrite o off v = s1.accepted o :=
  regWrite_accepted h (descAsk_pwr hoff) (csWrite_pwr hoff h hv hm hw)

theorem regWrite_pwr_refused (hoff : PowerBlock off) (h : Reaches s o off) (hv : Takes off v) (hm : s.machineOrigin o = true)
    (hw : ∀ r, s.writePwr o r off v = (s1, some c)) : s.regWrite o off v = s1.accessDone.refused o true c off :=
  regWrite_refused h (descAsk_pwr hoff) (csWrite_pwr hoff h hv hm hw)
end

/-! ### What a reset leaves (R432) -/

section
variable {s : State}

theorem afterReset_resetBy (cause : Nat) (clear : Bool) (vin : Nat) :
    AfterReset s (BitVec.ofNat 32 cause) clear (s.resetBy cause clear vin) := by
  refine ⟨rd_wr_same .., fun r hr => rd_wr_other _ _ hr, rfl, rfl, rfl, rfl, rfl, rfl, rfl, ?_, rfl⟩
  cases clear <;> rfl

theorem pwrRst_resets {o : Origin} (h : Reaches s o R.PWR_RST) (hm : s.machineOrigin o = true) :
    exec (.pwrRst o 0x5A3C) s = .next (State.accepted s.fwReset o) := by
  refine congrArg Host.Outcome.next (regWrite_pwr (by unfold PowerBlock; decide) h (takes_whole rfl rfl) hm fun r => ?_)
  unfold State.writePwr
  dsimp only
  rw [if_neg (by simp [hm]), if_neg (by decide), if_pos rfl]
  exact if_pos rfl
end

/-! ### The VIN monitor (R428) -/

section
variable {s : State}

/-- PWR_VIN shows the level. -/
def State.vinShown (s : State) (mv : Nat) : State := (s.onPwr (fun p => { p with vin := mv })).wr R.PWR_VIN (BitVec.ofNat 32 (mv % 8192))

/-- VINLOW by the monitor's hysteresis. -/
def State.vinJudged (s : State) (mv : Nat) : State :=
  if mv < 1700 then (s.vinShown mv).setB R.PWR_STAT 2 true else if 1720 < mv then (s.vinShown mv).setB R.PWR_STAT 2 false else s.vinShown mv

theorem b_vinShown (mv i : Nat) : (s.vinShown mv).b R.PWR_STAT i = s.b R.PWR_STAT i :=
  b_of_rd (rd_wr_other (s.onPwr (fun p => { p with vin := mv })) _ (by decide)) i

theorem regs_vinShown (mv : Nat) : SameRegsBut [R.PWR_STAT, R.PWR_VIN] s (s.vinShown mv) := (SameRegsBut.refl _ _).wr (by simp)

theorem rd_vinShown (mv : Nat) : (s.vinShown mv).rd R.PWR_VIN = BitVec.ofNat 32 (mv % 8192) := rd_wr_same ..

theorem regs_showAlert : SameRegsBut [R.PWR_STAT] s s.showAlert := (SameRegsBut.refl _ s).setB (by simp)

theorem b_showAlert : s.showAlert.b R.PWR_STAT 2 = s.b R.PWR_STAT 2 :=
  (b_setB s R.PWR_STAT R.PWR_STAT 3 2 _ (by decide)).trans (if_neg (by decide))

theorem vinJudged_low {mv : Nat} (h : mv < 1700) : s.vinJudged mv = (s.vinShown mv).setB R.PWR_STAT 2 true := if_pos h

theorem vinJudged_high {mv : Nat} (h : 1720 < mv) : s.vinJudged mv = (s.vinShown mv).setB R.PWR_STAT 2 false :=
  (if_neg (by omega)).trans (if_pos h)

theorem vinJudged_between {mv : Nat} (h : 1700 ≤ mv) (h2 : mv ≤ 1720) : s.vinJudged mv = s.vinShown mv :=
  (if_neg (by omega)).trans (if_neg (by omega))

/-- The monitor touches PWR_STAT alone beside PWR_VIN. -/
theorem vinJudged_cases (mv : Nat) : s.vinJudged mv = s.vinShown mv ∨ ∃ b, s.vinJudged mv = (s.vinShown mv).setB R.PWR_STAT 2 b := by
  unfold State.vinJudged
  split
  · exact .inr ⟨true, rfl⟩
  · split
    · exact .inr ⟨false, rfl⟩
    · exact .inl rfl

theorem regs_vinJudged (mv : Nat) : SameRegsBut [R.PWR_STAT] (s.vinShown mv) (s.vinJudged mv) := by
  rcases vinJudged_cases (s := s) mv with h | ⟨b, h⟩ <;> rw [h]
  · exact .refl _ _
  · exact (SameRegsBut.refl _ _).setB (by simp)

theorem vinJudged_data (mv : Nat) : (s.vinJudged mv).threads = s.threads ∧ (s.vinJudged mv).jobs = s.jobs ∧
    (s.vinJudged mv).mem = s.mem := by
  rcases vinJudged_cases (s := s) mv with h | ⟨b, h⟩ <;> rw [h] <;> exact ⟨rfl, rfl, rfl⟩

theorem vinLow_facts (hup : s.power.up = true) (mv : Nat) : ∃ u : State, exec (.vinLow mv) s = .next u ∧
    (mv < 1700 → u.b R.PWR_STAT 2 = true) ∧ (1720 < mv → u.b R.PWR_STAT 2 = false) ∧
    (1700 ≤ mv → mv ≤ 1720 → u.b R.PWR_STAT 2 = s.b R.PWR_STAT 2) ∧ u.rd R.PWR_VIN = BitVec.ofNat 32 (mv % 8192) ∧
    SameRegsBut [R.PWR_STAT, R.PWR_VIN] s u ∧ u.threads = s.threads ∧ u.jobs = s.jobs ∧ SameMemory s u := by
  obtain ⟨hthreads, hjobs, hmem⟩ := vinJudged_data (s := s) mv
  refine ⟨(s.vinJudged mv).showAlert, congrArg Host.Outcome.next (if_pos hup), fun h => ?_, fun h => ?_, fun h h2 => ?_, ?_, ?_,
    hthreads, hjobs, .of_mem hmem⟩
  · rw [b_showAlert, vinJudged_low h, b_setB_same _ _ _ _ (by decide)]
  · rw [b_showAlert, vinJudged_high h, b_setB_same _ _ _ _ (by decide)]
  · rw [b_showAlert, vinJudged_between h h2, b_vinShown]
  · rw [regs_showAlert _ (by simp), regs_vinJudged mv _ (by simp), rd_vinShown]
  · exact ((regs_vinShown mv).trans ((regs_vinJudged mv).mono (by simp))).trans (regs_showAlert.mono (by simp))
end

/-! ### Power-up (R433, R434, R458) -/

section
variable {s : State} {env : PowerEnv} (hoff : s.power.up = false) (hfree : s.power.testHold = false) (hvin : 1710 ≤ env.vinMv)
include hoff hfree hvin

/-- TEST_EN high: power-up holds. -/
theorem powerUp_held (htest : env.testEn = true) :
    s.powerUp env = s.onPwr (fun p => { p with testHold := true, safeN := true, vin := env.vinMv }) := by
  unfold State.powerUp
  rw [if_neg (by simp [hoff, hfree]; omega), if_pos htest]

variable (htest : env.testEn = false)
include htest

theorem powerUp_starts (hstep : env.lateUnit = none) (hbist : env.bistFail = none) :
    s.powerUp env = ((s.railsUp env).powerUpBist none env.bistUs).bootStart env := by
  unfold State.powerUp
  rw [if_neg (by simp [hoff, hfree]; omega), if_neg (by simp [htest]), hstep, hbist]
  dsimp only [Option.map_none, Option.isSome_none]
  rw [if_neg (by decide)]

theorem powerUp_late {x : BitVec 8} (hstep : env.lateUnit = some x) :
    s.powerUp env = ((s.railsUp env).powerUpBist (some (x.toNat, 0x0B)) env.bistUs).fiddleSafe 1 := by
  unfold State.powerUp
  rw [if_neg (by simp [hoff, hfree]; omega), if_neg (by simp [htest]), hstep]
  dsimp only [Option.isSome_some]
  rw [if_pos rfl]

theorem powerUp_fails (hstep : env.lateUnit = none) {a b : BitVec 8} (hbist : env.bistFail = some (a, b)) :
    s.powerUp env = ((s.railsUp env).powerUpBist (some (a.toNat, b.toNat)) env.bistUs).fiddleSafe 1 := by
  unfold State.powerUp
  rw [if_neg (by simp [hoff, hfree]; omega), if_neg (by simp [htest]), hstep, hbist]
  dsimp only [Option.map_some, Option.isSome_some]
  rw [if_pos rfl]
end

section
variable {s : State} {env : PowerEnv}

/-- A start from flash: Fiddlehead's, if the flash is of a supported size. -/
theorem bootStart_flash (hsel : env.bootSel.toNat = 0) :
    ((s.trainAll env.dimms env.trained).mem.flashSize = 0 → s.bootStart env = (s.trainAll env.dimms env.trained).fiddleSafe 5) ∧
    ((s.trainAll env.dimms env.trained).mem.flashSize ≠ 0 → ∀ s1 started,
      (s.trainAll env.dimms env.trained).fiddlehead env.convertOk = (s1, started) →
      s.bootStart env = if started then (s1.driveSafe false).enterMode 2 5 else s1.fiddleSafe 5) := by
  unfold State.bootStart
  rw [hsel]
  refine ⟨fun hnone => if_pos hnone, fun hsome s1 started hstart => (if_neg hsome).trans ?_⟩
  rw [hstart]
  cases started <;> rfl

/-- The starts that wait for the host, the fabric or the debug port. -/
theorem bootStart_waits :
    (env.bootSel.toNat = 1 → s.bootStart env = (s.trainAll env.dimms env.trained).fiddleSafe 6) ∧
    (env.bootSel.toNat = 2 → s.bootStart env = (s.trainAll env.dimms env.trained).fabricRecovery.fiddleSafe 6) ∧
    (env.bootSel.toNat = 3 → s.bootStart env = (s.trainAll env.dimms env.trained).fiddleSafe 7) := by
  unfold State.bootStart
  refine ⟨fun hsel => ?_, fun hsel => ?_, fun hsel => ?_⟩ <;>
  · rw [hsel]
    rfl
end

theorem resets (s : State) (rail : Fin 5) (o : Origin) :
    (∃ u : State, exec .vinLoss s = .next u ∧ AfterReset s 1 true u) ∧
    (s.power.testHold = false → ∃ u : State, exec .porNReset s = .next u ∧ AfterReset s 2 true u) ∧
    (s.power.testHold = true → exec .porNReset s = .next s) ∧
    (s.running = true → ∃ u : State, exec (.railFault rail) s = .next u ∧ AfterReset s 4 false u) ∧
    (s.power.up = true → ∃ u : State, exec .refclkLoss s = .next u ∧ AfterReset s 4 false u) ∧
    (Reaches s o R.PWR_RST → s.machineOrigin o = true →
      exec (.pwrRst o 0x5A3C) s = .next (State.accepted s.fwReset o) ∧ AfterReset s 8 false s.fwReset) :=
  ⟨⟨s.resetBy 1 true 0, rfl, afterReset_resetBy 1 true 0⟩,
    fun hfree => ⟨s.resetBy 2 true s.power.vin, congrArg Host.Outcome.next (if_neg (by simp [hfree])), afterReset_resetBy 2 true _⟩,
    fun hheld => congrArg Host.Outcome.next (if_pos hheld),
    fun hrun => ⟨s.resetBy 4 false s.power.vin, congrArg Host.Outcome.next (if_pos (by simp [hrun])), afterReset_resetBy 4 false _⟩,
    fun hup => ⟨s.resetBy 4 false s.power.vin, congrArg Host.Outcome.next (if_pos hup), afterReset_resetBy 4 false _⟩,
    fun h hm => ⟨pwrRst_resets h hm, afterReset_resetBy 8 false _⟩⟩

/-- Settles O21: the reset's registers are the reset values but one; the monitor and the power-up go by their branches. -/
theorem resetsAndPowerUp : Obligations.ResetsAndPowerUp := by
  refine ⟨resets, fun s mv hup => vinLow_facts hup mv, fun s env hoff hfree hvin => ⟨fun htest => ?_, fun htest hstep hbist => ?_,
    fun htest x hstep => congrArg Host.Outcome.next (powerUp_late hoff hfree hvin htest hstep),
    fun htest hstep a b hbist => congrArg Host.Outcome.next (powerUp_fails hoff hfree hvin htest hstep hbist)⟩⟩
  · exact ⟨_, congrArg Host.Outcome.next (powerUp_held hoff hfree hvin htest), rfl, rfl, .refl _ s⟩
  · have hstart : ∀ {u}, ((s.railsUp env).powerUpBist none env.bistUs).bootStart env = u → exec (.powerUp env) s = .next u := fun h =>
      congrArg Host.Outcome.next ((powerUp_starts hoff hfree hvin htest hstep hbist).trans h)
    obtain ⟨hhost, hfabric, hdebug⟩ := bootStart_waits (s := (s.railsUp env).powerUpBist none env.bistUs) (env := env)
    refine ⟨fun hsel hnone => hstart ((bootStart_flash hsel).1 hnone), fun hsel hsome => ?_,
      fun hsel => hstart (hhost hsel), fun hsel => hstart (hfabric hsel), fun hsel => hstart (hdebug hsel)⟩
    split
    next s1 started hfiddle => exact hstart ((bootStart_flash hsel).2 hsome s1 started hfiddle)

end Sys2Proof.Machine

/-! ## Mode requests, Safe, Dormant, the clock divider, the thermal levels (O22) -/

namespace Sys2Proof.Machine

/-! ### Requests of a mode (R437, R438) -/

section
variable {s : State} {o : Origin} {v : Word}

/-- A write of a mode to PWR_MODEREQ, with no request pending, is that request. -/
theorem modeRequest_requests (h : Reaches s o R.PWR_MODEREQ) (hm : s.machineOrigin o = true) (hidle : s.b R.PWR_MODEREQ 3 = false)
    (hv : v.toNat < 8) (hlo : 1 ≤ v.toNat) (hhi : v.toNat ≤ 5) :
    exec (.modeRequest o v) s = .next (State.accepted (s.requestMode v.toNat) o) := by
  have hfld : fld v 2 0 = v.toNat := fld_zero_of_lt (hi := 2) hv
  refine congrArg Host.Outcome.next (regWrite_pwr (by unfold PowerBlock; decide) h (takes_low (k := 3) rfl (by decide) hv) hm fun r => ?_)
  unfold State.writePwr State.writeModeReq
  dsimp only
  rw [if_neg (by simp [hm]), if_pos rfl, hfld, if_neg]
  simp only [hidle, Bool.false_eq_true, or_false]
  omega

/-- A request noted: REASON cleared, and the divider of Config with it. -/
def State.modeAsked (s : State) : State :=
  if s.mode = 2 then (s.putF R.PWR_MODEREQ 6 4 0).wr R.PWR_CLKDIV 0 else s.putF R.PWR_MODEREQ 6 4 0

/-- A listed transition whose checks pass becomes pending; one of Safe to Config is made. -/
theorem requestMode_passes {t : Nat} {w : State} (hnew : t ≠ s.mode) (hlisted : s.transitionListed t = true)
    (hchecks : s.modeAsked.transitionChecks t = (w, 0)) :
    s.requestMode t =
      if t = 5 then (w.onPwr (fun p => { p with safePending := some 9 })).setB R.PWR_MODEREQ 3 true
      else if s.mode = 5 then w.toConfig 0
      else (w.onPwr (fun p => { p with request := some (t, 0) })).setB R.PWR_MODEREQ 3 true := by
  unfold State.modeAsked at hchecks
  unfold State.requestMode
  dsimp only
  rw [if_neg hnew, if_neg (by simp [hlisted]), hchecks]
  rfl

/-- A listed transition of which a check fails is refused with its REASON. -/
theorem requestMode_refused {t r : Nat} {w : State} (hnew : t ≠ s.mode) (hlisted : s.transitionListed t = true) (hr : r ≠ 0)
    (hchecks : s.modeAsked.transitionChecks t = (w, r)) : s.requestMode t = (w.putF R.PWR_MODEREQ 6 4 r).modeRefused r := by
  obtain ⟨k, rfl⟩ := Nat.exists_eq_succ_of_ne_zero hr
  unfold State.modeAsked at hchecks
  unfold State.requestMode
  dsimp only
  rw [if_neg hnew, if_neg (by simp [hlisted]), hchecks]
  rfl

theorem modeAsked_config (hm : s.mode = 2) : s.modeAsked = (s.putF R.PWR_MODEREQ 6 4 0).wr R.PWR_CLKDIV 0 := if_pos hm

theorem modeAsked_other (hm : s.mode ≠ 2) : s.modeAsked = s.putF R.PWR_MODEREQ 6 4 0 := if_neg hm

theorem mode_requested : (s.putF R.PWR_MODEREQ 6 4 0).mode = s.mode :=
  congrArg (fld · 2 0) (rd_putF_other s 6 4 0 (by decide))

/-- Leaving Run or Hold asks no check but quorum for Run. -/
theorem transitionChecks_frame {t : Nat} (hf : s.inFrame = true) (ht : t ≠ 3) :
    s.modeAsked.transitionChecks t = (s.putF R.PWR_MODEREQ 6 4 0, 0) := by
  have hconfig : s.mode ≠ 2 := fun hm => by simp [State.inFrame, hm] at hf
  rw [modeAsked_other hconfig]
  unfold State.transitionChecks
  rw [mode_requested, if_neg (fun h => hconfig h.1), if_neg (fun h => hconfig h.1), if_neg (fun h => ht h.2)]

theorem listed_frame {t : Nat} (h : (s.mode = 3 ∧ t = 4) ∨ (s.inFrame = true ∧ (t = 2 ∨ t = 5))) :
    s.inFrame = true ∧ t ≠ s.mode ∧ t ≠ 3 ∧ s.transitionListed t = true := by
  have hmode : (s.mode = 3 ∧ (t = 4 ∨ t = 2 ∨ t = 5)) ∨ (s.mode = 4 ∧ (t = 2 ∨ t = 5)) := by
    simp only [State.inFrame, Bool.or_eq_true, beq_iff_eq] at h
    tauto
  unfold State.transitionListed State.inFrame
  rcases hmode with ⟨hm, rfl | rfl | rfl⟩ | ⟨hm, rfl | rfl⟩ <;> rw [hm] <;>
    exact ⟨rfl, by decide, by decide, rfl⟩

theorem requestMode_frame {t : Nat} (h : (s.mode = 3 ∧ t = 4) ∨ (s.inFrame = true ∧ t = 2)) :
    s.requestMode t = ((s.putF R.PWR_MODEREQ 6 4 0).onPwr (fun p => { p with request := some (t, 0) })).setB R.PWR_MODEREQ 3 true := by
  obtain ⟨hf, hnew, ht, hlisted⟩ := listed_frame (h.imp_right (fun h => ⟨h.1, .inl h.2⟩))
  refine (requestMode_passes hnew hlisted (transitionChecks_frame hf ht)).trans ((if_neg ?_).trans (if_neg (mode_ne_safe hf)))
  omega

theorem requestMode_safe (hf : s.inFrame = true) :
    s.requestMode 5 = ((s.putF R.PWR_MODEREQ 6 4 0).onPwr (fun p => { p with safePending := some 9 })).setB R.PWR_MODEREQ 3 true := by
  obtain ⟨_, hnew, ht, hlisted⟩ := listed_frame (.inr ⟨hf, .inr rfl⟩)
  exact (requestMode_passes hnew hlisted (transitionChecks_frame hf ht)).trans (if_pos rfl)

theorem listed_config {t : Nat} (hm : s.mode = 2) (ht : t ∈ [1, 3, 4]) : t ≠ s.mode ∧ s.transitionListed t = true := by
  simp only [List.mem_cons, List.not_mem_nil, or_false] at ht
  refine ⟨by omega, ?_⟩
  unfold State.transitionListed
  rw [hm]
  rcases ht with h | h | h <;> rw [h] <;> rfl

theorem requestMode_config {t : Nat} {w : State} (hm : s.mode = 2) (ht : t ∈ [1, 3, 4])
    (hchecks : ((s.putF R.PWR_MODEREQ 6 4 0).wr R.PWR_CLKDIV 0).transitionChecks t = (w, 0)) :
    s.requestMode t = (w.onPwr (fun p => { p with request := some (t, 0) })).setB R.PWR_MODEREQ 3 true := by
  obtain ⟨hnew, hlisted⟩ := listed_config hm ht
  have hsafe : t ≠ 5 := by
    rintro rfl
    exact absurd ht (by decide)
  rw [← modeAsked_config hm] at hchecks
  refine (requestMode_passes hnew hlisted hchecks).trans ((if_neg hsafe).trans (if_neg ?_))
  omega

theorem requestMode_fails {t r : Nat} {w : State} (hr : r ≠ 0) (hm : s.mode = 2) (ht : t ∈ [1, 3, 4])
    (hchecks : ((s.putF R.PWR_MODEREQ 6 4 0).wr R.PWR_CLKDIV 0).transitionChecks t = (w, r)) :
    s.requestMode t = (w.putF R.PWR_MODEREQ 6 4 r).modeRefused r := by
  obtain ⟨hnew, hlisted⟩ := listed_config hm ht
  rw [← modeAsked_config hm] at hchecks
  exact requestMode_refused hnew hlisted hr hchecks
end

/-! ### Safe and Dormant (R440, R411, R442, R443) -/

section
variable {s : State} {c : Nat}

theorem safeEntry_enters (hm : s.mode ≠ 5) : s.safeEntry c =
    (((((s.dropQueued.driveSafe true).enterMode 5 3).putF R.PWR_MODE 12 9 c).onPwr (fun p => { p with safePending := none })).each
      (List.range 6) (fun s i => s.stopRequest (i + 2))).modeRefused 5 := if_neg hm

theorem exec_safeEntry (hpending : s.power.safePending = some c) (hm : s.mode = 2 ∨ s.inFrame = true) :
    exec .safeEntry s = .next ((if c = 9 then s.wr R.PWR_CLKDIV 0 else s).safeEntry c) := by
  refine congrArg Host.Outcome.next ?_
  rw [hpending]
  exact if_pos (by tauto)

/-- The divider is no part of the mode. -/
theorem mode_divided (c : Nat) : (if c = 9 then s.wr R.PWR_CLKDIV 0 else s).mode = s.mode := by
  split
  · exact congrArg (fld · 2 0) (rd_wr_other s 0 (by decide))
  · rfl

theorem dormantEntry_refused (hreq : s.power.request = some (1, c)) (hm : s.mode = 2) (hbusy : s.check4 = false) : s.dormantEntry =
    (((s.onPwr (fun p => { p with request := none })).setB R.PWR_MODEREQ 3 false).putF R.PWR_MODEREQ 6 4 4).modeRefused 4 := by
  unfold State.dormantEntry
  rw [hreq]
  exact (if_neg (not_not_intro hm)).trans (if_pos hbusy)

/-- The last step of the entry to Dormant: whether the debugger's emulation runs, and the instant. -/
def State.dormantShown (s : State) (emul : Bool) (tb : Nat) : State :=
  (((s.setB R.PWR_STAT 1 emul).setB R.DBG_STAT 7 emul).wdgCheck).onPwr (fun p => { p with dormantTb := tb })

theorem b_dormantShown (emul : Bool) (tb : Nat) :
    (s.dormantShown emul tb).b R.PWR_STAT 1 = (s.dormantShown emul tb).b R.DBG_STAT 7 := by
  have hwdg := regs_wdgCheck ((s.setB R.PWR_STAT 1 emul).setB R.DBG_STAT 7 emul)
  refine (hwdg.b (r := R.PWR_STAT) (by simp)).trans (Eq.trans ?_ (hwdg.b (r := R.DBG_STAT) (by simp)).symm)
  rw [b_setB_same _ _ _ _ (by decide), b_setB _ _ _ _ _ _ (by decide), if_neg (by decide), b_setB_same _ _ _ _ (by decide)]

theorem dormantEntry_enters (hreq : s.power.request = some (1, c)) (hm : s.mode = 2) (hidle : s.check4 = true) :
    ∃ w emul, s.dormantEntry = State.dormantShown w emul s.tb := by
  unfold State.dormantEntry
  simp only [hreq, hm, hidle, ne_eq, not_true_eq_false, if_false, Bool.true_eq_false]
  exact ⟨_, _, rfl⟩

theorem wake_wakes {src : WakeSource} (hm : s.mode = 1) (hwakes : s.wakes src = true) (trained : Bool) :
    exec (.wake src trained) s = .next ((if src = .timer then s.passWakeTimer else s).wakeUp (wakeBit src) trained) :=
  congrArg Host.Outcome.next (if_pos ⟨hm, hwakes⟩)
end

/-! ### The clock divider (R431) -/

section
variable {s : State} {o : Origin} {v : Word}

theorem writePwr_clkdiv (hm : s.machineOrigin o = true) (r : RegRow) : s.writePwr o r R.PWR_CLKDIV v = s.writeClkDiv v := by
  unfold State.writePwr
  dsimp only
  rw [if_neg (by simp [hm]), if_neg (by decide), if_neg (by decide), if_pos rfl]

theorem and_three {v : Word} (hv : v.toNat < 4) : v &&& 3 = v := by
  apply BitVec.eq_of_toNat_eq
  rw [BitVec.toNat_and]
  exact (Nat.and_two_pow_sub_one_eq_mod v.toNat 2).trans (Nat.mod_eq_of_lt hv)

variable (h : Reaches s o R.PWR_CLKDIV) (hm : s.machineOrigin o = true) (hv : v.toNat < 4)
include h hm hv

theorem clkdivChange_config (hc : s.mode = 2) : exec (.clkdivChange o v) s = .next (State.accepted (s.wr R.PWR_CLKDIV v) o) := by
  refine congrArg Host.Outcome.next (regWrite_pwr (by unfold PowerBlock; decide) h (takes_low (k := 2) rfl (by decide) hv) hm fun r =>
    (writePwr_clkdiv hm r).trans ((if_pos (by simp [State.inConfig, hc])).trans ?_))
  rw [and_three hv]

theorem clkdivChange_refused (hc : s.mode ≠ 2) : exec (.clkdivChange o v) s = .next (s.accessDone.refused o true 7 R.PWR_CLKDIV) :=
  congrArg Host.Outcome.next (regWrite_pwr_refused (by unfold PowerBlock; decide) h (takes_low (k := 2) rfl (by decide) hv) hm fun r =>
    (writePwr_clkdiv hm r).trans (if_neg (by simp [State.inConfig, hc])))
end

/-! ### Temperature (R444, R445, R447) -/

section
variable {s : State} {t : Int} {n : Nat}

theorem fld_temp (x n : Nat) (hx : x < 256) : fld (BitVec.ofNat 32 (x + n * 256)) 7 0 = x := by
  unfold fld bits
  rw [BitVec.toNat_ofNat]
  omega

theorem ofSigned_lt (t : Int) : ofSigned 8 t < 256 := by
  unfold ofSigned
  omega

theorem f_showTemp : (s.showTemp t n).f R.PWR_TEMP 7 0 = ofSigned 8 t := by
  unfold State.f
  rw [show (s.showTemp t n).rd R.PWR_TEMP = BitVec.ofNat 32 (ofSigned 8 t + n * 256) from rd_wr_same ..]
  exact fld_temp _ _ (ofSigned_lt t)

theorem regs_showTemp : SameRegsBut [R.PWR_TEMP] s (s.showTemp t n) := (SameRegsBut.refl _ _).wr (by simp)

theorem levelAt_showTemp : (s.showTemp t n).levelAt t 0 =
    if (s.f R.PWR_THERM 15 8 : Int) ≤ t then 2 else if (s.f R.PWR_THERM 7 0 : Int) ≤ t then 1 else 0 := by
  unfold State.levelAt
  rw [Int.add_zero, regs_showTemp.f (by simp), regs_showTemp.f (by simp)]

theorem levelAt_lt : s.levelAt t 0 < 4 := by
  unfold State.levelAt
  split
  · decide
  · split <;> decide

/-- A rise of the level: its registers, its interrupt and the throttle's guard. -/
def State.risen (s : State) (l : Nat) : State := ((s.setLevel l).setB R.PWR_THINT 0 true).guard 1

theorem regs_setLevel (l : Nat) : SameRegsBut [R.PWR_THSTAT, R.PWR_STAT] s (s.setLevel l) := by
  refine SameRegsBut.trans (u := (s.onPwr (fun p => { p with level := l })).putF R.PWR_THSTAT 1 0 l) ?_ (regs_showAlert.mono (by simp))
  exact SameRegsBut.putF (u := s.onPwr (fun p => { p with level := l })) (.refl _ s) (by simp)

theorem f_setLevel {l : Nat} (hl : l < 4) : (s.setLevel l).f R.PWR_THSTAT 1 0 = l := by
  refine (regs_showAlert.f (r := R.PWR_THSTAT) (by simp)).trans ?_
  exact (f_putF_same (s.onPwr (fun p => { p with level := l })) R.PWR_THSTAT l (hi := 1) (lo := 0) (by decide) (by decide)).trans
    (Nat.mod_eq_of_lt hl)

theorem regs_risen (l : Nat) : SameRegsBut [R.PWR_THINT, R.LDG_GUARD] (s.setLevel l) (s.risen l) := fun r hr => by
  simp only [List.mem_cons, List.not_mem_nil, or_false, not_or] at hr
  exact (rd_guard_other _ 1 hr.2).trans (rd_setB_other _ 0 true hr.1)

theorem b_risen (l : Nat) : (s.risen l).b R.PWR_THINT 0 = true ∧ (s.risen l).b R.LDG_GUARD 1 = true :=
  ⟨(b_of_rd (rd_guard_other ((s.setLevel l).setB R.PWR_THINT 0 true) 1 (by decide)) 0).trans (b_setB_same (s.setLevel l) _ 0 true (by decide)),
    b_guard_same _ (by decide)⟩

theorem risen_data (l : Nat) : (s.risen l).power.level = l ∧ (s.risen l).power.tj = s.power.tj ∧ (s.risen l).mem = s.mem ∧
    (s.risen l).jobs = s.jobs := by
  simp only [State.risen, State.setLevel, State.showAlert, State.guard, power_onFw, mem_onFw, jobs_onFw, power_setB, mem_setB, jobs_setB,
    power_putF, mem_putF, jobs_putF, power_onPwr, mem_onPwr, jobs_onPwr, and_self]

theorem thermalRise_rises (hrun : s.running = true) (hlow : s.power.level < (s.showTemp t n).levelAt t 0)
    (hm : s.mode = 2 ∨ s.inFrame = true) :
    s.thermalRise t n = (s.showTemp t n).risen ((s.showTemp t n).levelAt t 0) :=
  (if_neg (by simp [hrun])).trans (if_pos ⟨hlow, by simpa [State.inConfig] using hm⟩)

theorem thermalRise_stays (hrun : s.running = true) (hstay : (s.showTemp t n).levelAt t 0 ≤ s.power.level ∨ s.mode = 5) :
    s.thermalRise t n = s.showTemp t n := by
  refine (if_neg (by simp [hrun])).trans (if_neg ?_)
  rintro ⟨hlow, hm⟩
  rcases hstay with h | h
  · omega
  · simp [State.inConfig, State.inFrame, h] at hm

theorem thermalRise_facts (hrun : s.running = true) (hlow : s.power.level < (s.showTemp t n).levelAt t 0)
    (hm : s.mode = 2 ∨ s.inFrame = true) : (s.thermalRise t n).power.level = (s.showTemp t n).levelAt t 0 ∧
    (s.thermalRise t n).f R.PWR_THSTAT 1 0 = (s.showTemp t n).levelAt t 0 ∧ (s.thermalRise t n).b R.PWR_THINT 0 = true ∧
    (s.thermalRise t n).b R.LDG_GUARD 1 = true ∧ (s.thermalRise t n).power.tj = t ∧
    (s.thermalRise t n).f R.PWR_TEMP 7 0 = ofSigned 8 t ∧ SameMemory s (s.thermalRise t n) ∧ (s.thermalRise t n).jobs = s.jobs := by
  rw [thermalRise_rises hrun hlow hm]
  obtain ⟨hlevel, htj, hmem, hjobs⟩ := risen_data (s := s.showTemp t n) ((s.showTemp t n).levelAt t 0)
  obtain ⟨hint, hguard⟩ := b_risen (s := s.showTemp t n) ((s.showTemp t n).levelAt t 0)
  refine ⟨hlevel, ?_, hint, hguard, htj, ?_, .of_mem hmem, hjobs⟩
  · exact ((regs_risen _).f (by simp)).trans (f_setLevel levelAt_lt)
  · exact ((regs_risen _).f (by simp)).trans (((regs_setLevel _).f (by simp)).trans f_showTemp)

theorem thermalTrip_trips (hrun : s.running = true) (hhot : (s.f R.PWR_THERM 23 16 : Int) ≤ t) (n : Fin 24) :
    exec (.thermalTrip t n) s = .next ((s.thermalRise t n.val).safeEntry 8) :=
  congrArg Host.Outcome.next (if_neg (by simp [hrun]; omega))
end

/-- Settles O22: each request by the checks of its transition, each event by the branch that its hypotheses select. -/
theorem modesAndTemperature : Obligations.ModesAndTemperature := by
  refine ⟨fun s o v h hm hidle hv hlo hhi => ?_, fun s c hpending hm => ?_, fun s c src trained => ⟨fun hreq hm hbusy => ?_,
    fun hreq hm hfree => ?_, fun hm hwakes hsrc => ?_, fun hm hwakes => ?_⟩, fun s o v h hm hv => ⟨clkdivChange_config h hm hv,
    clkdivChange_refused h hm hv⟩, fun s tj n hrun => ⟨fun hlow hm => ?_, fun hstay => ?_, fun hhot => thermalTrip_trips hrun hhot n⟩⟩
  · have hreq : ∀ {u}, s.requestMode v.toNat = u → exec (.modeRequest o v) s = .next (State.accepted u o) := fun e =>
      e ▸ modeRequest_requests h hm hidle hv hlo hhi
    refine ⟨fun hfrom => hreq (requestMode_frame hfrom), fun hf ht => hreq ?_,
      fun w hconfig ht hchecks => hreq (requestMode_config hconfig ht hchecks),
      fun w r hr hconfig ht hchecks => hreq (requestMode_fails hr hconfig ht hchecks), fun hsame => hreq (if_pos hsame),
      fun hnew hlisted => hreq ((if_neg hnew).trans (if_pos hlisted))⟩
    rw [ht]
    exact requestMode_safe hf
  · rw [exec_safeEntry hpending hm, safeEntry_enters]
    rw [mode_divided]
    rcases hm with hm | hm
    · omega
    · exact mode_ne_safe hm
  · exact congrArg Host.Outcome.next (dormantEntry_refused hreq hm hbusy)
  · obtain ⟨w, emul, hu⟩ := dormantEntry_enters hreq hm hfree
    exact ⟨_, congrArg Host.Outcome.next hu, rfl, b_dormantShown emul s.tb⟩
  · rw [wake_wakes hm hwakes, if_neg hsrc]
  · exact ⟨wake_wakes hm hwakes trained, congrArg Host.Outcome.next (if_pos ⟨hm, hwakes⟩)⟩
  · have hfacts := thermalRise_facts (t := tj) (n := n.val) hrun (levelAt_showTemp ▸ hlow) hm
    rw [levelAt_showTemp] at hfacts
    exact ⟨s.thermalRise tj n.val, rfl, hfacts⟩
  · exact ⟨s.showTemp tj n.val, congrArg Host.Outcome.next (thermalRise_stays hrun (levelAt_showTemp ▸ hstay)), rfl, rfl, f_showTemp,
      regs_showTemp⟩

end Sys2Proof.Machine

/-! ## The counters: THAW against an event that brought no bit (O40)

THAW clears FROZEN but for what the events of the same clk brought (R6, R422). A state may list PMC_STAT as changed in the present
clk, FROZEN among the changed bits, with nothing noted as brought: the write then keeps FROZEN, and nothing that goes on after an
access sets it in a state where it was clear. -/

namespace Sys2Proof.Machine

/-! ### What goes on after an access leaves a trace, or FROZEN as it was -/

section
variable {s u : State}

/-- Delivering a machine trap is no write of a register. -/
theorem csr_redeliver : s.redeliver.csr = s.csr := by
  unfold State.redeliver
  generalize List.range 5 = l
  induction l generalizing s with
  | nil => rfl
  | cons m l ih =>
    refine ih.trans ?_
    dsimp only
    split
    · split <;> rfl
    · rfl

theorem canIssue_stopped (hstop : s.running = false) (t : Nat) (i : Instr) : s.canIssue t i = false := by
  simp [State.canIssue, hstop]

/-- An instruction that waits for a response does not go on while the clocks stand; at most a machine trap is delivered. -/
theorem runAgain_stopped (hstop : s.running = false) (i : Instr) : (stateOf s (s.runAgain i)).csr = s.csr := by
  unfold State.runAgain
  split
  case h_80 t w =>
    unfold execIllegal
    dsimp only
    rw [if_pos (canIssue_stopped hstop _ _)]
    rfl
  case h_81 t =>
    refine Eq.trans ?_ csr_redeliver
    unfold execTrapEntry State.trapEntry
    dsimp only
    rw [if_neg (by simp [hstop])]
    rfl
  case h_82 => rfl
  all_goals exact congrArg (fun r => (stateOf s r).csr) (issue_waits (canIssue_stopped hstop _ _) _)

theorem csr_resumeThread (hstop : s.running = false) (t : Nat) : (s.resumeThread t).csr = s.csr := by
  unfold State.resumeThread
  split
  · split
    · exact runAgain_stopped hstop _
    · rfl
  · rfl

theorem running_of_csr (h : u.csr = s.csr) : u.running = s.running := by
  unfold State.running State.mode State.f State.rd
  rw [h]

theorem csr_resumeThreads (hstop : s.running = false) (l : List Nat) : (s.each l (fun s t => s.resumeThread t)).csr = s.csr := by
  induction l generalizing s with
  | nil => rfl
  | cons t l ih =>
    have hstep := csr_resumeThread hstop t
    exact (ih ((running_of_csr hstep).trans hstop)).trans hstep

/-! FROZEN stays clear when a debug read that waited goes on. -/

theorem b_of_csr (h : u.csr = s.csr) (r i : Nat) : u.b r i = s.b r i := by
  unfold State.b State.rd
  rw [h]

theorem rc_pmcStat : (regRow R.PMC_STAT).map RegRow.rc = some 0 := by decide +kernel

theorem frozen_readSide {r : RegRow} {off : Nat} (hrow : regRow off = some r) : (s.readSide r off).b R.PMC_STAT 0 = s.b R.PMC_STAT 0 := by
  have hother : r.rc ≠ 0 → R.PMC_STAT ≠ off := by
    intro hrc heq
    have hpmc := rc_pmcStat
    rw [heq, hrow] at hpmc
    exact hrc (Option.some.inj hpmc)
  unfold State.readSide
  split
  · split
    · exact b_of_csr (csr_onThr ..) _ _
    · rfl
  · split
    · rfl
    next hrc =>
      have hother := hother hrc
      exact b_of_rd ((rd_setReg s off _ R.PMC_STAT).trans (if_neg hother)) 0

theorem frozen_readReg {r : RegRow} {off : Nat} (hrow : regRow off = some r) (who : Nat) (quiet : Bool) (v : Word) :
    (s.readReg r who off quiet v).1.b R.PMC_STAT 0 = s.b R.PMC_STAT 0 := by
  unfold State.readReg
  split
  · rfl
  · extract_lets s1
    have hs1 : s1.b R.PMC_STAT 0 = s.b R.PMC_STAT 0 := by
      unfold s1
      split <;> rfl
    cases quiet
    · exact (frozen_readSide hrow).trans hs1
    · exact hs1

theorem frozen_csRead (o : Origin) (off size : Nat) : (s.csRead o off size).1.b R.PMC_STAT 0 = s.b R.PMC_STAT 0 := by
  unfold State.csRead
  split
  · rfl
  · split
    · rfl
    · split
      · rfl
      next r hrow =>
        extract_lets secret busy v
        split
        · rfl
        · split
          · rfl
          · split
            · split <;> rfl
            · exact frozen_readReg hrow _ _ _

theorem regs_busError (master target : Nat) (write : Bool) (cause addr : Nat) :
    SameRegsBut [R.MTX_ERRCNT, R.MTX_ERR, R.MTX_ERRADDR_LO, R.MTX_ERRADDR_HI] s (s.busError master target write cause addr) := by
  have hcount := (SameRegsBut.refl [R.MTX_ERRCNT, R.MTX_ERR, R.MTX_ERRADDR_LO, R.MTX_ERRADDR_HI] s).count
    (off := R.MTX_ERRCNT) (w := 32) (n := 1) (by simp)
  unfold State.busError
  extract_lets s1
  split
  · exact hcount
  · exact ((hcount.wr (by simp)).wr (by simp)).wr (by simp)

theorem frozen_resumeDebug : s.resumeDebug.b R.PMC_STAT 0 = s.b R.PMC_STAT 0 := by
  unfold State.resumeDebug
  split
  · rfl
  next off hwait =>
    have hread := frozen_csRead (s := s) .debug off 4
    split
    next s1 v heq => exact (congrArg (fun p : State × CtlRes => p.1.b R.PMC_STAT 0) heq).symm.trans hread
    next s1 c heq =>
      refine ((regs_busError 15 30 false c (csBase + off)).b (by simp)).trans ?_
      exact (congrArg (fun p : State × CtlRes => p.1.b R.PMC_STAT 0) heq).symm.trans hread
    · rfl

/-! A memory request of the host ends with its answer, or waits for another device. -/

theorem usbLines_shows (tag : Nat) (write : Bool) (l : List (Nat × Nat)) (acc : List Byte) :
    (s.usbLines tag write l acc).out ≠ [] ∨ (s.usbLines tag write l acc).host.usb ≠ none := by
  induction l generalizing s acc with
  | nil => exact .inl (List.cons_ne_nil _ _)
  | cons p l ih =>
    unfold State.usbLines
    split
    · exact ih _
    · exact .inr (Option.some_ne_none _)
    · exact .inl (List.cons_ne_nil _ _)
    · exact .inl (List.cons_ne_nil _ _)

theorem resumeUsb_cases : s.resumeUsb = s ∨ s.resumeUsb.out ≠ [] ∨ s.resumeUsb.host.usb ≠ none := by
  unfold State.resumeUsb
  split
  · split
    · exact .inr (usbLines_shows ..)
    · exact .inr (.inl (List.cons_ne_nil _ _))
    · exact .inl rfl
  · exact .inl rfl

/-! A register write that waited ends the clk of its access, or answers a bus error. -/

theorem each_last {α : Type} {f : State → α → State} {P : State → Prop} (hf : ∀ s a, P (f s a)) {l : List α} (hl : l ≠ []) :
    P (s.each l f) := by
  induction l generalizing s with
  | nil => exact absurd rfl hl
  | cons a l ih =>
    cases l with
    | nil => exact hf s a
    | cons b l => exact ih (s := f s a) (List.cons_ne_nil b l)

theorem events_ctlWrite (o : Origin) (off size : Nat) (v : Word) : (s.ctlWrite (.control o) off size v).1.events = [] := rfl

theorem resumeCtl_cases : (∃ g, s.resumeCtl = s.onCtl g) ∨ s.resumeCtl.events = [] ∨ s.resumeCtl.out ≠ [] := by
  unfold State.resumeCtl
  by_cases hnone : s.ctlWaits.filter (fun w => w.tag.isNone) = []
  · rw [hnone]
    exact .inl ⟨_, rfl⟩
  · refine .inr (each_last (P := fun w => w.events = [] ∨ w.out ≠ []) (fun w c => ?_) hnone)
    split
    next s1 heq =>
      have hevents : s1.events = [] := (congrArg (fun p : State × Option Nat => p.1.events) heq).symm.trans (events_ctlWrite ..)
      left
      split
      · exact hevents
      · exact hevents
    next s1 cause heq =>
      right
      extract_lets s2
      split
      · exact List.cons_ne_nil _ _
      · exact List.cons_ne_nil _ _

/-! A read of the host is answered, is outstanding at another device, or waits to leave. -/

theorem outstanding_request (s : State) (user : RemoteUser) (op dev len w : Nat) (payload : List Byte) (morg hi : Bool) (sub : Nat) :
    (s.request user op dev len w payload morg hi sub).1.fabric.outstanding ≠ [] := by
  unfold State.request State.queuePacket
  dsimp only
  split <;> exact List.append_ne_nil_of_right_ne_nil _ (List.cons_ne_nil _ _)

theorem out_hostLocal (s : State) (a n : Nat) : (s.hostLocal a n).out ≠ [] := by
  unfold State.hostLocal
  split <;> exact List.cons_ne_nil _ _

theorem hostReads_shows {l : List (Nat × Nat)} (hl : l ≠ []) : (s.hostReads l).out ≠ [] ∨
    (s.hostReads l).fabric.outstanding ≠ [] ∨ (s.hostReads l).host.reads ≠ [] := by
  induction l generalizing s with
  | nil => exact absurd rfl hl
  | cons p l ih =>
    unfold State.hostReads
    split
    · exact .inr (.inr (List.cons_ne_nil _ _))
    · cases l with
      | nil =>
        split
        · exact .inr (.inl (outstanding_request s _ _ _ _ _ _ _ _ _))
        · exact .inl (out_hostLocal s _ _)
      | cons q l => split <;> exact ih (List.cons_ne_nil q l)
end

/-- Nothing of the host's waits, no request is outstanding and no output is due, while events of the clk stand. -/
structure Untraced (w : State) : Prop where
  out : w.out = []
  usb : w.host.usb = none
  reads : w.host.reads = []
  outstanding : w.fabric.outstanding = []
  events : w.events ≠ []

/-- What goes on before the host's reads: threads, the debug read, the memory request, the register writes. -/
def State.resumedToReads (s : State) : State :=
  (s.each (List.range 8) (fun s t => s.resumeThread t)).resumeDebug.resumeUsb.resumeCtl

/-- Reads of the host that go on leave a trace. -/
theorem resumeAll_untraced {s : State} (hw : Untraced s.resumeAll) : s.resumeAll = s.resumedToReads := by
  by_cases hreads : s.resumedToReads.host.reads = []
  · exact if_pos hreads
  · have heq : s.resumeAll = s.resumedToReads.hostReads s.resumedToReads.host.reads := if_neg hreads
    obtain ⟨hout, _, hnone, houtstanding, _⟩ := heq ▸ hw
    rcases hostReads_shows hreads with h | h | h
    · exact absurd hout h
    · exact absurd houtstanding h
    · exact absurd hnone h

/-- With the clocks stopped, what goes on after an access without a trace leaves FROZEN as it was. -/
theorem frozen_resumeAll {s : State} (hstop : s.running = false) (hw : Untraced s.resumeAll) :
    s.resumeAll.b R.PMC_STAT 0 = s.b R.PMC_STAT 0 := by
  have hlast := resumeAll_untraced hw
  rw [hlast] at hw ⊢
  obtain ⟨hout, husb, _, _, hevents⟩ := hw
  unfold State.resumedToReads at hout husb hevents ⊢
  have hthreads := b_of_csr (csr_resumeThreads hstop (List.range 8)) R.PMC_STAT 0
  generalize s.each (List.range 8) (fun s t => s.resumeThread t) = s1 at hout husb hevents hthreads ⊢
  rcases resumeCtl_cases (s := s1.resumeDebug.resumeUsb) with ⟨g, hctl⟩ | hctl | hctl
  · rw [hctl] at hout husb ⊢
    rcases resumeUsb_cases (s := s1.resumeDebug) with h | h | h
    · rw [h]
      exact frozen_resumeDebug.trans hthreads
    · exact absurd hout h
    · exact absurd husb h
  · exact absurd hctl hevents
  · exact absurd hout hctl

/-! ### The refutation -/

/-- The debug port in an emulated Dormant, with Full authorisation and a read of no register waiting; PMC_STAT has changed in this
clk from 0 to FROZEN, with no bit noted as brought. -/
def staleFreeze : State :=
  { State.reset with
    csr := [(R.DBG_STAT, 0x82), (R.PMC_STAT, 1)], events := [(R.PMC_STAT, 0)], dbg := { waitRead := some 1 } }

/-- The state that THAW leaves. -/
def staleThaw : State := stateOf staleFreeze (exec (.pmcThaw .debug 4) staleFreeze)

theorem reaches_staleFreeze : Reaches staleFreeze .debug R.PMC_CTL :=
  ⟨by decide +kernel, by decide +kernel, rfl, .inl (by decide +kernel)⟩

theorem untraced_staleThaw : Untraced staleThaw := by
  have hlists : staleThaw.out.isEmpty = true ∧ staleThaw.host.usb.isNone = true ∧ staleThaw.host.reads.isEmpty = true ∧
      staleThaw.fabric.outstanding.isEmpty = true ∧ staleThaw.events.isEmpty = false := by decide +kernel
  obtain ⟨hout, husb, hreads, houtstanding, hevents⟩ := hlists
  exact ⟨List.isEmpty_iff.mp hout, Option.isNone_iff_eq_none.mp husb, List.isEmpty_iff.mp hreads, List.isEmpty_iff.mp houtstanding,
    List.isEmpty_eq_false_iff.mp hevents⟩

theorem frozen_staleThaw : staleThaw.b R.PMC_STAT 0 = true := by decide +kernel

/-- Refutes O40: THAW keeps FROZEN where it is among the bits that an event of the clk has changed, though nothing is noted as
brought, and no state with FROZEN clear goes on to the one that is left. -/
theorem not_performanceCounters : ¬ Obligations.PerformanceCounters := by
  intro h
  obtain ⟨_, _, _, _, hthaw, _⟩ := h staleFreeze 0 0 0 .debug 4
  obtain ⟨u, hexec, _, hclear, hregs, _⟩ := hthaw reaches_staleFreeze (takes_low (k := 3) rfl (by decide) (by decide)) (by decide +kernel)
  have hfrozen : u.b R.PMC_STAT 0 = false := hclear (by decide) (by decide +kernel)
  have hleft : (u.accessDone.dbgDone 0 0).resumeAll = staleThaw := (congrArg (stateOf staleFreeze) hexec).symm
  have hmode : u.running = false := by
    have hmode : u.mode = staleFreeze.mode := hregs.f (by simp)
    unfold State.running
    rw [hmode]
    decide +kernel
  have hkeeps := frozen_resumeAll (s := u.accessDone.dbgDone 0 0) hmode (hleft ▸ untraced_staleThaw)
  have hset : (u.accessDone.dbgDone 0 0).resumeAll.b R.PMC_STAT 0 = true := hleft ▸ frozen_staleThaw
  exact absurd (hset.symm.trans (hkeeps.trans hfrozen)) (by decide)

end Sys2Proof.Machine
